-- ==== Sys2Proof/Word.lean ====
section
/-! DEFINITION. The word types of Corfin (spec/00_scope.md R12: bit 0 is the least significant bit; every
multi-byte value is little-endian). -/

namespace Sys2Proof

/-- A 64-bit register, record or memory word. -/
abbrev Word := BitVec 64

/-- One byte of memory. -/
abbrev Byte := BitVec 8

/-- A 512-bit vector register (R180). -/
abbrev Vec := BitVec 512

/-- A 128-byte line (R212, R292), bit 0 of byte 0 least significant. -/
abbrev Line := BitVec 1024

end Sys2Proof
end

