-- ==== Sys2Proof/Payload.lean ====
section
/-! DEFINITION. The data that instructions and events carry: guards, register writes in flight, memory accesses,
packets, descriptors and the effects of timed words. Syntax.lean's one inductive, `Instr`, is built over these. -/

namespace Sys2Proof

/-- A guard: predicate p and inversion (R80). -/
structure Guard where
  neg : BitVec 1
  p   : BitVec 4
  deriving DecidableEq, Repr

/-- The result of an operation on its way to its register (R114). A vector or mask write carries the bits it
replaces, since excluded lanes keep the value they hold when the write lands. -/
inductive RegWrite where
  /-- scalar register n -/
  | a (n : Nat) (v : Word)
  /-- predicate n -/
  | pred (n : Nat) (v : Bool)
  /-- the landing of a `pwr` of A (R163) -/
  | pwr (v : Word)
  /-- flags ORed into `pw` (R139) -/
  | flags (bits : BitVec 32)
  /-- vector register n: bits of val where mask is 1 -/
  | v (n : Nat) (val mask : Vec)
  /-- mask register n: bits of val where mask is 1 -/
  | vm (n : Nat) (val mask : Word)
  /-- a conversion's update of `k.amax` and `pw.amaxnan` (R195) -/
  | amax (code : BitVec 32) (nan : Bool)
  /-- a push to stream sq at position pos (R206) -/
  | push (sq pos : Nat) (val mask : Vec)
  /-- `k.rctr` as a `crd` sees it (R171) -/
  | rctr (v : BitVec 32)
  /-- the landing of a `cwr` (R398) -/
  | creg (num : Nat) (v : Word)
  deriving DecidableEq, Repr

/-- What a memory access does where it performs (R263, R351, R353, R354, R356). -/
inductive AccOp where
  | load | store | watch
  | ldf | ldfe | stf | ste | fill | empty | semTake | semGive
  | rsv (f : Nat) | rls (f : Nat) | dctr
  /-- the dirty words of a slot on their way home (R269) -/
  | writeBack
  deriving DecidableEq, Repr

/-- One access of a packet-plane thread. `va` is the virtual address, `bytes` its size, `d` the destination
register code, `data` the store value or atomic operand, `lat` its time L and `due` its completion cycle (Table 5.3),
`remote` whether it counts at its page as an arrival from another cluster (R327), `quad` the quadrant of its
issue (R57), `born` the core cycle in which its bundle issued. -/
structure Acc where
  id     : Nat
  op     : AccOp
  va     : Word
  bytes  : Nat
  sx     : Bool
  d      : Nat
  data   : Word
  rlx    : Bool
  scope  : Nat
  lat    : Nat
  due    : Nat
  asid   : BitVec 12
  remote : Bool
  quad   : BitVec 2
  born   : Nat
  /-- 0 until the access has performed, then 1: only its completion is left (R330, tensor SRAM and synchronising
  accesses); 2 while it is the ninth relaxed access and has not started (R110) -/
  stage  : Nat
  /-- what it found when it performed: the value, and the fault kind it ends with (0 none; 32 and above a translation miss,
  with `why` of Table 13.5) -/
  res    : Word
  bad    : Nat
  /-- a store whose word travels poisoned (R269, R282) -/
  pois   : Bool
  /-- a request of a copy job, whose words set the full/empty bit and whose writer code is 9 (R282) -/
  copy   : Bool
  /-- R308: the translation found as the packet of its thread arrived at the home interface -/
  phys   : Option Nat
  deriving DecidableEq, Repr

/-- A descriptor read in progress, and what it is read for (R204, R281, R287, R362). -/
inductive DescUse where
  | sbind (x : Nat) (push : Bool) (reg : Nat)
  | cjob (d : Nat)
  | gjob (d : Nat)
  | matchTag (d : Nat)
  deriving DecidableEq, Repr

/-- What completes at an ACCESS_COMPLETE event (R116). -/
inductive Completion where
  | acc (a : Acc)
  | desc (use : DescUse) (addr : Word) (born : Nat)
  /-- a tag-table write-back (R269): result register, slot, clear valid afterwards, line address, words, cycles from its
  arrival to its completion, what it found there (none before that, 0 that it wrote its words, else as `Acc.bad`), and its
  translation once it has arrived (R308) -/
  | writeBack (pd : Nat) (slot : Nat) (inv : Bool) (line : Word) (words : List (Nat × Word × Bool)) (back : Nat)
    (found : Option Nat) (phys : Option Nat)
  /-- a post that comes back with its outcome, or refused (R381) -/
  | posted (d : Nat) (addr : Word) (outcome : Option Nat) (born : Nat)
  /-- R283, R302: access k of an engine job of partition first -/
  | job (first key k : Nat)
  deriving DecidableEq, Repr

/-- A task descriptor (Table 3.8). -/
structure TaskDesc where
  w0 : Word
  w1 : Word
  w2 : Word
  w3 : Word
  deriving DecidableEq, Repr

/-- Who enqueues a descriptor (R355). -/
inductive EnqSrc where
  | thread (uid : Nat)
  | table
  deriving DecidableEq, Repr

/-- An enqueue on its way to a task queue. -/
structure Enq where
  first   : Nat
  cluster : Nat
  desc    : TaskDesc
  src     : EnqSrc
  deriving DecidableEq, Repr

/-- What is next for a packet at its interface (R363): to be matched; the next word to the entry of that index; what a
fired entry releases. -/
inductive PktPhase where
  | arrive
  /-- it comes from a peer package, stamped with its send time (R389) -/
  | fromPeer (stamp : Nat)
  | deliver (entry : Nat)
  | fire (act : Bool) (target : Word) (nword : Nat)
  deriving DecidableEq, Repr

/-- A network packet (R360, R361). -/
structure Packet where
  phase  : PktPhase
  first  : Nat
  pkg    : Nat
  dest   : Nat
  tag    : BitVec 16
  off    : Nat
  words  : List Word
  srcKey : Nat
  deriving DecidableEq, Repr

/-- A control flit (R372): the TICK of its frame's first tick, and for each line of the frame a valid bit with the source and the
destination logical tile. -/
structure ControlFlit where
  tick  : Nat
  lines : Vector (Option (Nat × Nat)) 5
  deriving DecidableEq, Repr

/-- What comes with a line that a port brings (R372, R374): its frame's control flit, none where that was uncorrectable, and how
many of the flits were corrected. -/
structure FlitsIn where
  control   : Option ControlFlit
  corrected : Nat
  deriving DecidableEq, Repr

/-- A packet-plane request that a peer package sends here (R313). -/
structure PeerReq where
  first  : Nat
  asid   : BitVec 12
  op     : AccOp
  va     : Word
  bytes  : Nat
  data   : Word
  quad   : BitVec 2
  source : Nat
  /-- the word of a store is poisoned (R269, R282) -/
  pois   : Bool
  /-- the request of a copy job (R282) -/
  copy   : Bool
  /-- the core cycle of the group in which it left its package (R389) -/
  stamp  : Nat
  /-- its translation, once it has arrived at its home (R308) -/
  phys   : Option Nat
  deriving DecidableEq, Repr

/-- A group control message (R388). -/
inductive GroupMsg where
  /-- a hold reason of member pkg, with its logical tick H0 and the TICK it arose in (R384) -/
  | reason (first pkg key h0 tick : Nat)
  /-- a removal, with the TICK it was made in -/
  | removal (first pkg key tick : Nat)
  /-- the boundary word of a member at a logical tick: overlay, tick, word (R216, R389) -/
  | boundary (first pkg plan : Nat) (word : Word)
  /-- a launch message stamped with its TICK, with the record's clearing policies and the ticks by which the member's PLAN is
  behind TICK (R34, R368, R451) -/
  | launch (first pkg stamp : Nat) (policies : List (BitVec 64)) (lag : Nat)
  /-- a fault of a member in the tick of that PLAN (R400): for a thread fault its core cycle, pc and `k.geom` -/
  | fault (first pkg kind plan : Nat) (info : Word) (tile stream : Nat) (thread : Bool) (cycle : Nat) (pc geom : Word)
  deriving DecidableEq, Repr

/-- A timed HBM line request (R226, R228, R249): line `idx` of a `tld`, `tldg` or `tst` whose word is kept under
`word`. `land` is the logical tick in which it lands, `sram` its tensor SRAM offset, `out` whether it lands as it is, or
passes through a graph first; `va` and `flat`, its virtual and flat address, stand once the request has been made. -/
structure LineReq where
  first  : Nat
  tile   : Nat
  stream : Nat
  word   : Nat
  idx    : Nat
  land   : Nat
  sram   : Nat
  write  : Bool
  halt   : Bool
  graph  : Bool
  va     : Word
  flat   : Nat
  deriving DecidableEq, Repr

/-- An effect of a timed word that falls due in a logical tick after its issue (R213, R215). `word` is the key the
word is kept under. -/
inductive TEff where
  /-- `chkp`, `rgeom`: a register of another stream, seen from the next tick (R221) -/
  | setReg (stream : Nat) (tn : Bool) (reg : Nat) (v : Word)
  /-- a `brp` sends the streams of its tile to a word index (R220) -/
  | redirect (next : Nat)
  /-- a fault found ahead of its tick (R212, R225, R377) -/
  | fault (stream kind : Nat) (info : Word)
  /-- a requested HBM line is read, at the end of its request tick (R330) -/
  | capture (req : LineReq)
  /-- a line lands in tensor SRAM: offset, data, poisoned words, halt policy, writer code, HBM address and flat address,
  or port -/
  | land (stream off : Nat) (data : Line) (pois : BitVec 16) (halt : Bool) (writer : Nat) (va : Word) (flat : Nat)
      (port : Option Nat)
  /-- a `tst` line is written to HBM -/
  | hbm (stream : Nat) (va : Word) (flat : Nat) (data : Line) (pois : BitVec 16)
  /-- output line k of a stream through a graph lands (R301) -/
  | graphOut (word k : Nat)
  /-- input line i of a `tst` through a graph is read from tensor SRAM (R301) -/
  | graphIn (word i : Nat)
  /-- index line u of a `tldg` (R228) -/
  | listRead (word u : Nat)
  /-- `tldr`: line j read at the source tile (R229) -/
  | tldrRead (word j : Nat)
  /-- group j of an elementwise or shape word is read, and of panel p of `strn` -/
  | group (word j : Nat)
  /-- the scalar of `escale`, the list of `sperm` -/
  | scalarRead (word : Nat)
  /-- bytes of an elementwise, shape or spill word land -/
  | bytes (stream off n : Nat) (data : Nat) (writer : Nat)
  /-- one tick's operand blocks of a product; its lists; a line of block scales (R230-R233) -/
  | mmaRead (word tau : Nat)
  | mmaLists (word : Nat)
  | scaleRead (word off : Nat)
  /-- the final values of a product (R235) -/
  | mmaDone (word : Nat)
  /-- `mspill` reads its accumulator; `mfill` a line; the accumulators that `madd` and `mmov` read; the accumulator
  that `mspill.zr`, `mfill`, `madd` or `mmov` writes (R234) -/
  | spillRead (word : Nat)
  | fillRead (word j : Nat)
  | accRead (word : Nat)
  | accWrite (word : Nat)
  /-- `sendt`: line j is read and sent (R376) -/
  | sendRead (word j : Nat)
  /-- `recvt`: the claim of line k; then what came in the tick and was not claimed (R376, R378) -/
  | claim (word k : Nat)
  | unclaimed
  deriving DecidableEq, Repr

/-- Access function of the host (Table 2.1). -/
inductive HostFn where
  | pf0
  | vf (n : Nat)
  deriving DecidableEq, Repr

/-- The slot of a bundle that an illegal encoding or a reserved cell stands in (R81, R83). -/
inductive SlotKind where
  | s | v | long | stream
  deriving DecidableEq, Repr

end Sys2Proof
end

