-- ==== Sys2Proof/Syntax.lean ====
section
/-! DEFINITION. The steps of the machine, one constructor per row of spec/opcode_table.json: core
instructions of the S slot, the long bundle and the V slot (fields as wide as their encodings), stream words, and
the events of the host, the proctor, the engines and the memory. -/

namespace Sys2Proof

/-- One step. An S-slot or long instruction carries its guard `g` (R80); `imm` of an S-slot instruction is the
imm9 field; a stream word's idle count belongs to its stream's timeline (R87) and stands in `StreamWord`. -/
inductive Instr where
  -- events
  /-- R43: a host write of `size` bytes to launch slot `slot` of VF `vf`. -/
  | launchSlotWrite (vf slot size : Nat) (v : Word)
  /-- R45, R39: the proctor context of the partition consumes an admit word from the next slot. -/
  | admitRecord (first : Nat)
  /-- R46: the proctor consumes a launch word, arms if needed and rings the first bell. -/
  | launch (first : Nat)
  /-- R45: the proctor consumes a drop word. -/
  | drop (first : Nat)
  /-- R48: a write of 1 to bit 0 of the abort word. -/
  | abortLaunch (vf : Nat)
  /-- R42 Table 2.2: a write of 1 to bit 3 of the abort word. -/
  | clearOverrun (vf : Nat)
  /-- R49: a write to W0 of partition-table entry e. -/
  | partitionEntryWrite (e : Nat) (w : Word)
  /-- R418: the release that clearing valid starts. -/
  | partitionRelease (e : Nat)
  /-- R418: the release finishes. -/
  | releaseComplete (e : Nat)
  /-- R42: a BAR 0 write with no row of its own. -/
  | registerWrite (fn : HostFn) (off size : Nat) (v : Word)
  /-- R323. -/
  | faultRingConsumerWrite (v : Word)
  /-- R324 action 1. -/
  | resolveRetry (slot first : Nat)
  /-- R324 action 2. -/
  | resolveFault (slot first : Nat)
  /-- R402 action 1. -/
  | stagingRetry (cluster first : Nat)
  /-- R402 action 2. -/
  | stagingDiscard (cluster first : Nat)
  /-- R405, R406: op 1 of the pre-emption word. -/
  | preempt (first : Nat)
  /-- R408: op 2 of the pre-emption word. -/
  | restore (first : Nat)
  /-- R406: the save is written and the state word reads 2. -/
  | saveComplete (first : Nat)
  /-- R409: the resumption tick. -/
  | resume (first : Nat)
  /-- R370: per port the one-way latency measured (a port that does not train is absent), per member its TICK and the largest lat sum to it. -/
  | formGroup (measured : List (Nat × Nat)) (members : List (Nat × Nat))
  /-- R370. -/
  | dissolveGroup
  /-- R371. -/
  | linkTableEntry (port : Nat) (w0 : Word)
  /-- R369. -/
  | groupWord (w : Word)
  /-- R72. -/
  | homingEntry (first n : Nat) (v : Word)
  /-- R311: writes (v = 1) or invalidates (v = 0) the entry of that key in the store of the cluster's interface. -/
  | translationEntry (first cluster : Nat) (w0 w1 : Word)
  /-- R312. -/
  | hostWindow (first : Nat) (base len : Word)
  /-- R388. -/
  | peerAddress (index : Nat) (v : Word)
  /-- R255. -/
  | mcMaint (ctl : Nat) (v : Word)
  /-- R258. -/
  | requestSoftRepair (ctl ch bank row : Nat)
  /-- R261. -/
  | readErrorLog (ctl index : Nat)
  /-- R327: the key in W0 of the entry; the read clears the counts. -/
  | readHotness (first cluster : Nat) (w0 : Word)
  /-- R423. -/
  | readIdentity
  /-- R422: an image with its rollback number and whether both signatures verify; or the commit. -/
  | stageFirmware (number : Nat) (signed commit : Bool)
  /-- R425. -/
  | unknownMailboxCommand (code : Nat)
  /-- R344. -/
  | hostBar2Write (fn : HostFn) (off size : Nat) (v : Word)
  /-- R344. -/
  | hostBar2Read (fn : HostFn) (off size : Nat)
  /-- R424: which signed objects verify, and the configured limit in watts. -/
  | bringUp (firmwareOk configOk listOk : Bool) (limit : Nat)
  /-- R421. -/
  | powerWindow (watts celsius : Nat)
  /-- R421. -/
  | emergencyTrip
  /-- R373: a port's phase or lock changes; a link fault where it exceeds the margin. -/
  | linkFaultEvent (port : Nat) (lockLost : Bool) (phase : BitVec 16)
  /-- R378: header is what the control flit names, none when it was uncorrectable. -/
  | linkLineArrives (first tile stile : Nat) (port : Option Nat) (data : Line) (pois : BitVec 16)
    (flits : FlitsIn) (ltick : Nat)
  /-- R384, R388. -/
  | groupControlMessage (m : GroupMsg)
  /-- R451 step 4. -/
  | groupLaunchStart (first : Nat)
  /-- R313. -/
  | peerRequestArrives (r : PeerReq)
  /-- R389: the value, none where its word was poisoned; a fault kind, 0 for none. -/
  | peerReplyArrives (uid id : Nat) (v : Option Word) (bad : Nat)
  /-- R124. -/
  | rollCallFence (first cluster core : Nat)
  /-- R28. -/
  | budgetExceeded (first : Nat)
  /-- R380, R383: limit is that of a `hold` word. -/
  | clearingClose (first tile : Nat) (mask : BitVec 16) (limit : Option Nat)
  /-- R384 Table 16.7. -/
  | holdBegins (first : Nat)
  /-- R384 Table 16.7. -/
  | holdResume (first : Nat)
  /-- R383. -/
  | holdLimitExpires (first tile slot : Nat)
  /-- R366. -/
  | governorBoundary (first cluster : Nat)
  /-- R260. -/
  | retrainBurst (chan : Nat) (converged : Bool)
  /-- R252-R256. -/
  | maintenanceSlot (chan : Nat)
  /-- R258 step 3, R259. -/
  | repairLatch (ctl ch bank row : Nat)
  /-- R226, R249. -/
  | timedLineRequest (req : LineReq)
  /-- R213, R215. -/
  | timedEffectLands (first tile : Nat) (e : TEff)
  /-- R93. -/
  | preloadComplete (first : Nat)
  /-- R410. -/
  | overlayDrained (first : Nat)
  /-- R411. -/
  | overlaySwapBell (first : Nat)
  /-- R53. -/
  | residentSetChange (first : Nat)
  /-- R400, R401. -/
  | launchFaultEnd (first : Nat)
  /-- R414. -/
  | launchRetires (first : Nat)
  /-- R417. -/
  | rearmComplete (first : Nat)
  /-- R114: born is the issue cycle of the producing bundle. -/
  | registerResultLands (uid born : Nat) (w : RegWrite)
  /-- R271. -/
  | jobIdReturn (uid d : Nat) (id : Word)
  /-- R116. -/
  | accessComplete (uid : Nat) (c : Completion)
  /-- R459. -/
  | lateFault (uid : Nat) (kind : Nat) (info : Word) (miss : Option Acc)
  /-- R347, R348. -/
  | syncAccessArrives (uid : Nat) (a : Acc)
  /-- R348, R349. -/
  | waiterPerforms (addr : Nat)
  /-- R357. -/
  | napWake (uid : Nat)
  /-- R357. -/
  | napTimeout (uid : Nat) (due : Nat)
  /-- R317. -/
  | migrationSend (uid : Nat)
  /-- R318, R320. -/
  | migrationArrival (uid : Nat) (corrupt : Bool)
  /-- R394, R395. -/
  | trapEntry (uid : Nat)
  /-- R75. -/
  | taskDispatch (first cluster : Nat)
  /-- R75 step 3. -/
  | taskStaged (first cluster : Nat)
  /-- R355. -/
  | enqueueAccepted (first cluster : Nat)
  /-- R270. -/
  | parkedCommandAccepted (uid eng : Nat)
  /-- R272. -/
  | engineStep (first job : Nat)
  /-- R272. -/
  | jobComplete (first job : Nat)
  /-- R206, R209. -/
  | streamPushLands (uid sq : Nat) (pos : Nat) (val mask : Vec)
  /-- R363. -/
  | packetArrives (p : Packet)
  /-- R381, R383. -/
  | postPerforms (uid tile slot d : Nat) (v : Word) (addr : Word) (born : Nat)
  /-- R315. -/
  | asidClear (first asid : Nat)
  /-- R399. -/
  | asidDropAck (first asid uid d : Nat) (started : Bool)
  /-- R404. -/
  | hostTimeout (uid id : Nat)
  /-- R83: a reserved cell. -/
  | resSlotNop (k : SlotKind) (bits : BitVec 64)
  /-- R43, Table 2.5 code 0x01. -/
  | invalidLaunchWord (first : Nat)
  /-- R81, R84. -/
  | illegalInstruction (k : SlotKind)
  /-- R91. -/
  | fetchFault
  /-- R89. -/
  | illegalStreamWord
  /-- R355, R173. -/
  | enqueueReachesQueue (e : Enq)
  /-- R304. -/
  | portQueueChunkEnters (first cluster q job : Nat) (line : Line) (pois : BitVec 16)
  /-- R240: a bit error arises in the stored word at flat address `addr`. -/
  | softError (addr : Nat) (uncorrectable : Bool)
  /-- R423. -/
  | powerLoss (duringAppend : Bool)
  -- stream words (Table 4.10)
  /-- R218 -/
  | nopStream
  /-- R218 -/
  | wait (n : BitVec 40)
  /-- R218 -/
  | loop (c : BitVec 3) (always : BitVec 1) (target : BitVec 13)
  /-- R218 -/
  | setta (imm : BitVec 32) (hi : BitVec 1) (reg : BitVec 4) (cls : BitVec 2)
  /-- R218 -/
  | addta (imm : BitVec 32) (reg : BitVec 4) (cls : BitVec 2)
  /-- R219 -/
  | bell (n : BitVec 16)
  /-- R220 -/
  | brp (slot : BitVec 4) (count : BitVec 4) (base : BitVec 13) (span : BitVec 13)
  /-- R380 -/
  | clear (mask : BitVec 16) (seed : BitVec 12) (span : BitVec 18)
  /-- R221 -/
  | chkp (slot : BitVec 4) (stream : BitVec 3) (cls : BitVec 2) (reg : BitVec 4)
  /-- R223 -/
  | prept (n : BitVec 16)
  /-- R222 -/
  | region (index : BitVec 12) (writer : BitVec 8)
  /-- R383 -/
  | hold (slot : BitVec 4) (limit : BitVec 24)
  /-- R379 -/
  | drift (mask : BitVec 16)
  /-- R221 -/
  | rgeom (reg : BitVec 4) (stream : BitVec 3)
  /-- R224 -/
  | halt (code : BitVec 16)
  /-- R226 -/
  | tld (h : BitVec 4) (m : BitVec 4) (x : BitVec 4) (gslot : BitVec 4) (g : BitVec 1) (pol : BitVec 1) (form : BitVec 1) (n : BitVec 12)
  /-- R228 -/
  | tldg (h : BitVec 4) (m : BitVec 4) (x : BitVec 4) (gslot : BitVec 4) (g : BitVec 1) (pol : BitVec 1) (rows : BitVec 10) (rl : BitVec 4)
  /-- R229 -/
  | tldr (s : BitVec 4) (m : BitVec 4) (tile : BitVec 8) (n : BitVec 12)
  /-- R226 -/
  | tst (h : BitVec 4) (m : BitVec 4) (x : BitVec 4) (gslot : BitVec 4) (g : BitVec 1) (form : BitVec 1) (n : BitVec 12)
  /-- R232 -/
  | mma (m : BitVec 3) (ta : BitVec 4) (tb : BitVec 4) (fa : BitVec 3) (fb : BitVec 3) (kk : BitVec 9) (z : BitVec 1) (blk : BitVec 1) (sa : BitVec 4) (sb : BitVec 4)
  /-- R233 -/
  | mmag (m : BitVec 3) (ta : BitVec 4) (tb : BitVec 4) (fa : BitVec 3) (fb : BitVec 3) (kk : BitVec 9) (lst : BitVec 4) (dec : BitVec 4) (z : BitVec 1) (k : BitVec 1) (dd : BitVec 1)
  /-- R234 -/
  | mspill (m : BitVec 3) (ta : BitVec 4) (fmt : BitVec 2) (zr : BitVec 1)
  /-- R234 -/
  | mfill (m : BitVec 3) (ta : BitVec 4)
  /-- R234 -/
  | madd (md : BitVec 3) (ma : BitVec 3) (mb : BitVec 3)
  /-- R234 -/
  | mmov (md : BitVec 3) (ma : BitVec 3) (z : BitVec 1)
  /-- R236 -/
  | eadd (d : BitVec 4) (a : BitVec 4) (b : BitVec 4) (fmt : BitVec 2) (n : BitVec 12)
  /-- R236 -/
  | esub (d : BitVec 4) (a : BitVec 4) (b : BitVec 4) (fmt : BitVec 2) (n : BitVec 12)
  /-- R236 -/
  | emul (d : BitVec 4) (a : BitVec 4) (b : BitVec 4) (fmt : BitVec 2) (n : BitVec 12)
  /-- R236 -/
  | ema (d : BitVec 4) (a : BitVec 4) (b : BitVec 4) (c : BitVec 4) (fmt : BitVec 2) (n : BitVec 12)
  /-- R236 -/
  | emax (d : BitVec 4) (a : BitVec 4) (b : BitVec 4) (fmt : BitVec 2) (n : BitVec 12)
  /-- R236 -/
  | emin (d : BitVec 4) (a : BitVec 4) (b : BitVec 4) (fmt : BitVec 2) (n : BitVec 12)
  /-- R237 -/
  | ecvt (d : BitVec 4) (a : BitVec 4) (src : BitVec 4) (dst : BitVec 4) (n : BitVec 12) (rmode : BitVec 3) (sat : BitVec 1) (site : BitVec 8)
  /-- R236 -/
  | eexp (d : BitVec 4) (a : BitVec 4) (fmt : BitVec 2) (n : BitVec 12)
  /-- R236 -/
  | ercp (d : BitVec 4) (a : BitVec 4) (fmt : BitVec 2) (n : BitVec 12)
  /-- R236 -/
  | ersq (d : BitVec 4) (a : BitVec 4) (fmt : BitVec 2) (n : BitVec 12)
  /-- R236 -/
  | etanh (d : BitVec 4) (a : BitVec 4) (fmt : BitVec 2) (n : BitVec 12)
  /-- R236 -/
  | esel (d : BitVec 4) (a : BitVec 4) (b : BitVec 4) (c : BitVec 4) (fmt : BitVec 2) (n : BitVec 12)
  /-- R236 -/
  | ecmp (d : BitVec 4) (a : BitVec 4) (b : BitVec 4) (fmt : BitVec 2) (n : BitVec 12) (cond : BitVec 2)
  /-- R236 -/
  | escale (d : BitVec 4) (a : BitVec 4) (b : BitVec 4) (fmt : BitVec 2) (n : BitVec 12)
  /-- R236 -/
  | elog2 (d : BitVec 4) (a : BitVec 4) (fmt : BitVec 2) (n : BitVec 12)
  /-- R238 -/
  | sred (d : BitVec 4) (a : BitVec 4) (fmt : BitVec 2) (n : BitVec 12) (op : BitVec 2)
  /-- R238 -/
  | strn (d : BitVec 4) (a : BitVec 4) (fmt : BitVec 2) (n : BitVec 12)
  /-- R238 -/
  | sperm (d : BitVec 4) (a : BitVec 4) (b : BitVec 4) (fmt : BitVec 2) (n : BitVec 12)
  /-- R238 -/
  | sbc (d : BitVec 4) (a : BitVec 4) (fmt : BitVec 2) (n : BitVec 12)
  /-- R238 -/
  | sslice (d : BitVec 4) (a : BitVec 4) (fmt : BitVec 2) (n : BitVec 12) (stride : BitVec 12)
  /-- R238 -/
  | sscan (d : BitVec 4) (a : BitVec 4) (fmt : BitVec 2) (n : BitVec 12)
  /-- R238 -/
  | sroll (d : BitVec 4) (a : BitVec 4) (fmt : BitVec 2) (n : BitVec 12) (r : BitVec 5)
  /-- R376 -/
  | sendt (src : BitVec 4) (kind : BitVec 2) (tile : BitVec 8) (port : BitVec 4) (n : BitVec 12)
  /-- R376 -/
  | recvt (dst : BitVec 4) (kind : BitVec 2) (tile : BitVec 8) (port : BitVec 4) (n : BitVec 12) (pol : BitVec 1)
  -- S-slot instructions (Table 4.5)
  /-- R153 -/
  | nop (g : Guard)
  /-- R153 -/
  | add (g : Guard) (d : BitVec 5) (s : BitVec 5) (t : BitVec 5) (fn : BitVec 4)
  /-- R153 -/
  | sub (g : Guard) (d : BitVec 5) (s : BitVec 5) (t : BitVec 5) (fn : BitVec 4)
  /-- R153 -/
  | and (g : Guard) (d : BitVec 5) (s : BitVec 5) (t : BitVec 5)
  /-- R153 -/
  | or (g : Guard) (d : BitVec 5) (s : BitVec 5) (t : BitVec 5)
  /-- R153 -/
  | xor (g : Guard) (d : BitVec 5) (s : BitVec 5) (t : BitVec 5)
  /-- R153 -/
  | andn (g : Guard) (d : BitVec 5) (s : BitVec 5) (t : BitVec 5)
  /-- R154 -/
  | shl (g : Guard) (d : BitVec 5) (s : BitVec 5) (t : BitVec 5)
  /-- R154 -/
  | shr (g : Guard) (d : BitVec 5) (s : BitVec 5) (t : BitVec 5)
  /-- R154 -/
  | sar (g : Guard) (d : BitVec 5) (s : BitVec 5) (t : BitVec 5)
  /-- R153 -/
  | mul (g : Guard) (d : BitVec 5) (s : BitVec 5) (t : BitVec 5)
  /-- R153 -/
  | mulh (g : Guard) (d : BitVec 5) (s : BitVec 5) (t : BitVec 5)
  /-- R153 -/
  | mulhw (g : Guard) (d : BitVec 5) (s : BitVec 5) (t : BitVec 5)
  /-- R153 -/
  | min (g : Guard) (d : BitVec 5) (s : BitVec 5) (t : BitVec 5)
  /-- R153 -/
  | max (g : Guard) (d : BitVec 5) (s : BitVec 5) (t : BitVec 5)
  /-- R153 -/
  | minw (g : Guard) (d : BitVec 5) (s : BitVec 5) (t : BitVec 5)
  /-- R153 -/
  | maxw (g : Guard) (d : BitVec 5) (s : BitVec 5) (t : BitVec 5)
  /-- R156 -/
  | div (g : Guard) (d : BitVec 5) (s : BitVec 5) (t : BitVec 5)
  /-- R156 -/
  | divw (g : Guard) (d : BitVec 5) (s : BitVec 5) (t : BitVec 5)
  /-- R156 -/
  | rem (g : Guard) (d : BitVec 5) (s : BitVec 5) (t : BitVec 5)
  /-- R156 -/
  | remw (g : Guard) (d : BitVec 5) (s : BitVec 5) (t : BitVec 5)
  /-- R153 -/
  | mov (g : Guard) (d : BitVec 5) (s : BitVec 5)
  /-- R153 -/
  | clz (g : Guard) (d : BitVec 5) (s : BitVec 5)
  /-- R153 -/
  | popc (g : Guard) (d : BitVec 5) (s : BitVec 5)
  /-- R155 -/
  | ext (g : Guard) (d : BitVec 5) (s : BitVec 5) (t : BitVec 5)
  /-- R155 -/
  | extw (g : Guard) (d : BitVec 5) (s : BitVec 5) (t : BitVec 5)
  /-- R154 -/
  | rol (g : Guard) (d : BitVec 5) (s : BitVec 5) (t : BitVec 5)
  /-- R154 -/
  | ror (g : Guard) (d : BitVec 5) (s : BitVec 5) (t : BitVec 5)
  /-- R153 -/
  | bswap (g : Guard) (d : BitVec 5) (s : BitVec 5)
  /-- R153 -/
  | sel (g : Guard) (d : BitVec 5) (s : BitVec 5) (t : BitVec 5) (fn : BitVec 4)
  /-- R157 -/
  | addi (g : Guard) (d : BitVec 5) (s : BitVec 5) (imm : BitVec 9)
  /-- R157 -/
  | andi (g : Guard) (d : BitVec 5) (s : BitVec 5) (imm : BitVec 9)
  /-- R157 -/
  | ori (g : Guard) (d : BitVec 5) (s : BitVec 5) (imm : BitVec 9)
  /-- R157 -/
  | xori (g : Guard) (d : BitVec 5) (s : BitVec 5) (imm : BitVec 9)
  /-- R157 -/
  | shli (g : Guard) (d : BitVec 5) (s : BitVec 5) (imm : BitVec 9)
  /-- R157 -/
  | shri (g : Guard) (d : BitVec 5) (s : BitVec 5) (imm : BitVec 9)
  /-- R157 -/
  | sari (g : Guard) (d : BitVec 5) (s : BitVec 5) (imm : BitVec 9)
  /-- R157 -/
  | muli (g : Guard) (d : BitVec 5) (s : BitVec 5) (imm : BitVec 9)
  /-- R157 -/
  | movi (g : Guard) (d : BitVec 5) (imm : BitVec 9)
  /-- R157 -/
  | mini (g : Guard) (d : BitVec 5) (s : BitVec 5) (imm : BitVec 9)
  /-- R157 -/
  | maxi (g : Guard) (d : BitVec 5) (s : BitVec 5) (imm : BitVec 9)
  /-- R157 -/
  | rori (g : Guard) (d : BitVec 5) (s : BitVec 5) (imm : BitVec 9)
  /-- R159 -/
  | cmp (g : Guard) (d : BitVec 5) (s : BitVec 5) (t : BitVec 5) (fn : BitVec 4)
  /-- R160 -/
  | cmpiEq (g : Guard) (d : BitVec 5) (s : BitVec 5) (imm : BitVec 9)
  /-- R160 -/
  | cmpiNe (g : Guard) (d : BitVec 5) (s : BitVec 5) (imm : BitVec 9)
  /-- R160 -/
  | cmpiLt (g : Guard) (d : BitVec 5) (s : BitVec 5) (imm : BitVec 9)
  /-- R160 -/
  | cmpiGe (g : Guard) (d : BitVec 5) (s : BitVec 5) (imm : BitVec 9)
  /-- R160 -/
  | cmpiLtw (g : Guard) (d : BitVec 5) (s : BitVec 5) (imm : BitVec 9)
  /-- R160 -/
  | cmpiGew (g : Guard) (d : BitVec 5) (s : BitVec 5) (imm : BitVec 9)
  /-- R162 -/
  | pand (g : Guard) (d : BitVec 5) (s : BitVec 5) (t : BitVec 5)
  /-- R162 -/
  | por (g : Guard) (d : BitVec 5) (s : BitVec 5) (t : BitVec 5)
  /-- R162 -/
  | pxor (g : Guard) (d : BitVec 5) (s : BitVec 5) (t : BitVec 5)
  /-- R162 -/
  | pandn (g : Guard) (d : BitVec 5) (s : BitVec 5) (t : BitVec 5)
  /-- R163 -/
  | prd (g : Guard) (d : BitVec 5)
  /-- R163 -/
  | pwr (g : Guard) (s : BitVec 5)
  /-- R263 -/
  | ld (g : Guard) (d : BitVec 5) (s : BitVec 5) (t : BitVec 5) (fn : BitVec 4)
  /-- R263 -/
  | st (g : Guard) (d : BitVec 5) (s : BitVec 5) (t : BitVec 5) (fn : BitVec 4)
  /-- R351 -/
  | ldf (g : Guard) (d : BitVec 5) (s : BitVec 5) (t : BitVec 5) (fn : BitVec 4)
  /-- R351 -/
  | ldfe (g : Guard) (d : BitVec 5) (s : BitVec 5) (t : BitVec 5) (fn : BitVec 4)
  /-- R351 -/
  | stf (g : Guard) (d : BitVec 5) (s : BitVec 5) (t : BitVec 5) (fn : BitVec 4)
  /-- R351 -/
  | ste (g : Guard) (d : BitVec 5) (s : BitVec 5) (t : BitVec 5) (fn : BitVec 4)
  /-- R351 -/
  | fill (g : Guard) (s : BitVec 5) (t : BitVec 5) (fn : BitVec 4)
  /-- R351 -/
  | empty (g : Guard) (s : BitVec 5) (t : BitVec 5) (fn : BitVec 4)
  /-- R356 -/
  | watch (g : Guard) (d : BitVec 5) (s : BitVec 5) (t : BitVec 5)
  /-- R357 -/
  | nap (g : Guard) (d : BitVec 5) (s : BitVec 5)
  /-- R359 -/
  | fence (g : Guard) (fn : BitVec 4)
  /-- R351 -/
  | semTake (g : Guard) (d : BitVec 5) (s : BitVec 5) (t : BitVec 5) (fn : BitVec 4)
  /-- R351 -/
  | semGive (g : Guard) (d : BitVec 5) (s : BitVec 5) (t : BitVec 5) (fn : BitVec 4)
  /-- R166 -/
  | jr (g : Guard) (s : BitVec 5)
  /-- R166 -/
  | jrl (g : Guard) (d : BitVec 5) (s : BitVec 5)
  /-- R176 -/
  | yield (g : Guard)
  /-- R177 -/
  | roll (g : Guard)
  /-- R175 -/
  | texit (g : Guard)
  /-- R178 -/
  | anchor (g : Guard) (fn : BitVec 4)
  /-- R125 -/
  | tick (g : Guard) (d : BitVec 5)
  /-- R125 -/
  | cycl (g : Guard) (d : BitVec 5)
  /-- R284 -/
  | jwait (g : Guard) (d : BitVec 5) (s : BitVec 5)
  /-- R284 -/
  | jpoll (g : Guard) (d : BitVec 5) (s : BitVec 5)
  /-- R171 -/
  | rnd (g : Guard) (d : BitVec 5) (s : BitVec 5)
  -- long instructions (Table 4.8)
  /-- R158 -/
  | li (g : Guard) (d : BitVec 5) (imm : BitVec 32)
  /-- R158 -/
  | lih (g : Guard) (d : BitVec 5) (imm : BitVec 32)
  /-- R158 -/
  | addl (g : Guard) (d : BitVec 5) (s : BitVec 5) (imm : BitVec 32)
  /-- R158 -/
  | andl (g : Guard) (d : BitVec 5) (s : BitVec 5) (imm : BitVec 32)
  /-- R158 -/
  | orl (g : Guard) (d : BitVec 5) (s : BitVec 5) (imm : BitVec 32)
  /-- R158 -/
  | xorl (g : Guard) (d : BitVec 5) (s : BitVec 5) (imm : BitVec 32)
  /-- R158 -/
  | mull (g : Guard) (d : BitVec 5) (s : BitVec 5) (imm : BitVec 32)
  /-- R263 -/
  | ldl (g : Guard) (d : BitVec 5) (s : BitVec 5) (x : BitVec 5) (f : BitVec 2) (imm : BitVec 32)
  /-- R263 -/
  | stl (g : Guard) (d : BitVec 5) (s : BitVec 5) (x : BitVec 5) (f : BitVec 2) (imm : BitVec 32)
  /-- R165 -/
  | br (g : Guard) (imm : BitVec 32)
  /-- R165 -/
  | call (g : Guard) (d : BitVec 5) (imm : BitVec 32)
  /-- R353 -/
  | rsv (g : Guard) (d : BitVec 5) (s : BitVec 5) (x : BitVec 5) (f : BitVec 2) (imm : BitVec 32)
  /-- R353 -/
  | rls (g : Guard) (d : BitVec 5) (s : BitVec 5) (x : BitVec 5) (f : BitVec 2) (imm : BitVec 32)
  /-- R354 -/
  | dctr (g : Guard) (d : BitVec 5) (s : BitVec 5) (imm : BitVec 32)
  /-- R267 -/
  | tlook (g : Guard) (d : BitVec 5) (s : BitVec 5) (x : BitVec 5) (imm : BitVec 32)
  /-- R268 -/
  | tset (g : Guard) (d : BitVec 5) (s : BitVec 5) (x : BitVec 5)
  /-- R269 -/
  | tdrop (g : Guard) (d : BitVec 5) (x : BitVec 5) (f : BitVec 2)
  /-- R278 -/
  | mjob (g : Guard) (d : BitVec 5) (s : BitVec 5) (x : BitVec 5) (imm : BitVec 32)
  /-- R279 -/
  | mjobG (g : Guard) (d : BitVec 5) (s : BitVec 5) (x : BitVec 5) (imm : BitVec 32)
  /-- R282 -/
  | cjob (g : Guard) (d : BitVec 5) (s : BitVec 5)
  /-- R287 -/
  | gjob (g : Guard) (d : BitVec 5) (s : BitVec 5)
  /-- R360 -/
  | pktOpen (g : Guard) (s : BitVec 5) (imm : BitVec 32)
  /-- R360 -/
  | pktAdd (g : Guard) (s : BitVec 5) (x : BitVec 5) (f : BitVec 2)
  /-- R361 -/
  | pktEnd (g : Guard) (s : BitVec 5) (x : BitVec 5) (f : BitVec 2)
  /-- R362 -/
  | matchTag (g : Guard) (d : BitVec 5) (s : BitVec 5)
  /-- R381 -/
  | post (g : Guard) (d : BitVec 5) (s : BitVec 5) (x : BitVec 5) (imm : BitVec 32)
  /-- R204 -/
  | sbind (g : Guard) (s : BitVec 5) (x : BitVec 5) (f : BitVec 2) (imm : BitVec 32)
  /-- R121 -/
  | ebind (g : Guard) (x : BitVec 5)
  /-- R173 -/
  | spawn (g : Guard) (s : BitVec 5) (x : BitVec 5) (f : BitVec 2) (imm : BitVec 32)
  /-- R397 -/
  | trap (g : Guard) (imm : BitVec 32)
  /-- R397 -/
  | rtt (g : Guard)
  /-- R398 -/
  | crd (g : Guard) (d : BitVec 5) (imm : BitVec 32)
  /-- R398 -/
  | cwr (g : Guard) (s : BitVec 5) (imm : BitVec 32)
  /-- R399 -/
  | asidBind (g : Guard) (s : BitVec 5)
  /-- R399 -/
  | asidDrop (g : Guard) (d : BitVec 5) (s : BitVec 5)
  /-- R387 -/
  | pbell (g : Guard) (s : BitVec 5) (x : BitVec 5)
  /-- R387 -/
  | pload (g : Guard) (d : BitVec 5) (s : BitVec 5)
  /-- R387 -/
  | phold (g : Guard) (s : BitVec 5) (x : BitVec 5)
  /-- R387 -/
  | pdrift (g : Guard) (d : BitVec 5) (s : BitVec 5)
  -- V-slot instructions (Table 4.6)
  /-- R85 -/
  | vnop
  /-- R184 -/
  | fadd (alt : BitVec 1) (vm : BitVec 3) (vd : BitVec 7) (va : BitVec 7) (vb : BitVec 7)
  /-- R184 -/
  | fsub (alt : BitVec 1) (vm : BitVec 3) (vd : BitVec 7) (va : BitVec 7) (vb : BitVec 7)
  /-- R184 -/
  | fmul (alt : BitVec 1) (vm : BitVec 3) (vd : BitVec 7) (va : BitVec 7) (vb : BitVec 7)
  /-- R184 -/
  | fma (alt : BitVec 1) (vm : BitVec 3) (vd : BitVec 7) (va : BitVec 7) (vb : BitVec 7)
  /-- R184 -/
  | fms (alt : BitVec 1) (vm : BitVec 3) (vd : BitVec 7) (va : BitVec 7) (vb : BitVec 7)
  /-- R184 -/
  | fnma (alt : BitVec 1) (vm : BitVec 3) (vd : BitVec 7) (va : BitVec 7) (vb : BitVec 7)
  /-- R184 -/
  | fnms (alt : BitVec 1) (vm : BitVec 3) (vd : BitVec 7) (va : BitVec 7) (vb : BitVec 7)
  /-- R185 -/
  | fmin (alt : BitVec 1) (vm : BitVec 3) (vd : BitVec 7) (va : BitVec 7) (vb : BitVec 7)
  /-- R185 -/
  | fmax (alt : BitVec 1) (vm : BitVec 3) (vd : BitVec 7) (va : BitVec 7) (vb : BitVec 7)
  /-- R185 -/
  | fabs (alt : BitVec 1) (vm : BitVec 3) (vd : BitVec 7) (va : BitVec 7)
  /-- R185 -/
  | fneg (alt : BitVec 1) (vm : BitVec 3) (vd : BitVec 7) (va : BitVec 7)
  /-- R185 -/
  | fsgn (alt : BitVec 1) (vm : BitVec 3) (vd : BitVec 7) (va : BitVec 7) (vb : BitVec 7)
  /-- R184 -/
  | fdiv (alt : BitVec 1) (vm : BitVec 3) (vd : BitVec 7) (va : BitVec 7) (vb : BitVec 7)
  /-- R184 -/
  | fsqrt (alt : BitVec 1) (vm : BitVec 3) (vd : BitVec 7) (va : BitVec 7)
  /-- R186 -/
  | hadd (alt : BitVec 1) (vm : BitVec 3) (vd : BitVec 7) (va : BitVec 7) (vb : BitVec 7)
  /-- R186 -/
  | hsub (alt : BitVec 1) (vm : BitVec 3) (vd : BitVec 7) (va : BitVec 7) (vb : BitVec 7)
  /-- R186 -/
  | hmul (alt : BitVec 1) (vm : BitVec 3) (vd : BitVec 7) (va : BitVec 7) (vb : BitVec 7)
  /-- R186 -/
  | hma (alt : BitVec 1) (vm : BitVec 3) (vd : BitVec 7) (va : BitVec 7) (vb : BitVec 7)
  /-- R186 -/
  | hmin (alt : BitVec 1) (vm : BitVec 3) (vd : BitVec 7) (va : BitVec 7) (vb : BitVec 7)
  /-- R186 -/
  | hmax (alt : BitVec 1) (vm : BitVec 3) (vd : BitVec 7) (va : BitVec 7) (vb : BitVec 7)
  /-- R186 -/
  | hdot (alt : BitVec 1) (vm : BitVec 3) (vd : BitVec 7) (va : BitVec 7) (vb : BitVec 7)
  /-- R187 -/
  | hcmpEq (alt : BitVec 1) (vm : BitVec 3) (vd : BitVec 7) (va : BitVec 7) (vb : BitVec 7)
  /-- R187 -/
  | hcmpLt (alt : BitVec 1) (vm : BitVec 3) (vd : BitVec 7) (va : BitVec 7) (vb : BitVec 7)
  /-- R187 -/
  | hcmpLe (alt : BitVec 1) (vm : BitVec 3) (vd : BitVec 7) (va : BitVec 7) (vb : BitVec 7)
  /-- R187 -/
  | fcmpEq (alt : BitVec 1) (vm : BitVec 3) (vd : BitVec 7) (va : BitVec 7) (vb : BitVec 7)
  /-- R187 -/
  | fcmpLt (alt : BitVec 1) (vm : BitVec 3) (vd : BitVec 7) (va : BitVec 7) (vb : BitVec 7)
  /-- R187 -/
  | fcmpLe (alt : BitVec 1) (vm : BitVec 3) (vd : BitVec 7) (va : BitVec 7) (vb : BitVec 7)
  /-- R187 -/
  | fcmpUn (alt : BitVec 1) (vm : BitVec 3) (vd : BitVec 7) (va : BitVec 7) (vb : BitVec 7)
  /-- R188 -/
  | fclass (alt : BitVec 1) (vm : BitVec 3) (vd : BitVec 7) (va : BitVec 7)
  /-- R189 -/
  | vsel (alt : BitVec 1) (vm : BitVec 3) (vd : BitVec 7) (va : BitVec 7) (vb : BitVec 7)
  /-- R191 -/
  | fsum (alt : BitVec 1) (vm : BitVec 3) (vd : BitVec 7) (va : BitVec 7)
  /-- R191 -/
  | fmaxr (alt : BitVec 1) (vm : BitVec 3) (vd : BitVec 7) (va : BitVec 7)
  /-- R191 -/
  | fminr (alt : BitVec 1) (vm : BitVec 3) (vd : BitVec 7) (va : BitVec 7)
  /-- R192 -/
  | fscan (alt : BitVec 1) (vm : BitVec 3) (vd : BitVec 7) (va : BitVec 7)
  /-- R191 -/
  | famaxr (alt : BitVec 1) (vm : BitVec 3) (vd : BitVec 7) (va : BitVec 7)
  /-- R190 -/
  | vaddW3216 (alt : BitVec 1) (vm : BitVec 3) (vd : BitVec 7) (va : BitVec 7) (vb : BitVec 7)
  /-- R190 -/
  | vsubW3216 (alt : BitVec 1) (vm : BitVec 3) (vd : BitVec 7) (va : BitVec 7) (vb : BitVec 7)
  /-- R190 -/
  | vmulW3216 (alt : BitVec 1) (vm : BitVec 3) (vd : BitVec 7) (va : BitVec 7) (vb : BitVec 7)
  /-- R190 -/
  | vmulhW3216 (alt : BitVec 1) (vm : BitVec 3) (vd : BitVec 7) (va : BitVec 7) (vb : BitVec 7)
  /-- R190 -/
  | vminW3216 (alt : BitVec 1) (vm : BitVec 3) (vd : BitVec 7) (va : BitVec 7) (vb : BitVec 7)
  /-- R190 -/
  | vmaxW3216 (alt : BitVec 1) (vm : BitVec 3) (vd : BitVec 7) (va : BitVec 7) (vb : BitVec 7)
  /-- R190 -/
  | vminwW3216 (alt : BitVec 1) (vm : BitVec 3) (vd : BitVec 7) (va : BitVec 7) (vb : BitVec 7)
  /-- R190 -/
  | vmaxwW3216 (alt : BitVec 1) (vm : BitVec 3) (vd : BitVec 7) (va : BitVec 7) (vb : BitVec 7)
  /-- R190 -/
  | vandW3216 (alt : BitVec 1) (vm : BitVec 3) (vd : BitVec 7) (va : BitVec 7) (vb : BitVec 7)
  /-- R190 -/
  | vorW3216 (alt : BitVec 1) (vm : BitVec 3) (vd : BitVec 7) (va : BitVec 7) (vb : BitVec 7)
  /-- R190 -/
  | vxorW3216 (alt : BitVec 1) (vm : BitVec 3) (vd : BitVec 7) (va : BitVec 7) (vb : BitVec 7)
  /-- R190 -/
  | vandnW3216 (alt : BitVec 1) (vm : BitVec 3) (vd : BitVec 7) (va : BitVec 7) (vb : BitVec 7)
  /-- R190 -/
  | vshlW3216 (alt : BitVec 1) (vm : BitVec 3) (vd : BitVec 7) (va : BitVec 7) (vb : BitVec 7)
  /-- R190 -/
  | vshrW3216 (alt : BitVec 1) (vm : BitVec 3) (vd : BitVec 7) (va : BitVec 7) (vb : BitVec 7)
  /-- R190 -/
  | vsarW3216 (alt : BitVec 1) (vm : BitVec 3) (vd : BitVec 7) (va : BitVec 7) (vb : BitVec 7)
  /-- R190 -/
  | vaddsW3216 (alt : BitVec 1) (vm : BitVec 3) (vd : BitVec 7) (va : BitVec 7) (vb : BitVec 7)
  /-- R190 -/
  | vaddW864 (alt : BitVec 1) (vm : BitVec 3) (vd : BitVec 7) (va : BitVec 7) (vb : BitVec 7)
  /-- R190 -/
  | vsubW864 (alt : BitVec 1) (vm : BitVec 3) (vd : BitVec 7) (va : BitVec 7) (vb : BitVec 7)
  /-- R190 -/
  | vmulW864 (alt : BitVec 1) (vm : BitVec 3) (vd : BitVec 7) (va : BitVec 7) (vb : BitVec 7)
  /-- R190 -/
  | vmulhW864 (alt : BitVec 1) (vm : BitVec 3) (vd : BitVec 7) (va : BitVec 7) (vb : BitVec 7)
  /-- R190 -/
  | vminW864 (alt : BitVec 1) (vm : BitVec 3) (vd : BitVec 7) (va : BitVec 7) (vb : BitVec 7)
  /-- R190 -/
  | vmaxW864 (alt : BitVec 1) (vm : BitVec 3) (vd : BitVec 7) (va : BitVec 7) (vb : BitVec 7)
  /-- R190 -/
  | vminwW864 (alt : BitVec 1) (vm : BitVec 3) (vd : BitVec 7) (va : BitVec 7) (vb : BitVec 7)
  /-- R190 -/
  | vmaxwW864 (alt : BitVec 1) (vm : BitVec 3) (vd : BitVec 7) (va : BitVec 7) (vb : BitVec 7)
  /-- R190 -/
  | vandW864 (alt : BitVec 1) (vm : BitVec 3) (vd : BitVec 7) (va : BitVec 7) (vb : BitVec 7)
  /-- R190 -/
  | vorW864 (alt : BitVec 1) (vm : BitVec 3) (vd : BitVec 7) (va : BitVec 7) (vb : BitVec 7)
  /-- R190 -/
  | vxorW864 (alt : BitVec 1) (vm : BitVec 3) (vd : BitVec 7) (va : BitVec 7) (vb : BitVec 7)
  /-- R190 -/
  | vandnW864 (alt : BitVec 1) (vm : BitVec 3) (vd : BitVec 7) (va : BitVec 7) (vb : BitVec 7)
  /-- R190 -/
  | vshlW864 (alt : BitVec 1) (vm : BitVec 3) (vd : BitVec 7) (va : BitVec 7) (vb : BitVec 7)
  /-- R190 -/
  | vshrW864 (alt : BitVec 1) (vm : BitVec 3) (vd : BitVec 7) (va : BitVec 7) (vb : BitVec 7)
  /-- R190 -/
  | vsarW864 (alt : BitVec 1) (vm : BitVec 3) (vd : BitVec 7) (va : BitVec 7) (vb : BitVec 7)
  /-- R190 -/
  | vaddsW864 (alt : BitVec 1) (vm : BitVec 3) (vd : BitVec 7) (va : BitVec 7) (vb : BitVec 7)
  /-- R187 -/
  | vcmpEq (alt : BitVec 1) (vm : BitVec 3) (vd : BitVec 7) (va : BitVec 7) (vb : BitVec 7)
  /-- R187 -/
  | vcmpNe (alt : BitVec 1) (vm : BitVec 3) (vd : BitVec 7) (va : BitVec 7) (vb : BitVec 7)
  /-- R187 -/
  | vcmpLt (alt : BitVec 1) (vm : BitVec 3) (vd : BitVec 7) (va : BitVec 7) (vb : BitVec 7)
  /-- R187 -/
  | vcmpGe (alt : BitVec 1) (vm : BitVec 3) (vd : BitVec 7) (va : BitVec 7) (vb : BitVec 7)
  /-- R187 -/
  | vcmpLtw (alt : BitVec 1) (vm : BitVec 3) (vd : BitVec 7) (va : BitVec 7) (vb : BitVec 7)
  /-- R187 -/
  | vcmpGew (alt : BitVec 1) (vm : BitVec 3) (vd : BitVec 7) (va : BitVec 7) (vb : BitVec 7)
  /-- R191 -/
  | isum (alt : BitVec 1) (vm : BitVec 3) (vd : BitVec 7) (va : BitVec 7)
  /-- R191 -/
  | imaxr (alt : BitVec 1) (vm : BitVec 3) (vd : BitVec 7) (va : BitVec 7)
  /-- R191 -/
  | iminr (alt : BitVec 1) (vm : BitVec 3) (vd : BitVec 7) (va : BitVec 7)
  /-- R192 -/
  | iscan (alt : BitVec 1) (vm : BitVec 3) (vd : BitVec 7) (va : BitVec 7)
  /-- R190 -/
  | vabs (alt : BitVec 1) (vm : BitVec 3) (vd : BitVec 7) (va : BitVec 7)
  /-- R190 -/
  | vneg (alt : BitVec 1) (vm : BitVec 3) (vd : BitVec 7) (va : BitVec 7)
  /-- R195 -/
  | cvtRn (alt : BitVec 1) (vm : BitVec 3) (vd : BitVec 7) (va : BitVec 7) (vb : BitVec 7)
  /-- R195 -/
  | cvtRz (alt : BitVec 1) (vm : BitVec 3) (vd : BitVec 7) (va : BitVec 7) (vb : BitVec 7)
  /-- R195 -/
  | cvtRu (alt : BitVec 1) (vm : BitVec 3) (vd : BitVec 7) (va : BitVec 7) (vb : BitVec 7)
  /-- R195 -/
  | cvtRd (alt : BitVec 1) (vm : BitVec 3) (vd : BitVec 7) (va : BitVec 7) (vb : BitVec 7)
  /-- R197 -/
  | cvtRs (alt : BitVec 1) (vm : BitVec 3) (vd : BitVec 7) (va : BitVec 7) (vb : BitVec 7)
  /-- R198 -/
  | vperm (alt : BitVec 1) (vm : BitVec 3) (vd : BitVec 7) (va : BitVec 7) (vb : BitVec 7)
  /-- R198 -/
  | vshuf (alt : BitVec 1) (vm : BitVec 3) (vd : BitVec 7) (va : BitVec 7) (vb : BitVec 7)
  /-- R198 -/
  | vbcast (alt : BitVec 1) (vm : BitVec 3) (vd : BitVec 7) (va : BitVec 7)
  /-- R198 -/
  | vins (alt : BitVec 1) (vd : BitVec 7) (va : BitVec 7) (vb : BitVec 7)
  /-- R198 -/
  | vext (alt : BitVec 1) (vd : BitVec 7) (va : BitVec 7) (vb : BitVec 7)
  /-- R198 -/
  | vmov (alt : BitVec 1) (vm : BitVec 3) (vd : BitVec 7) (va : BitVec 7)
  /-- R199 -/
  | mand (vd : BitVec 7) (va : BitVec 7) (vb : BitVec 7)
  /-- R199 -/
  | mor (vd : BitVec 7) (va : BitVec 7) (vb : BitVec 7)
  /-- R199 -/
  | mxor (vd : BitVec 7) (va : BitVec 7) (vb : BitVec 7)
  /-- R199 -/
  | mandn (vd : BitVec 7) (va : BitVec 7) (vb : BitVec 7)
  /-- R200 -/
  | fexp2 (vm : BitVec 3) (vd : BitVec 7) (va : BitVec 7)
  /-- R200 -/
  | flog2 (vm : BitVec 3) (vd : BitVec 7) (va : BitVec 7)
  /-- R200 -/
  | frcp (vm : BitVec 3) (vd : BitVec 7) (va : BitVec 7)
  /-- R200 -/
  | frsq (vm : BitVec 3) (vd : BitVec 7) (va : BitVec 7)
  /-- R200 -/
  | fsin (vm : BitVec 3) (vd : BitVec 7) (va : BitVec 7)
  /-- R200 -/
  | fcos (vm : BitVec 3) (vd : BitVec 7) (va : BitVec 7)
  /-- R200 -/
  | ftanh (vm : BitVec 3) (vd : BitVec 7) (va : BitVec 7)
  /-- R200 -/
  | fsigm (vm : BitVec 3) (vd : BitVec 7) (va : BitVec 7)
  /-- R200 -/
  | ferf (vm : BitVec 3) (vd : BitVec 7) (va : BitVec 7)
  deriving DecidableEq, Repr

/-- A stream word: its idle count I and its operation (R86, R87). -/
structure StreamWord where
  idle  : BitVec 10
  instr : Instr
  deriving DecidableEq, Repr

end Sys2Proof
end

