-- ==== Sys2Proof/WellFormed.lean ====
section
/-! DEFINITION. Which operand values an instruction may hold: the operand codes of R79 and the limits of each
entry (R81: any other value raises an illegal-instruction fault; R89 for stream words). -/

namespace Sys2Proof

/-- Table 4.4: the sign bit of a load must be 0 at size 8, and 0 in every store. -/
abbrev memFnOk (store : Bool) (fn : BitVec 4) : Prop :=
  fn.getLsbD 0 = false ∨ (store = false ∧ fn.extractLsb' 1 2 ≠ 3)

/-- R275 operand limits: a pair is named by the code of an even register a0-a22. -/
abbrev pairOk (r : BitVec 5) : Prop := r.getLsbD 0 = false ∧ r.toNat ≤ 22

/-- R230: which element formats of Table 9.8 pair. -/
abbrev fmtPairOk (fa fb : BitVec 3) : Prop :=
  (fa.toNat ≤ 3 ∧ fb.toNat ≤ 3) ∨ (fa = fb ∧ 4 ≤ fa.toNat ∧ fa.toNat ≤ 6)

/-- R231: the formats that may be blocked. -/
abbrev blkFmt (f : BitVec 3) : Prop := f = 0 ∨ f = 3 ∨ f = 4

/-- Table 17.8: the control-register numbers that exist (R398). -/
def cregListed (n : Nat) : Bool :=
  decide (n ≤ 0x00A) || (decide (0x010 ≤ n) && decide (n ≤ 0x016)) || (decide (0x040 ≤ n) && decide (n ≤ 0x07F))

/-- Parts of a conversion code (Table 8.6). -/
def cvtParts (code : Nat) : Nat :=
  if code ≤ 5 then 2 else if code ≤ 15 then 4 else if code ≤ 23 then 1 else if code ≤ 25 then 2 else 4

/-- R193: a conversion selector names a code below 30 and a part below the code's part count. -/
def cvtSelOk (vb : BitVec 7) : Bool :=
  decide (vb.toNat % 32 < 30) && decide (vb.toNat / 32 < cvtParts (vb.toNat % 32))

/-- Well-formed operands. `nv` is the number of vector registers a thread has in its thread-count mode (Table 5.1).
Events are checked for the indices their windows and tables bound. -/
def Instr.WF (nv : Nat) : Instr → Bool
  | .nop _ => true
  | .add _ d s t fn => decide (d.toNat ≤ 24 ∧ s.toNat ≤ 24 ∧ t.toNat ≤ 24 ∧ fn.toNat ≤ 4)
  | .sub _ d s t fn => decide (d.toNat ≤ 24 ∧ s.toNat ≤ 24 ∧ t.toNat ≤ 24 ∧ fn.toNat ≤ 4)
  | .and _ d s t => decide (d.toNat ≤ 24 ∧ s.toNat ≤ 24 ∧ t.toNat ≤ 24)
  | .or _ d s t => decide (d.toNat ≤ 24 ∧ s.toNat ≤ 24 ∧ t.toNat ≤ 24)
  | .xor _ d s t => decide (d.toNat ≤ 24 ∧ s.toNat ≤ 24 ∧ t.toNat ≤ 24)
  | .andn _ d s t => decide (d.toNat ≤ 24 ∧ s.toNat ≤ 24 ∧ t.toNat ≤ 24)
  | .shl _ d s t => decide (d.toNat ≤ 24 ∧ s.toNat ≤ 24 ∧ t.toNat ≤ 24)
  | .shr _ d s t => decide (d.toNat ≤ 24 ∧ s.toNat ≤ 24 ∧ t.toNat ≤ 24)
  | .sar _ d s t => decide (d.toNat ≤ 24 ∧ s.toNat ≤ 24 ∧ t.toNat ≤ 24)
  | .mul _ d s t => decide (d.toNat ≤ 24 ∧ s.toNat ≤ 24 ∧ t.toNat ≤ 24)
  | .mulh _ d s t => decide (d.toNat ≤ 24 ∧ s.toNat ≤ 24 ∧ t.toNat ≤ 24)
  | .mulhw _ d s t => decide (d.toNat ≤ 24 ∧ s.toNat ≤ 24 ∧ t.toNat ≤ 24)
  | .min _ d s t => decide (d.toNat ≤ 24 ∧ s.toNat ≤ 24 ∧ t.toNat ≤ 24)
  | .max _ d s t => decide (d.toNat ≤ 24 ∧ s.toNat ≤ 24 ∧ t.toNat ≤ 24)
  | .minw _ d s t => decide (d.toNat ≤ 24 ∧ s.toNat ≤ 24 ∧ t.toNat ≤ 24)
  | .maxw _ d s t => decide (d.toNat ≤ 24 ∧ s.toNat ≤ 24 ∧ t.toNat ≤ 24)
  | .div _ d s t => decide (d.toNat ≤ 24 ∧ s.toNat ≤ 24 ∧ t.toNat ≤ 24)
  | .divw _ d s t => decide (d.toNat ≤ 24 ∧ s.toNat ≤ 24 ∧ t.toNat ≤ 24)
  | .rem _ d s t => decide (d.toNat ≤ 24 ∧ s.toNat ≤ 24 ∧ t.toNat ≤ 24)
  | .remw _ d s t => decide (d.toNat ≤ 24 ∧ s.toNat ≤ 24 ∧ t.toNat ≤ 24)
  | .mov _ d s => decide (d.toNat ≤ 24 ∧ s.toNat ≤ 24)
  | .clz _ d s => decide (d.toNat ≤ 24 ∧ s.toNat ≤ 24)
  | .popc _ d s => decide (d.toNat ≤ 24 ∧ s.toNat ≤ 24)
  | .ext _ d s t => decide (d.toNat ≤ 24 ∧ s.toNat ≤ 24 ∧ t.toNat ≤ 24)
  | .extw _ d s t => decide (d.toNat ≤ 24 ∧ s.toNat ≤ 24 ∧ t.toNat ≤ 24)
  | .rol _ d s t => decide (d.toNat ≤ 24 ∧ s.toNat ≤ 24 ∧ t.toNat ≤ 24)
  | .ror _ d s t => decide (d.toNat ≤ 24 ∧ s.toNat ≤ 24 ∧ t.toNat ≤ 24)
  | .bswap _ d s => decide (d.toNat ≤ 24 ∧ s.toNat ≤ 24)
  | .sel _ d s t _ => decide (d.toNat ≤ 24 ∧ s.toNat ≤ 24 ∧ t.toNat ≤ 24)
  | .addi _ d s _ => decide (d.toNat ≤ 24 ∧ s.toNat ≤ 24)
  | .andi _ d s _ => decide (d.toNat ≤ 24 ∧ s.toNat ≤ 24)
  | .ori _ d s _ => decide (d.toNat ≤ 24 ∧ s.toNat ≤ 24)
  | .xori _ d s _ => decide (d.toNat ≤ 24 ∧ s.toNat ≤ 24)
  | .shli _ d s imm => decide (d.toNat ≤ 24 ∧ s.toNat ≤ 24 ∧ imm.toNat ≤ 63)
  | .shri _ d s imm => decide (d.toNat ≤ 24 ∧ s.toNat ≤ 24 ∧ imm.toNat ≤ 63)
  | .sari _ d s imm => decide (d.toNat ≤ 24 ∧ s.toNat ≤ 24 ∧ imm.toNat ≤ 63)
  | .muli _ d s _ => decide (d.toNat ≤ 24 ∧ s.toNat ≤ 24)
  | .movi _ d _ => decide (d.toNat ≤ 24)
  | .mini _ d s _ => decide (d.toNat ≤ 24 ∧ s.toNat ≤ 24)
  | .maxi _ d s _ => decide (d.toNat ≤ 24 ∧ s.toNat ≤ 24)
  | .rori _ d s imm => decide (d.toNat ≤ 24 ∧ s.toNat ≤ 24 ∧ imm.toNat ≤ 64)
  | .cmp _ d s t fn => decide (d.toNat < 16 ∧ s.toNat ≤ 24 ∧ t.toNat ≤ 24 ∧ fn.toNat ≤ 7)
  | .cmpiEq _ d s _ => decide (d.toNat < 16 ∧ s.toNat ≤ 24)
  | .cmpiNe _ d s _ => decide (d.toNat < 16 ∧ s.toNat ≤ 24)
  | .cmpiLt _ d s _ => decide (d.toNat < 16 ∧ s.toNat ≤ 24)
  | .cmpiGe _ d s _ => decide (d.toNat < 16 ∧ s.toNat ≤ 24)
  | .cmpiLtw _ d s _ => decide (d.toNat < 16 ∧ s.toNat ≤ 24)
  | .cmpiGew _ d s _ => decide (d.toNat < 16 ∧ s.toNat ≤ 24)
  | .pand _ d s t => decide (d.toNat < 16 ∧ s.toNat < 16 ∧ t.toNat < 16)
  | .por _ d s t => decide (d.toNat < 16 ∧ s.toNat < 16 ∧ t.toNat < 16)
  | .pxor _ d s t => decide (d.toNat < 16 ∧ s.toNat < 16 ∧ t.toNat < 16)
  | .pandn _ d s t => decide (d.toNat < 16 ∧ s.toNat < 16 ∧ t.toNat < 16)
  | .prd _ d => decide (d.toNat ≤ 24)
  | .pwr _ s => decide (s.toNat ≤ 24)
  | .ld _ d s t fn => decide (d.toNat ≤ 24 ∧ s.toNat ≤ 24 ∧ t.toNat ≤ 24 ∧ memFnOk false fn)
  | .st _ d s t fn => decide (d.toNat ≤ 24 ∧ s.toNat ≤ 24 ∧ t.toNat ≤ 24 ∧ memFnOk true fn)
  | .ldf _ d s t fn => decide (d.toNat ≤ 24 ∧ s.toNat ≤ 24 ∧ t.toNat ≤ 24 ∧ fn.toNat ≤ 9)
  | .ldfe _ d s t fn => decide (d.toNat ≤ 24 ∧ s.toNat ≤ 24 ∧ t.toNat ≤ 24 ∧ fn.toNat ≤ 9)
  | .stf _ d s t fn => decide (d.toNat ≤ 24 ∧ s.toNat ≤ 24 ∧ t.toNat ≤ 24 ∧ fn.toNat ≤ 9)
  | .ste _ d s t fn => decide (d.toNat ≤ 24 ∧ s.toNat ≤ 24 ∧ t.toNat ≤ 24 ∧ fn.toNat ≤ 9)
  | .fill _ s t fn => decide (s.toNat ≤ 24 ∧ t.toNat ≤ 24 ∧ fn.toNat ≤ 9)
  | .empty _ s t fn => decide (s.toNat ≤ 24 ∧ t.toNat ≤ 24 ∧ fn.toNat ≤ 9)
  | .watch _ d s t => decide (d.toNat ≤ 24 ∧ s.toNat ≤ 24 ∧ t.toNat ≤ 24)
  | .nap _ d s => decide (d.toNat ≤ 24 ∧ s.toNat ≤ 24)
  | .fence _ fn => decide (fn.toNat ≤ 9)
  | .semTake _ d s t fn => decide (d.toNat ≤ 24 ∧ s.toNat ≤ 24 ∧ t.toNat ≤ 24 ∧ fn.toNat ≤ 9)
  | .semGive _ d s t fn => decide (d.toNat ≤ 24 ∧ s.toNat ≤ 24 ∧ t.toNat ≤ 24 ∧ fn.toNat ≤ 9)
  | .jr _ s => decide (s.toNat ≤ 24)
  | .jrl _ d s => decide (d.toNat ≤ 24 ∧ s.toNat ≤ 24)
  | .yield _ => true
  | .roll _ => true
  | .texit _ => true
  | .anchor _ fn => decide (fn.toNat ≤ 1)
  | .tick _ d => decide (d.toNat ≤ 24)
  | .cycl _ d => decide (d.toNat ≤ 24)
  | .jwait _ d s => decide (d.toNat ≤ 24 ∧ s.toNat ≤ 24)
  | .jpoll _ d s => decide (d.toNat ≤ 24 ∧ s.toNat ≤ 24)
  | .rnd _ d s => decide (d.toNat ≤ 24 ∧ s.toNat ≤ 24)
  | .li _ d _ => decide (d.toNat ≤ 24)
  | .lih _ d _ => decide (d.toNat ≤ 24)
  | .addl _ d s _ => decide (d.toNat ≤ 24 ∧ s.toNat ≤ 24)
  | .andl _ d s _ => decide (d.toNat ≤ 24 ∧ s.toNat ≤ 24)
  | .orl _ d s _ => decide (d.toNat ≤ 24 ∧ s.toNat ≤ 24)
  | .xorl _ d s _ => decide (d.toNat ≤ 24 ∧ s.toNat ≤ 24)
  | .mull _ d s _ => decide (d.toNat ≤ 24 ∧ s.toNat ≤ 24)
  | .ldl _ d s x f _ => decide (d.toNat ≤ 24 ∧ s.toNat ≤ 24 ∧ x.extractLsb' 0 3 = 0 ∧ ¬(x.getLsbD 3 = true ∧ f = 3))
  | .stl _ d s x _ _ => decide (d.toNat ≤ 24 ∧ s.toNat ≤ 24 ∧ x.extractLsb' 0 4 = 0)
  | .br _ _ => true
  | .call _ d _ => decide (d.toNat ≤ 24)
  | .rsv _ d s x _ imm => decide (d.toNat ≤ 24 ∧ s.toNat ≤ 24 ∧ x.toNat ≤ 24 ∧ imm.extractLsb' 0 4 ≤ 9)
  | .rls _ d s x _ imm => decide (d.toNat ≤ 24 ∧ s.toNat ≤ 24 ∧ x.toNat ≤ 24 ∧ imm.extractLsb' 0 4 ≤ 9)
  | .dctr _ d s imm => decide (d.toNat ≤ 24 ∧ s.toNat ≤ 24 ∧ imm.extractLsb' 0 4 ≤ 9)
  | .tlook _ d s x imm => decide (d.toNat ≤ 24 ∧ s.toNat ≤ 24 ∧ x.toNat < 16 ∧ imm.toNat < 8)
  | .tset _ d s x => decide (d.toNat < 16 ∧ s.toNat ≤ 24 ∧ x.toNat ≤ 24)
  | .tdrop _ d x f => decide (d.toNat < 16 ∧ x.toNat ≤ 24 ∧ f.toNat ≤ 2)
  | .mjob _ d s x imm => decide (d.toNat ≤ 24 ∧ pairOk s ∧ pairOk x ∧ pairOk (imm.extractLsb' 27 5) ∧ fmtPairOk (imm.extractLsb' 0 3) (imm.extractLsb' 3 3) ∧ imm.extractLsb' 20 2 = 0 ∧ imm.getLsbD 19 = false ∧ imm.extractLsb' 22 5 = 0)
  | .mjobG _ d s x imm => decide (d.toNat ≤ 24 ∧ pairOk s ∧ pairOk x ∧ pairOk (imm.extractLsb' 27 5) ∧ fmtPairOk (imm.extractLsb' 0 3) (imm.extractLsb' 3 3) ∧ imm.extractLsb' 20 2 = 0 ∧ imm.extractLsb' 6 2 = 0 ∧ (imm.extractLsb' 22 5).toNat ≤ 24)
  | .cjob _ d s => decide (d.toNat ≤ 24 ∧ s.toNat ≤ 24)
  | .gjob _ d s => decide (d.toNat ≤ 24 ∧ s.toNat ≤ 24)
  | .pktOpen _ s imm => decide (s.toNat ≤ 24 ∧ imm.toNat < 65536)
  | .pktAdd _ s x f => decide (s.toNat ≤ 24 ∧ f.toNat ≤ 1 ∧ x.toNat ≤ 24 ∧ (f = 1 ∨ x = 0))
  | .pktEnd _ s x f => decide (s.toNat ≤ 24 ∧ f.toNat ≤ 2 ∧ x.toNat ≤ 24 ∧ (f = 1 ∨ x = 0) ∧ (f ≠ 2 ∨ s = 0))
  | .matchTag _ d s => decide (d.toNat ≤ 24 ∧ s.toNat ≤ 24)
  | .post _ d s x imm => decide (d.toNat ≤ 24 ∧ s.toNat ≤ 24 ∧ x.toNat ≤ 24 ∧ imm.toNat ≤ 9)
  | .sbind _ s x f imm => decide (s.toNat ≤ 24 ∧ x.extractLsb' 2 3 = 0 ∧ (f.getLsbD 1 = false ∨ (s = 0 ∧ f.getLsbD 0 = false ∧ imm = 0)) ∧ imm.toNat < nv)
  | .ebind _ x => decide (x.toNat ≤ 5)
  | .spawn _ s x f _ => decide (s.toNat ≤ 24 ∧ x.toNat ≤ 24 ∧ (f.getLsbD 0 = true ∨ x = 0))
  | .trap _ imm => decide (imm.toNat < 65536)
  | .rtt _ => true
  | .crd _ d imm => decide (d.toNat ≤ 24 ∧ cregListed imm.toNat = true)
  | .cwr _ s imm => decide (s.toNat ≤ 24 ∧ cregListed imm.toNat = true)
  | .asidBind _ s => decide (s.toNat ≤ 24)
  | .asidDrop _ d s => decide (d.toNat ≤ 24 ∧ s.toNat ≤ 24)
  | .pbell _ s x => decide (s.toNat ≤ 24 ∧ x.toNat ≤ 24)
  | .pload _ d s => decide (d.toNat ≤ 24 ∧ s.toNat ≤ 24)
  | .phold _ s x => decide (s.toNat ≤ 24 ∧ x.toNat ≤ 24)
  | .pdrift _ d s => decide (d.toNat ≤ 24 ∧ s.toNat ≤ 24)
  | .vnop => true
  | .fadd _ _ vd va vb => decide (vd.toNat < nv ∧ va.toNat < nv ∧ vb.toNat < nv)
  | .fsub _ _ vd va vb => decide (vd.toNat < nv ∧ va.toNat < nv ∧ vb.toNat < nv)
  | .fmul _ _ vd va vb => decide (vd.toNat < nv ∧ va.toNat < nv ∧ vb.toNat < nv)
  | .fma _ _ vd va vb => decide (vd.toNat < nv ∧ va.toNat < nv ∧ vb.toNat < nv)
  | .fms _ _ vd va vb => decide (vd.toNat < nv ∧ va.toNat < nv ∧ vb.toNat < nv)
  | .fnma _ _ vd va vb => decide (vd.toNat < nv ∧ va.toNat < nv ∧ vb.toNat < nv)
  | .fnms _ _ vd va vb => decide (vd.toNat < nv ∧ va.toNat < nv ∧ vb.toNat < nv)
  | .fmin _ _ vd va vb => decide (vd.toNat < nv ∧ va.toNat < nv ∧ vb.toNat < nv)
  | .fmax _ _ vd va vb => decide (vd.toNat < nv ∧ va.toNat < nv ∧ vb.toNat < nv)
  | .fabs _ _ vd va => decide (vd.toNat < nv ∧ va.toNat < nv)
  | .fneg _ _ vd va => decide (vd.toNat < nv ∧ va.toNat < nv)
  | .fsgn _ _ vd va vb => decide (vd.toNat < nv ∧ va.toNat < nv ∧ vb.toNat < nv)
  | .fdiv _ _ vd va vb => decide (vd.toNat < nv ∧ va.toNat < nv ∧ vb.toNat < nv)
  | .fsqrt _ _ vd va => decide (vd.toNat < nv ∧ va.toNat < nv)
  | .hadd _ _ vd va vb => decide (vd.toNat < nv ∧ va.toNat < nv ∧ vb.toNat < nv)
  | .hsub _ _ vd va vb => decide (vd.toNat < nv ∧ va.toNat < nv ∧ vb.toNat < nv)
  | .hmul _ _ vd va vb => decide (vd.toNat < nv ∧ va.toNat < nv ∧ vb.toNat < nv)
  | .hma _ _ vd va vb => decide (vd.toNat < nv ∧ va.toNat < nv ∧ vb.toNat < nv)
  | .hmin _ _ vd va vb => decide (vd.toNat < nv ∧ va.toNat < nv ∧ vb.toNat < nv)
  | .hmax _ _ vd va vb => decide (vd.toNat < nv ∧ va.toNat < nv ∧ vb.toNat < nv)
  | .hdot _ _ vd va vb => decide (vd.toNat < nv ∧ va.toNat < nv ∧ vb.toNat < nv)
  | .hcmpEq _ _ vd va vb => decide ((0 < vd.toNat ∧ vd.toNat < 8) ∧ va.toNat < nv ∧ vb.toNat < nv)
  | .hcmpLt _ _ vd va vb => decide ((0 < vd.toNat ∧ vd.toNat < 8) ∧ va.toNat < nv ∧ vb.toNat < nv)
  | .hcmpLe _ _ vd va vb => decide ((0 < vd.toNat ∧ vd.toNat < 8) ∧ va.toNat < nv ∧ vb.toNat < nv)
  | .fcmpEq _ _ vd va vb => decide ((0 < vd.toNat ∧ vd.toNat < 8) ∧ va.toNat < nv ∧ vb.toNat < nv)
  | .fcmpLt _ _ vd va vb => decide ((0 < vd.toNat ∧ vd.toNat < 8) ∧ va.toNat < nv ∧ vb.toNat < nv)
  | .fcmpLe _ _ vd va vb => decide ((0 < vd.toNat ∧ vd.toNat < 8) ∧ va.toNat < nv ∧ vb.toNat < nv)
  | .fcmpUn _ _ vd va vb => decide ((0 < vd.toNat ∧ vd.toNat < 8) ∧ va.toNat < nv ∧ vb.toNat < nv)
  | .fclass _ _ vd va => decide (vd.toNat < nv ∧ va.toNat < nv)
  | .vsel _ _ vd va vb => decide (vd.toNat < nv ∧ va.toNat < nv ∧ vb.toNat < nv)
  | .fsum _ _ vd va => decide (vd.toNat < nv ∧ va.toNat < nv)
  | .fmaxr _ _ vd va => decide (vd.toNat < nv ∧ va.toNat < nv)
  | .fminr _ _ vd va => decide (vd.toNat < nv ∧ va.toNat < nv)
  | .fscan _ _ vd va => decide (vd.toNat < nv ∧ va.toNat < nv)
  | .famaxr _ _ vd va => decide (vd.toNat < nv ∧ va.toNat < nv)
  | .vaddW3216 _ _ vd va vb => decide (vd.toNat < nv ∧ va.toNat < nv ∧ vb.toNat < nv)
  | .vsubW3216 _ _ vd va vb => decide (vd.toNat < nv ∧ va.toNat < nv ∧ vb.toNat < nv)
  | .vmulW3216 _ _ vd va vb => decide (vd.toNat < nv ∧ va.toNat < nv ∧ vb.toNat < nv)
  | .vmulhW3216 _ _ vd va vb => decide (vd.toNat < nv ∧ va.toNat < nv ∧ vb.toNat < nv)
  | .vminW3216 _ _ vd va vb => decide (vd.toNat < nv ∧ va.toNat < nv ∧ vb.toNat < nv)
  | .vmaxW3216 _ _ vd va vb => decide (vd.toNat < nv ∧ va.toNat < nv ∧ vb.toNat < nv)
  | .vminwW3216 _ _ vd va vb => decide (vd.toNat < nv ∧ va.toNat < nv ∧ vb.toNat < nv)
  | .vmaxwW3216 _ _ vd va vb => decide (vd.toNat < nv ∧ va.toNat < nv ∧ vb.toNat < nv)
  | .vandW3216 _ _ vd va vb => decide (vd.toNat < nv ∧ va.toNat < nv ∧ vb.toNat < nv)
  | .vorW3216 _ _ vd va vb => decide (vd.toNat < nv ∧ va.toNat < nv ∧ vb.toNat < nv)
  | .vxorW3216 _ _ vd va vb => decide (vd.toNat < nv ∧ va.toNat < nv ∧ vb.toNat < nv)
  | .vandnW3216 _ _ vd va vb => decide (vd.toNat < nv ∧ va.toNat < nv ∧ vb.toNat < nv)
  | .vshlW3216 _ _ vd va vb => decide (vd.toNat < nv ∧ va.toNat < nv ∧ vb.toNat < nv)
  | .vshrW3216 _ _ vd va vb => decide (vd.toNat < nv ∧ va.toNat < nv ∧ vb.toNat < nv)
  | .vsarW3216 _ _ vd va vb => decide (vd.toNat < nv ∧ va.toNat < nv ∧ vb.toNat < nv)
  | .vaddsW3216 _ _ vd va vb => decide (vd.toNat < nv ∧ va.toNat < nv ∧ vb.toNat < nv)
  | .vaddW864 _ _ vd va vb => decide (vd.toNat < nv ∧ va.toNat < nv ∧ vb.toNat < nv)
  | .vsubW864 _ _ vd va vb => decide (vd.toNat < nv ∧ va.toNat < nv ∧ vb.toNat < nv)
  | .vmulW864 _ _ vd va vb => decide (vd.toNat < nv ∧ va.toNat < nv ∧ vb.toNat < nv)
  | .vmulhW864 _ _ vd va vb => decide (vd.toNat < nv ∧ va.toNat < nv ∧ vb.toNat < nv)
  | .vminW864 _ _ vd va vb => decide (vd.toNat < nv ∧ va.toNat < nv ∧ vb.toNat < nv)
  | .vmaxW864 _ _ vd va vb => decide (vd.toNat < nv ∧ va.toNat < nv ∧ vb.toNat < nv)
  | .vminwW864 _ _ vd va vb => decide (vd.toNat < nv ∧ va.toNat < nv ∧ vb.toNat < nv)
  | .vmaxwW864 _ _ vd va vb => decide (vd.toNat < nv ∧ va.toNat < nv ∧ vb.toNat < nv)
  | .vandW864 _ _ vd va vb => decide (vd.toNat < nv ∧ va.toNat < nv ∧ vb.toNat < nv)
  | .vorW864 _ _ vd va vb => decide (vd.toNat < nv ∧ va.toNat < nv ∧ vb.toNat < nv)
  | .vxorW864 _ _ vd va vb => decide (vd.toNat < nv ∧ va.toNat < nv ∧ vb.toNat < nv)
  | .vandnW864 _ _ vd va vb => decide (vd.toNat < nv ∧ va.toNat < nv ∧ vb.toNat < nv)
  | .vshlW864 _ _ vd va vb => decide (vd.toNat < nv ∧ va.toNat < nv ∧ vb.toNat < nv)
  | .vshrW864 _ _ vd va vb => decide (vd.toNat < nv ∧ va.toNat < nv ∧ vb.toNat < nv)
  | .vsarW864 _ _ vd va vb => decide (vd.toNat < nv ∧ va.toNat < nv ∧ vb.toNat < nv)
  | .vaddsW864 _ _ vd va vb => decide (vd.toNat < nv ∧ va.toNat < nv ∧ vb.toNat < nv)
  | .vcmpEq _ _ vd va vb => decide ((0 < vd.toNat ∧ vd.toNat < 8) ∧ va.toNat < nv ∧ vb.toNat < nv)
  | .vcmpNe _ _ vd va vb => decide ((0 < vd.toNat ∧ vd.toNat < 8) ∧ va.toNat < nv ∧ vb.toNat < nv)
  | .vcmpLt _ _ vd va vb => decide ((0 < vd.toNat ∧ vd.toNat < 8) ∧ va.toNat < nv ∧ vb.toNat < nv)
  | .vcmpGe _ _ vd va vb => decide ((0 < vd.toNat ∧ vd.toNat < 8) ∧ va.toNat < nv ∧ vb.toNat < nv)
  | .vcmpLtw _ _ vd va vb => decide ((0 < vd.toNat ∧ vd.toNat < 8) ∧ va.toNat < nv ∧ vb.toNat < nv)
  | .vcmpGew _ _ vd va vb => decide ((0 < vd.toNat ∧ vd.toNat < 8) ∧ va.toNat < nv ∧ vb.toNat < nv)
  | .isum _ _ vd va => decide (vd.toNat < nv ∧ va.toNat < nv)
  | .imaxr _ _ vd va => decide (vd.toNat < nv ∧ va.toNat < nv)
  | .iminr _ _ vd va => decide (vd.toNat < nv ∧ va.toNat < nv)
  | .iscan _ _ vd va => decide (vd.toNat < nv ∧ va.toNat < nv)
  | .vabs _ _ vd va => decide (vd.toNat < nv ∧ va.toNat < nv)
  | .vneg _ _ vd va => decide (vd.toNat < nv ∧ va.toNat < nv)
  | .cvtRn _ _ vd va vb => decide (vd.toNat < nv ∧ va.toNat < nv ∧ cvtSelOk vb = true)
  | .cvtRz _ _ vd va vb => decide (vd.toNat < nv ∧ va.toNat < nv ∧ cvtSelOk vb = true)
  | .cvtRu _ _ vd va vb => decide (vd.toNat < nv ∧ va.toNat < nv ∧ cvtSelOk vb = true)
  | .cvtRd _ _ vd va vb => decide (vd.toNat < nv ∧ va.toNat < nv ∧ cvtSelOk vb = true)
  | .cvtRs _ _ vd va vb => decide (vd.toNat < nv ∧ va.toNat < nv ∧ cvtSelOk vb = true)
  | .vperm _ _ vd va vb => decide (vd.toNat < nv ∧ va.toNat < nv ∧ vb.toNat < nv)
  | .vshuf _ _ vd va vb => decide (vd.toNat < nv ∧ va.toNat < nv ∧ vb.toNat < nv)
  | .vbcast _ _ vd va => decide (vd.toNat < nv ∧ va.toNat ≤ 24)
  | .vins alt vd va vb => decide (vd.toNat < nv ∧ va.toNat ≤ 24 ∧ vb.toNat < (if alt = 0 then 16 else 8))
  | .vext alt vd va vb => decide (vd.toNat ≤ 24 ∧ va.toNat < nv ∧ vb.toNat < (if alt = 0 then 16 else 8))
  | .vmov _ _ vd va => decide (vd.toNat < nv ∧ va.toNat < nv)
  | .mand vd va vb => decide ((0 < vd.toNat ∧ vd.toNat < 8) ∧ va.toNat < 8 ∧ vb.toNat < 8)
  | .mor vd va vb => decide ((0 < vd.toNat ∧ vd.toNat < 8) ∧ va.toNat < 8 ∧ vb.toNat < 8)
  | .mxor vd va vb => decide ((0 < vd.toNat ∧ vd.toNat < 8) ∧ va.toNat < 8 ∧ vb.toNat < 8)
  | .mandn vd va vb => decide ((0 < vd.toNat ∧ vd.toNat < 8) ∧ va.toNat < 8 ∧ vb.toNat < 8)
  | .fexp2 _ vd va => decide (vd.toNat < nv ∧ va.toNat < nv)
  | .flog2 _ vd va => decide (vd.toNat < nv ∧ va.toNat < nv)
  | .frcp _ vd va => decide (vd.toNat < nv ∧ va.toNat < nv)
  | .frsq _ vd va => decide (vd.toNat < nv ∧ va.toNat < nv)
  | .fsin _ vd va => decide (vd.toNat < nv ∧ va.toNat < nv)
  | .fcos _ vd va => decide (vd.toNat < nv ∧ va.toNat < nv)
  | .ftanh _ vd va => decide (vd.toNat < nv ∧ va.toNat < nv)
  | .fsigm _ vd va => decide (vd.toNat < nv ∧ va.toNat < nv)
  | .ferf _ vd va => decide (vd.toNat < nv ∧ va.toNat < nv)
  | .nopStream => true
  | .wait n => decide (1 ≤ n.toNat)
  | .loop c always _ => decide ((always = 0 ∨ c = 0))
  | .setta _ hi reg cls => decide ((cls = 0 ∨ (cls = 1 ∧ reg.toNat ≤ 7 ∧ hi = 0)))
  | .addta _ reg cls => decide ((cls = 0 ∨ (cls = 1 ∧ reg.toNat ≤ 7)))
  | .bell _ => true
  | .brp _ count _ span => decide (1 ≤ count.toNat ∧ 1 ≤ span.toNat)
  | .clear mask seed span => decide ((mask ≠ 0 ∨ seed ≠ 0xFFF) ∧ 1 ≤ span.toNat)
  | .chkp _ stream cls reg => decide (stream.toNat ≤ 6 ∧ (cls = 0 ∨ (cls = 1 ∧ reg.toNat ≤ 7)))
  | .prept _ => true
  | .region _ writer => decide (writer.toNat ≤ 9)
  | .hold _ limit => decide (1 ≤ limit.toNat)
  | .drift _ => true
  | .rgeom _ stream => decide (stream.toNat ≤ 6)
  | .halt _ => true
  | .tld _ _ x _ _ _ form n => decide ((form = 0 ∨ n = 0) ∧ (form = 1 ∨ x = 0))
  | .tldg _ _ _ _ _ _ _ _ => true
  | .tldr _ _ _ _ => true
  | .tst _ _ x _ _ form n => decide ((form = 0 ∨ n = 0) ∧ (form = 1 ∨ x = 0))
  | .mma _ _ _ fa fb kk _ blk sa sb => decide (fmtPairOk fa fb ∧ 1 ≤ kk.toNat ∧ (blk = 0 ∨ (blkFmt fa ∧ blkFmt fb)) ∧ (blk = 1 ∨ (sa = 0 ∧ sb = 0)))
  | .mmag _ _ _ fa fb kk _ dec _ _ dd => decide (fmtPairOk fa fb ∧ 1 ≤ kk.toNat ∧ (dd = 1 ∨ dec = 0))
  | .mspill _ _ fmt _ => decide (fmt.toNat ≤ 2)
  | .mfill _ _ => true
  | .madd _ _ _ => true
  | .mmov _ ma z => decide ((z = 0 ∨ ma = 0))
  | .eadd _ _ _ fmt n => decide (1 ≤ n.toNat ∧ fmt.toNat ≤ 2)
  | .esub _ _ _ fmt n => decide (1 ≤ n.toNat ∧ fmt.toNat ≤ 2)
  | .emul _ _ _ fmt n => decide (1 ≤ n.toNat ∧ fmt.toNat ≤ 2)
  | .ema _ _ _ _ fmt n => decide (1 ≤ n.toNat ∧ fmt.toNat ≤ 2)
  | .emax _ _ _ fmt n => decide (1 ≤ n.toNat ∧ fmt.toNat ≤ 2)
  | .emin _ _ _ fmt n => decide (1 ≤ n.toNat ∧ fmt.toNat ≤ 2)
  | .ecvt _ _ src dst n rmode _ _ => decide (1 ≤ n.toNat ∧ src.toNat < 8 ∧ dst.toNat < 8 ∧ src ≠ dst ∧ rmode.toNat ≤ 4)
  | .eexp _ _ fmt n => decide (1 ≤ n.toNat ∧ fmt.toNat ≤ 2)
  | .ercp _ _ fmt n => decide (1 ≤ n.toNat ∧ fmt.toNat ≤ 2)
  | .ersq _ _ fmt n => decide (1 ≤ n.toNat ∧ fmt.toNat ≤ 2)
  | .etanh _ _ fmt n => decide (1 ≤ n.toNat ∧ fmt.toNat ≤ 2)
  | .esel _ _ _ _ fmt n => decide (1 ≤ n.toNat ∧ fmt.toNat ≤ 2)
  | .ecmp _ _ _ fmt n cond => decide (1 ≤ n.toNat ∧ fmt.toNat ≤ 2 ∧ cond.toNat ≤ 2)
  | .escale _ _ _ fmt n => decide (1 ≤ n.toNat ∧ fmt.toNat ≤ 2)
  | .elog2 _ _ fmt n => decide (1 ≤ n.toNat ∧ fmt.toNat ≤ 2)
  | .sred _ _ fmt n op => decide (1 ≤ n.toNat ∧ fmt.toNat ≤ 2 ∧ op.toNat ≤ 2)
  | .strn _ _ _ n => decide (1 ≤ n.toNat)
  | .sperm _ _ _ _ n => decide (1 ≤ n.toNat)
  | .sbc _ _ _ n => decide (1 ≤ n.toNat)
  | .sslice _ _ _ n _ => decide (1 ≤ n.toNat)
  | .sscan _ _ fmt n => decide (1 ≤ n.toNat ∧ fmt.toNat ≤ 2)
  | .sroll _ _ _ n _ => decide (1 ≤ n.toNat)
  | .sendt _ kind _ port _ => decide (kind.toNat ≤ 1 ∧ (kind = 1 ∨ port = 0))
  | .recvt _ kind _ port _ _ => decide (kind.toNat ≤ 1 ∧ (kind = 1 ∨ port = 0))
  | .launchSlotWrite vf slot size _ => decide (vf < 64 ∧ slot < 8 ∧ size ≤ 8)
  | .admitRecord _ => true
  | .launch _ => true
  | .drop _ => true
  | .abortLaunch vf => decide (vf < 64)
  | .clearOverrun vf => decide (vf < 64)
  | .partitionEntryWrite e _ => decide (e < 64)
  | .partitionRelease _ => true
  | .releaseComplete _ => true
  | .registerWrite _ _ _ _ => true
  | .faultRingConsumerWrite _ => true
  | .resolveRetry _ _ => true
  | .resolveFault _ _ => true
  | .stagingRetry cluster _ => decide (cluster < 48)
  | .stagingDiscard cluster _ => decide (cluster < 48)
  | .preempt _ => true
  | .restore _ => true
  | .saveComplete _ => true
  | .resume _ => true
  | .formGroup _ _ => true
  | .dissolveGroup => true
  | .linkTableEntry port _ => decide (port < 16)
  | .groupWord _ => true
  | .homingEntry _ n _ => decide (n < 64)
  | .translationEntry _ _ _ _ => true
  | .hostWindow _ _ _ => true
  | .peerAddress index _ => decide (index < 256)
  | .mcMaint ctl _ => decide (ctl < 48)
  | .requestSoftRepair ctl ch bank row => decide (ctl < 48 ∧ ch < 8 ∧ bank < 32 ∧ row < 65536)
  | .readErrorLog ctl index => decide (ctl < 48 ∧ index < 256)
  | .readHotness _ _ _ => true
  | .readIdentity => true
  | .stageFirmware _ _ _ => true
  | .unknownMailboxCommand _ => true
  | .hostBar2Write _ _ _ _ => true
  | .hostBar2Read _ _ _ => true
  | .bringUp _ _ _ _ => true
  | .powerWindow _ _ => true
  | .emergencyTrip => true
  | .linkFaultEvent port _ _ => decide (port < 16)
  | .linkLineArrives _ _ _ _ _ _ _ _ => true
  | .groupControlMessage _ => true
  | .groupLaunchStart _ => true
  | .peerRequestArrives _ => true
  | .peerReplyArrives _ _ _ _ => true
  | .rollCallFence _ _ _ => true
  | .budgetExceeded _ => true
  | .clearingClose _ _ _ _ => true
  | .holdBegins _ => true
  | .holdResume _ => true
  | .holdLimitExpires _ _ _ => true
  | .governorBoundary _ _ => true
  | .retrainBurst chan _ => decide (chan < 384)
  | .maintenanceSlot chan => decide (chan < 384)
  | .repairLatch _ _ _ _ => true
  | .timedLineRequest _ => true
  | .timedEffectLands _ _ _ => true
  | .preloadComplete _ => true
  | .overlayDrained _ => true
  | .overlaySwapBell _ => true
  | .residentSetChange _ => true
  | .launchFaultEnd _ => true
  | .launchRetires _ => true
  | .rearmComplete _ => true
  | .registerResultLands _ _ _ => true
  | .jobIdReturn _ _ _ => true
  | .accessComplete _ _ => true
  | .lateFault _ _ _ _ => true
  | .syncAccessArrives _ _ => true
  | .waiterPerforms _ => true
  | .napWake _ => true
  | .napTimeout _ _ => true
  | .migrationSend _ => true
  | .migrationArrival _ _ => true
  | .trapEntry _ => true
  | .taskDispatch _ _ => true
  | .taskStaged _ _ => true
  | .enqueueAccepted _ _ => true
  | .parkedCommandAccepted _ _ => true
  | .engineStep _ _ => true
  | .jobComplete _ _ => true
  | .streamPushLands _ _ _ _ _ => true
  | .packetArrives _ => true
  | .postPerforms _ _ _ _ _ _ _ => true
  | .asidClear _ _ => true
  | .asidDropAck _ _ _ _ _ => true
  | .hostTimeout _ _ => true
  | .resSlotNop _ _ => true
  | .invalidLaunchWord _ => true
  | .illegalInstruction _ => true
  | .fetchFault => true
  | .illegalStreamWord => true
  | .enqueueReachesQueue _ => true
  | .portQueueChunkEnters _ _ _ _ _ _ => true
  | .softError _ _ => true
  | .powerLoss _ => true

/-- R84: the four instructions that only a proctor context may issue. -/
def Instr.proctorOnly : Instr → Bool
  | .pbell _ _ _ | .pload _ _ _ | .phold _ _ _ | .pdrift _ _ _ => true
  | _ => false

end Sys2Proof
end

