-- ==== Sys2Proof/Decode.lean ====
section
/-! DEFINITION. The decoder of bundles and stream words (Tables 4.1-4.10), total on every word, and after it the
encoder written from the same tables. -/

namespace Sys2Proof

/-- Why a word does not decode (R81, R82, R84). -/
inductive DecodeError where
  /-- an opcode cell whose fate is ill -/
  | illCell (k : SlotKind)
  /-- an operand code, an unused field or a function value that the entry does not allow -/
  | badField (k : SlotKind)
  /-- a proctor-only opcode on a barrel core -/
  | proctorOnly
  /-- a V slot naming the scalar destination that its S slot also names -/
  | sameScalar
  deriving DecidableEq, Repr

/-- A decoded bundle (R77). -/
inductive Bundle where
  | paired (s v : Instr)
  | long (i : Instr)
  deriving DecidableEq, Repr

/-- The S slot, bits [62:32] (Table 4.1). -/
structure SFields where
  sop : BitVec 7
  neg : BitVec 1
  p   : BitVec 4
  d   : BitVec 5
  s   : BitVec 5
  t   : BitVec 5
  fn  : BitVec 4
  deriving DecidableEq, Repr

/-- The V slot, bits [31:0] (Table 4.1). -/
structure VFields where
  vop : BitVec 7
  alt : BitVec 1
  vm  : BitVec 3
  vd  : BitVec 7
  va  : BitVec 7
  vb  : BitVec 7
  deriving DecidableEq, Repr

/-- The long bundle below bit 63 (Table 4.2). -/
structure LFields where
  lop : BitVec 9
  neg : BitVec 1
  p   : BitVec 4
  d   : BitVec 5
  s   : BitVec 5
  x   : BitVec 5
  f   : BitVec 2
  imm : BitVec 32
  deriving DecidableEq, Repr

/-- A stream word (Table 4.9). -/
structure TFields where
  idle : BitVec 10
  op   : BitVec 8
  o    : BitVec 46
  deriving DecidableEq, Repr

def SFields.ofBits (w : BitVec 31) : SFields where
  sop := w.extractLsb' 24 7
  neg := w.extractLsb' 23 1
  p   := w.extractLsb' 19 4
  d   := w.extractLsb' 14 5
  s   := w.extractLsb' 9 5
  t   := w.extractLsb' 4 5
  fn  := w.extractLsb' 0 4

def SFields.toBits (f : SFields) : BitVec 31 := f.sop ++ (f.neg ++ (f.p ++ (f.d ++ (f.s ++ (f.t ++ f.fn)))))

def VFields.ofBits (w : BitVec 32) : VFields where
  vop := w.extractLsb' 25 7
  alt := w.extractLsb' 24 1
  vm  := w.extractLsb' 21 3
  vd  := w.extractLsb' 14 7
  va  := w.extractLsb' 7 7
  vb  := w.extractLsb' 0 7

def VFields.toBits (f : VFields) : BitVec 32 := f.vop ++ (f.alt ++ (f.vm ++ (f.vd ++ (f.va ++ f.vb))))

def LFields.ofBits (w : BitVec 63) : LFields where
  lop := w.extractLsb' 54 9
  neg := w.extractLsb' 53 1
  p   := w.extractLsb' 49 4
  d   := w.extractLsb' 44 5
  s   := w.extractLsb' 39 5
  x   := w.extractLsb' 34 5
  f   := w.extractLsb' 32 2
  imm := w.extractLsb' 0 32

def LFields.toBits (f : LFields) : BitVec 63 :=
  f.lop ++ (f.neg ++ (f.p ++ (f.d ++ (f.s ++ (f.x ++ (f.f ++ f.imm))))))

def TFields.ofBits (w : BitVec 64) : TFields where
  idle := w.extractLsb' 54 10
  op   := w.extractLsb' 46 8
  o    := w.extractLsb' 0 46

def TFields.toBits (f : TFields) : BitVec 64 := f.idle ++ (f.op ++ f.o)

/-- The guard of an S slot. -/
def SFields.g (f : SFields) : Guard := ⟨f.neg, f.p⟩
/-- The guard of a long bundle. -/
def LFields.g (f : LFields) : Guard := ⟨f.neg, f.p⟩
/-- imm9, bits [40:32]: t and fn together (R78). -/
def SFields.imm (f : SFields) : BitVec 9 := f.t ++ f.fn

/-- `i` where the fields its entry does not use are zero (R81). -/
def unused (zero : Bool) (i : Instr) : Option Instr := if zero then some i else none

/-- Table 4.5: the S slot by opcode, with its unused fields checked; none for a cell that is not an instruction. -/
def SFields.raw (f : SFields) : Option Instr :=
  match f.sop.toNat with
  | 0x00 => unused (f.d == 0 && f.s == 0 && f.t == 0 && f.fn == 0) (.nop f.g)
  | 0x01 => unused (true) (.add f.g f.d f.s f.t f.fn)
  | 0x02 => unused (true) (.sub f.g f.d f.s f.t f.fn)
  | 0x03 => unused (f.fn == 0) (.and f.g f.d f.s f.t)
  | 0x04 => unused (f.fn == 0) (.or f.g f.d f.s f.t)
  | 0x05 => unused (f.fn == 0) (.xor f.g f.d f.s f.t)
  | 0x06 => unused (f.fn == 0) (.andn f.g f.d f.s f.t)
  | 0x07 => unused (f.fn == 0) (.shl f.g f.d f.s f.t)
  | 0x08 => unused (f.fn == 0) (.shr f.g f.d f.s f.t)
  | 0x09 => unused (f.fn == 0) (.sar f.g f.d f.s f.t)
  | 0x0A => unused (f.fn == 0) (.mul f.g f.d f.s f.t)
  | 0x0B => unused (f.fn == 0) (.mulh f.g f.d f.s f.t)
  | 0x0C => unused (f.fn == 0) (.mulhw f.g f.d f.s f.t)
  | 0x0D => unused (f.fn == 0) (.min f.g f.d f.s f.t)
  | 0x0E => unused (f.fn == 0) (.max f.g f.d f.s f.t)
  | 0x0F => unused (f.fn == 0) (.minw f.g f.d f.s f.t)
  | 0x10 => unused (f.fn == 0) (.maxw f.g f.d f.s f.t)
  | 0x11 => unused (f.fn == 0) (.div f.g f.d f.s f.t)
  | 0x12 => unused (f.fn == 0) (.divw f.g f.d f.s f.t)
  | 0x13 => unused (f.fn == 0) (.rem f.g f.d f.s f.t)
  | 0x14 => unused (f.fn == 0) (.remw f.g f.d f.s f.t)
  | 0x15 => unused (f.t == 0 && f.fn == 0) (.mov f.g f.d f.s)
  | 0x16 => unused (f.t == 0 && f.fn == 0) (.clz f.g f.d f.s)
  | 0x17 => unused (f.t == 0 && f.fn == 0) (.popc f.g f.d f.s)
  | 0x18 => unused (f.fn == 0) (.ext f.g f.d f.s f.t)
  | 0x19 => unused (f.fn == 0) (.extw f.g f.d f.s f.t)
  | 0x1A => unused (f.fn == 0) (.rol f.g f.d f.s f.t)
  | 0x1B => unused (f.fn == 0) (.ror f.g f.d f.s f.t)
  | 0x1C => unused (f.t == 0 && f.fn == 0) (.bswap f.g f.d f.s)
  | 0x1D => unused (true) (.sel f.g f.d f.s f.t f.fn)
  | 0x20 => unused (true) (.addi f.g f.d f.s f.imm)
  | 0x21 => unused (true) (.andi f.g f.d f.s f.imm)
  | 0x22 => unused (true) (.ori f.g f.d f.s f.imm)
  | 0x23 => unused (true) (.xori f.g f.d f.s f.imm)
  | 0x24 => unused (true) (.shli f.g f.d f.s f.imm)
  | 0x25 => unused (true) (.shri f.g f.d f.s f.imm)
  | 0x26 => unused (true) (.sari f.g f.d f.s f.imm)
  | 0x27 => unused (true) (.muli f.g f.d f.s f.imm)
  | 0x28 => unused (f.s == 0) (.movi f.g f.d f.imm)
  | 0x29 => unused (true) (.mini f.g f.d f.s f.imm)
  | 0x2A => unused (true) (.maxi f.g f.d f.s f.imm)
  | 0x2B => unused (true) (.rori f.g f.d f.s f.imm)
  | 0x30 => unused (true) (.cmp f.g f.d f.s f.t f.fn)
  | 0x31 => unused (true) (.cmpiEq f.g f.d f.s f.imm)
  | 0x32 => unused (true) (.cmpiNe f.g f.d f.s f.imm)
  | 0x33 => unused (true) (.cmpiLt f.g f.d f.s f.imm)
  | 0x34 => unused (true) (.cmpiGe f.g f.d f.s f.imm)
  | 0x35 => unused (true) (.cmpiLtw f.g f.d f.s f.imm)
  | 0x36 => unused (true) (.cmpiGew f.g f.d f.s f.imm)
  | 0x37 => unused (f.fn == 0) (.pand f.g f.d f.s f.t)
  | 0x38 => unused (f.fn == 0) (.por f.g f.d f.s f.t)
  | 0x39 => unused (f.fn == 0) (.pxor f.g f.d f.s f.t)
  | 0x3A => unused (f.fn == 0) (.pandn f.g f.d f.s f.t)
  | 0x3B => unused (f.s == 0 && f.t == 0 && f.fn == 0) (.prd f.g f.d)
  | 0x3C => unused (f.d == 0 && f.t == 0 && f.fn == 0) (.pwr f.g f.s)
  | 0x40 => unused (true) (.ld f.g f.d f.s f.t f.fn)
  | 0x41 => unused (true) (.st f.g f.d f.s f.t f.fn)
  | 0x42 => unused (true) (.ldf f.g f.d f.s f.t f.fn)
  | 0x43 => unused (true) (.ldfe f.g f.d f.s f.t f.fn)
  | 0x44 => unused (true) (.stf f.g f.d f.s f.t f.fn)
  | 0x45 => unused (true) (.ste f.g f.d f.s f.t f.fn)
  | 0x46 => unused (f.d == 0) (.fill f.g f.s f.t f.fn)
  | 0x47 => unused (f.d == 0) (.empty f.g f.s f.t f.fn)
  | 0x48 => unused (f.fn == 0) (.watch f.g f.d f.s f.t)
  | 0x49 => unused (f.t == 0 && f.fn == 0) (.nap f.g f.d f.s)
  | 0x4A => unused (f.d == 0 && f.s == 0 && f.t == 0) (.fence f.g f.fn)
  | 0x4B => unused (true) (.semTake f.g f.d f.s f.t f.fn)
  | 0x4C => unused (true) (.semGive f.g f.d f.s f.t f.fn)
  | 0x50 => unused (f.d == 0 && f.t == 0 && f.fn == 0) (.jr f.g f.s)
  | 0x51 => unused (f.t == 0 && f.fn == 0) (.jrl f.g f.d f.s)
  | 0x52 => unused (f.d == 0 && f.s == 0 && f.t == 0 && f.fn == 0) (.yield f.g)
  | 0x53 => unused (f.d == 0 && f.s == 0 && f.t == 0 && f.fn == 0) (.roll f.g)
  | 0x54 => unused (f.d == 0 && f.s == 0 && f.t == 0 && f.fn == 0) (.texit f.g)
  | 0x55 => unused (f.d == 0 && f.s == 0 && f.t == 0) (.anchor f.g f.fn)
  | 0x56 => unused (f.s == 0 && f.t == 0 && f.fn == 0) (.tick f.g f.d)
  | 0x57 => unused (f.s == 0 && f.t == 0 && f.fn == 0) (.cycl f.g f.d)
  | 0x58 => unused (f.t == 0 && f.fn == 0) (.jwait f.g f.d f.s)
  | 0x59 => unused (f.t == 0 && f.fn == 0) (.jpoll f.g f.d f.s)
  | 0x5A => unused (f.t == 0 && f.fn == 0) (.rnd f.g f.d f.s)
  | _ => none

/-- Table 4.5: the cells whose fate is res (R83). -/
def sRes (op : Nat) : Bool :=
  [0x1e, 0x1f, 0x2c, 0x2d, 0x3d, 0x3e, 0x4d, 0x4e, 0x5b, 0x5c, 0x5d].contains op

/-- Table 4.5: the cells that hold an instruction. -/
def sOps : List Nat := [0x0, 0x1, 0x2, 0x3, 0x4, 0x5, 0x6, 0x7, 0x8, 0x9, 0xa, 0xb, 0xc, 0xd, 0xe, 0xf, 0x10, 0x11, 0x12, 0x13, 0x14, 0x15, 0x16, 0x17, 0x18, 0x19, 0x1a, 0x1b, 0x1c, 0x1d, 0x20, 0x21, 0x22, 0x23, 0x24, 0x25, 0x26, 0x27, 0x28, 0x29, 0x2a, 0x2b, 0x30, 0x31, 0x32, 0x33, 0x34, 0x35, 0x36, 0x37, 0x38, 0x39, 0x3a, 0x3b, 0x3c, 0x40, 0x41, 0x42, 0x43, 0x44, 0x45, 0x46, 0x47, 0x48, 0x49, 0x4a, 0x4b, 0x4c, 0x50, 0x51, 0x52, 0x53, 0x54, 0x55, 0x56, 0x57, 0x58, 0x59, 0x5a]

/-- Table 4.8: the long bundle by opcode. -/
noncomputable def LFields.raw (f : LFields) : Option Instr :=
  match f.lop.toNat with
  | 0x00 => unused (f.s == 0 && f.x == 0 && f.f == 0) (.li f.g f.d f.imm)
  | 0x01 => unused (f.s == 0 && f.x == 0 && f.f == 0) (.lih f.g f.d f.imm)
  | 0x02 => unused (f.x == 0 && f.f == 0) (.addl f.g f.d f.s f.imm)
  | 0x03 => unused (f.x == 0 && f.f == 0) (.andl f.g f.d f.s f.imm)
  | 0x04 => unused (f.x == 0 && f.f == 0) (.orl f.g f.d f.s f.imm)
  | 0x05 => unused (f.x == 0 && f.f == 0) (.xorl f.g f.d f.s f.imm)
  | 0x06 => unused (f.x == 0 && f.f == 0) (.mull f.g f.d f.s f.imm)
  | 0x07 => unused (true) (.ldl f.g f.d f.s f.x f.f f.imm)
  | 0x08 => unused (true) (.stl f.g f.d f.s f.x f.f f.imm)
  | 0x10 => unused (f.d == 0 && f.s == 0 && f.x == 0 && f.f == 0) (.br f.g f.imm)
  | 0x11 => unused (f.s == 0 && f.x == 0 && f.f == 0) (.call f.g f.d f.imm)
  | 0x20 => unused (true) (.rsv f.g f.d f.s f.x f.f f.imm)
  | 0x21 => unused (true) (.rls f.g f.d f.s f.x f.f f.imm)
  | 0x22 => unused (f.x == 0 && f.f == 0) (.dctr f.g f.d f.s f.imm)
  | 0x30 => unused (f.f == 0) (.tlook f.g f.d f.s f.x f.imm)
  | 0x31 => unused (f.f == 0 && f.imm == 0) (.tset f.g f.d f.s f.x)
  | 0x32 => unused (f.s == 0 && f.imm == 0) (.tdrop f.g f.d f.x f.f)
  | 0x40 => unused (f.f == 0) (.mjob f.g f.d f.s f.x f.imm)
  | 0x41 => unused (f.f == 0) (.mjobG f.g f.d f.s f.x f.imm)
  | 0x42 => unused (f.x == 0 && f.f == 0 && f.imm == 0) (.cjob f.g f.d f.s)
  | 0x43 => unused (f.x == 0 && f.f == 0 && f.imm == 0) (.gjob f.g f.d f.s)
  | 0x44 => unused (f.d == 0 && f.x == 0 && f.f == 0) (.pktOpen f.g f.s f.imm)
  | 0x45 => unused (f.d == 0 && f.imm == 0) (.pktAdd f.g f.s f.x f.f)
  | 0x46 => unused (f.d == 0 && f.imm == 0) (.pktEnd f.g f.s f.x f.f)
  | 0x47 => unused (f.x == 0 && f.f == 0 && f.imm == 0) (.matchTag f.g f.d f.s)
  | 0x48 => unused (f.f == 0) (.post f.g f.d f.s f.x f.imm)
  | 0x49 => unused (f.d == 0) (.sbind f.g f.s f.x f.f f.imm)
  | 0x4A => unused (f.d == 0 && f.s == 0 && f.f == 0 && f.imm == 0) (.ebind f.g f.x)
  | 0x50 => unused (f.d == 0) (.spawn f.g f.s f.x f.f f.imm)
  | 0x51 => unused (f.d == 0 && f.s == 0 && f.x == 0 && f.f == 0) (.trap f.g f.imm)
  | 0x52 => unused (f.d == 0 && f.s == 0 && f.x == 0 && f.f == 0 && f.imm == 0) (.rtt f.g)
  | 0x53 => unused (f.s == 0 && f.x == 0 && f.f == 0) (.crd f.g f.d f.imm)
  | 0x54 => unused (f.d == 0 && f.x == 0 && f.f == 0) (.cwr f.g f.s f.imm)
  | 0x55 => unused (f.d == 0 && f.x == 0 && f.f == 0 && f.imm == 0) (.asidBind f.g f.s)
  | 0x56 => unused (f.x == 0 && f.f == 0 && f.imm == 0) (.asidDrop f.g f.d f.s)
  | 0x60 => unused (f.d == 0 && f.f == 0 && f.imm == 0) (.pbell f.g f.s f.x)
  | 0x61 => unused (f.x == 0 && f.f == 0 && f.imm == 0) (.pload f.g f.d f.s)
  | 0x62 => unused (f.d == 0 && f.f == 0 && f.imm == 0) (.phold f.g f.s f.x)
  | 0x63 => unused (f.x == 0 && f.f == 0 && f.imm == 0) (.pdrift f.g f.d f.s)
  | _ => none

/-- Table 4.8: the cells whose fate is res. -/
def lRes (op : Nat) : Bool :=
  [0x9, 0xa, 0xb, 0x12, 0x13, 0x23, 0x33, 0x4b, 0x57, 0x64].contains op || (decide (0x70 ≤ op) && decide (op ≤ 0xFF))

/-- Table 4.8: the cells that hold an instruction. -/
def lOps : List Nat := [0x0, 0x1, 0x2, 0x3, 0x4, 0x5, 0x6, 0x7, 0x8, 0x10, 0x11, 0x20, 0x21, 0x22, 0x30, 0x31, 0x32, 0x40, 0x41, 0x42, 0x43, 0x44, 0x45, 0x46, 0x47, 0x48, 0x49, 0x4a, 0x50, 0x51, 0x52, 0x53, 0x54, 0x55, 0x56, 0x60, 0x61, 0x62, 0x63]

/-- Table 4.6: the V slot by opcode. -/
noncomputable def VFields.raw (f : VFields) : Option Instr :=
  match f.vop.toNat with
  | 0x00 => unused (f.alt == 0 && f.vm == 0 && f.vd == 0 && f.va == 0 && f.vb == 0) (.vnop)
  | 0x01 => unused (true) (.fadd f.alt f.vm f.vd f.va f.vb)
  | 0x02 => unused (true) (.fsub f.alt f.vm f.vd f.va f.vb)
  | 0x03 => unused (true) (.fmul f.alt f.vm f.vd f.va f.vb)
  | 0x04 => unused (true) (.fma f.alt f.vm f.vd f.va f.vb)
  | 0x05 => unused (true) (.fms f.alt f.vm f.vd f.va f.vb)
  | 0x06 => unused (true) (.fnma f.alt f.vm f.vd f.va f.vb)
  | 0x07 => unused (true) (.fnms f.alt f.vm f.vd f.va f.vb)
  | 0x08 => unused (true) (.fmin f.alt f.vm f.vd f.va f.vb)
  | 0x09 => unused (true) (.fmax f.alt f.vm f.vd f.va f.vb)
  | 0x0A => unused (f.vb == 0) (.fabs f.alt f.vm f.vd f.va)
  | 0x0B => unused (f.vb == 0) (.fneg f.alt f.vm f.vd f.va)
  | 0x0C => unused (true) (.fsgn f.alt f.vm f.vd f.va f.vb)
  | 0x0D => unused (true) (.fdiv f.alt f.vm f.vd f.va f.vb)
  | 0x0E => unused (f.vb == 0) (.fsqrt f.alt f.vm f.vd f.va)
  | 0x10 => unused (true) (.hadd f.alt f.vm f.vd f.va f.vb)
  | 0x11 => unused (true) (.hsub f.alt f.vm f.vd f.va f.vb)
  | 0x12 => unused (true) (.hmul f.alt f.vm f.vd f.va f.vb)
  | 0x13 => unused (true) (.hma f.alt f.vm f.vd f.va f.vb)
  | 0x14 => unused (true) (.hmin f.alt f.vm f.vd f.va f.vb)
  | 0x15 => unused (true) (.hmax f.alt f.vm f.vd f.va f.vb)
  | 0x16 => unused (true) (.hdot f.alt f.vm f.vd f.va f.vb)
  | 0x17 => unused (true) (.hcmpEq f.alt f.vm f.vd f.va f.vb)
  | 0x18 => unused (true) (.hcmpLt f.alt f.vm f.vd f.va f.vb)
  | 0x19 => unused (true) (.hcmpLe f.alt f.vm f.vd f.va f.vb)
  | 0x20 => unused (true) (.fcmpEq f.alt f.vm f.vd f.va f.vb)
  | 0x21 => unused (true) (.fcmpLt f.alt f.vm f.vd f.va f.vb)
  | 0x22 => unused (true) (.fcmpLe f.alt f.vm f.vd f.va f.vb)
  | 0x23 => unused (true) (.fcmpUn f.alt f.vm f.vd f.va f.vb)
  | 0x24 => unused (f.vb == 0) (.fclass f.alt f.vm f.vd f.va)
  | 0x25 => unused (true) (.vsel f.alt f.vm f.vd f.va f.vb)
  | 0x26 => unused (f.vb == 0) (.fsum f.alt f.vm f.vd f.va)
  | 0x27 => unused (f.vb == 0) (.fmaxr f.alt f.vm f.vd f.va)
  | 0x28 => unused (f.vb == 0) (.fminr f.alt f.vm f.vd f.va)
  | 0x29 => unused (f.vb == 0) (.fscan f.alt f.vm f.vd f.va)
  | 0x2A => unused (f.vb == 0) (.famaxr f.alt f.vm f.vd f.va)
  | 0x30 => unused (true) (.vaddW3216 f.alt f.vm f.vd f.va f.vb)
  | 0x31 => unused (true) (.vsubW3216 f.alt f.vm f.vd f.va f.vb)
  | 0x32 => unused (true) (.vmulW3216 f.alt f.vm f.vd f.va f.vb)
  | 0x33 => unused (true) (.vmulhW3216 f.alt f.vm f.vd f.va f.vb)
  | 0x34 => unused (true) (.vminW3216 f.alt f.vm f.vd f.va f.vb)
  | 0x35 => unused (true) (.vmaxW3216 f.alt f.vm f.vd f.va f.vb)
  | 0x36 => unused (true) (.vminwW3216 f.alt f.vm f.vd f.va f.vb)
  | 0x37 => unused (true) (.vmaxwW3216 f.alt f.vm f.vd f.va f.vb)
  | 0x38 => unused (true) (.vandW3216 f.alt f.vm f.vd f.va f.vb)
  | 0x39 => unused (true) (.vorW3216 f.alt f.vm f.vd f.va f.vb)
  | 0x3A => unused (true) (.vxorW3216 f.alt f.vm f.vd f.va f.vb)
  | 0x3B => unused (true) (.vandnW3216 f.alt f.vm f.vd f.va f.vb)
  | 0x3C => unused (true) (.vshlW3216 f.alt f.vm f.vd f.va f.vb)
  | 0x3D => unused (true) (.vshrW3216 f.alt f.vm f.vd f.va f.vb)
  | 0x3E => unused (true) (.vsarW3216 f.alt f.vm f.vd f.va f.vb)
  | 0x3F => unused (true) (.vaddsW3216 f.alt f.vm f.vd f.va f.vb)
  | 0x40 => unused (true) (.vaddW864 f.alt f.vm f.vd f.va f.vb)
  | 0x41 => unused (true) (.vsubW864 f.alt f.vm f.vd f.va f.vb)
  | 0x42 => unused (true) (.vmulW864 f.alt f.vm f.vd f.va f.vb)
  | 0x43 => unused (true) (.vmulhW864 f.alt f.vm f.vd f.va f.vb)
  | 0x44 => unused (true) (.vminW864 f.alt f.vm f.vd f.va f.vb)
  | 0x45 => unused (true) (.vmaxW864 f.alt f.vm f.vd f.va f.vb)
  | 0x46 => unused (true) (.vminwW864 f.alt f.vm f.vd f.va f.vb)
  | 0x47 => unused (true) (.vmaxwW864 f.alt f.vm f.vd f.va f.vb)
  | 0x48 => unused (true) (.vandW864 f.alt f.vm f.vd f.va f.vb)
  | 0x49 => unused (true) (.vorW864 f.alt f.vm f.vd f.va f.vb)
  | 0x4A => unused (true) (.vxorW864 f.alt f.vm f.vd f.va f.vb)
  | 0x4B => unused (true) (.vandnW864 f.alt f.vm f.vd f.va f.vb)
  | 0x4C => unused (true) (.vshlW864 f.alt f.vm f.vd f.va f.vb)
  | 0x4D => unused (true) (.vshrW864 f.alt f.vm f.vd f.va f.vb)
  | 0x4E => unused (true) (.vsarW864 f.alt f.vm f.vd f.va f.vb)
  | 0x4F => unused (true) (.vaddsW864 f.alt f.vm f.vd f.va f.vb)
  | 0x50 => unused (true) (.vcmpEq f.alt f.vm f.vd f.va f.vb)
  | 0x51 => unused (true) (.vcmpNe f.alt f.vm f.vd f.va f.vb)
  | 0x52 => unused (true) (.vcmpLt f.alt f.vm f.vd f.va f.vb)
  | 0x53 => unused (true) (.vcmpGe f.alt f.vm f.vd f.va f.vb)
  | 0x54 => unused (true) (.vcmpLtw f.alt f.vm f.vd f.va f.vb)
  | 0x55 => unused (true) (.vcmpGew f.alt f.vm f.vd f.va f.vb)
  | 0x56 => unused (f.vb == 0) (.isum f.alt f.vm f.vd f.va)
  | 0x57 => unused (f.vb == 0) (.imaxr f.alt f.vm f.vd f.va)
  | 0x58 => unused (f.vb == 0) (.iminr f.alt f.vm f.vd f.va)
  | 0x59 => unused (f.vb == 0) (.iscan f.alt f.vm f.vd f.va)
  | 0x5A => unused (f.vb == 0) (.vabs f.alt f.vm f.vd f.va)
  | 0x5B => unused (f.vb == 0) (.vneg f.alt f.vm f.vd f.va)
  | 0x60 => unused (true) (.cvtRn f.alt f.vm f.vd f.va f.vb)
  | 0x61 => unused (true) (.cvtRz f.alt f.vm f.vd f.va f.vb)
  | 0x62 => unused (true) (.cvtRu f.alt f.vm f.vd f.va f.vb)
  | 0x63 => unused (true) (.cvtRd f.alt f.vm f.vd f.va f.vb)
  | 0x64 => unused (true) (.cvtRs f.alt f.vm f.vd f.va f.vb)
  | 0x65 => unused (true) (.vperm f.alt f.vm f.vd f.va f.vb)
  | 0x66 => unused (true) (.vshuf f.alt f.vm f.vd f.va f.vb)
  | 0x67 => unused (f.vb == 0) (.vbcast f.alt f.vm f.vd f.va)
  | 0x68 => unused (f.vm == 0) (.vins f.alt f.vd f.va f.vb)
  | 0x69 => unused (f.vm == 0) (.vext f.alt f.vd f.va f.vb)
  | 0x6A => unused (f.vb == 0) (.vmov f.alt f.vm f.vd f.va)
  | 0x6B => unused (f.alt == 0 && f.vm == 0) (.mand f.vd f.va f.vb)
  | 0x6C => unused (f.alt == 0 && f.vm == 0) (.mor f.vd f.va f.vb)
  | 0x6D => unused (f.alt == 0 && f.vm == 0) (.mxor f.vd f.va f.vb)
  | 0x6E => unused (f.alt == 0 && f.vm == 0) (.mandn f.vd f.va f.vb)
  | 0x70 => unused (f.alt == 0 && f.vb == 0) (.fexp2 f.vm f.vd f.va)
  | 0x71 => unused (f.alt == 0 && f.vb == 0) (.flog2 f.vm f.vd f.va)
  | 0x72 => unused (f.alt == 0 && f.vb == 0) (.frcp f.vm f.vd f.va)
  | 0x73 => unused (f.alt == 0 && f.vb == 0) (.frsq f.vm f.vd f.va)
  | 0x74 => unused (f.alt == 0 && f.vb == 0) (.fsin f.vm f.vd f.va)
  | 0x75 => unused (f.alt == 0 && f.vb == 0) (.fcos f.vm f.vd f.va)
  | 0x76 => unused (f.alt == 0 && f.vb == 0) (.ftanh f.vm f.vd f.va)
  | 0x77 => unused (f.alt == 0 && f.vb == 0) (.fsigm f.vm f.vd f.va)
  | 0x78 => unused (f.alt == 0 && f.vb == 0) (.ferf f.vm f.vd f.va)
  | _ => none

/-- Table 4.6: the cells whose fate is res. -/
def vRes (op : Nat) : Bool :=
  [0xf, 0x1a, 0x1b, 0x2b, 0x2c, 0x5c, 0x5d, 0x6f, 0x79, 0x7a].contains op

/-- Table 4.6: the cells that hold an instruction. -/
def vOps : List Nat := [0x0, 0x1, 0x2, 0x3, 0x4, 0x5, 0x6, 0x7, 0x8, 0x9, 0xa, 0xb, 0xc, 0xd, 0xe, 0x10, 0x11, 0x12, 0x13, 0x14, 0x15, 0x16, 0x17, 0x18, 0x19, 0x20, 0x21, 0x22, 0x23, 0x24, 0x25, 0x26, 0x27, 0x28, 0x29, 0x2a, 0x30, 0x31, 0x32, 0x33, 0x34, 0x35, 0x36, 0x37, 0x38, 0x39, 0x3a, 0x3b, 0x3c, 0x3d, 0x3e, 0x3f, 0x40, 0x41, 0x42, 0x43, 0x44, 0x45, 0x46, 0x47, 0x48, 0x49, 0x4a, 0x4b, 0x4c, 0x4d, 0x4e, 0x4f, 0x50, 0x51, 0x52, 0x53, 0x54, 0x55, 0x56, 0x57, 0x58, 0x59, 0x5a, 0x5b, 0x60, 0x61, 0x62, 0x63, 0x64, 0x65, 0x66, 0x67, 0x68, 0x69, 0x6a, 0x6b, 0x6c, 0x6d, 0x6e, 0x70, 0x71, 0x72, 0x73, 0x74, 0x75, 0x76, 0x77, 0x78]

/-- Table 4.10: row 0x00, common to every engine. -/
def TFields.common (f : TFields) : Option Instr :=
  match f.op.toNat with
  | 0x00 => unused (f.o &&& 0x3FFFFFFFFFFF == 0) (.nopStream)
  | 0x01 => unused (f.o &&& 0x3F0000000000 == 0) (.wait (f.o.extractLsb' 0 40))
  | 0x02 => unused (f.o &&& 0x3FFFE000FFF0 == 0) (.loop (f.o.extractLsb' 0 3) (f.o.extractLsb' 3 1) (f.o.extractLsb' 16 13))
  | 0x03 => unused (f.o &&& 0x7F00000000 == 0) (.setta (f.o.extractLsb' 0 32) (f.o.extractLsb' 39 1) (f.o.extractLsb' 40 4) (f.o.extractLsb' 44 2))
  | 0x04 => unused (f.o &&& 0xFF00000000 == 0) (.addta (f.o.extractLsb' 0 32) (f.o.extractLsb' 40 4) (f.o.extractLsb' 44 2))
  | _ => none

/-- Table 4.10: row 0x10 of the control engine. -/
def TFields.control (f : TFields) : Option Instr :=
  match f.op.toNat with
  | 0x10 => unused (f.o &&& 0x3FFFFFFF0000 == 0) (.bell (f.o.extractLsb' 0 16))
  | 0x11 => unused (f.o &&& 0x3FFC00000000 == 0) (.brp (f.o.extractLsb' 0 4) (f.o.extractLsb' 4 4) (f.o.extractLsb' 8 13) (f.o.extractLsb' 21 13))
  | 0x12 => unused (true) (.clear (f.o.extractLsb' 0 16) (f.o.extractLsb' 16 12) (f.o.extractLsb' 28 18))
  | 0x13 => unused (f.o &&& 0x3FFFFFFFE000 == 0) (.chkp (f.o.extractLsb' 0 4) (f.o.extractLsb' 4 3) (f.o.extractLsb' 7 2) (f.o.extractLsb' 9 4))
  | 0x14 => unused (f.o &&& 0x3FFFFFFF0000 == 0) (.prept (f.o.extractLsb' 0 16))
  | 0x15 => unused (f.o &&& 0x3FFFFFF00000 == 0) (.region (f.o.extractLsb' 0 12) (f.o.extractLsb' 12 8))
  | 0x16 => unused (f.o &&& 0x3FFFF0000000 == 0) (.hold (f.o.extractLsb' 0 4) (f.o.extractLsb' 4 24))
  | 0x17 => unused (f.o &&& 0x3FFFFFFF0000 == 0) (.drift (f.o.extractLsb' 0 16))
  | 0x18 => unused (f.o &&& 0x3FFFFFFFFF80 == 0) (.rgeom (f.o.extractLsb' 0 4) (f.o.extractLsb' 4 3))
  | 0x19 => unused (f.o &&& 0x3FFFFFFF0000 == 0) (.halt (f.o.extractLsb' 0 16))
  | _ => none

/-- Table 4.10: row 0x10 of the fetch engine. -/
def TFields.fetch (f : TFields) : Option Instr :=
  match f.op.toNat with
  | 0x10 => unused (f.o &&& 0x3FFF80000000 == 0) (.tld (f.o.extractLsb' 0 4) (f.o.extractLsb' 4 4) (f.o.extractLsb' 8 4) (f.o.extractLsb' 12 4) (f.o.extractLsb' 16 1) (f.o.extractLsb' 17 1) (f.o.extractLsb' 18 1) (f.o.extractLsb' 19 12))
  | 0x11 => unused (f.o &&& 0x3FFF00000000 == 0) (.tldg (f.o.extractLsb' 0 4) (f.o.extractLsb' 4 4) (f.o.extractLsb' 8 4) (f.o.extractLsb' 12 4) (f.o.extractLsb' 16 1) (f.o.extractLsb' 17 1) (f.o.extractLsb' 18 10) (f.o.extractLsb' 28 4))
  | 0x12 => unused (f.o &&& 0x3FFFF0000000 == 0) (.tldr (f.o.extractLsb' 0 4) (f.o.extractLsb' 4 4) (f.o.extractLsb' 8 8) (f.o.extractLsb' 16 12))
  | _ => none

/-- Table 4.10: row 0x10 of the matrix engine. -/
def TFields.matrix (f : TFields) : Option Instr :=
  match f.op.toNat with
  | 0x10 => unused (f.o &&& 0x3FF000000000 == 0) (.mma (f.o.extractLsb' 0 3) (f.o.extractLsb' 3 4) (f.o.extractLsb' 7 4) (f.o.extractLsb' 11 3) (f.o.extractLsb' 14 3) (f.o.extractLsb' 17 9) (f.o.extractLsb' 26 1) (f.o.extractLsb' 27 1) (f.o.extractLsb' 28 4) (f.o.extractLsb' 32 4))
  | 0x11 => unused (f.o &&& 0x3FE000000000 == 0) (.mmag (f.o.extractLsb' 0 3) (f.o.extractLsb' 3 4) (f.o.extractLsb' 7 4) (f.o.extractLsb' 11 3) (f.o.extractLsb' 14 3) (f.o.extractLsb' 17 9) (f.o.extractLsb' 26 4) (f.o.extractLsb' 30 4) (f.o.extractLsb' 34 1) (f.o.extractLsb' 35 1) (f.o.extractLsb' 36 1))
  | 0x12 => unused (f.o &&& 0x3FFFFFFFFC00 == 0) (.mspill (f.o.extractLsb' 0 3) (f.o.extractLsb' 3 4) (f.o.extractLsb' 7 2) (f.o.extractLsb' 9 1))
  | 0x13 => unused (f.o &&& 0x3FFFFFFFFF80 == 0) (.mfill (f.o.extractLsb' 0 3) (f.o.extractLsb' 3 4))
  | 0x14 => unused (f.o &&& 0x3FFFFFFFFE00 == 0) (.madd (f.o.extractLsb' 0 3) (f.o.extractLsb' 3 3) (f.o.extractLsb' 6 3))
  | 0x15 => unused (f.o &&& 0x3FFFFFFFFF80 == 0) (.mmov (f.o.extractLsb' 0 3) (f.o.extractLsb' 3 3) (f.o.extractLsb' 6 1))
  | _ => none

/-- Table 4.10: row 0x10 of the vector engine. -/
def TFields.vector (f : TFields) : Option Instr :=
  match f.op.toNat with
  | 0x10 => unused (f.o &&& 0x3FFFC000F000 == 0) (.eadd (f.o.extractLsb' 0 4) (f.o.extractLsb' 4 4) (f.o.extractLsb' 8 4) (f.o.extractLsb' 16 2) (f.o.extractLsb' 18 12))
  | 0x11 => unused (f.o &&& 0x3FFFC000F000 == 0) (.esub (f.o.extractLsb' 0 4) (f.o.extractLsb' 4 4) (f.o.extractLsb' 8 4) (f.o.extractLsb' 16 2) (f.o.extractLsb' 18 12))
  | 0x12 => unused (f.o &&& 0x3FFFC000F000 == 0) (.emul (f.o.extractLsb' 0 4) (f.o.extractLsb' 4 4) (f.o.extractLsb' 8 4) (f.o.extractLsb' 16 2) (f.o.extractLsb' 18 12))
  | 0x13 => unused (f.o &&& 0x3FFFC0000000 == 0) (.ema (f.o.extractLsb' 0 4) (f.o.extractLsb' 4 4) (f.o.extractLsb' 8 4) (f.o.extractLsb' 12 4) (f.o.extractLsb' 16 2) (f.o.extractLsb' 18 12))
  | 0x14 => unused (f.o &&& 0x3FFFC000F000 == 0) (.emax (f.o.extractLsb' 0 4) (f.o.extractLsb' 4 4) (f.o.extractLsb' 8 4) (f.o.extractLsb' 16 2) (f.o.extractLsb' 18 12))
  | 0x15 => unused (f.o &&& 0x3FFFC000F000 == 0) (.emin (f.o.extractLsb' 0 4) (f.o.extractLsb' 4 4) (f.o.extractLsb' 8 4) (f.o.extractLsb' 16 2) (f.o.extractLsb' 18 12))
  | 0x16 => unused (f.o &&& 0x3C0000030000 == 0) (.ecvt (f.o.extractLsb' 0 4) (f.o.extractLsb' 4 4) (f.o.extractLsb' 8 4) (f.o.extractLsb' 12 4) (f.o.extractLsb' 18 12) (f.o.extractLsb' 30 3) (f.o.extractLsb' 33 1) (f.o.extractLsb' 34 8))
  | 0x17 => unused (f.o &&& 0x3FFFC000FF00 == 0) (.eexp (f.o.extractLsb' 0 4) (f.o.extractLsb' 4 4) (f.o.extractLsb' 16 2) (f.o.extractLsb' 18 12))
  | 0x18 => unused (f.o &&& 0x3FFFC000FF00 == 0) (.ercp (f.o.extractLsb' 0 4) (f.o.extractLsb' 4 4) (f.o.extractLsb' 16 2) (f.o.extractLsb' 18 12))
  | 0x19 => unused (f.o &&& 0x3FFFC000FF00 == 0) (.ersq (f.o.extractLsb' 0 4) (f.o.extractLsb' 4 4) (f.o.extractLsb' 16 2) (f.o.extractLsb' 18 12))
  | 0x1A => unused (f.o &&& 0x3FFFC000FF00 == 0) (.etanh (f.o.extractLsb' 0 4) (f.o.extractLsb' 4 4) (f.o.extractLsb' 16 2) (f.o.extractLsb' 18 12))
  | 0x1B => unused (f.o &&& 0x3FFFC0000000 == 0) (.esel (f.o.extractLsb' 0 4) (f.o.extractLsb' 4 4) (f.o.extractLsb' 8 4) (f.o.extractLsb' 12 4) (f.o.extractLsb' 16 2) (f.o.extractLsb' 18 12))
  | 0x1C => unused (f.o &&& 0x3FFF0000F000 == 0) (.ecmp (f.o.extractLsb' 0 4) (f.o.extractLsb' 4 4) (f.o.extractLsb' 8 4) (f.o.extractLsb' 16 2) (f.o.extractLsb' 18 12) (f.o.extractLsb' 30 2))
  | 0x1D => unused (f.o &&& 0x3FFFC000F000 == 0) (.escale (f.o.extractLsb' 0 4) (f.o.extractLsb' 4 4) (f.o.extractLsb' 8 4) (f.o.extractLsb' 16 2) (f.o.extractLsb' 18 12))
  | 0x1E => unused (f.o &&& 0x3FFFC000FF00 == 0) (.elog2 (f.o.extractLsb' 0 4) (f.o.extractLsb' 4 4) (f.o.extractLsb' 16 2) (f.o.extractLsb' 18 12))
  | _ => none

/-- Table 4.10: row 0x10 of the shape engine. -/
def TFields.shape (f : TFields) : Option Instr :=
  match f.op.toNat with
  | 0x10 => unused (f.o &&& 0x3FFF0000FF00 == 0) (.sred (f.o.extractLsb' 0 4) (f.o.extractLsb' 4 4) (f.o.extractLsb' 16 2) (f.o.extractLsb' 18 12) (f.o.extractLsb' 30 2))
  | 0x11 => unused (f.o &&& 0x3FFFC000FF00 == 0) (.strn (f.o.extractLsb' 0 4) (f.o.extractLsb' 4 4) (f.o.extractLsb' 16 2) (f.o.extractLsb' 18 12))
  | 0x12 => unused (f.o &&& 0x3FFFC000F000 == 0) (.sperm (f.o.extractLsb' 0 4) (f.o.extractLsb' 4 4) (f.o.extractLsb' 8 4) (f.o.extractLsb' 16 2) (f.o.extractLsb' 18 12))
  | 0x13 => unused (f.o &&& 0x3FFFC000FF00 == 0) (.sbc (f.o.extractLsb' 0 4) (f.o.extractLsb' 4 4) (f.o.extractLsb' 16 2) (f.o.extractLsb' 18 12))
  | 0x14 => unused (f.o &&& 0x3000C000FF00 == 0) (.sslice (f.o.extractLsb' 0 4) (f.o.extractLsb' 4 4) (f.o.extractLsb' 16 2) (f.o.extractLsb' 18 12) (f.o.extractLsb' 32 12))
  | 0x15 => unused (f.o &&& 0x3FFFC000FF00 == 0) (.sscan (f.o.extractLsb' 0 4) (f.o.extractLsb' 4 4) (f.o.extractLsb' 16 2) (f.o.extractLsb' 18 12))
  | 0x16 => unused (f.o &&& 0x3FE0C000FF00 == 0) (.sroll (f.o.extractLsb' 0 4) (f.o.extractLsb' 4 4) (f.o.extractLsb' 16 2) (f.o.extractLsb' 18 12) (f.o.extractLsb' 32 5))
  | _ => none

/-- Table 4.10: row 0x10 of the link engine. -/
def TFields.link (f : TFields) : Option Instr :=
  match f.op.toNat with
  | 0x10 => unused (f.o &&& 0x3FFFC0000000 == 0) (.sendt (f.o.extractLsb' 0 4) (f.o.extractLsb' 4 2) (f.o.extractLsb' 6 8) (f.o.extractLsb' 14 4) (f.o.extractLsb' 18 12))
  | 0x11 => unused (f.o &&& 0x3FFF80000000 == 0) (.recvt (f.o.extractLsb' 0 4) (f.o.extractLsb' 4 2) (f.o.extractLsb' 6 8) (f.o.extractLsb' 14 4) (f.o.extractLsb' 18 12) (f.o.extractLsb' 30 1))
  | _ => none

/-- Table 4.10: row 0x10 of the store engine. -/
def TFields.store (f : TFields) : Option Instr :=
  match f.op.toNat with
  | 0x10 => unused (f.o &&& 0x3FFF80020000 == 0) (.tst (f.o.extractLsb' 0 4) (f.o.extractLsb' 4 4) (f.o.extractLsb' 8 4) (f.o.extractLsb' 12 4) (f.o.extractLsb' 16 1) (f.o.extractLsb' 18 1) (f.o.extractLsb' 19 12))
  | _ => none

/-- Table 4.10: a stream word of engine `eng` (0 control to 6 store, Table 1.14). -/
def TFields.raw (eng : Nat) (f : TFields) : Option Instr :=
  if f.op.toNat < 0x10 then f.common else
  match eng with
  | 0 => f.control
  | 1 => f.fetch
  | 2 => f.matrix
  | 3 => f.vector
  | 4 => f.shape
  | 5 => f.link
  | 6 => f.store
  | _ => none

/-- Table 4.10: the cells whose fate is res, in the map of engine `eng`. -/
def tRes (eng op : Nat) : Bool :=
  [5, 6].contains op ||
  match eng with
  | 0 => [26, 27].contains op
  | 1 => [19].contains op
  | 2 => [22].contains op
  | 3 => [31].contains op
  | 4 => [23].contains op
  | 5 => [18].contains op
  | 6 => [17].contains op
  | _ => false

/-- An S slot, V slot or long bundle: its instruction when the cell holds one and its operands are legal; a
reserved cell as `resSlotNop` (R83); otherwise the reason. -/
def checked (k : SlotKind) (nv : Nat) (ops : List Nat) (res : Bool) (op : Nat) (bits : BitVec 64) (raw : Option Instr) :
    Except DecodeError Instr :=
  match raw with
  | some i => if i.WF nv then .ok i else .error (.badField k)
  | none => if res then .ok (.resSlotNop k bits) else if ops.contains op then .error (.badField k) else .error (.illCell k)

/-- The S slot of a bundle. -/
def decodeS (w : BitVec 31) : Except DecodeError Instr :=
  let f := SFields.ofBits w
  checked .s 128 sOps (sRes f.sop.toNat) f.sop.toNat (w.setWidth 64) f.raw

/-- The V slot of a bundle, for a thread with `nv` vector registers. -/
noncomputable def decodeV (nv : Nat) (w : BitVec 32) : Except DecodeError Instr :=
  let f := VFields.ofBits w
  checked .v nv vOps (vRes f.vop.toNat) f.vop.toNat (w.setWidth 64) f.raw

/-- A long bundle below bit 63. `proctor` says whether a proctor context issues it (R84). -/
noncomputable def decodeL (nv : Nat) (proctor : Bool) (w : BitVec 63) : Except DecodeError Instr :=
  let f := LFields.ofBits w
  match checked .long nv lOps (lRes f.lop.toNat) f.lop.toNat (w.setWidth 64) f.raw with
  | .ok i => if i.proctorOnly && !proctor then .error .proctorOnly else .ok i
  | .error e => .error e

/-- A stream word of engine `eng` (R86-R89). -/
def decodeT (eng : Nat) (w : BitVec 64) : Except DecodeError StreamWord :=
  let f := TFields.ofBits w
  match f.raw eng with
  | some i => if i.WF 0 then .ok ⟨f.idle, i⟩ else .error (.badField .stream)
  | none => if tRes eng f.op.toNat then .ok ⟨f.idle, .resSlotNop .stream w⟩ else .error (.illCell .stream)

/-- R82: the scalar register an S-slot instruction writes. -/
def Instr.sScalarDest : Instr → Option (BitVec 5)
  | .add _ d _ _ _ => some d
  | .sub _ d _ _ _ => some d
  | .and _ d _ _ => some d
  | .or _ d _ _ => some d
  | .xor _ d _ _ => some d
  | .andn _ d _ _ => some d
  | .shl _ d _ _ => some d
  | .shr _ d _ _ => some d
  | .sar _ d _ _ => some d
  | .mul _ d _ _ => some d
  | .mulh _ d _ _ => some d
  | .mulhw _ d _ _ => some d
  | .min _ d _ _ => some d
  | .max _ d _ _ => some d
  | .minw _ d _ _ => some d
  | .maxw _ d _ _ => some d
  | .div _ d _ _ => some d
  | .divw _ d _ _ => some d
  | .rem _ d _ _ => some d
  | .remw _ d _ _ => some d
  | .mov _ d _ => some d
  | .clz _ d _ => some d
  | .popc _ d _ => some d
  | .ext _ d _ _ => some d
  | .extw _ d _ _ => some d
  | .rol _ d _ _ => some d
  | .ror _ d _ _ => some d
  | .bswap _ d _ => some d
  | .sel _ d _ _ _ => some d
  | .addi _ d _ _ => some d
  | .andi _ d _ _ => some d
  | .ori _ d _ _ => some d
  | .xori _ d _ _ => some d
  | .shli _ d _ _ => some d
  | .shri _ d _ _ => some d
  | .sari _ d _ _ => some d
  | .muli _ d _ _ => some d
  | .movi _ d _ => some d
  | .mini _ d _ _ => some d
  | .maxi _ d _ _ => some d
  | .rori _ d _ _ => some d
  | .prd _ d => some d
  | .ld _ d _ _ _ => some d
  | .ldf _ d _ _ _ => some d
  | .ldfe _ d _ _ _ => some d
  | .watch _ d _ _ => some d
  | .nap _ d _ => some d
  | .semTake _ d _ _ _ => some d
  | .semGive _ d _ _ _ => some d
  | .jrl _ d _ => some d
  | .tick _ d => some d
  | .cycl _ d => some d
  | .jwait _ d _ => some d
  | .jpoll _ d _ => some d
  | .rnd _ d _ => some d
  | _ => none

/-- R82: whether S and V name one scalar destination other than `zr` (only `vext` names one in the V slot). -/
def scalarClash (s v : Instr) : Bool :=
  match v with
  | .vext _ vd _ _ =>
    match s.sScalarDest with
    | some d => d.toNat == vd.toNat && d.toNat != 24
    | none => false
  | _ => false

/-- R77: a core bundle. The S slot is checked before the V slot (R81). -/
noncomputable def decodeBundle (nv : Nat) (proctor : Bool) (w : BitVec 64) : Except DecodeError Bundle :=
  if w.getLsbD 63 then
    match decodeL nv proctor (w.extractLsb' 0 63) with
    | .ok i => .ok (.long i)
    | .error e => .error e
  else
    match decodeS (w.extractLsb' 32 31) with
    | .error e => .error e
    | .ok s =>
      match decodeV nv (w.extractLsb' 0 32) with
      | .error e => .error e
      | .ok v => if scalarClash s v then .error .sameScalar else .ok (.paired s v)

/-- The slot a decoding error names in the fault's info (R81: S before V). -/
def DecodeError.slot : DecodeError → SlotKind
  | .illCell k | .badField k => k
  | .proctorOnly => .long
  | .sameScalar => .v

/-- The instruction of a table word (the host's numbering: bit 0 of the first word lowest). A bundle whose other slot
is the no-op stands for the instruction of its one slot. -/
noncomputable def decodeTableWord (nbits w : Nat) : Option Instr :=
  if nbits ≤ 64 then
    match decodeBundle 128 true (BitVec.ofNat 64 (w % 2 ^ nbits)) with
    | .ok (.long i) => some i
    | .ok (.paired (.nop g) v) => if g = ⟨0, 0⟩ then some v else if v = .vnop then some (.nop g) else none
    | .ok (.paired s .vnop) => some s
    | _ => none
  else none

/-! The encoder. -/

/-- Table 4.5. -/
def Instr.sFields : Instr → Option SFields
  | .nop g => some ⟨0x00, g.neg, g.p, 0, 0, 0, 0⟩
  | .add g d s t fn => some ⟨0x01, g.neg, g.p, d, s, t, fn⟩
  | .sub g d s t fn => some ⟨0x02, g.neg, g.p, d, s, t, fn⟩
  | .and g d s t => some ⟨0x03, g.neg, g.p, d, s, t, 0⟩
  | .or g d s t => some ⟨0x04, g.neg, g.p, d, s, t, 0⟩
  | .xor g d s t => some ⟨0x05, g.neg, g.p, d, s, t, 0⟩
  | .andn g d s t => some ⟨0x06, g.neg, g.p, d, s, t, 0⟩
  | .shl g d s t => some ⟨0x07, g.neg, g.p, d, s, t, 0⟩
  | .shr g d s t => some ⟨0x08, g.neg, g.p, d, s, t, 0⟩
  | .sar g d s t => some ⟨0x09, g.neg, g.p, d, s, t, 0⟩
  | .mul g d s t => some ⟨0x0A, g.neg, g.p, d, s, t, 0⟩
  | .mulh g d s t => some ⟨0x0B, g.neg, g.p, d, s, t, 0⟩
  | .mulhw g d s t => some ⟨0x0C, g.neg, g.p, d, s, t, 0⟩
  | .min g d s t => some ⟨0x0D, g.neg, g.p, d, s, t, 0⟩
  | .max g d s t => some ⟨0x0E, g.neg, g.p, d, s, t, 0⟩
  | .minw g d s t => some ⟨0x0F, g.neg, g.p, d, s, t, 0⟩
  | .maxw g d s t => some ⟨0x10, g.neg, g.p, d, s, t, 0⟩
  | .div g d s t => some ⟨0x11, g.neg, g.p, d, s, t, 0⟩
  | .divw g d s t => some ⟨0x12, g.neg, g.p, d, s, t, 0⟩
  | .rem g d s t => some ⟨0x13, g.neg, g.p, d, s, t, 0⟩
  | .remw g d s t => some ⟨0x14, g.neg, g.p, d, s, t, 0⟩
  | .mov g d s => some ⟨0x15, g.neg, g.p, d, s, 0, 0⟩
  | .clz g d s => some ⟨0x16, g.neg, g.p, d, s, 0, 0⟩
  | .popc g d s => some ⟨0x17, g.neg, g.p, d, s, 0, 0⟩
  | .ext g d s t => some ⟨0x18, g.neg, g.p, d, s, t, 0⟩
  | .extw g d s t => some ⟨0x19, g.neg, g.p, d, s, t, 0⟩
  | .rol g d s t => some ⟨0x1A, g.neg, g.p, d, s, t, 0⟩
  | .ror g d s t => some ⟨0x1B, g.neg, g.p, d, s, t, 0⟩
  | .bswap g d s => some ⟨0x1C, g.neg, g.p, d, s, 0, 0⟩
  | .sel g d s t fn => some ⟨0x1D, g.neg, g.p, d, s, t, fn⟩
  | .addi g d s imm => some ⟨0x20, g.neg, g.p, d, s, imm.extractLsb' 4 5, imm.extractLsb' 0 4⟩
  | .andi g d s imm => some ⟨0x21, g.neg, g.p, d, s, imm.extractLsb' 4 5, imm.extractLsb' 0 4⟩
  | .ori g d s imm => some ⟨0x22, g.neg, g.p, d, s, imm.extractLsb' 4 5, imm.extractLsb' 0 4⟩
  | .xori g d s imm => some ⟨0x23, g.neg, g.p, d, s, imm.extractLsb' 4 5, imm.extractLsb' 0 4⟩
  | .shli g d s imm => some ⟨0x24, g.neg, g.p, d, s, imm.extractLsb' 4 5, imm.extractLsb' 0 4⟩
  | .shri g d s imm => some ⟨0x25, g.neg, g.p, d, s, imm.extractLsb' 4 5, imm.extractLsb' 0 4⟩
  | .sari g d s imm => some ⟨0x26, g.neg, g.p, d, s, imm.extractLsb' 4 5, imm.extractLsb' 0 4⟩
  | .muli g d s imm => some ⟨0x27, g.neg, g.p, d, s, imm.extractLsb' 4 5, imm.extractLsb' 0 4⟩
  | .movi g d imm => some ⟨0x28, g.neg, g.p, d, 0, imm.extractLsb' 4 5, imm.extractLsb' 0 4⟩
  | .mini g d s imm => some ⟨0x29, g.neg, g.p, d, s, imm.extractLsb' 4 5, imm.extractLsb' 0 4⟩
  | .maxi g d s imm => some ⟨0x2A, g.neg, g.p, d, s, imm.extractLsb' 4 5, imm.extractLsb' 0 4⟩
  | .rori g d s imm => some ⟨0x2B, g.neg, g.p, d, s, imm.extractLsb' 4 5, imm.extractLsb' 0 4⟩
  | .cmp g d s t fn => some ⟨0x30, g.neg, g.p, d, s, t, fn⟩
  | .cmpiEq g d s imm => some ⟨0x31, g.neg, g.p, d, s, imm.extractLsb' 4 5, imm.extractLsb' 0 4⟩
  | .cmpiNe g d s imm => some ⟨0x32, g.neg, g.p, d, s, imm.extractLsb' 4 5, imm.extractLsb' 0 4⟩
  | .cmpiLt g d s imm => some ⟨0x33, g.neg, g.p, d, s, imm.extractLsb' 4 5, imm.extractLsb' 0 4⟩
  | .cmpiGe g d s imm => some ⟨0x34, g.neg, g.p, d, s, imm.extractLsb' 4 5, imm.extractLsb' 0 4⟩
  | .cmpiLtw g d s imm => some ⟨0x35, g.neg, g.p, d, s, imm.extractLsb' 4 5, imm.extractLsb' 0 4⟩
  | .cmpiGew g d s imm => some ⟨0x36, g.neg, g.p, d, s, imm.extractLsb' 4 5, imm.extractLsb' 0 4⟩
  | .pand g d s t => some ⟨0x37, g.neg, g.p, d, s, t, 0⟩
  | .por g d s t => some ⟨0x38, g.neg, g.p, d, s, t, 0⟩
  | .pxor g d s t => some ⟨0x39, g.neg, g.p, d, s, t, 0⟩
  | .pandn g d s t => some ⟨0x3A, g.neg, g.p, d, s, t, 0⟩
  | .prd g d => some ⟨0x3B, g.neg, g.p, d, 0, 0, 0⟩
  | .pwr g s => some ⟨0x3C, g.neg, g.p, 0, s, 0, 0⟩
  | .ld g d s t fn => some ⟨0x40, g.neg, g.p, d, s, t, fn⟩
  | .st g d s t fn => some ⟨0x41, g.neg, g.p, d, s, t, fn⟩
  | .ldf g d s t fn => some ⟨0x42, g.neg, g.p, d, s, t, fn⟩
  | .ldfe g d s t fn => some ⟨0x43, g.neg, g.p, d, s, t, fn⟩
  | .stf g d s t fn => some ⟨0x44, g.neg, g.p, d, s, t, fn⟩
  | .ste g d s t fn => some ⟨0x45, g.neg, g.p, d, s, t, fn⟩
  | .fill g s t fn => some ⟨0x46, g.neg, g.p, 0, s, t, fn⟩
  | .empty g s t fn => some ⟨0x47, g.neg, g.p, 0, s, t, fn⟩
  | .watch g d s t => some ⟨0x48, g.neg, g.p, d, s, t, 0⟩
  | .nap g d s => some ⟨0x49, g.neg, g.p, d, s, 0, 0⟩
  | .fence g fn => some ⟨0x4A, g.neg, g.p, 0, 0, 0, fn⟩
  | .semTake g d s t fn => some ⟨0x4B, g.neg, g.p, d, s, t, fn⟩
  | .semGive g d s t fn => some ⟨0x4C, g.neg, g.p, d, s, t, fn⟩
  | .jr g s => some ⟨0x50, g.neg, g.p, 0, s, 0, 0⟩
  | .jrl g d s => some ⟨0x51, g.neg, g.p, d, s, 0, 0⟩
  | .yield g => some ⟨0x52, g.neg, g.p, 0, 0, 0, 0⟩
  | .roll g => some ⟨0x53, g.neg, g.p, 0, 0, 0, 0⟩
  | .texit g => some ⟨0x54, g.neg, g.p, 0, 0, 0, 0⟩
  | .anchor g fn => some ⟨0x55, g.neg, g.p, 0, 0, 0, fn⟩
  | .tick g d => some ⟨0x56, g.neg, g.p, d, 0, 0, 0⟩
  | .cycl g d => some ⟨0x57, g.neg, g.p, d, 0, 0, 0⟩
  | .jwait g d s => some ⟨0x58, g.neg, g.p, d, s, 0, 0⟩
  | .jpoll g d s => some ⟨0x59, g.neg, g.p, d, s, 0, 0⟩
  | .rnd g d s => some ⟨0x5A, g.neg, g.p, d, s, 0, 0⟩
  | _ => none

/-- Table 4.8. -/
def Instr.lFields : Instr → Option LFields
  | .li g d imm => some ⟨0x00, g.neg, g.p, d, 0, 0, 0, imm⟩
  | .lih g d imm => some ⟨0x01, g.neg, g.p, d, 0, 0, 0, imm⟩
  | .addl g d s imm => some ⟨0x02, g.neg, g.p, d, s, 0, 0, imm⟩
  | .andl g d s imm => some ⟨0x03, g.neg, g.p, d, s, 0, 0, imm⟩
  | .orl g d s imm => some ⟨0x04, g.neg, g.p, d, s, 0, 0, imm⟩
  | .xorl g d s imm => some ⟨0x05, g.neg, g.p, d, s, 0, 0, imm⟩
  | .mull g d s imm => some ⟨0x06, g.neg, g.p, d, s, 0, 0, imm⟩
  | .ldl g d s x f imm => some ⟨0x07, g.neg, g.p, d, s, x, f, imm⟩
  | .stl g d s x f imm => some ⟨0x08, g.neg, g.p, d, s, x, f, imm⟩
  | .br g imm => some ⟨0x10, g.neg, g.p, 0, 0, 0, 0, imm⟩
  | .call g d imm => some ⟨0x11, g.neg, g.p, d, 0, 0, 0, imm⟩
  | .rsv g d s x f imm => some ⟨0x20, g.neg, g.p, d, s, x, f, imm⟩
  | .rls g d s x f imm => some ⟨0x21, g.neg, g.p, d, s, x, f, imm⟩
  | .dctr g d s imm => some ⟨0x22, g.neg, g.p, d, s, 0, 0, imm⟩
  | .tlook g d s x imm => some ⟨0x30, g.neg, g.p, d, s, x, 0, imm⟩
  | .tset g d s x => some ⟨0x31, g.neg, g.p, d, s, x, 0, 0⟩
  | .tdrop g d x f => some ⟨0x32, g.neg, g.p, d, 0, x, f, 0⟩
  | .mjob g d s x imm => some ⟨0x40, g.neg, g.p, d, s, x, 0, imm⟩
  | .mjobG g d s x imm => some ⟨0x41, g.neg, g.p, d, s, x, 0, imm⟩
  | .cjob g d s => some ⟨0x42, g.neg, g.p, d, s, 0, 0, 0⟩
  | .gjob g d s => some ⟨0x43, g.neg, g.p, d, s, 0, 0, 0⟩
  | .pktOpen g s imm => some ⟨0x44, g.neg, g.p, 0, s, 0, 0, imm⟩
  | .pktAdd g s x f => some ⟨0x45, g.neg, g.p, 0, s, x, f, 0⟩
  | .pktEnd g s x f => some ⟨0x46, g.neg, g.p, 0, s, x, f, 0⟩
  | .matchTag g d s => some ⟨0x47, g.neg, g.p, d, s, 0, 0, 0⟩
  | .post g d s x imm => some ⟨0x48, g.neg, g.p, d, s, x, 0, imm⟩
  | .sbind g s x f imm => some ⟨0x49, g.neg, g.p, 0, s, x, f, imm⟩
  | .ebind g x => some ⟨0x4A, g.neg, g.p, 0, 0, x, 0, 0⟩
  | .spawn g s x f imm => some ⟨0x50, g.neg, g.p, 0, s, x, f, imm⟩
  | .trap g imm => some ⟨0x51, g.neg, g.p, 0, 0, 0, 0, imm⟩
  | .rtt g => some ⟨0x52, g.neg, g.p, 0, 0, 0, 0, 0⟩
  | .crd g d imm => some ⟨0x53, g.neg, g.p, d, 0, 0, 0, imm⟩
  | .cwr g s imm => some ⟨0x54, g.neg, g.p, 0, s, 0, 0, imm⟩
  | .asidBind g s => some ⟨0x55, g.neg, g.p, 0, s, 0, 0, 0⟩
  | .asidDrop g d s => some ⟨0x56, g.neg, g.p, d, s, 0, 0, 0⟩
  | .pbell g s x => some ⟨0x60, g.neg, g.p, 0, s, x, 0, 0⟩
  | .pload g d s => some ⟨0x61, g.neg, g.p, d, s, 0, 0, 0⟩
  | .phold g s x => some ⟨0x62, g.neg, g.p, 0, s, x, 0, 0⟩
  | .pdrift g d s => some ⟨0x63, g.neg, g.p, d, s, 0, 0, 0⟩
  | _ => none

/-- Table 4.6. -/
def Instr.vFields : Instr → Option VFields
  | .vnop => some ⟨0x00, 0, 0, 0, 0, 0⟩
  | .fadd alt vm vd va vb => some ⟨0x01, alt, vm, vd, va, vb⟩
  | .fsub alt vm vd va vb => some ⟨0x02, alt, vm, vd, va, vb⟩
  | .fmul alt vm vd va vb => some ⟨0x03, alt, vm, vd, va, vb⟩
  | .fma alt vm vd va vb => some ⟨0x04, alt, vm, vd, va, vb⟩
  | .fms alt vm vd va vb => some ⟨0x05, alt, vm, vd, va, vb⟩
  | .fnma alt vm vd va vb => some ⟨0x06, alt, vm, vd, va, vb⟩
  | .fnms alt vm vd va vb => some ⟨0x07, alt, vm, vd, va, vb⟩
  | .fmin alt vm vd va vb => some ⟨0x08, alt, vm, vd, va, vb⟩
  | .fmax alt vm vd va vb => some ⟨0x09, alt, vm, vd, va, vb⟩
  | .fabs alt vm vd va => some ⟨0x0A, alt, vm, vd, va, 0⟩
  | .fneg alt vm vd va => some ⟨0x0B, alt, vm, vd, va, 0⟩
  | .fsgn alt vm vd va vb => some ⟨0x0C, alt, vm, vd, va, vb⟩
  | .fdiv alt vm vd va vb => some ⟨0x0D, alt, vm, vd, va, vb⟩
  | .fsqrt alt vm vd va => some ⟨0x0E, alt, vm, vd, va, 0⟩
  | .hadd alt vm vd va vb => some ⟨0x10, alt, vm, vd, va, vb⟩
  | .hsub alt vm vd va vb => some ⟨0x11, alt, vm, vd, va, vb⟩
  | .hmul alt vm vd va vb => some ⟨0x12, alt, vm, vd, va, vb⟩
  | .hma alt vm vd va vb => some ⟨0x13, alt, vm, vd, va, vb⟩
  | .hmin alt vm vd va vb => some ⟨0x14, alt, vm, vd, va, vb⟩
  | .hmax alt vm vd va vb => some ⟨0x15, alt, vm, vd, va, vb⟩
  | .hdot alt vm vd va vb => some ⟨0x16, alt, vm, vd, va, vb⟩
  | .hcmpEq alt vm vd va vb => some ⟨0x17, alt, vm, vd, va, vb⟩
  | .hcmpLt alt vm vd va vb => some ⟨0x18, alt, vm, vd, va, vb⟩
  | .hcmpLe alt vm vd va vb => some ⟨0x19, alt, vm, vd, va, vb⟩
  | .fcmpEq alt vm vd va vb => some ⟨0x20, alt, vm, vd, va, vb⟩
  | .fcmpLt alt vm vd va vb => some ⟨0x21, alt, vm, vd, va, vb⟩
  | .fcmpLe alt vm vd va vb => some ⟨0x22, alt, vm, vd, va, vb⟩
  | .fcmpUn alt vm vd va vb => some ⟨0x23, alt, vm, vd, va, vb⟩
  | .fclass alt vm vd va => some ⟨0x24, alt, vm, vd, va, 0⟩
  | .vsel alt vm vd va vb => some ⟨0x25, alt, vm, vd, va, vb⟩
  | .fsum alt vm vd va => some ⟨0x26, alt, vm, vd, va, 0⟩
  | .fmaxr alt vm vd va => some ⟨0x27, alt, vm, vd, va, 0⟩
  | .fminr alt vm vd va => some ⟨0x28, alt, vm, vd, va, 0⟩
  | .fscan alt vm vd va => some ⟨0x29, alt, vm, vd, va, 0⟩
  | .famaxr alt vm vd va => some ⟨0x2A, alt, vm, vd, va, 0⟩
  | .vaddW3216 alt vm vd va vb => some ⟨0x30, alt, vm, vd, va, vb⟩
  | .vsubW3216 alt vm vd va vb => some ⟨0x31, alt, vm, vd, va, vb⟩
  | .vmulW3216 alt vm vd va vb => some ⟨0x32, alt, vm, vd, va, vb⟩
  | .vmulhW3216 alt vm vd va vb => some ⟨0x33, alt, vm, vd, va, vb⟩
  | .vminW3216 alt vm vd va vb => some ⟨0x34, alt, vm, vd, va, vb⟩
  | .vmaxW3216 alt vm vd va vb => some ⟨0x35, alt, vm, vd, va, vb⟩
  | .vminwW3216 alt vm vd va vb => some ⟨0x36, alt, vm, vd, va, vb⟩
  | .vmaxwW3216 alt vm vd va vb => some ⟨0x37, alt, vm, vd, va, vb⟩
  | .vandW3216 alt vm vd va vb => some ⟨0x38, alt, vm, vd, va, vb⟩
  | .vorW3216 alt vm vd va vb => some ⟨0x39, alt, vm, vd, va, vb⟩
  | .vxorW3216 alt vm vd va vb => some ⟨0x3A, alt, vm, vd, va, vb⟩
  | .vandnW3216 alt vm vd va vb => some ⟨0x3B, alt, vm, vd, va, vb⟩
  | .vshlW3216 alt vm vd va vb => some ⟨0x3C, alt, vm, vd, va, vb⟩
  | .vshrW3216 alt vm vd va vb => some ⟨0x3D, alt, vm, vd, va, vb⟩
  | .vsarW3216 alt vm vd va vb => some ⟨0x3E, alt, vm, vd, va, vb⟩
  | .vaddsW3216 alt vm vd va vb => some ⟨0x3F, alt, vm, vd, va, vb⟩
  | .vaddW864 alt vm vd va vb => some ⟨0x40, alt, vm, vd, va, vb⟩
  | .vsubW864 alt vm vd va vb => some ⟨0x41, alt, vm, vd, va, vb⟩
  | .vmulW864 alt vm vd va vb => some ⟨0x42, alt, vm, vd, va, vb⟩
  | .vmulhW864 alt vm vd va vb => some ⟨0x43, alt, vm, vd, va, vb⟩
  | .vminW864 alt vm vd va vb => some ⟨0x44, alt, vm, vd, va, vb⟩
  | .vmaxW864 alt vm vd va vb => some ⟨0x45, alt, vm, vd, va, vb⟩
  | .vminwW864 alt vm vd va vb => some ⟨0x46, alt, vm, vd, va, vb⟩
  | .vmaxwW864 alt vm vd va vb => some ⟨0x47, alt, vm, vd, va, vb⟩
  | .vandW864 alt vm vd va vb => some ⟨0x48, alt, vm, vd, va, vb⟩
  | .vorW864 alt vm vd va vb => some ⟨0x49, alt, vm, vd, va, vb⟩
  | .vxorW864 alt vm vd va vb => some ⟨0x4A, alt, vm, vd, va, vb⟩
  | .vandnW864 alt vm vd va vb => some ⟨0x4B, alt, vm, vd, va, vb⟩
  | .vshlW864 alt vm vd va vb => some ⟨0x4C, alt, vm, vd, va, vb⟩
  | .vshrW864 alt vm vd va vb => some ⟨0x4D, alt, vm, vd, va, vb⟩
  | .vsarW864 alt vm vd va vb => some ⟨0x4E, alt, vm, vd, va, vb⟩
  | .vaddsW864 alt vm vd va vb => some ⟨0x4F, alt, vm, vd, va, vb⟩
  | .vcmpEq alt vm vd va vb => some ⟨0x50, alt, vm, vd, va, vb⟩
  | .vcmpNe alt vm vd va vb => some ⟨0x51, alt, vm, vd, va, vb⟩
  | .vcmpLt alt vm vd va vb => some ⟨0x52, alt, vm, vd, va, vb⟩
  | .vcmpGe alt vm vd va vb => some ⟨0x53, alt, vm, vd, va, vb⟩
  | .vcmpLtw alt vm vd va vb => some ⟨0x54, alt, vm, vd, va, vb⟩
  | .vcmpGew alt vm vd va vb => some ⟨0x55, alt, vm, vd, va, vb⟩
  | .isum alt vm vd va => some ⟨0x56, alt, vm, vd, va, 0⟩
  | .imaxr alt vm vd va => some ⟨0x57, alt, vm, vd, va, 0⟩
  | .iminr alt vm vd va => some ⟨0x58, alt, vm, vd, va, 0⟩
  | .iscan alt vm vd va => some ⟨0x59, alt, vm, vd, va, 0⟩
  | .vabs alt vm vd va => some ⟨0x5A, alt, vm, vd, va, 0⟩
  | .vneg alt vm vd va => some ⟨0x5B, alt, vm, vd, va, 0⟩
  | .cvtRn alt vm vd va vb => some ⟨0x60, alt, vm, vd, va, vb⟩
  | .cvtRz alt vm vd va vb => some ⟨0x61, alt, vm, vd, va, vb⟩
  | .cvtRu alt vm vd va vb => some ⟨0x62, alt, vm, vd, va, vb⟩
  | .cvtRd alt vm vd va vb => some ⟨0x63, alt, vm, vd, va, vb⟩
  | .cvtRs alt vm vd va vb => some ⟨0x64, alt, vm, vd, va, vb⟩
  | .vperm alt vm vd va vb => some ⟨0x65, alt, vm, vd, va, vb⟩
  | .vshuf alt vm vd va vb => some ⟨0x66, alt, vm, vd, va, vb⟩
  | .vbcast alt vm vd va => some ⟨0x67, alt, vm, vd, va, 0⟩
  | .vins alt vd va vb => some ⟨0x68, alt, 0, vd, va, vb⟩
  | .vext alt vd va vb => some ⟨0x69, alt, 0, vd, va, vb⟩
  | .vmov alt vm vd va => some ⟨0x6A, alt, vm, vd, va, 0⟩
  | .mand vd va vb => some ⟨0x6B, 0, 0, vd, va, vb⟩
  | .mor vd va vb => some ⟨0x6C, 0, 0, vd, va, vb⟩
  | .mxor vd va vb => some ⟨0x6D, 0, 0, vd, va, vb⟩
  | .mandn vd va vb => some ⟨0x6E, 0, 0, vd, va, vb⟩
  | .fexp2 vm vd va => some ⟨0x70, 0, vm, vd, va, 0⟩
  | .flog2 vm vd va => some ⟨0x71, 0, vm, vd, va, 0⟩
  | .frcp vm vd va => some ⟨0x72, 0, vm, vd, va, 0⟩
  | .frsq vm vd va => some ⟨0x73, 0, vm, vd, va, 0⟩
  | .fsin vm vd va => some ⟨0x74, 0, vm, vd, va, 0⟩
  | .fcos vm vd va => some ⟨0x75, 0, vm, vd, va, 0⟩
  | .ftanh vm vd va => some ⟨0x76, 0, vm, vd, va, 0⟩
  | .fsigm vm vd va => some ⟨0x77, 0, vm, vd, va, 0⟩
  | .ferf vm vd va => some ⟨0x78, 0, vm, vd, va, 0⟩
  | _ => none

/-- Table 4.10: opcode and operand bits [45:0] of a stream word. -/
def Instr.tFields : Instr → Option (BitVec 8 × BitVec 46)
  | .nopStream => some (0x00, (0 : BitVec 46))
  | .wait n => some (0x01, (0 : BitVec 6) ++ n)
  | .loop c always target => some (0x02, (0 : BitVec 17) ++ (target ++ ((0 : BitVec 12) ++ (always ++ c))))
  | .setta imm hi reg cls => some (0x03, cls ++ (reg ++ (hi ++ ((0 : BitVec 7) ++ imm))))
  | .addta imm reg cls => some (0x04, cls ++ (reg ++ ((0 : BitVec 8) ++ imm)))
  | .bell n => some (0x10, (0 : BitVec 30) ++ n)
  | .brp slot count base span => some (0x11, (0 : BitVec 12) ++ (span ++ (base ++ (count ++ slot))))
  | .clear mask seed span => some (0x12, span ++ (seed ++ mask))
  | .chkp slot stream cls reg => some (0x13, (0 : BitVec 33) ++ (reg ++ (cls ++ (stream ++ slot))))
  | .prept n => some (0x14, (0 : BitVec 30) ++ n)
  | .region index writer => some (0x15, (0 : BitVec 26) ++ (writer ++ index))
  | .hold slot limit => some (0x16, (0 : BitVec 18) ++ (limit ++ slot))
  | .drift mask => some (0x17, (0 : BitVec 30) ++ mask)
  | .rgeom reg stream => some (0x18, (0 : BitVec 39) ++ (stream ++ reg))
  | .halt code => some (0x19, (0 : BitVec 30) ++ code)
  | .tld h m x gslot g pol form n => some (0x10, (0 : BitVec 15) ++ (n ++ (form ++ (pol ++ (g ++ (gslot ++ (x ++ (m ++ h))))))))
  | .tldg h m x gslot g pol rows rl => some (0x11, (0 : BitVec 14) ++ (rl ++ (rows ++ (pol ++ (g ++ (gslot ++ (x ++ (m ++ h))))))))
  | .tldr s m tile n => some (0x12, (0 : BitVec 18) ++ (n ++ (tile ++ (m ++ s))))
  | .tst h m x gslot g form n => some (0x10, (0 : BitVec 15) ++ (n ++ (form ++ ((0 : BitVec 1) ++ (g ++ (gslot ++ (x ++ (m ++ h))))))))
  | .mma m ta tb fa fb kk z blk sa sb => some (0x10, (0 : BitVec 10) ++ (sb ++ (sa ++ (blk ++ (z ++ (kk ++ (fb ++ (fa ++ (tb ++ (ta ++ m))))))))))
  | .mmag m ta tb fa fb kk lst dec z k dd => some (0x11, (0 : BitVec 9) ++ (dd ++ (k ++ (z ++ (dec ++ (lst ++ (kk ++ (fb ++ (fa ++ (tb ++ (ta ++ m)))))))))))
  | .mspill m ta fmt zr => some (0x12, (0 : BitVec 36) ++ (zr ++ (fmt ++ (ta ++ m))))
  | .mfill m ta => some (0x13, (0 : BitVec 39) ++ (ta ++ m))
  | .madd md ma mb => some (0x14, (0 : BitVec 37) ++ (mb ++ (ma ++ md)))
  | .mmov md ma z => some (0x15, (0 : BitVec 39) ++ (z ++ (ma ++ md)))
  | .eadd d a b fmt n => some (0x10, (0 : BitVec 16) ++ (n ++ (fmt ++ ((0 : BitVec 4) ++ (b ++ (a ++ d))))))
  | .esub d a b fmt n => some (0x11, (0 : BitVec 16) ++ (n ++ (fmt ++ ((0 : BitVec 4) ++ (b ++ (a ++ d))))))
  | .emul d a b fmt n => some (0x12, (0 : BitVec 16) ++ (n ++ (fmt ++ ((0 : BitVec 4) ++ (b ++ (a ++ d))))))
  | .ema d a b c fmt n => some (0x13, (0 : BitVec 16) ++ (n ++ (fmt ++ (c ++ (b ++ (a ++ d))))))
  | .emax d a b fmt n => some (0x14, (0 : BitVec 16) ++ (n ++ (fmt ++ ((0 : BitVec 4) ++ (b ++ (a ++ d))))))
  | .emin d a b fmt n => some (0x15, (0 : BitVec 16) ++ (n ++ (fmt ++ ((0 : BitVec 4) ++ (b ++ (a ++ d))))))
  | .ecvt d a src dst n rmode sat site => some (0x16, (0 : BitVec 4) ++ (site ++ (sat ++ (rmode ++ (n ++ ((0 : BitVec 2) ++ (dst ++ (src ++ (a ++ d)))))))))
  | .eexp d a fmt n => some (0x17, (0 : BitVec 16) ++ (n ++ (fmt ++ ((0 : BitVec 8) ++ (a ++ d)))))
  | .ercp d a fmt n => some (0x18, (0 : BitVec 16) ++ (n ++ (fmt ++ ((0 : BitVec 8) ++ (a ++ d)))))
  | .ersq d a fmt n => some (0x19, (0 : BitVec 16) ++ (n ++ (fmt ++ ((0 : BitVec 8) ++ (a ++ d)))))
  | .etanh d a fmt n => some (0x1A, (0 : BitVec 16) ++ (n ++ (fmt ++ ((0 : BitVec 8) ++ (a ++ d)))))
  | .esel d a b c fmt n => some (0x1B, (0 : BitVec 16) ++ (n ++ (fmt ++ (c ++ (b ++ (a ++ d))))))
  | .ecmp d a b fmt n cond => some (0x1C, (0 : BitVec 14) ++ (cond ++ (n ++ (fmt ++ ((0 : BitVec 4) ++ (b ++ (a ++ d)))))))
  | .escale d a b fmt n => some (0x1D, (0 : BitVec 16) ++ (n ++ (fmt ++ ((0 : BitVec 4) ++ (b ++ (a ++ d))))))
  | .elog2 d a fmt n => some (0x1E, (0 : BitVec 16) ++ (n ++ (fmt ++ ((0 : BitVec 8) ++ (a ++ d)))))
  | .sred d a fmt n op => some (0x10, (0 : BitVec 14) ++ (op ++ (n ++ (fmt ++ ((0 : BitVec 8) ++ (a ++ d))))))
  | .strn d a fmt n => some (0x11, (0 : BitVec 16) ++ (n ++ (fmt ++ ((0 : BitVec 8) ++ (a ++ d)))))
  | .sperm d a b fmt n => some (0x12, (0 : BitVec 16) ++ (n ++ (fmt ++ ((0 : BitVec 4) ++ (b ++ (a ++ d))))))
  | .sbc d a fmt n => some (0x13, (0 : BitVec 16) ++ (n ++ (fmt ++ ((0 : BitVec 8) ++ (a ++ d)))))
  | .sslice d a fmt n stride => some (0x14, (0 : BitVec 2) ++ (stride ++ ((0 : BitVec 2) ++ (n ++ (fmt ++ ((0 : BitVec 8) ++ (a ++ d)))))))
  | .sscan d a fmt n => some (0x15, (0 : BitVec 16) ++ (n ++ (fmt ++ ((0 : BitVec 8) ++ (a ++ d)))))
  | .sroll d a fmt n r => some (0x16, (0 : BitVec 9) ++ (r ++ ((0 : BitVec 2) ++ (n ++ (fmt ++ ((0 : BitVec 8) ++ (a ++ d)))))))
  | .sendt src kind tile port n => some (0x10, (0 : BitVec 16) ++ (n ++ (port ++ (tile ++ (kind ++ src)))))
  | .recvt dst kind tile port n pol => some (0x11, (0 : BitVec 15) ++ (pol ++ (n ++ (port ++ (tile ++ (kind ++ dst))))))
  | _ => none

/-- The bundle of two slots (Table 4.1). -/
def pairBits (s : SFields) (v : VFields) : BitVec 64 := (0 : BitVec 1) ++ (s.toBits ++ v.toBits)
/-- The long bundle (Table 4.2). -/
def longBits (l : LFields) : BitVec 64 := (1 : BitVec 1) ++ l.toBits

/-- The fields of `nop` and of `vnop`: all zero (R83). -/
def SFields.nop : SFields := ⟨0, 0, 0, 0, 0, 0, 0⟩
def VFields.vnop : VFields := ⟨0, 0, 0, 0, 0, 0⟩

/-- The word of a core instruction: an S-slot instruction is paired with `vnop`, a V-slot instruction with `nop`
(R103). None for a stream word, an event or a reserved cell. -/
def encode (i : Instr) : Option (BitVec 64) :=
  match i.sFields, i.lFields, i.vFields with
  | some s, _, _ => some (pairBits s .vnop)
  | none, some l, _ => some (longBits l)
  | none, none, some v => some (pairBits .nop v)
  | none, none, none => none

/-- The word of a stream word (Table 4.9). -/
def encodeStream (w : StreamWord) : Option (BitVec 64) :=
  match w.instr.tFields with
  | some (op, o) => some (TFields.toBits ⟨w.idle, op, o⟩)
  | none => none

end Sys2Proof
end

