-- ==== Sys2Proof/Config.lean ====
section
/-! DEFINITION. What is fixed for one package, and the FREE VALUES: what the spec leaves open and the machine
goes on with. A free value has no body, so nothing can be proved about which value it is. -/

namespace Sys2Proof.Config

/-- Free value. Core cycles beyond the lower bound that an access, a message, an enqueue or a job access of
THROUGHPUT mode takes (R7, R116: the figures are lower bounds there), by the partition's first unit and its own
count of draws, so that no other partition changes it (R51). The model bounds it by R404. Notes: assumption 3. -/
opaque extraDelay : Nat → Nat → Nat

/-- Free value. Core cycles a host-space access takes (R116: not fixed in either mode). Assumption 4. -/
opaque hostDelay : Nat → Nat

/-- Free value. The byte of host memory at an address, where nothing in this model has written it: host memory is
the host's (R312). Used once a draw, by address. Assumption 4. -/
opaque hostByte : Nat → BitVec 8

/-- Free value. A word of the signed identity statement (R423: its layout, the serial number, the public keys and the signature
are not given), for an ordering code (true: QCF-80M) and a firmware rollback number. Assumption 16. -/
opaque identityWord : Bool → Nat → Nat → BitVec 64

/-- Free value. Physical ticks a step of the proctor or of system firmware takes whose time the spec bounds but does
not give: arming, re-arming, saving, loading a save (R45, R406, R408, R417). Assumption 7. -/
opaque firmwareTicks : Nat → Nat

/-- Free value. Physical ticks that the preload of a block of so many bytes takes at dilation 1 in deterministic mode, where
R411 has it fixed: it is a function of the block's size alone. Assumption 7. -/
opaque preloadTicks : Nat → Nat

/-- Free value. A word that the spec names but gives no value in some case, by draw (`State.fresh`). Assumption 19. -/
opaque unstated : Nat → BitVec 64

/-! Fixed figures of the package (Table 0.1, R6). -/

/-- Core clusters of the package. -/
def clusters : Nat := 48
/-- Barrel cores of a cluster. -/
def coresPerCluster : Nat := 8
/-- Logical frames and channel frames span 68 ticks (R247). -/
def frameTicks : Nat := 68
/-- Frames of a resident-set change (R53). -/
def residentFrames : Nat := 1035
/-- On-package tile-to-tile latency Lt in logical ticks (R375). -/
def tileLatency : Nat := 24
/-- Ticks from a static request's issue base to its landing, before graph depth (Table 9.5). -/
def staticLatency : Nat := 160
/-- Ticks from max(De, Pe) to the successor's bell word (R411). -/
def swapGap : Nat := 8
/-- Largest wait of a partition release in ticks (R418). -/
def releaseTicks : Nat := 12000

end Sys2Proof.Config
end

