-- ==== Sys2Proof/Machine/Records.lean ====
section
/-! DEFINITION. The records the machine's state is made of: threads, jobs, tiles, partitions, the package's own
registers. Plain data only. A field marked MODEL is the model's own bookkeeping (notes: assumption 1); every other
field is state the spec names, with the rule that names it. -/

namespace Sys2Proof.Machine

/-- A table by number: at most one entry a key; a key with no entry reads as the default its reader names. -/
abbrev Tab (α : Type) := List (Nat × α)

/-- Memory: (address, byte) pairs in one canonical form, over the flat address map of Machine/Ops.lean. -/
abbrev Memory := List Host.Cell

/-! Threads. -/

/-- Where a context stands: cluster, core in the cluster, rotation position (R49, R107). A proctor context has
cluster 48 + die, core 0 and its position. -/
structure Loc where
  cluster : Nat
  core    : Nat
  pos     : Nat
  deriving DecidableEq, Repr

/-- What a bundle that has retired still waits for before the thread issues again (R110), or why a bundle cannot
issue yet. -/
inductive WaitFor where
  /-- R176: the next issuing visit is skipped -/
  | skip
  /-- R359: a fence of a scope -/
  | fence (scope : Nat)
  /-- R284: `jwait` of an ID, with the result register -/
  | job (id : Word) (d : Nat)
  /-- R284: `jwait` of ID 0 -/
  | ids (d : Nat)
  /-- R121: the commands to the bound engine accepted; then bind to this engine -/
  | bind (eng : Nat)
  /-- R175: `texit` waits for the thread's pushes -/
  | pushes
  /-- R355: an enqueue of this thread accepted -/
  | enqueue
  /-- R399: `asid.drop` acknowledged -/
  | asidDrop
  /-- R360: the previous packet has left; then open the packet -/
  | packetLeft (dest : Word) (tag : BitVec 16)
  /-- R110, R264: eight relaxed accesses outstanding -/
  | relaxed
  /-- R335: earlier relaxed accesses and pushes of a synchronising access, a post or a tag write-back -/
  | drain
  /-- R204: the pushes of a stream that is being freed -/
  | freed (x : Nat)
  /-- R270: a second engine command, while one is parked -/
  | command
  deriving DecidableEq, Repr

/-- Table 17.12: the waits whose bundle has not retired yet. -/
def WaitFor.unretired : WaitFor → Bool
  | .job _ _ => true
  | .ids _ => true
  | .bind _ => true
  | _ => false

/-- Whether a context issues (R110, Table 17.12). -/
inductive Status where
  /-- in rotation -/
  | ready
  /-- out of rotation until the event named by `id` completes its plain access, descriptor read or write-back -/
  | access (id : Nat)
  /-- the bundle waits in the waiter list of a word (R348) -/
  | listed
  /-- out of rotation until the condition holds; the bundle has retired -/
  | waiting (w : WaitFor)
  /-- the bundle at pc is held back and issues again when it can: the vector registers it reads and writes, whose streams
  are not ready, and whether they have become ready since (R205, R209) -/
  | held (srcs : List Nat) (dst : Option Nat) (noted : Bool)
  /-- `nap` waits (R357) -/
  | napping
  /-- migrating (R317) -/
  | migrating
  /-- in a wait-list entry of the fault-service store (R322, R323) -/
  | parked (slot : Nat)
  /-- the wait list is full; takes the first entry that frees (R323) -/
  | unlisted
  /-- between a fault and trap entry (R394) -/
  | trapping
  /-- stopped by a roll-call fence (R124) -/
  | fenced
  /-- stopped at its issue slot by a pre-emption (R406) or by the end of its launch (R401): whether its bundle had begun
  and issues again -/
  | saved (again : Bool)
  deriving DecidableEq, Repr

/-- R110: whether a context is in rotation: ready, or held by what has come since. -/
def Status.rotating : Status → Bool
  | .ready => true
  | .held _ _ noted => noted
  | _ => false

def Status.isHeld : Status → Bool
  | .held _ _ _ => true
  | _ => false

/-- A fault raised and not yet delivered: kind of Table 17.1, slot, info, saved pc; late and more of `k.fault`, the
issue order of the access it belongs to (R459); `k.tvec` as it stood when it was raised and whether the handler takes
it (R394, R395). -/
structure Raised where
  kind : Nat
  slot : Nat
  info : Word
  pc   : Word
  late : Bool
  more : Bool
  ord  : Nat
  tvec : BitVec 32
  handled : Bool
  /-- a late fault that is on record already (R395) -/
  told : Bool
  deriving DecidableEq, Repr

/-- The thread's monitor (R356); `flat` is the flat address of the watched word. -/
structure Monitor where
  armed : Bool
  seen  : Bool
  addr  : Word
  flat  : Nat
  deriving DecidableEq, Repr

/-- One stream register sq0-sq3 (R203-R209). -/
structure StreamReg where
  bound : Bool
  push  : Bool
  port  : Bool
  exh   : Bool
  reg   : Nat
  w0    : Word
  w1    : Word
  w2    : Word
  w3    : Word
  /-- position k of the next element -/
  k     : Nat
  /-- the cycle ready times count from (F of R205), and the cycles of the last four pops, newest first -/
  base  : Nat
  pops  : List Nat
  /-- elements as they stood at their ready times, by position, with the address of a poisoned word (R205) -/
  buf   : List (Nat × Vec × Option Word)
  /-- pushes claimed and not landed (R206, R304) -/
  flight : Nat
  deriving DecidableEq, Repr

/-- The open packet of a thread (R360). -/
structure OpenPkt where
  dest  : Word
  tag   : BitVec 16
  words : List Word
  deriving DecidableEq, Repr

/-- An engine command as it stands at issue: the register values it read (R270, Table 17.13 jobs). -/
inductive Command where
  /-- `mjob`, `mjob.g`: pairs A, B, C, the list address, imm32 -/
  | mat (gather : Bool) (a0 a1 b0 b1 c0 c1 list : Word) (imm : BitVec 32)
  /-- `cjob`: the 24 words of its descriptor and its address -/
  | copy (desc : List Word) (addr : Word)
  /-- `gjob`: the 8 words of its descriptor and its address -/
  | graph (desc : List Word) (addr : Word)
  /-- R75: the staging of a footprint entry: its source and the slots it fills, the last entry or not -/
  | stage (src : Word) (slots : List Nat) (last : Bool)
  deriving DecidableEq, Repr

/-- The status of one job a thread has issued (R275). -/
structure JobStatus where
  eng  : Nat
  seq  : Nat
  code : Nat
  addr : Word
  deriving DecidableEq, Repr

/-- A parked command (R270), with its bundle (Table 17.13). -/
structure Parked where
  eng : Nat
  d   : Nat
  cmd : Command
  bundle : Word
  deriving DecidableEq, Repr

/-- A push of a thread that has not landed (R206): its stream and position, the cycle its bundle issued in, the flat address
of its element (none in a port queue) and the cycle it lands in. -/
structure Push where
  sq   : Nat
  pos  : Nat
  born : Nat
  flat : Option Nat
  due  : Nat
  deriving DecidableEq, Repr

/-- One thread context's thread. -/
structure Thread where
  /-- MODEL: identity, never used again -/
  uid     : Nat
  /-- first unit of its partition (R49) -/
  part    : Nat
  loc     : Loc
  status  : Status
  /-- MODEL: the core cycle its next issue item stands at -/
  slotAt  : Nat
  /-- R111, R122: core cycle of its last issue -/
  lastIssue : Nat
  pc      : Word
  /-- a0-a23 (R15, R79) -/
  a       : Vector Word 24
  /-- `pw` (Table 5.4) -/
  pw      : BitVec 32
  /-- v0-v127; the mode bounds how many exist (Table 5.1) -/
  v       : Vector Vec 128
  /-- vm0-vm7; vm0 reads all ones (R181) -/
  vm      : Vector Word 8
  /-- `Retired()` (R125) -/
  retired : Word
  /-- `k.geom` (Table 3.3) -/
  geom    : Word
  /-- `k.rkey` (Table 7.10) -/
  rkey    : Word
  /-- `k.rctr` (Table 7.11) -/
  rctr    : BitVec 32
  /-- `k.rctr` as a `crd` sees it: the advance of an `rnd` is four cycles behind (R171) -/
  rctrSeen : BitVec 32
  /-- `k.amax` (Table 8.7) -/
  amax    : BitVec 32
  /-- `k.srnd` (Table 8.8) -/
  srnd    : Word
  /-- `k.asid` (Table 13.2) -/
  asid    : BitVec 12
  /-- `k.mode.bound` (Table 5.5) -/
  bound   : BitVec 3
  /-- `k.tvec`, `k.epc`, `k.epw`, `k.fault`, `k.finfo`, `k.tscr0`, `k.tscr1` (Tables 17.2-17.6) -/
  tvec    : BitVec 32
  epc     : BitVec 32
  epw     : BitVec 32
  fault   : BitVec 24
  finfo   : Word
  tscr0   : Word
  tscr1   : Word
  monitor : Monitor
  streams : Vector StreamReg 4
  openPkt : Option OpenPkt
  /-- a closed packet that has not left, with the first access that is later than it and the earlier pushes still to land
  (R361) -/
  unsent  : Option (Packet × Nat × Nat)
  /-- core cycle in which the last packet leaves (R361) -/
  pktLeaves : Nat
  /-- relaxed accesses outstanding, oldest issued first (R264) -/
  relaxed : List Acc
  /-- pushes that have not landed, oldest first (R206, R334) -/
  pushes  : List Push
  /-- jobs: jobs accepted so far per engine 1-3, statuses newest first, IDs still to land, parked command (R270-R275) -/
  seqs    : Vector Nat 3
  jobs    : List JobStatus
  idsDue  : Nat
  parkedCmd : Option Parked
  /-- a command that arrived while one was parked (R270) -/
  nextCmd : Option Parked
  /-- slots its task's footprint pinned (R76): (cluster, core, slot) -/
  pins    : List (Nat × Nat × Nat)
  /-- recitation: 0 no member, 1 leader, 2 follower (R95); uids of the group, leader first; members done (R98) -/
  recite  : Nat
  group   : List Nat
  done    : BitVec 8
  /-- requests to peer packages without a reply yet (R313, R345) -/
  asked   : List Acc
  /-- the fault raised and not yet delivered -/
  raised  : Option Raised
  /-- a migrating or parked thread's access (R317, R322) -/
  missed  : Option Acc
  /-- the address of the access it migrated for and its translation at arrival, until that bundle retires (R308) -/
  xlat    : Option (Word × Nat)
  /-- the late fault, or the late miss, that stops the thread at its next own slot (R459) -/
  late    : Option Raised
  lateMiss : Option Acc
  /-- core cycle at which `nap` times out, 0 none (R357); kept for a `nap` that is to issue again (R408) -/
  napAt   : Nat
  napDest : Nat
  /-- the home cluster it migrates to (R317) -/
  goal    : Nat
  /-- core cycle before which a fence at host or system scope, or the visit a `yield` skips, does not end (R176, R344) -/
  waitTo  : Nat
  /-- recitation: the leader's next pc and guard for the bundle forwarded to it (R96) -/
  fwd     : Option (Word × Bool)
  /-- the quadrant and cluster the thread's current bundle was first issued from (R327, R57) -/
  fromCluster : Nat
  /-- MODEL: an access of the current bundle in progress; its V slot's results wait for it, with the cycles they land in -/
  heldV   : List (Nat × RegWrite)
  /-- MODEL: register results that have landed in this cycle, or since `heldV` waits: landing and issue cycle (R114) -/
  landed  : List (Nat × Nat × RegWrite)
  /-- R394: the deciding `k.tvec` as it stood when the current bundle issued, with en 0 where no handler may take it -/
  issueTvec : BitVec 32
  /-- MODEL: the streams as they stood before the bundle, kept until it retires (R208) -/
  back    : Vector StreamReg 4
  /-- proctor context (R92) -/
  proctor : Bool
  deriving DecidableEq, Repr

/-! Cluster resources. -/

/-- A member of a waiter list (R348), in list order: the waiting thread, its access, whether it came by the thread port
of the word's core (R331), whether it performs in this cycle. -/
structure Waiter where
  uid  : Nat
  acc  : Acc
  own  : Bool
  chosen : Bool
  deriving DecidableEq, Repr

/-- The head of a task queue (R75). -/
inductive Head where
  /-- waiting for a context and slots -/
  | wait
  /-- its footprint is being staged into these slots of that context's core -/
  | staging (loc : Loc) (slots : List Nat)
  /-- its thread starts in that context once step 3 is over -/
  | placed (loc : Loc) (slots : List Nat)
  /-- a copy met a translation fault (R76) -/
  | blocked
  deriving DecidableEq, Repr

/-- One partition's task queue in a cluster (R73, R355): waiting enqueues carry the thread they hold. -/
structure TaskQueue where
  items   : List TaskDesc
  waiting : List (TaskDesc × Option Nat)
  head    : Head
  deriving DecidableEq, Repr

/-- A matching-table entry (Table 15.6, R362). -/
structure MatchEntry where
  tag    : BitVec 16
  act    : Bool
  nword  : Nat
  buf    : Word
  target : Word
  got    : Nat
  deriving DecidableEq, Repr

/-- One partition's matching table in a cluster. -/
structure MatchTable where
  entries : Tab MatchEntry
  held    : List Packet
  deriving DecidableEq, Repr

/-- One partition's stage governor in a cluster (R365): `k.gov`, its table as loaded, cores of each stage. -/
structure Governor where
  word   : Word
  table  : List Word
  stages : List (List Nat)
  /-- cycle its boundaries count from (R366) -/
  start  : Nat
  /-- assignment words still to write: core and stage, in order -/
  pend   : List (Nat × Nat)
  deriving DecidableEq, Repr

/-- A tag-table entry (Table 10.1). -/
structure TagEntry where
  tag   : BitVec 49
  valid : Bool
  pin   : Bool
  dirty : BitVec 16
  deriving DecidableEq, Repr

/-- The roll-call state of one partition on one core (R123, R124): the count as of a cycle; the last cycle in which one of
its contexts there has issued (R111). -/
structure Roll where
  count  : Nat
  fenced : Bool
  issued : Nat
  deriving DecidableEq, Repr

/-- A translation entry (Table 13.1). -/
structure TransEntry where
  w0 : Word
  w1 : Word
  hn : BitVec 16
  hx : BitVec 16
  hy : BitVec 16
  deriving DecidableEq, Repr

/-- A 64-byte chunk of a port queue with its poison flags (R304). -/
structure Chunk where
  data : Vec
  pois : BitVec 8
  deriving DecidableEq, Repr

/-- A port queue (R304): its chunks, the uid and job attached to it, pushes in flight. -/
structure PortQueue where
  chunks   : List Chunk
  attached : Option Nat
  flight   : Nat
  deriving DecidableEq, Repr

/-- What one partition owns in one cluster. -/
structure ClusterPart where
  queue  : TaskQueue
  mtab   : MatchTable
  gov    : Governor
  /-- `k.notice` (Table 17.10) -/
  notice : BitVec 10
  /-- the roll-call counts, by core -/
  rolls  : Tab Roll
  /-- the translation store of the cluster's interface (R309), in order of writing -/
  store  : List TransEntry
  /-- tag table entries that differ from the reset entry, keyed 16384 * core + slot -/
  tags   : Tab TagEntry
  /-- port queues q0-q7 -/
  ports  : Tab PortQueue
  /-- migration packets that wait for a context (R318), uids in arrival order -/
  arrived : List Nat
  deriving DecidableEq, Repr

/-! Engine jobs. -/

/-- A token of a stream graph: line, poison flags, null mark (R292), with the cycle it became available. -/
structure Token where
  line : Line
  pois : BitVec 16
  null : Bool
  at_  : Nat
  deriving DecidableEq, Repr

/-- The progress of a `gjob` (R302-R304). -/
structure GraphRun where
  /-- input reads issued, and the tokens that have arrived -/
  issued : Nat
  inputs : Tab Token
  /-- place of the next agen read or scat update, and the lines the agen reads brought, by place -/
  mem    : Nat
  agen   : Tab Token
  /-- output lines whose write is issued or that entered the queue; lines on their way to the queue -/
  wrote  : Nat
  sent   : Nat
  /-- reads outstanding, and all accesses in flight -/
  reads  : Nat
  flight : Nat
  /-- what the HBM accesses in flight have been translated to, by access (R308) -/
  flats  : Tab Nat
  deriving DecidableEq, Repr

/-- Where an element of a copy job stands between its step and its write (R283): its source is being read, its
write is on its way, or it only waits for the elements below it. -/
inductive FlightPhase where
  | reading
  /-- its words are read, and its write to a peer package waits for the reads of the elements before it -/
  | unsent
  /-- its source overlaps what an element below it has still to write (R282) -/
  | blocked
  | writing | ready
  deriving DecidableEq, Repr

/-- An element of a copy job in flight, with its words and their poison. -/
structure CopyFlight where
  k     : Nat
  phase : FlightPhase
  words : List (Word × Bool)
  /-- requests to a peer package and their answers (R313), and the cycle they are due -/
  asks  : List (Nat × Option (Word × Bool))
  due   : Nat
  /-- the translation its access under way has found at the home interface: none yet; none there (R308) -/
  xlat  : Option (Option Nat)
  deriving DecidableEq, Repr

/-- An engine job of a thread (R270-R274). -/
structure Job where
  key      : Nat
  uid      : Nat
  part     : Nat
  cluster  : Nat
  /-- rotation position and core of its thread: its turns (R272) -/
  core     : Nat
  pos      : Nat
  nthr     : Nat
  eng      : Nat
  seq      : Nat
  asid     : BitVec 12
  quad     : BitVec 2
  cmd      : Command
  accepted : Nat
  started  : Bool
  step     : Nat
  steps    : Nat
  lastStep : Nat
  lastAcc  : Nat
  /-- status so far: code and address (Table 11.5) -/
  code     : Nat
  addr     : Word
  /-- the destination words still to fill (flat addresses) -/
  emptied  : List Nat
  /-- the list of a gather, as its first step read it (R279) -/
  rowList  : List Word
  /-- the bundle that commanded it (Table 17.13) -/
  bundle   : Word
  flights  : List CopyFlight
  graph    : GraphRun
  deriving DecidableEq, Repr

/-! The timed plane. -/

/-- One stream of a tile in the running overlay (R86-R88, R210). -/
structure TStream where
  body : List Word
  /-- index of the word that issues next, and its logical tick -/
  next : Nat
  due  : Nat
  done : Bool
  ta   : Vector Word 16
  tn   : Vector (BitVec 32) 8
  /-- logical tick up to which the engine, or the send half, is occupied; the receive half (R214, R376) -/
  busy : Nat
  busy2 : Nat
  /-- PLAN by which every effect of the words issued in this overlay has landed; of those with a graph; of the words of
  overlays before (R223, R307, R410) -/
  lands : Nat
  glands : Nat
  before : Nat
  deriving DecidableEq, Repr

/-- State of a notice-board slot (Table 16.5). -/
inductive SlotState where
  | idle | opened | posted | awaiting | holding
  deriving DecidableEq, Repr

/-- A notice-board slot: settled value, pending value, the limit of the opening event, when its reads are refused
(R382), its reason's H0. -/
structure NoticeSlot where
  state   : SlotState
  value   : Word
  pending : Word
  limit   : Option Nat
  /-- policy 2 close: reads fault before this logical tick (R382) -/
  quiet   : Nat
  h0      : Nat
  deriving DecidableEq, Repr

/-- An open clearing of a tile (R380). -/
structure Clearing where
  mask  : BitVec 16
  seed  : Option Nat
  from_ : Nat
  close : Nat
  deriving DecidableEq, Repr

/-- A port of a tensor SRAM bank a timed word will use in a logical tick (R212): tick, operand port?, bank, whether it
is a read or write of which word. -/
structure PortUse where
  tick    : Nat
  operand : Bool
  bank    : Nat
  stream  : Nat
  word    : Nat
  deriving DecidableEq, Repr

/-- Operations of the vector engine (Table 9.13). -/
inductive VecOp where
  | add | sub | mul | ma | max | min
  | cvt (mode site : Nat) (sat : Bool)
  | exp | rcp | rsq | tanh | log2 | sel
  | cmp (cond : Nat)
  | scale
  deriving DecidableEq, Repr

/-- Operations of the shape engine (Table 9.16). -/
inductive ShapeOp where
  | red (op : Nat)
  | trn | perm | bc
  | slice (stride : Int)
  | scan
  | roll (r : Nat)
  deriving DecidableEq, Repr

/-- What a word in progress does: a move or a matrix word as it stands; an elementwise word with its formats (Table
9.14) and groups; a shape word with its element width, its format (none for raw bytes) and groups; a `sendt` with its
tile and port. -/
inductive TimedWord where
  | plain (i : Instr)
  | vec (op : VecOp) (src dst n : Nat)
  | shape (op : ShapeOp) (fmt : Nat) (n : Nat)
  | send (tile : Nat) (port : Option Nat)
  | recv (tile : Nat) (port : Option Nat) (halt : Bool)
  deriving DecidableEq, Repr

/-- A word in progress: what its later effects need (the operand registers it read). -/
structure WordRun where
  key    : Nat
  stream : Nat
  issued : Nat
  what   : TimedWord
  /-- operand values read at issue -/
  r0     : Word
  r1     : Word
  r2     : Word
  r3     : Word
  /-- words gathered so far: indices, operand blocks, accumulator values -/
  acc    : List Word
  /-- lines gathered so far: place, controller, line -/
  lines  : List (Nat × Nat × Token)
  /-- flat addresses of the lines of a `tst` through a graph that are requested, by place -/
  places : Tab Nat
  /-- the word is stopped from this effect on (an address fault, R211) -/
  dead   : Bool
  deriving DecidableEq, Repr

/-- A link line on its way to a tile: arrival tick, source tile, port (none on package), its words and poison, whether
the control flit names this source and destination, none where it was uncorrectable. -/
structure Arrival where
  ltick  : Nat
  stile  : Nat
  port   : Option Nat
  data   : Line
  pois   : BitVec 16
  header : Option Bool
  deriving DecidableEq, Repr

/-- A tile of the partition with the logical tile it holds. -/
structure Tile where
  ltile   : Nat
  geom    : Word
  streams : Vector TStream 7
  board   : Vector NoticeSlot 16
  clearings : List Clearing
  /-- bells issued in this overlay (R219) -/
  bells   : Nat
  /-- `region` words of the running period: index, writer (R222) -/
  regions : List (Nat × Nat)
  uses    : List PortUse
  words   : List WordRun
  /-- link lines on their way to this tile (R375, R376) -/
  arriving : List Arrival
  /-- tpoison and tcorr of Table 18.2 -/
  tpoison : BitVec 32
  tcorr   : BitVec 32
  deriving DecidableEq, Repr

/-- A region of the region table (Table 1.8): tile (none for HBM), base, length in bytes, writer, writer set by the
seed. -/
structure Region where
  tile   : Option Nat
  base   : Nat
  len    : Nat
  writer : Nat
  deriving DecidableEq, Repr

/-- A clearing policy entry (Table 1.10). -/
structure Policy where
  tile   : Nat
  slot   : Nat
  policy : Nat
  limit  : Nat
  subst  : Word
  deriving DecidableEq, Repr

/-- An admitted record (R39, R45): the words of the copy, the image's address and what admission derived. -/
structure Admitted where
  words : List Word
  group : Bool
  deriving DecidableEq, Repr

/-- What happens next to the overlay chain. -/
inductive Chain where
  /-- no overlay runs -/
  | none
  /-- before tick 0 of the current overlay, or running -/
  | running
  /-- all control streams ended; draining (R410) -/
  | draining
  /-- drained, waiting for the swap bell (R411) -/
  | swapping
  /-- a resident-set change is under way (R53) -/
  | changing
  /-- the timetable retired (R412) -/
  | retired
  deriving DecidableEq, Repr

/-- Group hold state (Table 16.7). -/
inductive HoldState where
  | running | pending | holding | resuming
  deriving DecidableEq, Repr

/-- A hold reason: member package, key (tile and slot, or 2^16 + management reason), H0, core cycle its limit ends. -/
structure Reason where
  pkg : Nat
  key : Nat
  h0  : Nat
  deriving DecidableEq, Repr

/-- What stands in a queue of events. -/
inductive Task where
  /-- a row of the opcode table -/
  | ev (i : Instr)
  /-- an issue slot of a thread (R110) -/
  | issue (uid : Nat)
  /-- the slot of a core that may be lent among the contexts of a partition (R111) -/
  | lend (first cluster core : Nat)
  /-- a stream's next word is due: tile number, stream (R87) -/
  | word (first tile stream : Nat)
  /-- the end of a logical tick: swaps, drains, boundary comparison (R216, R410) -/
  | tickEnd (first : Nat)
  /-- MODEL: a cycle in which what threads wait for is looked at (R110) -/
  | wake
  /-- an element of a pop stream is ready: its contents are taken (R205) -/
  | sample (uid sq k : Nat)
  /-- the context of a thread that has ended becomes free, and the slots it had pinned (R413) -/
  | freed (first : Nat) (loc : Loc) (pins : List (Nat × Nat × Nat))
  /-- the frame of a port ends: its control flit leaves (R372) -/
  | frame (port : Nat)
  /-- the host accesses that wait are looked at (R250) -/
  | host
  deriving DecidableEq, Repr

/-- An entry of the agenda: core cycle (or logical tick), order inside it, what happens. -/
structure Item where
  cycle : Nat
  rank  : Nat
  what  : Task
  deriving DecidableEq, Repr

/-- A launch fault or unhandled thread fault on record (R392, R400). -/
structure LaunchFault where
  kind   : Nat
  ltick  : Nat
  cycle  : Nat
  tile   : Nat
  stream : Nat
  info   : Word
  pc     : Word
  geom   : Word
  thread : Bool
  pkg    : Nat
  deriving DecidableEq, Repr

/-- The running launch of a partition. -/
structure Run where
  active  : Bool
  handle  : Nat
  /-- its record as admitted, a group record or not (R39, R457) -/
  rec_    : List Word
  group   : Bool
  /-- status slot of the launch word, its tag and irq bit (R44) -/
  slot    : Nat
  tag     : Word
  irq     : Bool
  det     : Bool
  tcmode  : Nat
  /-- dilation (R52) -/
  d       : Nat
  /-- Ns, the static positions of the partition in a frame (R51) -/
  ns      : Nat
  /-- roll-call interval in units of 256 core cycles (Table 5.7) -/
  interval : Nat
  /-- L, passes p, pass index (R53) -/
  ltiles  : Nat
  passes  : Nat
  pass    : Nat
  /-- TICK of tick 0 of overlay 0: visits, turns and logical ticks count from it -/
  tick0   : Nat
  /-- PLAN (R368) as plan + (ticks since runBase) / d while it advances -/
  plan    : Nat
  /-- PLAN at tick 0 of overlay 0 (R52) -/
  plan0   : Nat
  runBase : Nat
  stopped : Bool
  /-- the running overlay's block and its successor's, as loaded (R37, R93) -/
  block   : List Word
  nextBlock : List Word
  /-- overlay index, PLAN at its tick 0; the chain's state -/
  ovl     : Nat
  ovlPlan : Nat
  chain   : Chain
  chainNext : Nat
  halted  : Option (BitVec 16)
  /-- the overlay whose preload is under way; the one `nextBlock` holds (R93) -/
  preload : Option Nat
  preloaded : Option Nat
  /-- PLAN of the last `prept`, and whether it was quiet (R223) -/
  prept   : Option (Nat × Bool)
  /-- PLAN of the `prept`s that were not quiet in a pass of the overlay (R223) -/
  noisy   : List Nat
  /-- TICK of the tick 0 whose bell word has issued (R411) -/
  bellAt  : Option Nat
  /-- boundary words issued, of this pass and of pass 0: PLAN, tile, word (R216) -/
  bounds  : List (Nat × Nat × Word)
  bounds0 : List (Nat × Nat × Word)
  /-- the logical-tick queue (MODEL): effects and words by logical tick -/
  tq      : List Item
  hold    : HoldState
  reasons : List Reason
  /-- management reasons without an H0 yet, coded as in `Part.holds`, each with the first PLAN it may take (R385) -/
  mreqs   : List (Nat × Nat)
  h0      : Nat
  /-- TICK the hold began, TICK of the resume -/
  heldAt  : Nat
  resumeAt : Nat
  /-- faults of the earliest faulting tick, and the count of those not recorded -/
  faults  : List LaunchFault
  nfault  : Nat
  /-- the launch ends: streams and threads stop (R48, R400); the fault to record is chosen -/
  ending  : Bool
  final   : Bool
  aborted : Bool
  /-- static requests made: logical tick, channel (R249) -/
  requests : List (Nat × Nat)
  /-- PLAN of the last drain, the latest over passes (R410) -/
  deDone  : Nat
  deriving DecidableEq, Repr

/-- A parked thread's wait-list entry (R323). -/
structure WaitEntry where
  uid    : Nat
  /-- false while the thread's packet is on its way to the store -/
  here   : Bool
  /-- resolve action written while the partition is pre-empted (R325) -/
  act    : Nat
  why    : Nat
  va     : Word
  home   : Nat
  asid   : BitVec 12
  quad   : BitVec 2
  roaming : Bool
  deriving DecidableEq, Repr

/-- A saved pre-emption (R406-R409): the stop tick, the sizes of the areas a controller holds, the tiles and the
code and graphs as loaded, and the bytes of the save area, whose CRC firmware keeps. -/
structure Saved where
  ts      : Nat
  /-- PLAN stood still before the stop; PLAN and its base as they stood -/
  held    : Bool
  plan    : Nat
  base    : Nat
  /-- what was to happen to the overlay chain at a TICK -/
  items   : List Item
  back    : Nat
  save    : Nat
  tiles   : List Tile
  backed  : Tab Tile
  code    : List Word
  graphs  : List (Nat × BitVec 48 × List Word)
  area    : List Host.Cell
  deriving DecidableEq, Repr

/-- A partition: a valid entry of the partition table and everything its units own (R49). -/
structure Part where
  first   : Nat
  lg      : Nat
  /-- index of its table entry -/
  entry   : Nat
  /-- launch slots: the TICK a slot turns full in, and its word (R43) -/
  slots   : Vector (Option (Nat × Word)) 8
  status  : Vector Word 8
  ring    : Nat
  overrun : Bool
  /-- the slot the proctor acts on and its word, emptied or not yet (R44); a launch it has started stands in `run` -/
  acting  : Option (Nat × Word × Bool)
  records : Vector (Option Admitted) 8
  armed   : Option Nat
  /-- the record that is being armed in the background (R45, R417) -/
  arming  : Option Nat
  /-- handles of admitted records, the one admitted or launched most recently first (R45) -/
  recent  : List Nat
  /-- index and extent of the group word as the armed record took them (R369) -/
  armedIn : Nat × Nat
  /-- overlay 0's block as arming loaded it (R93) -/
  bank0   : List Word
  /-- the armed code section's bundles, one copy for every cluster (R90) -/
  code    : List Word
  /-- resident graphs: gslot, controller mask, configuration words (R30, R291) -/
  graphs  : List (Nat × BitVec 48 × List Word)
  homing  : Vector Word 64
  hostBase : Word
  hostLen  : Word
  regions : List Region
  policies : List Policy
  clusters : Tab ClusterPart
  tiles   : List Tile
  /-- tile states of logical tiles that are not resident (R53) -/
  backed  : Tab Tile
  jobs    : List Job
  /-- translation stores of the clusters in which an entry changed in this core cycle, as they stood before it (R311) -/
  oldStores : Tab (List TransEntry)
  /-- ASIDs in retirement: asid, acknowledge cycle (R315) -/
  retiring : List (Nat × Nat)
  waits   : Tab WaitEntry
  /-- threads that missed while the wait list was full, in order (R323) -/
  unlisted : List Nat
  /-- pre-emption state word (Table 17.11), a pending request, the save (R405) -/
  ppState : Nat
  ppTick  : Nat
  ppWant  : Bool
  saved   : Option Saved
  /-- launch messages held from members of the group: package, stamp, its clearing policies, how far its PLAN is behind TICK
  (R34, R368, R451) -/
  stamps  : List (Nat × Nat × List Word × Nat)
  /-- ticks by which PLAN is behind TICK outside a launch (R368) -/
  planLag : Nat
  /-- MODEL: times drawn so far in throughput mode (R51, assumption 3) -/
  draws   : Nat
  /-- MODEL: the draw that the bytes of the backing and save areas without a given layout take their values from, once the
  areas have been written (assumption 17) -/
  image   : Option Nat
  /-- management reasons in force (R385): below 256 this package's own, 256 (p + 1) + r reason r of package p (R384) -/
  holds   : List Nat
  /-- words 0-22 of the private-counter page (Tables 18.1, 18.2) -/
  counters : Vector Word 23
  run     : Run
  deriving DecidableEq, Repr

/-! The package. -/

/-- An entry of the partition table (Table 2.7). -/
structure TableEntry where
  w0  : Word
  err : Bool
  /-- first unit and lg of a partition whose release is under way (R418) -/
  releasing : Option (Nat × Nat)
  deriving DecidableEq, Repr

/-- A link-table entry (Table 16.2). -/
structure LinkEntry where
  w0 : Word
  w1 : Word
  deriving DecidableEq, Repr

/-- An error-log entry (Table 10.8). -/
structure LogEntry where
  w0 : Word
  w1 : Word
  w2 : Word
  w3 : Word
  deriving DecidableEq, Repr

/-- A memory controller (R255-R261): `mc.maint`, its log oldest first, the overflow count. -/
structure Ctl where
  maint    : Word
  log      : List LogEntry
  overflow : Nat
  deriving DecidableEq, Repr

/-- A soft repair under way or waiting: bank, row, lines copied (R258). -/
structure Repair where
  bank  : Nat
  row   : Nat
  lines : Nat
  deriving DecidableEq, Repr

/-- A memory channel's maintenance state (R252-R260). -/
structure Chan where
  patrol   : Nat
  /-- words found uncorrectable that wait for the next scrub unit (R256) -/
  urgent   : List Nat
  /-- corrected errors of this scrub pass, by row: 65536 * bank + row (R257, R258) -/
  rowErrs  : Tab Nat
  /-- activation counts by bank, banks that are owed a back-off, refreshes owed by bank (R253, R254) -/
  acts     : Tab Nat
  backoffs : List Nat
  owed     : Tab Nat
  /-- the banks whose owed refreshes and back-off take the next slots, in order (R254) -/
  bursts   : List Nat
  /-- units of this window given to each row of Table 10.4 -/
  spent    : Vector Nat 6
  /-- slots that a retraining burst has still to take, and whether it will not converge (R260) -/
  retrain  : Nat
  failing  : Bool
  /-- one more than the TICK whose position has last served a dynamic request (R247, R250) -/
  served   : Nat
  /-- the dynamic requests that wait: their bank, and the TICK of the position they ask for next (R250, R253) -/
  waiting  : List (Nat × Nat)
  /-- soft repairs, the one that copies first (R258) -/
  repairs  : List Repair
  /-- rows remapped to the bank's spare, by bank (R258) -/
  remaps   : Tab Nat
  deriving DecidableEq, Repr

/-- What the package sends out: its observers are outside the model (assumption 15). -/
inductive Out where
  /-- MSI-X: function (64 is PF 0) and vector -/
  | msix (fn vector : Nat)
  /-- a line leaves on a port: port, destination tile, source tile, data, poison, logical tick -/
  | line (port dtile stile : Nat) (data : Line) (pois : BitVec 16) (ltick : Nat)
  /-- the control flit of a frame leaves on a port (R372) -/
  | control (port : Nat) (flit : ControlFlit)
  /-- a packet for a peer package, with that package's address (R388) -/
  | packet (addr : Word) (p : Packet)
  /-- a request of a thread to a peer package: its address, its index, the send time (R388, R389) -/
  | request (addr : Word) (pkg stamp : Nat) (a : Acc)
  /-- a reply to a peer: the value, none where its word was poisoned; a fault kind, 0 for none -/
  | reply (source : Nat) (v : Option Word) (bad : Nat)
  /-- a group control message, to the other members' addresses (R388, R426) -/
  | group (addrs : List Word) (m : GroupMsg)
  /-- a host read completes with these bytes; poisoned -/
  | hostRead (v : Word) (poisoned : Bool)
  /-- mailbox response words -/
  | mailbox (result : Nat) (words : List Word)
  /-- a message of the root of trust or management core -/
  | report (code : Nat)
  deriving DecidableEq, Repr

/-- The management core, root of trust and flash (R420-R425). -/
structure Mgmt where
  /-- bring-up done (R424) -/
  ready     : Bool
  /-- an emergency trip is under way (R421); the dies have power -/
  tripped   : Bool
  powered   : Bool
  /-- ordering code QCF-80M (R8) -/
  moduleForm : Bool
  /-- power limit in watts -/
  limit     : Nat
  /-- the reasons of the power and temperature limits in force (Table 19.2) -/
  reasons   : List Nat
  /-- mailbox status word (R425) -/
  mailbox   : Word
  /-- fused rollback counter; rollback number of the staged image (R422) -/
  rollback  : Nat
  staged    : Option Nat
  /-- the two copies of the repair list; whether the second is current (R423) -/
  repairs0  : List Word
  repairs1  : List Word
  current   : Bool
  /-- last trim of a die's tick period (R379) -/
  trimmed   : Vector (BitVec 13) 4
  deriving DecidableEq, Repr

end Sys2Proof.Machine
end

