-- ==== Sys2Proof/Machine/State.lean ====
section
/-! DEFINITION. The state of the machine, the reasons a step can stop, and the machine after reset. -/

namespace Sys2Proof.Machine

/-- Why the machine stops with a fault. -/
inductive Fault where
  /-- A step of a package whose dies have no power: after an emergency trip (R421) or a power loss (R423). The spec
  gives such a package no behaviour until a new reset. Raised by `step` only. Safe: nothing runs on. -/
  | powerIsOff
  deriving DecidableEq, Repr

/-- Why an instruction has no meaning here. -/
inductive Refusal where
  /-- An instruction not modelled, by its mnemonic. Raised by an arm of `exec` only. Safe: the run stops. -/
  | notModelled (mnemonic : String)
  deriving DecidableEq, Repr

/-- The machine. Fields marked MODEL are the model's own (notes: assumption 1). -/
structure State where
  /-- core cycle count of the package (R107) -/
  now      : Nat
  /-- TICK is now / 2 + tickOff: only group formation moves it (R368, R370) -/
  tickOff  : Nat
  /-- MODEL: what is due, by core cycle and order inside it -/
  agenda   : List Item
  /-- MODEL: draws of free values so far (assumption 3) -/
  fresh    : Nat
  /-- MODEL: next thread identity; next job or access identity -/
  nextUid  : Nat
  nextId   : Nat
  /-- MODEL: the thread that acts, taken out of `threads` -/
  cur      : Thread
  /-- MODEL: the partition that acts, taken out of `parts` -/
  p        : Part
  /-- MODEL: the tile that acts, its number in the partition, the stream that acts -/
  tl       : Tile
  tix      : Nat
  tstream  : Nat
  /-- MODEL: the V slot acts; the target of a transfer taken by the bundle that acts; the bundle that acts -/
  slotV    : Bool
  goto     : Option Word
  bundle   : Word
  /-- MODEL: the leader's guard, for the transfers a follower executes (R96) -/
  force    : Option Bool
  /-- local store, HBM, tensor SRAM, accumulators and host memory (R16, R239, R244, R245) -/
  mem      : Memory
  /-- attributes of each 8-byte word, at its flat address: bit 0 empty (R16), bit 1 poisoned (R240), bit 2 a
  single-bit error, bit 3 an uncorrectable error not yet met (R240, R244) -/
  attr     : Memory
  /-- waiter lists by flat word address (R348) -/
  lists    : Tab (List Waiter)
  threads  : List Thread
  parts    : List Part
  /-- partition table (R49) -/
  table    : Vector TableEntry 64
  /-- timed links and group (R369, R371) -/
  links    : Vector LinkEntry 16
  /-- the control flit of the frame under way, by port; the frames, by port and first TICK, that came in with their control
  flit lost (R372, R374) -/
  frames   : Tab ControlFlit
  lost     : List (Nat × Nat)
  group    : Word
  /-- peer address table (R388) -/
  peers    : Vector Word 256
  ctls     : Vector Ctl 48
  chans    : Tab Chan
  /-- host accesses through BAR 2 that wait for a position, in the order received (R250, R344) -/
  hostQueue : List Instr
  /-- fault ring: records by slot, producer and consumer index (R323) -/
  ring     : Tab (List Word)
  ringProd : BitVec 32
  ringCons : BitVec 32
  /-- fault records that wait for room in the ring (R323) -/
  ringWait : List (List Word)
  mboxReq  : Vector Word 16
  mboxResp : Vector Word 16
  mgmt     : Mgmt
  /-- the proctors' firmware stores, one a die (R92) -/
  firmware : Vector (List Word) 4
  /-- MODEL: what has left the package, newest first (assumption 15) -/
  out      : List Out
  deriving DecidableEq, Repr

/-! Values at rest. Every register's reset value is the one its field map gives; assumption 1 names the rest. -/

def StreamReg.rest : StreamReg := ⟨false, false, false, false, 0, 0, 0, 0, 0, 0, 0, [], [], 0⟩

def GraphRun.rest : GraphRun := ⟨0, [], 0, [], 0, 0, 0, 0, []⟩

def Monitor.rest : Monitor := ⟨false, false, 0, 0⟩

/-- A context with no thread: every register zero, `pw` 1 (R29, R118). -/
def Thread.rest : Thread where
  uid := 0
  part := 0
  loc := ⟨0, 0, 0⟩
  status := .fenced
  slotAt := 0
  lastIssue := 0
  pc := 0
  a := Vector.replicate 24 0
  pw := 1
  v := Vector.replicate 128 0
  vm := Vector.replicate 8 0
  retired := 0
  geom := 0
  rkey := 0
  rctr := 0
  rctrSeen := 0
  amax := 0
  srnd := 0
  asid := 0
  bound := 0
  tvec := 0
  epc := 0
  epw := 0
  fault := 0
  finfo := 0
  tscr0 := 0
  tscr1 := 0
  monitor := .rest
  streams := Vector.replicate 4 .rest
  openPkt := none
  unsent := none
  pktLeaves := 0
  relaxed := []
  pushes := []
  seqs := Vector.replicate 3 0
  jobs := []
  idsDue := 0
  parkedCmd := none
  nextCmd := none
  pins := []
  recite := 0
  group := []
  done := 0
  asked := []
  raised := none
  missed := none
  xlat := none
  late := none
  lateMiss := none
  napAt := 0
  napDest := 0
  goal := 0
  waitTo := 0
  fwd := none
  fromCluster := 0
  heldV := []
  landed := []
  issueTvec := 0
  back := Vector.replicate 4 .rest
  proctor := false

def TaskQueue.rest : TaskQueue := ⟨[], [], .wait⟩

def ClusterPart.rest : ClusterPart where
  queue := .rest
  mtab := ⟨[], []⟩
  gov := ⟨0, [], [], 0, []⟩
  notice := 0
  rolls := []
  store := []
  tags := []
  ports := []
  arrived := []

def TStream.rest : TStream where
  body := []
  next := 0
  due := 0
  done := true
  ta := Vector.replicate 16 0
  tn := Vector.replicate 8 0
  busy := 0
  busy2 := 0
  lands := 0
  glands := 0
  before := 0

def NoticeSlot.rest : NoticeSlot := ⟨.idle, 0, 0, none, 0, 0⟩

def Tile.rest : Tile where
  ltile := 0
  geom := 0
  streams := Vector.replicate 7 .rest
  board := Vector.replicate 16 .rest
  clearings := []
  bells := 0
  regions := []
  uses := []
  words := []
  arriving := []
  tpoison := 0
  tcorr := 0

def Run.rest : Run where
  active := false
  handle := 0
  rec_ := []
  group := false
  slot := 0
  tag := 0
  irq := false
  det := true
  tcmode := 0
  d := 1
  ns := 0
  interval := 0
  ltiles := 0
  passes := 1
  pass := 0
  tick0 := 0
  plan := 0
  plan0 := 0
  runBase := 0
  stopped := false
  block := []
  nextBlock := []
  ovl := 0
  ovlPlan := 0
  chain := .none
  chainNext := 0xFF
  halted := none
  preload := none
  preloaded := none
  prept := none
  noisy := []
  bellAt := none
  bounds := []
  bounds0 := []
  tq := []
  hold := .running
  reasons := []
  mreqs := []
  h0 := 0
  heldAt := 0
  resumeAt := 0
  faults := []
  nfault := 0
  ending := false
  final := false
  aborted := false
  requests := []
  deDone := 0

/-- R70: the reset homing table. -/
def homingReset : Vector Word 64 := (Vector.replicate 64 0).set 0 0xFFFF0000FFFF0003

/-- A partition as its entry turns valid: nothing admitted, the homing table at reset, counters zero (R49, R70,
R416). -/
def Part.rest (first lg entry : Nat) : Part where
  first := first
  lg := lg
  entry := entry
  slots := Vector.replicate 8 none
  status := Vector.replicate 8 0
  ring := 0
  overrun := false
  acting := none
  records := Vector.replicate 8 none
  armed := none
  arming := none
  recent := []
  armedIn := (0, 1)
  bank0 := []
  code := []
  graphs := []
  homing := homingReset
  hostBase := 0
  hostLen := 0
  regions := []
  policies := []
  clusters := []
  tiles := []
  backed := []
  jobs := []
  oldStores := []
  retiring := []
  waits := []
  unlisted := []
  ppState := 0
  ppTick := 0
  ppWant := false
  saved := none
  stamps := []
  planLag := 0
  draws := 0
  image := none
  holds := []
  counters := Vector.replicate 23 0
  run := .rest

/-- Table 10.5: `mc.maint` at reset: rti 1 024, thr 512, arep 1, cthr 4. -/
def maintReset : Word := 0x9200_0400

def Chan.rest : Chan where
  patrol := 0
  urgent := []
  rowErrs := []
  acts := []
  backoffs := []
  owed := []
  bursts := []
  spent := Vector.replicate 6 0
  retrain := 0
  failing := false
  served := 0
  waiting := []
  repairs := []
  remaps := []

/-- The management core before bring-up. The ordering code is the module's (assumption 5). -/
def Mgmt.rest : Mgmt where
  ready := false
  tripped := false
  powered := true
  moduleForm := true
  limit := 0
  reasons := []
  mailbox := 0
  rollback := 0
  staged := none
  repairs0 := []
  repairs1 := []
  current := false
  trimmed := Vector.replicate 4 0

/-- The machine as reset is released: TICK and PLAN zero (R368), the tables at their reset values, memory with nothing
listed, and bring-up about to run (R424). That all signed objects verify, and the instant, are the model's choice
(assumption 5); nothing is admitted and no program is loaded (assumption 6). -/
def State.reset : State where
  now := 0
  tickOff := 0
  agenda := [⟨0, 0, .ev (.bringUp true true true 3200)⟩]
  fresh := 0
  nextUid := 1
  nextId := 1
  cur := .rest
  p := .rest 64 0 64
  tl := .rest
  tix := 0
  tstream := 0
  slotV := false
  goto := none
  bundle := 0
  force := none
  mem := []
  attr := []
  lists := []
  threads := []
  parts := []
  table := Vector.replicate 64 ⟨0, false, none⟩
  links := Vector.replicate 16 ⟨0x0200_0000_0000_0000, 0⟩
  frames := []
  lost := []
  group := 0x0000_0020_0000_0100
  peers := Vector.replicate 256 0
  ctls := Vector.replicate 48 ⟨maintReset, [], 0⟩
  chans := []
  hostQueue := []
  ring := []
  ringProd := 0
  ringCons := 0
  ringWait := []
  mboxReq := Vector.replicate 16 0
  mboxResp := Vector.replicate 16 0
  mgmt := .rest
  firmware := Vector.replicate 4 []
  out := []

end Sys2Proof.Machine
end

