-- ==== Sys2Proof/Machine/Memory.lean ====
section
/-! DEFINITION. Tables, and memory as a list of cells in one canonical form: addresses strictly rising, no cell equal to
what an unlisted address reads as. Addresses are those of the model's flat map (`Flat`). -/

namespace Sys2Proof.Machine

/-! Tables by number. -/

def Tab.find {α : Type} (k : Nat) : Tab α → Option α
  | [] => none
  | (j, a) :: t => if j = k then some a else Tab.find k t

def Tab.getD {α : Type} (d : α) (k : Nat) (t : Tab α) : α := (Tab.find k t).getD d

/-- Sets an entry; keys stay in rising order. -/
def Tab.put {α : Type} (k : Nat) (a : α) : Tab α → Tab α
  | [] => [(k, a)]
  | (j, b) :: t => if k < j then (k, a) :: (j, b) :: t else if k = j then (k, a) :: t else (j, b) :: Tab.put k a t

def Tab.drop {α : Type} (k : Nat) : Tab α → Tab α
  | [] => []
  | (j, b) :: t => if j = k then t else (j, b) :: Tab.drop k t

/-! The flat address map: one address for every byte of the package and of host memory. -/

def flatLocalBase : Nat := 2 ^ 40
def flatSramBase : Nat := 2 ^ 41
def flatAccBase : Nat := 2 ^ 42
def flatHostBase : Nat := 2 ^ 64

/-- A byte of a core's local store (R239, Table 3.5). -/
def flatLocal (cluster core byte : Nat) : Nat := flatLocalBase + (cluster * 8 + core) * 2 ^ 22 + byte
/-- A byte of the tensor SRAM that holds a logical tile of a partition (R244). -/
def flatSram (first ltile byte : Nat) : Nat := flatSramBase + (first * 1024 + ltile) * 2 ^ 23 + byte
/-- Word n of accumulator m of a logical tile: element (n div 32, n mod 32), four bytes (Table 0.1). -/
def flatAcc (first ltile m n : Nat) : Nat := flatAccBase + ((first * 1024 + ltile) * 8 + m) * 4096 + 4 * n
/-- A byte of host memory at a host address (R312). -/
def flatHost (a : Nat) : Nat := flatHostBase + a

/-- What an unlisted address reads as: zero, as firmware or a release writes it (R241, R418, R424) and arming leaves
tensor SRAM and accumulators (R45); host memory is the host's (assumption 4). -/
def unlisted (a : Nat) : Byte := if a < flatHostBase then 0 else Config.hostByte (a - flatHostBase)

/-! Bytes. -/

def Memory.read : Memory → Nat → Byte
  | [], a => unlisted a
  | (b, v) :: m, a => if a < b then unlisted a else if a = b then v else Memory.read m a

/-- Removes the cell of an address. -/
def Memory.clear : Memory → Nat → Memory
  | [], _ => []
  | (b, v) :: m, a => if a < b then (b, v) :: m else if a = b then m else (b, v) :: Memory.clear m a

/-- Puts a cell in its place. -/
def Memory.insert : Memory → Nat → Byte → Memory
  | [], a, x => [(a, x)]
  | (b, v) :: m, a, x =>
    if a < b then (a, x) :: (b, v) :: m else if a = b then (a, x) :: m else (b, v) :: Memory.insert m a x

/-- Writes one byte; writing what an unlisted address reads as leaves no cell. -/
def Memory.write (m : Memory) (a : Nat) (x : Byte) : Memory :=
  if x = unlisted a then m.clear a else m.insert a x

/-- The canonical form. -/
def Memory.wf : Memory → Bool
  | [] => true
  | [(a, x)] => decide (x ≠ unlisted a)
  | (a, x) :: (b, y) :: m => decide (x ≠ unlisted a) && decide (a < b) && Memory.wf ((b, y) :: m)

/-! Little-endian values of n bytes (R12). -/

def Memory.readN (m : Memory) (a : Nat) : Nat → Nat
  | 0 => 0
  | n + 1 => (m.read a).toNat + 256 * m.readN (a + 1) n

def Memory.writeN (m : Memory) (a : Nat) : Nat → Nat → Memory
  | 0, _ => m
  | n + 1, v => (m.write a (BitVec.ofNat 8 v)).writeN (a + 1) n (v / 256)

/-- Zeroes (makes unlisted) every byte of [lo, hi). -/
def Memory.wipe (m : Memory) (lo hi : Nat) : Memory := m.filter fun c => c.1 < lo || hi ≤ c.1

/-- Copies every listed byte whose place `place` names to that place; the bytes that `gone` names are unlisted first. -/
def Memory.relocate (m : Memory) (gone : Nat → Bool) (place : Nat → Option Nat) : Memory :=
  (m.filterMap fun c => (place c.1).map fun b => (b, c.2)).foldl (fun r c => r.write c.1 c.2) (m.filter fun c => !gone c.1)

end Sys2Proof.Machine
end

