-- ==== Sys2Proof/Machine/Ops.lean ====
section
/-! DEFINITION. The named operations every meaning is written with: time, the agenda, what acts, registers, faults and
traps, memory words and what a write wakes. -/

namespace Sys2Proof.Machine

/-- The outcome of a step. -/
abbrev Res := Host.Outcome State Fault Refusal

/-- Bits [hi:lo] of a word, as a number. -/
def field (w : Word) (hi lo : Nat) : Nat := w.toNat / 2 ^ lo % 2 ^ (hi + 1 - lo)

/-! Time (R9, R107, R368). -/

/-- TICK in the tick of the current core cycle. -/
def State.tick (s : State) : Nat := s.now / 2 + s.tickOff

/-- The core cycle in which a TICK begins. -/
def State.cycleOfTick (s : State) (t : Nat) : Nat := 2 * (t - s.tickOff)

/-- The core cycle as every member of a formed group counts it, from TICK (R368). -/
def State.groupCycle (s : State) : Nat := s.now + 2 * s.tickOff

/-- PLAN of the focused partition (R52, R368; assumption 13): with TICK where no launch runs, and up to tick 0 of one. -/
def State.plan (s : State) : Nat :=
  let r := s.p.run
  if !r.active || r.ending || r.chain == .none then s.tick - s.p.planLag
  else if r.stopped then r.plan
  else if s.tick < r.runBase then r.plan - (r.runBase - s.tick)
  else r.plan + (s.tick - r.runBase) / r.d

/-- Logical ticks since tick 0 of the running overlay (R126). -/
def State.ltick (s : State) : Nat := s.plan - s.p.run.ovlPlan

/-- The core cycle of an entry of a launch's logical queue: the start of its logical tick, or the tick's last cycle
for an end-of-tick rank (R126). -/
def Run.cycleOf (r : Run) (off : Nat) (i : Item) : Nat :=
  2 * (r.runBase - off) + 2 * r.d * (i.cycle - r.plan) + (if i.rank < 900000 then 0 else 2 * r.d - 1)

/-! Orders inside one core cycle (R114, R213, R239, R266, R331, R348). -/

def rankLand : Nat := 0
def rankDone : Nat := 100000
def rankStart : Nat := 200000
def rankWord : Nat := 300000
def rankRead : Nat := 350000
def rankWrite : Nat := 360000
def rankArrive : Nat := 470000
/-- Requests that have waited for a position of their channel come before those that arrive (R250). -/
def rankPosition : Nat := rankArrive - 1
def rankWaiter : Nat := 480000
def rankThread : Nat := 500000
def rankQueue : Nat := 600000
def rankEnqueue : Nat := 612000
def rankDispatch : Nat := 620000
def rankIssue : Nat := 700000
/-- The engine ports come after the threads of their core, whose tag operations take effect as they issue (R239, R266). -/
def rankPerform : Nat := 810000
def rankEngine : Nat := 820000
def rankLend : Nat := 800000
def rankEnd : Nat := 900000

/-- R114: of the results that land in one cycle the one of the later-issued bundle, whose delay is the shorter, is last. -/
def landRank (delay : Nat) : Nat := rankLand + (99999 - min 99999 delay)

/-- Ascending source cluster, core and rotation position (R347, R348, R363, R381). -/
def Loc.key (l : Loc) : Nat := (l.cluster * 8 + l.core) * 16 + l.pos

/-! The agenda. -/

/-- Puts an item behind every item of its cycle and rank. -/
def insertItem (x : Item) : List Item → List Item
  | [] => [x]
  | y :: t =>
    if x.cycle < y.cycle ∨ (x.cycle = y.cycle ∧ x.rank < y.rank) then x :: y :: t else y :: insertItem x t

/-- Something falls due in a core cycle. -/
def State.dueAt (s : State) (cycle rank : Nat) (w : Task) : State :=
  { s with agenda := insertItem ⟨cycle, rank, w⟩ s.agenda }

/-- An event falls due some core cycles from now. -/
def State.dueIn (s : State) (delay rank : Nat) (i : Instr) : State := s.dueAt (s.now + delay) rank (.ev i)

/-- Something falls due in a PLAN tick of the focused partition's launch (R126). -/
def State.duePlan (s : State) (plan rank : Nat) (w : Task) : State :=
  { s with p := { s.p with run := { s.p.run with tq := insertItem ⟨plan, rank, w⟩ s.p.run.tq } } }

/-- An event in a later logical tick. -/
def State.dueTick (s : State) (ticks rank : Nat) (i : Instr) : State := s.duePlan (s.plan + ticks) rank (.ev i)

/-! What acts. -/

def insertThread (t : Thread) : List Thread → List Thread
  | [] => [t]
  | u :: r => if t.uid < u.uid then t :: u :: r else if t.uid = u.uid then t :: r else u :: insertThread t r

def insertPart (p : Part) : List Part → List Part
  | [] => [p]
  | q :: r => if p.first < q.first then p :: q :: r else if p.first = q.first then p :: r else q :: insertPart p r

/-- The thread that acts goes back to its place. -/
def State.storeThread (s : State) : State :=
  if s.cur.uid = 0 then s else { s with threads := insertThread s.cur s.threads, cur := .rest }

/-- The partition that acts goes back to its place. -/
def State.storePart (s : State) : State :=
  if s.p.first = 64 then s else { s with parts := insertPart s.p s.parts, p := .rest 64 0 64 }

/-- Takes a partition as the one that acts; `p.first` is 64 where there is none of that number. -/
def State.focusPart (s : State) (first : Nat) : State :=
  if s.p.first = first then s else
  let s := s.storePart
  match s.parts.find? (·.first = first) with
  | some q => { s with p := q, parts := s.parts.filter (·.first ≠ first) }
  | none => s

/-- Takes a thread, and its partition, as those that act; `cur.uid` is 0 where it has ended. -/
def State.focusThread (s : State) (uid : Nat) : State :=
  let s := if s.cur.uid = uid then s else
    let s := s.storeThread
    match s.threads.find? (·.uid = uid) with
    | some t => { s with cur := t, threads := s.threads.filter (·.uid ≠ uid) }
    | none => s
  if s.cur.uid = 0 then s else s.focusPart s.cur.part

/-- Changes a thread wherever it stands. -/
def State.onThread (s : State) (uid : Nat) (f : Thread → Thread) : State :=
  if s.cur.uid = uid then { s with cur := f s.cur }
  else { s with threads := s.threads.map fun t => if t.uid = uid then f t else t }

def State.findThread (s : State) (uid : Nat) : Option Thread :=
  if s.cur.uid = uid then some s.cur else s.threads.find? (·.uid = uid)

/-- Every thread of the focused partition, the acting one among them. -/
def State.partThreads (s : State) : List Thread :=
  (if s.cur.uid = 0 then s.threads else insertThread s.cur s.threads).filter (·.part = s.p.first)

/-- The tile that acts goes back to its place. -/
def State.storeTile (s : State) : State := { s with p := { s.p with tiles := s.p.tiles.set s.tix s.tl } }

/-- Takes a tile of the focused partition as the one that acts. -/
def State.focusTile (s : State) (n : Nat) : State :=
  { s with tix := n, tl := s.p.tiles.getD n .rest }

/-- Changes a tile of the focused partition, the acting one included. -/
def State.onTile (s : State) (n : Nat) (f : Tile → Tile) : State :=
  let s := { s with p := { s.p with tiles := s.p.tiles.modify n f } }
  if s.tix = n then { s with tl := f s.tl } else s

/-- Changes what the focused partition owns in a cluster. -/
def State.onCluster (s : State) (c : Nat) (f : ClusterPart → ClusterPart) : State :=
  { s with p := { s.p with clusters := Tab.put c (f (Tab.getD .rest c s.p.clusters)) s.p.clusters } }

def State.cluster (s : State) (c : Nat) : ClusterPart := Tab.getD .rest c s.p.clusters

/-- Changes the running launch of the focused partition. -/
def State.onRun (s : State) (f : Run → Run) : State := { s with p := { s.p with run := f s.p.run } }

/-- An event of the focused partition advances a private counter (R416). -/
def State.count (s : State) (w : Nat) (by_ : Nat := 1) : State :=
  { s with p := { s.p with counters :=
      if h : w < 23 then s.p.counters.set w (s.p.counters[w] + BitVec.ofNat 64 by_) else s.p.counters } }

/-- What leaves the package. -/
def State.emit (s : State) (o : Out) : State := { s with out := o :: s.out }

/-! Shares and modes (R49, R51, R52, R108). -/

/-- Units of a partition. -/
def Part.units (p : Part) : Nat := 2 ^ (6 - p.lg)
/-- Tiles of a partition (Table 2.8). -/
def Part.tileCount (p : Part) : Nat := 4 * p.units
/-- Graph slots of a partition (Table 2.8). -/
def Part.graphSlots (p : Part) : Nat := p.units / 4
/-- R49: the proctor context of a unit: its number on its die. -/
def unitProctor (u : Nat) : Loc := ⟨48 + u / 16, 0, u % 16⟩
/-- Proctor contexts of a partition (Table 2.8). -/
def Part.proctors (p : Part) : List Loc := (List.range p.units).map fun k => unitProctor (p.first + k)
/-- Whether the partition owns a unit. -/
def Part.owns (p : Part) (unit : Nat) : Bool := decide (p.first ≤ unit) && decide (unit < p.first + p.units)

/-- Threads of a core in a thread-count mode (Table 5.1). -/
def modeThreads (tcmode : Nat) : Nat := 16 / 2 ^ tcmode

/-- Vector registers of a thread (Table 5.1). -/
def modeVectors (tcmode : Nat) : Nat := 16 * 2 ^ tcmode

/-- Vector registers of the acting thread; a proctor runs in mode 16 (R108). -/
def State.vectors (s : State) : Nat := if s.cur.proctor then 16 else modeVectors s.p.run.tcmode

/-- R406: a pre-emption has stopped the partition, up to the resumption tick. -/
def Part.paused (p : Part) : Bool := p.ppState != 0 && !p.ppWant

/-- The dilation that applies to the acting thread (R112); none to a proctor (assumption 14). -/
def State.dil (s : State) : Nat := if s.cur.proctor then 1 else s.p.run.d

/-- Whether exact deterministic times apply (R7, R116). -/
def State.det (s : State) : Bool := s.p.run.det

/-! Free times (assumption 3, assumption 4). -/

/-- A free number of core cycles up to a bound, drawn by the focused partition (R51). -/
def State.draw (s : State) (most : Nat) : Nat × State :=
  (Config.extraDelay s.p.first s.p.draws % (most + 1), { s with p := { s.p with draws := s.p.draws + 1 } })

/-- A time of `t` core cycles: exact in deterministic mode, else no less, and at most 64 times as much (R116, R404). -/
def State.atLeast (s : State) (t : Nat) : Nat × State :=
  if s.det then (t, s) else
  let (x, s) := s.draw (63 * t)
  (t + x, s)

/-- A time of `cycles` at dilation `d`. -/
def State.elapseAt (s : State) (cycles d : Nat) : Nat × State := s.atLeast (cycles * d)

/-- And of what the acting thread does. -/
def State.elapse (s : State) (cycles : Nat) : Nat × State := s.elapseAt cycles s.dil

/-- A time the host sets (R116). -/
def State.hostElapse (s : State) : Nat × State := (1 + Config.hostDelay s.fresh, { s with fresh := s.fresh + 1 })

/-! Scalar registers, predicates and their landing (R15, R79, R114). -/

/-- The value of a scalar code: a0-a23, or zero for `zr`. -/
def Thread.reg (t : Thread) (code : Nat) : Word := if h : code < 24 then t.a[code] else 0

/-- Writes a scalar register; `zr` discards. -/
def Thread.setReg (t : Thread) (code : Nat) (v : Word) : Thread :=
  if h : code < 24 then { t with a := t.a.set code v } else t

def State.ra (s : State) (code : BitVec 5) : Word := s.cur.reg code.toNat

/-- Predicate n of the acting thread; p0 is always 1 (Table 5.4). -/
def Thread.pred (t : Thread) (n : Nat) : Bool := if n = 0 then true else t.pw.getLsbD n

/-- R80: whether a guard holds. -/
def State.guard (s : State) (g : Guard) : Bool := (s.cur.pred g.p.toNat) != (g.neg == 1)

/-- R96: the guard of a transfer or `texit`: in a recitation follower the leader's decides. -/
def State.transferGuard (s : State) (g : Guard) : Bool := s.force.getD (s.guard g)

/-- Whether the acting thread is in rotation. -/
def State.inRotation (s : State) : Bool := s.cur.status.rotating

/-- A register result lands `lat` core cycles after the acting thread's issue, times the dilation (R112, R114). The
results of a V slot whose bundle waits on its S slot's access are kept until it retires (R17). -/
def State.land (s : State) (lat : Nat) (w : RegWrite) : State :=
  let bundleWaits := match s.cur.status with
    | .access _ => true
    | .listed => true
    | .napping => true
    | .waiting w => w.unretired
    | _ => false
  if s.slotV && bundleWaits then { s with cur := { s.cur with heldV := s.cur.heldV ++ [(s.now + lat * s.dil, w)] } }
  else s.dueIn (lat * s.dil) (landRank (lat * s.dil)) (.registerResultLands s.cur.uid s.now w)

/-- A scalar result; a destination of `zr` discards it. -/
def State.landA (s : State) (lat : Nat) (d : BitVec 5) (v : Word) : State :=
  if d.toNat < 24 then s.land lat (.a d.toNat v) else s

/-- A predicate result; p0 takes none. -/
def State.landP (s : State) (lat : Nat) (d : Nat) (v : Bool) : State :=
  if d = 0 then s else s.land lat (.pred d v)

/-- Sticky flags of `pw` bits [26:21] or others, ORed in at landing (R139). -/
def State.landFlags (s : State) (lat : Nat) (bits : BitVec 32) : State :=
  if bits = 0 then s else s.land lat (.flags bits)

def setBits {n : Nat} (old val mask : BitVec n) : BitVec n := (old &&& ~~~mask) ||| (val &&& mask)

/-- Fields of `pw` by access (Table 5.4). -/
def pwRw : BitVec 32 := 0x0010FFFE
def pwRs : BitVec 32 := 0x07EE0000

/-- What a `pwr` of A leaves (R118): RW fields take A, RS fields keep a 1 only where A has a 1. -/
def pwWrite (old : BitVec 32) (a : Word) : BitVec 32 :=
  let v := a.setWidth 32
  (setBits old v pwRw) &&& (v ||| ~~~pwRs)

/-! Faults and traps (R390-R397). -/

/-- Number of a slot in `k.fault`. -/
def State.slotBit (s : State) : Nat := if s.slotV then 1 else 0

/-- A fault as a bundle raises it. -/
def Raised.of (kind slot : Nat) (info pc : Word) : Raised := ⟨kind, slot, info, pc, false, false, 0, 0, false, false⟩

/-- A bundle raises a thread fault (R391): the first one raised stands, ordered by `settle`. -/
def State.raise (s : State) (kind : Nat) (info : Word) : State :=
  { s with cur := { s.cur with raised := some (.of kind s.slotBit info s.cur.pc) } }

/-- A stream that is not bound; its exhausted bit stays until a 1 is written to it (Table 8.13, R13). -/
def StreamReg.freed (st : StreamReg) : StreamReg := { StreamReg.rest with exh := st.exh }

/-! The group (R66, R369). -/

def State.formed (s : State) : Bool := s.group.getLsbD 17
/-- Whether the package counts as a member: its group is formed, or dissolved under the launch that runs (R370, R66). -/
def State.inGroup (s : State) : Bool := s.formed || (s.p.run.active && s.p.run.group)
def State.ownPkg (s : State) : Nat := if s.inGroup then field s.group 7 0 else 0
def State.extent (s : State) : Nat := if s.inGroup then field s.group 16 8 else 1

/-- R388: the address that the peer address table gives a package. -/
def State.peerAddr (s : State) (pkg : Nat) : Word := s.peers.toList.getD pkg 0

/-- R388, R426: a control message goes to the other members, and to nobody else. -/
def State.groupMail (s : State) (m : GroupMsg) : State :=
  s.emit (.group (((List.range s.extent).filter fun k => k != s.ownPkg).map s.peerAddr) m)

/-- Hold lead Hd and peer latency Lp in ticks (Table 16.1). -/
def State.holdLead (s : State) : Nat := field s.group 47 32
def State.peerLat (s : State) : Nat := field s.group 63 48

/-- A partition without the management reasons of peers (R384). -/
def Part.ownHolds (p : Part) : Part := { p with holds := p.holds.filter (· < 256) }

/-- R370: formed returns to 0; no peer's management reason is in force. -/
def State.dissolve (s : State) : State :=
  { s with group := s.group &&& ~~~0x20000, p := s.p.ownHolds, parts := s.parts.map Part.ownHolds }

/-- R370, R388: the group dissolves here, and the other members are told: with the fault of the running group launch, or,
where none runs, at once. -/
def State.breakGroup (s : State) : State :=
  let runs (p : Part) : Bool := p.run.active && p.run.group
  let s := if s.formed && !runs s.p && !s.parts.any runs then
      s.groupMail (.fault 0 s.ownPkg 19 s.tick 0 0 0 false s.now 0 0) else s
  s.dissolve

/-- R392, R400: a launch fault of the focused partition: those of the earliest faulting tick are kept until its end, a
later one only counts. -/
def State.launchFault (s : State) (f : LaunchFault) : State :=
  if !s.p.run.active then s
  else if s.p.run.ending then s.onRun fun r => { r with nfault := r.nfault + 1 }
  else
    let first := s.p.run.faults.isEmpty
    let s := s.onRun fun r => { r with faults := r.faults ++ [f] }
    if !first then s
    else if s.p.run.stopped ∨ s.tick < s.p.run.runBase then
      s.dueAt (s.now / 2 * 2 + 1) (rankEnd + 50) (.ev (.launchFaultEnd s.p.first))
    else s.duePlan s.plan (rankEnd + 50) (.ev (.launchFaultEnd s.p.first))

/-- R389, R370: a message that comes after its time is a link fault, which dissolves the group. -/
def State.lateMessage (s : State) : State :=
  (s.launchFault ⟨19, s.ltick, s.groupCycle, 0, 0, 0, 0, 0, false, s.ownPkg⟩).breakGroup

/-- R389: the send time of what leaves the package for a peer in a core cycle from now: 196 core cycles later, as the group
counts them. -/
def State.sendStamp (s : State) (late : Nat) : Nat := s.groupCycle + late + 196

/-- R389: the core cycle in which a request or packet of a peer is delivered: in deterministic mode exactly 2 Lp core cycles
after its stamped send time; in throughput mode as it comes. -/
def State.deliverAt (s : State) (stamp : Nat) : Nat :=
  if s.p.run.active && s.p.run.group && s.p.run.det then stamp + 2 * s.peerLat - 2 * s.tickOff else s.now

/-- R389: what a peer sent is held up to its time, with what then happens to it; where it comes later, the group has a link
fault. -/
def State.fromPeer (s : State) (stamp : Nat) (i : Instr) (f : State → Res) : Res :=
  if s.now < s.deliverAt stamp then .next (s.dueAt (s.deliverAt stamp) rankArrive (.ev i))
  else f (if s.deliverAt stamp < s.now then s.lateMessage else s)

/-- R395: an unhandled fault of the acting thread. -/
def State.threadFault (s : State) (r : Raised) : State :=
  s.launchFault ⟨r.kind, s.ltick, s.groupCycle, 0, 0, r.info, r.pc, s.cur.geom, true, s.ownPkg⟩

/-- A launch fault of the acting tile and stream (R390, R400). -/
def State.tileFault (s : State) (kind : Nat) (info : Word) : State :=
  s.launchFault ⟨kind, s.ltick, s.groupCycle, s.tl.ltile, s.tstream, info, 0, 0, false, s.ownPkg⟩

/-- `k.tvec.en` and `k.fault.active`. -/
def Thread.trapEnabled (t : Thread) : Bool := t.tvec.getLsbD 0
def Thread.trapActive (t : Thread) : Bool := t.fault.getLsbD 9

/-- R395, R96: the `k.tvec` that decides for the acting thread: in a recitation group the leader's. -/
def State.decidingTvec (s : State) : BitVec 32 :=
  if s.cur.recite = 2 then (match s.findThread (s.cur.group.headD 0) with | some l => l.tvec | none => 0) else s.cur.tvec

/-- R394, R395: the deciding `k.tvec`, with en 0 where the acting thread is in its handler. -/
def State.trapTvec (s : State) : BitVec 32 :=
  if s.cur.trapActive then s.decidingTvec &&& 0xFFFFFFFE else s.decidingTvec

/-- The last cycle in which a result or access of a thread that is on its way lands (R117, R394). -/
def State.landsBy (s : State) (uid : Nat) : Nat :=
  s.agenda.foldl (fun m i => match i.what with
    | .ev (.registerResultLands u _ _) => if u = uid then max m i.cycle else m
    | .ev (.accessComplete u _) => if u = uid then max m i.cycle else m
    | _ => m) 0

/-- R394, R395: a fault is delivered: the thread leaves rotation until trap entry, at least 4 cycles after the issue of its
bundle; `k.tvec` counts as it stood then. Where no handler takes it, it is on record in the cycle it was found in, or, for kinds 8 and 9, in that of trap entry. -/
def State.startTrap (s : State) (r : Raised) : State :=
  let tv := if r.late then s.trapTvec else s.cur.issueTvec
  let ok := tv.getLsbD 0 && !r.told
  let r := { r with tvec := tv, handled := ok }
  let s := { s with cur := { s.cur with raised := some r, status := .trapping } }
  let c := max s.now ((if r.late then s.now else s.cur.lastIssue) + 4 * s.dil)
  let c := if ok then max c (s.landsBy s.cur.uid) else if r.kind = 8 ∨ r.kind = 9 then c else s.now
  s.dueAt c (rankIssue - 10) (.ev (.trapEntry s.cur.uid))

/-- R394: the pc of the handler. -/
def tvecBase (tvec : BitVec 32) : Word := ((tvec >>> 3) <<< 3).setWidth 64

/-- `k.fault` at entry: kind, slot, active 1, late, dmask (Table 17.5). -/
def faultWord (kind slot : Nat) (late more : Bool) (dmask : BitVec 8) : BitVec 24 :=
  BitVec.ofNat 24 (kind % 256 + 256 * (slot % 2) + 512 + (if late then 1024 else 0) + (if more then 2048 else 0))
    ||| (dmask.setWidth 24 <<< 16)

/-- TAKING A TRAP (R394): the saved pc and `pw`, `k.fault` with active set, `k.finfo`, and the pc at the handler. `pw`
itself and everything else stay. -/
def Thread.enterTrap (t : Thread) (r : Raised) (dmask : BitVec 8) : Thread :=
  { t with
    epc := ((r.pc.setWidth 32) >>> 3) <<< 3
    epw := t.pw
    fault := faultWord r.kind r.slot r.late r.more dmask
    finfo := r.info
    pc := tvecBase r.tvec
    status := .ready
    napAt := 0
    xlat := none
    raised := none }

/-- RETURN FROM A TRAP (R397): `pw` from `k.epw` with p0 set and [31:27] clear, active clear, the pc at `k.epc`, the
done mask taken out of `k.fault`. -/
def Thread.leaveTrap (t : Thread) : Thread :=
  { t with
    pw := (t.epw &&& 0x07FFFFFF) ||| 1
    fault := t.fault &&& 0x00FDFF
    done := (t.fault >>> 16).setWidth 8
    pc := ((t.epc >>> 3) <<< 3).setWidth 64 }

/-! Words of memory: full/empty, poison, errors (R240). -/

def wordOf (flat : Nat) : Nat := flat / 8 * 8

/-- Host memory holds no attributes. -/
def State.attrOf (s : State) (flat : Nat) : Byte := if flat < flatHostBase then s.attr.read (wordOf flat) else 0

/-- R16, R240: the full/empty bit; a poisoned word reads as full. -/
def State.poisoned (s : State) (flat : Nat) : Bool := (s.attrOf flat &&& 0xA) != 0
def State.isFull (s : State) (flat : Nat) : Bool := s.poisoned flat || (s.attrOf flat &&& 1) == 0

def State.word (s : State) (flat : Nat) : Word := BitVec.ofNat 64 (s.mem.readN flat 8)
def State.bytes (s : State) (flat n : Nat) : Nat := s.mem.readN flat n
/-- The 128-byte line at a flat address, and its poison flags (R292). -/
def State.line (s : State) (flat : Nat) : Line := BitVec.ofNat 1024 (s.mem.readN flat 128)
def State.linePois (s : State) (flat : Nat) : BitVec 16 :=
  (List.range 16).foldl (fun m i => if s.poisoned (flat + 8 * i) then m ||| (1#16 <<< i) else m) 0

/-- A timed or engine view of a local-store flat address: cluster, core, byte. -/
def localOf (flat : Nat) : Option (Nat × Nat × Nat) :=
  if flatLocalBase ≤ flat ∧ flat < flatSramBase then
    let o := flat - flatLocalBase
    some (o / 2 ^ 22 / 8, o / 2 ^ 22 % 8, o % 2 ^ 22)
  else none

/-- Completion figure of Table 5.3 for a word, seen from a core: local store by distance, HBM homed in the cluster or
not (the home is the controller of the physical offset, R310). -/
def figure (l : Loc) (flat : Nat) : Nat :=
  match localOf flat with
  | some (cl, co, b) =>
    if cl = l.cluster then (if co = l.core then (if b < 0x80000 then 8 else 10) else 24) else 392
  | none => if flat < flatLocalBase ∧ flat / 2 ^ 34 = l.cluster then 200 else 392

/-- R243: a write to word i of a slot whose entry is valid sets dirty[i]. -/
def State.dirtySlot (s : State) (flat : Nat) : State :=
  match localOf flat with
  | some (cl, co, b) =>
    if b < 0x80000 then s else
    let k := co * 16384 + (b - 0x80000) / 128
    match Tab.find k (s.cluster cl).tags with
    | some e =>
      if e.valid then
        s.onCluster cl fun c => { c with tags := Tab.put k { e with dirty := e.dirty ||| (1#16 <<< (b % 128 / 8)) } c.tags }
      else s
    | none => s
  | none => s

/-- A write to a word sets `seen` in the monitors armed on it, and wakes a `nap` (R356, R357). -/
def Thread.noteWrite (t : Thread) (flat : Nat) : Thread :=
  if t.monitor.armed && t.monitor.flat == flat then { t with monitor := { t.monitor with seen := true }, napAt := 0 } else t

/-- The `nap`s that a write to a word ends. -/
def State.nappers (s : State) (flat : Nat) : List Thread :=
  (s.cur :: s.threads).filter fun t => t.status = .napping && t.monitor.armed && t.monitor.flat == flat && !t.monitor.seen

/-- A word's waiter list is tested in a cycle, once (R348). -/
def State.wakeList (s : State) (flat cycle : Nat) : State :=
  let w : Task := .ev (.waiterPerforms flat)
  if s.agenda.any fun i => i.cycle == cycle && i.what == w then s else s.dueAt cycle rankWaiter w

/-- The dilation of a partition's launch. -/
def State.dilOf (s : State) (first : Nat) : Nat :=
  if s.p.first = first then s.p.run.d else match s.parts.find? (·.first = first) with | some p => p.run.d | none => 1

/-- R348, R112: core cycles from one turn of a word's waiter list to the next: the dilation of its first member's partition. -/
def State.turnOf (s : State) (flat : Nat) : Nat :=
  match (Tab.getD [] flat s.lists).head? with
  | none => 1
  | some w => if w.uid = 0 then s.dilOf w.acc.scope else match s.findThread w.uid with
    | some t => if t.proctor then 1 else s.dilOf t.part
    | none => 1

/-- The members of a word's waiter list are tested again from the next turn (R348). -/
def State.wakeTurn (s : State) (flat : Nat) : State :=
  if (Tab.getD [] flat s.lists).isEmpty then s else s.wakeList flat (s.now + s.turnOf flat)

/-- After a word's data or full/empty bit is written: monitors and the word's waiter list (R348, R356). -/
def State.noted (s : State) (flat : Nat) : State :=
  let s := (s.nappers flat).foldl (fun s t =>
    s.dueAt (s.now + figure t.loc flat * s.dilOf t.part / 2) rankDone (.ev (.napWake t.uid))) s
  ({ s with cur := s.cur.noteWrite flat, threads := s.threads.map (·.noteWrite flat) } : State).wakeTurn flat

/-- After a word's data is written: the dirty bit too (R243). -/
def State.touched (s : State) (flat : Nat) : State := (s.dirtySlot flat).noted flat

/-- Writes the attributes of a word. -/
def State.setAttr (s : State) (flat : Nat) (b : Byte) : State :=
  if flat < flatHostBase then { s with attr := s.attr.write (wordOf flat) b } else s

/-- A store of n bytes that stays inside its word: data only (R263). A whole word gets fresh check bits, which ends any
poison or error and leaves a poisoned word full (R240). -/
def State.store (s : State) (flat n v : Nat) : State :=
  let s := { s with mem := s.mem.writeN flat n v }
  let s := if n = 8 then s.setAttr flat (if s.poisoned flat then 0 else s.attrOf flat &&& 1) else s
  s.touched (wordOf flat)

/-- A whole word with its full/empty bit. -/
def State.storeWord (s : State) (flat : Nat) (v : Word) (full : Bool) : State :=
  (({ s with mem := s.mem.writeN flat 8 v.toNat } : State).setAttr flat (if full then 0 else 1)).touched flat

/-- Writes the poison pattern: data zero, reads as full (R240, R256). -/
def State.poison (s : State) (flat : Nat) : State :=
  (({ s with mem := s.mem.writeN flat 8 0 } : State).setAttr flat 2).touched flat

/-- Changes only the full/empty bit, which leaves the word clean (R243). -/
def State.setFull (s : State) (flat : Nat) (full : Bool) : State :=
  let a := s.attrOf flat
  (s.setAttr flat ((a &&& 0xFE) ||| (if full then 0 else 1))).noted (wordOf flat)

/-- An engine's write of a word it read with its poison: copied poisoned (R257), else written and set full. -/
def State.copyWord (s : State) (flat : Nat) (v : Word) (pois : Bool) : State :=
  if pois then s.poison flat else s.storeWord flat v true

end Sys2Proof.Machine
end

