-- ==== Sys2Proof/Machine/Access.lean ====
section
/-! DEFINITION. Where an access goes: the checks of Table 11.1, the homing table, translation, the writer rules, and
the reads and writes an access makes where it performs. -/

namespace Sys2Proof.Machine

/-- Sign extension of the low n bits (Table 0.5). -/
def signExt (w : Word) (n : Nat) : Int :=
  let v := w.toNat % 2 ^ n
  if v < 2 ^ (n - 1) then v else (v : Int) - 2 ^ n

/-- Where a virtual address leads (Table 11.1). -/
inductive Target where
  | loc (cluster core byte : Nat)
  | hbm (home off : Nat)
  | host (off : Nat)
  | sram (ltile byte : Nat)
  | counters (byte : Nat)
  | board (ltile slot : Nat)
  | peer (pkg : Nat)
  deriving DecidableEq, Repr

/-! Homing (R70, R71). -/

/-- Whether homing entry w covers an HBM offset. -/
def homeCovers (w : Word) (off : Nat) : Bool :=
  let g := off / 2 ^ 30
  w.getLsbD 0 && decide (field w 47 32 ≤ g) && decide (g < field w 47 32 + field w 63 48)

/-- The clusters a hashed entry names, ascending. -/
def homeList (w : Word) : List Nat :=
  (List.range 48).filter fun c => w.getLsbD (16 + c / 12) && w.getLsbD (20 + c % 12)

/-- The home cluster an entry gives an offset. -/
def homeOf (w : Word) (off : Nat) : Nat :=
  if !w.getLsbD 1 then field w 13 8 else
  let q := off / 2 ^ (12 + field w 4 2)
  let h := q ^^^ (q / 2 ^ 7) ^^^ (q / 2 ^ 14)
  let l := homeList w
  l.getD (h % l.length) 0

/-- R71: the homing entry and home of an HBM offset. -/
def Part.home (p : Part) (off : Nat) : Option (Nat × Nat) :=
  match (List.range 64).find? fun n => homeCovers (p.homing.toList.getD n 0) off with
  | some n => some (n, homeOf (p.homing.toList.getD n 0) off)
  | none => none

/-- R309: the page size a homing entry gives. -/
def pageSize (w : Word) : Nat := if w.getLsbD 1 then 4096 * 2 ^ field w 4 2 else 2 ^ 21

/-- Whether a translation entry has this key and is valid (R310). -/
def TransEntry.hits (e : TransEntry) (vpn reg asid : Nat) : Bool :=
  e.w0.getLsbD 53 && field e.w0 51 40 == asid && field e.w0 39 34 == reg && field e.w0 33 0 == vpn

/-- R311: the translation store of a cluster as a translation that starts now finds it. -/
def Part.storeOf (p : Part) (cluster : Nat) : List TransEntry :=
  match Tab.find cluster p.oldStores with
  | some l => l
  | none => (Tab.getD .rest cluster p.clusters).store

/-- R310: translation at the interface of an offset's home; a miss gives `why` of Table 13.5 (0 not mapped, 1
write-protected). The result is a physical HBM offset, which is its flat address. -/
def Part.translate (p : Part) (off asid : Nat) (write : Bool) : Except Nat Nat :=
  match p.home off with
  | none => .error 0
  | some (n, home) =>
    let ps := pageSize (p.homing.toList.getD n 0)
    match (p.storeOf home).find? (·.hits (off / ps) n asid) with
    | none => .error 0
    | some e =>
      if write && !e.w0.getLsbD 52 then .error 1
      else .ok (home * 2 ^ 34 + (field e.w1 21 0 * 4096 + off % ps))

/-- R327: the entry that translates an access from another cluster counts it, with the quadrant of its issue. -/
def TransEntry.count (e : TransEntry) (q : BitVec 2) : TransEntry :=
  let e := if e.hn = 0xFFFF then { e with hn := e.hn >>> 1, hx := e.hx >>> 1, hy := e.hy >>> 1 } else e
  { e with hn := e.hn + 1, hx := e.hx + (if q.getLsbD 0 then 1 else 0), hy := e.hy + (if q.getLsbD 1 then 1 else 0) }

def State.countHot (s : State) (off asid : Nat) (q : BitVec 2) : State :=
  match s.p.home off with
  | none => s
  | some (n, home) =>
    let ps := pageSize (s.p.homing.toList.getD n 0)
    s.onCluster home fun c =>
      { c with store := c.store.map fun e => if e.hits (off / ps) n asid then e.count q else e }

/-- The writable fields of `k.homeN` (Table 3.7). -/
def homingMask : Word := 0xFFFFFFFFFFFF3F1F

/-- R72: the three cases in which an entry is refused. -/
def homingOk (v : Word) : Bool :=
  (if v.getLsbD 1 then !(homeList v).isEmpty else decide (field v 13 8 ≤ 47)) &&
  (!v.getLsbD 0 || decide (field v 63 48 ≠ 0))

/-- A translation entry that is no longer valid. -/
def TransEntry.invalid (e : TransEntry) : TransEntry := { e with w0 := e.w0 &&& ~~~(1#64 <<< 53) }

/-- Changes the translation store of every interface. -/
def Part.mapStores (p : Part) (f : TransEntry → TransEntry) : Part :=
  { p with clusters := p.clusters.map fun c => (c.1, { c.2 with store := c.2.store.map f }) }

/-- R72: entry n takes a value; a change invalidates the translations keyed to it. -/
def Part.setHoming (p : Part) (n : Nat) (v : Word) : Part :=
  if h : n < 64 then
    if p.homing[n] = v then p
    else { p.mapStores fun e => if field e.w0 39 34 = n then e.invalid else e with homing := p.homing.set n v }
  else p

/-! Routing and its checks (R66-R69, R262), in the order of Table 11.1. An error is a fault kind. -/

/-- R68: the unit whose share a local-store byte lies in. -/
def shareUnit (core byte : Nat) : Nat :=
  8 * core + (if byte < 0x80000 then byte / 0x10000 else (byte - 0x80000) / 0x40000)

/-- R67, R68: a local-window access of n bytes. -/
def Part.routeLocal (p : Part) (off n : Nat) : Except Nat Target :=
  let cl := off / 2 ^ 40
  let co := off / 2 ^ 37 % 8
  let b := off % 2 ^ 22
  if 48 ≤ cl ∨ off / 2 ^ 22 % 2 ^ 15 ≠ 0 ∨ 0x280000 < b + n then .error 4
  else if p.owns (shareUnit co b) && p.owns (shareUnit co (b + n - 1)) then .ok (.loc cl co b)
  else .error 5

/-- R69: a control-space access of n bytes. -/
def Part.routeControl (p : Part) (off n : Nat) : Except Nat Target :=
  let tile := off / 2 ^ 36 % 256
  match off / 2 ^ 44 with
  | 0 =>
    if p.run.ltiles ≤ tile ∨ off / 2 ^ 23 % 2 ^ 13 ≠ 0 ∨ 0x600000 < off % 2 ^ 23 + n then .error 4
    else .ok (.sram tile (off % 2 ^ 23))
  | 1 =>
    if p.run.ltiles ≤ tile ∨ off / 2 ^ 7 % 2 ^ 29 ≠ 0 ∨ off % 8 ≠ 0 then .error 4
    else .ok (.board tile (off / 8 % 16))
  | 2 => if off / 2 ^ 12 % 2 ^ 32 ≠ 0 ∨ 4096 < off % 4096 + n then .error 4 else .ok (.counters (off % 4096))
  | _ => .error 4

/-- Table 11.1: the target of an access of n bytes at a virtual address. -/
def State.route (s : State) (va : Word) (n : Nat) : Except Nat Target :=
  let pkg := field va 55 48
  let off := field va 45 0
  if field va 63 56 ≠ 0 then .error 4
  else if pkg ≠ s.ownPkg then
    if s.extent ≤ pkg ∨ field va 47 46 ≠ 0 then .error 4 else .ok (.peer pkg)
  else match field va 47 46 with
  | 0 => match s.p.home off with
    | none => .error 4
    | some (_, home) => .ok (.hbm home off)
  | 1 => if s.p.hostLen.toNat < off + n then .error 4 else .ok (.host off)
  | 2 => s.p.routeLocal off n
  | _ => s.p.routeControl off n

/-- The completion figure of a target from a place (Table 5.3); the host's is free. -/
def State.figureOf (s : State) (l : Loc) : Target → Nat
  | .loc cl co b => if cl = l.cluster then (if co = l.core then (if b < 0x80000 then 8 else 10) else 24) else 392
  | .hbm home _ => if home = l.cluster then 200 else 392
  | .host _ => 0
  | .sram _ _ => 392
  | .counters _ => 392
  | .board _ _ => 392
  | .peer _ => 4 * s.peerLat + 392

/-! Writer rules (R32). -/

def Region.meets (r : Region) (tile : Option Nat) (base n : Nat) : Bool :=
  r.tile == tile && decide (r.base < base + n) && decide (base < r.base + r.len)

def Region.covers (r : Region) (tile : Option Nat) (base n : Nat) : Bool :=
  r.tile == tile && decide (r.base ≤ base) && decide (base + n ≤ r.base + r.len)

/-- An HBM write of the packet plane, a copy or a scatter: refused inside a region that names another writer. -/
def Part.hbmOpen (p : Part) (off n writer : Nat) : Bool :=
  p.regions.all fun r => !r.meets none off n || r.writer == writer

/-- An HBM write of a timed engine: only inside a region that names it. -/
def Part.hbmNamed (p : Part) (off n writer : Nat) : Bool :=
  p.regions.any fun r => r.covers none off n && r.writer == writer

/-- A tensor SRAM write of a tile's engine: the engine its region names, or any engine outside every region. -/
def Part.sramEngine (p : Part) (ltile off n writer : Nat) : Bool :=
  p.regions.all fun r => !r.meets (some ltile) off n || r.writer == writer

/-- The tile of the partition that holds a logical tile. -/
def Part.tileOf (p : Part) (ltile : Nat) : Option Nat :=
  (List.range p.tiles.length).find? fun n => (p.tiles.getD n .rest).ltile == ltile

/-- R3, R380: an open clearing covers n bytes of a tile's tensor SRAM in the current tick, and its region names the
writer of a write (none for a read). -/
def State.clearingCovers (s : State) (ltile off n : Nat) (writer : Option Nat) : Bool :=
  match s.p.tileOf ltile with
  | none => false
  | some t => (s.p.tiles.getD t .rest).clearings.any fun c =>
    decide (c.from_ ≤ s.plan) && decide (s.plan < c.close) &&
    match c.seed with
    | none => false
    | some i => match s.p.regions[i]? with
      | none => false
      | some r => r.covers (some ltile) off n && (match writer with | none => true | some w => r.writer == w)

/-- R212: a timed word uses the common port of a bank in the current tick. -/
def State.portBusy (s : State) (ltile off : Nat) : Bool :=
  match s.p.tileOf ltile with
  | none => false
  | some t => !s.p.run.stopped && (s.p.tiles.getD t .rest).uses.any fun u =>
    u.tick == s.plan && !u.operand && u.bank == off / 128 % 16

/-! Performing. -/

/-- Word n of the private-counter page (Tables 18.1, 18.2). -/
def Part.counterWord (p : Part) (n : Nat) : Word :=
  if n < 23 then p.counters.toList.getD n 0
  else if 256 ≤ n then
    match p.tiles[n - 256]? with
    | some t => t.tpoison.setWidth 64 ||| (t.tcorr.setWidth 64 <<< 32)
    | none => 0
  else 0

/-- Byte values of the counter page. -/
def Part.counterBytes (p : Part) (byte n : Nat) : Nat :=
  (p.counterWord (byte / 8)).toNat / 2 ^ (8 * (byte % 8)) % 2 ^ (8 * n)

/-- A load's result from its bytes (R263). -/
def loadValue (sx : Bool) (n v : Nat) : Word :=
  if sx then BitVec.ofInt 64 (signExt (BitVec.ofNat 64 v) (8 * n)) else BitVec.ofNat 64 v

/-- What an access found: a value, or a fault kind with its address. -/
abbrev Found := Except (Nat × Word) Word

/-- R244: a corrected error of a tile's tensor SRAM. -/
def State.countTile (s : State) (ltile : Nat) : State :=
  match s.p.tileOf ltile with
  | some n => s.onTile n fun t => { t with tcorr := t.tcorr + 1 }
  | none => s

/-- R244, R240: an uncorrectable word found by a read is recorded for its channel's next scrub (R256); a single-bit
error is corrected and counted. -/
def State.noteErrors (s : State) (flat : Nat) : State :=
  let a := s.attrOf flat
  let s := if a &&& 4 != 0 then
      let s := s.setAttr flat (a &&& 0xFB)
      if flatSramBase ≤ flat ∧ flat < flatAccBase then s.countTile ((flat - flatSramBase) / 2 ^ 23 % 1024) else s.count 21
    else s
  if a &&& 8 != 0 && decide (flat < flatLocalBase) then
    let ch := flat / 2 ^ 34 * 8 + flat / 128 % 8
    let c := Tab.getD .rest ch s.chans
    if c.urgent.contains (wordOf flat) then s
    else { s with chans := Tab.put ch { c with urgent := c.urgent ++ [wordOf flat] } s.chans }
  else if a &&& 8 != 0 && (localOf flat).isSome then (s.setAttr flat ((a &&& 0xF7) ||| 2)).wakeTurn (wordOf flat)
  else s

/-! The error log (R261). -/

/-- Place of an HBM word in its channel (R245; bank and row: assumption 11): controller, channel, bank, row, line, word. -/
structure HbmPlace where
  ctl  : Nat
  ch   : Nat
  bank : Nat
  row  : Nat
  line : Nat
  word : Nat
  deriving DecidableEq, Repr

def hbmPlace (flat : Nat) : HbmPlace where
  ctl := flat / 2 ^ 34
  ch := flat / 128 % 8
  bank := flat % 2 ^ 34 / 8192 % 32
  row := flat % 2 ^ 34 / 262144
  line := flat % 2 ^ 34 / 1024 % 8
  word := flat / 8 % 16

/-! Channels and the positions of their frame (R25, R245, R247, R250, R254, R258). -/

/-- R245: the channel of an HBM word. -/
def channelOf (flat : Nat) : Nat := 8 * (hbmPlace flat).ctl + (hbmPlace flat).ch

def State.chan (s : State) (ch : Nat) : Chan := Tab.getD .rest ch s.chans

def State.onChan (s : State) (ch : Nat) (f : Chan → Chan) : State := { s with chans := Tab.put ch (f (s.chan ch)) s.chans }

/-- R247, Table 10.3: the allocatable position that a TICK carries, which belongs to the unit of that number. -/
def positionOf (tick : Nat) : Option Nat :=
  let x := tick % Config.frameTicks
  if x % 17 = 16 then none else some (x - x / 17)

/-- The first TICK from one on that carries a position of the units from lo up to hi. -/
def positionFrom (lo hi tick : Nat) : Nat :=
  tick + ((List.range Config.frameTicks).find? fun i => match positionOf (tick + i) with
    | some k => decide (lo ≤ k) && decide (k < hi)
    | none => false).getD Config.frameTicks

/-- R248: the TICKs in which the static positions of the focused partition serve its requests to a channel, latest first. -/
def State.staticTicks (s : State) (ch : Nat) : List Nat :=
  let r := s.p.run
  let asked := (r.requests.filter fun q => q.2 == ch && decide (q.1 ≤ s.plan) && decide (s.plan < q.1 + 136)).map (·.1)
  asked.reverse.foldl (fun l t =>
    positionFrom s.p.first (s.p.first + r.ns) (max (s.tick - (s.plan - t) * r.d) (l.headD 0 + 1)) :: l) []

/-- R25, R51, R250: whether the position of this TICK serves a dynamic request to a channel from the units from lo up to hi:
a dynamic one, or, in throughput mode, a static one that is idle. -/
def State.positionServes (s : State) (ch lo hi : Nat) : Bool :=
  match positionOf s.tick with
  | none => false
  | some k =>
    decide (lo ≤ k) && decide (k < hi) && (s.chan ch).served != s.tick + 1 &&
    (decide (lo + s.p.run.ns ≤ k) || (!s.det && !(s.staticTicks ch).contains s.tick))

/-- The TICK of the next frame boundary (R247). -/
def frameEnd (tick : Nat) : Nat := (tick / Config.frameTicks + 1) * Config.frameTicks

/-- R258: a line of the first repair is copied; after the last the remap is due at the frame boundary. -/
def State.repairUnit (s : State) (ch : Nat) : State :=
  match (s.chan ch).repairs with
  | [] => s
  | r :: l =>
    let r := { r with lines := r.lines + 1 }
    let s := s.onChan ch fun c => { c with repairs := r :: l }
    if r.lines < 8 then s
    else s.dueAt (s.cycleOfTick (frameEnd s.tick)) rankStart (.ev (.repairLatch (ch / 8) (ch % 8) r.bank r.row))

/-- R258: whether a row of a bank is being copied. -/
def Chan.copying (c : Chan) (bank : Nat) : Bool :=
  c.repairs.head?.any fun r => r.bank == bank && decide (r.lines < 8)

/-- R250: a dynamic request, or the host's, waits for the next position of its units. -/
def State.waitPosition (s : State) (flat lo hi : Nat) (w : Task) : State :=
  let t := positionFrom lo hi (s.tick + 1)
  let s := s.onChan (channelOf flat) fun c =>
    { c with waiting := (c.waiting.filter (fun x => decide (s.tick < x.2))).insert ((hbmPlace flat).bank, t) }
  let x : Item := ⟨s.cycleOfTick t, rankPosition, w⟩
  if s.agenda.contains x then s else s.dueAt x.cycle x.rank w

/-- R250, R254, R258: a dynamic request asks its channel for the position of this TICK: whether it is served; else it waits,
behind those that wait already. A burst holds it, and, in throughput mode, a repair of its bank, which uses the position. -/
def State.askChannel (s : State) (flat lo hi : Nat) (w : Task) : Bool × State :=
  let ch := channelOf flat
  if !s.positionServes ch lo hi || !(s.chan ch).bursts.isEmpty then (false, s.waitPosition flat lo hi w)
  else
    let s := s.onChan ch fun c => { c with served := s.tick + 1 }
    if !s.det && (s.chan ch).copying (hbmPlace flat).bank then (false, (s.repairUnit ch).waitPosition flat lo hi w)
    else (true, s)

/-- R250: a dynamic request of the focused partition: in deterministic mode it is served at its exact time. -/
def State.channelTurn (s : State) (flat : Nat) (i : Instr) : Bool × State :=
  if s.det then (true, s) else s.askChannel flat s.p.first (s.p.first + s.p.units) (.ev i)

/-- R261: an entry joins a controller's log; the oldest of 256 goes. -/
def State.logEntry (s : State) (ctl : Nat) (e : LogEntry) : State :=
  if h : ctl < 48 then
    let c := s.ctls[ctl]
    let full := decide (256 ≤ c.log.length)
    let c := { c with log := (if full then c.log.drop 1 else c.log) ++ [e], overflow := if full then c.overflow + 1 else c.overflow }
    { s with ctls := s.ctls.set ctl c }
  else s

/-- W0 of Table 10.8 for kinds 1 to 6. -/
def logW0 (kind : Nat) (p : HbmPlace) (word : Bool) : Word :=
  BitVec.ofNat 64 (kind + p.ch * 2 ^ 4 + p.bank * 2 ^ 7 + p.row * 2 ^ 12 + p.line * 2 ^ 28 + (if word then p.word % 8 * 2 ^ 31 else 0))

/-- A log entry of kind 1 to 3 about a word; only HBM has a log. -/
def State.logWord (s : State) (flat kind : Nat) : State :=
  if flat < flatLocalBase then
    s.logEntry (hbmPlace flat).ctl ⟨logW0 kind (hbmPlace flat) true, BitVec.ofNat 64 s.tick, 0, 0⟩
  else s

/-- A load or store at a flat address (R263): poison ends a load or a narrow store with a data-poison fault. -/
def State.loadStore (s : State) (a : Acc) (flat : Nat) : State × Found :=
  if a.op = .store then
    if s.poisoned flat && decide (a.bytes < 8) then (s.noteErrors flat, .error (7, a.va))
    else (s.store flat a.bytes (a.data.toNat % 2 ^ (8 * a.bytes)), .ok 0)
  else
    let s' := s.noteErrors flat
    if s.poisoned flat then (s'.logWord flat 3, .error (7, a.va)) else (s', .ok (loadValue a.sx a.bytes (s.bytes flat a.bytes)))

end Sys2Proof.Machine
end

