-- ==== Sys2Proof/Machine/Threads.lean ====
section
/-! DEFINITION. Contexts, rotation slots and the life of a thread: where it issues next, how its accesses start, how it
waits, rejoins, starts and ends. -/

namespace Sys2Proof.Machine

/-! Rotation (R107, R108, R112, R122). -/

/-- The smallest cycle at or after `e` that is `f` or a number of periods later. -/
def alignUp (f period e : Nat) : Nat := if e ≤ f then f else f + (e - f + period - 1) / period * period

/-- A thread's first own slot at or after a cycle: the rotation follows the core cycles 2 TICK and 2 TICK + 1 (R107), and its
visits count from tick 0 of overlay 0 (R112). -/
def State.nextSlot (s : State) (t : Thread) (e : Nat) : Nat :=
  if t.proctor then alignUp (t.loc.pos + (16 - 2 * s.tickOff % 16)) 16 e else
  let n := modeThreads s.p.run.tcmode
  let v0 := s.cycleOfTick s.p.run.tick0
  let f := v0 + (t.loc.pos + t.loc.core + (n - 2 * s.p.run.tick0 % n)) % n
  let e := if t.recite = 1 then max e (t.lastIssue + 8 * s.p.run.d) else e
  alignUp f (n * s.p.run.d) e

/-- The acting thread is to issue, or to test what it waits for, at its first own slot at or after a cycle. -/
def State.scheduleIssue (s : State) (e : Nat) : State :=
  let c := s.nextSlot s.cur e
  let s := { s with cur := { s.cur with slotAt := c } }
  s.dueAt c (rankIssue + s.cur.loc.key) (.issue s.cur.uid)

/-- The acting thread is in rotation again from a cycle (R110); a follower issues only what has been forwarded to it. -/
def State.rejoin (s : State) (e : Nat) : State :=
  let s := { s with cur := { s.cur with status := .ready } }
  if s.cur.recite = 2 && s.cur.fwd.isNone then s else s.scheduleIssue e

/-- The acting thread passes its bundle: the next pc (R113). -/
def State.passBundle (s : State) : State :=
  { s with
    cur := { s.cur with
      pc := s.goto.getD (s.cur.pc + 8)
      fromCluster := s.cur.loc.cluster
      back := s.cur.streams
      xlat := none }
    goto := none }

/-- The acting thread's bundle retires, and counts (R125). -/
def State.retire (s : State) : State :=
  let s := s.passBundle
  { s with cur := { s.cur with retired := s.cur.retired + 1 } }.count 9

/-- R114, R118, R139, R195, R204: what a result leaves of a thread's own registers; a register bound to a stream is not
written. Pushes and control registers are elsewhere. -/
def Thread.landWrite (t : Thread) (w : RegWrite) : Thread :=
  match w with
  | .a n v => t.setReg n v
  | .pred n v => { t with pw := if v then t.pw ||| (1#32 <<< n) else t.pw &&& ~~~(1#32 <<< n) }
  | .pwr v => { t with pw := pwWrite t.pw v }
  | .flags b => { t with pw := t.pw ||| b }
  | .v n val mask =>
    if t.streams.toList.any fun st => st.bound && st.reg == n then t
    else if h : n < 128 then { t with v := t.v.set n (setBits t.v[n] val mask) } else t
  | .vm n val mask => if h : n < 8 then { t with vm := t.vm.set n (setBits t.vm[n] val mask) } else t
  | .amax code nan => { t with
      amax := if t.amax.toNat < code.toNat then code else t.amax
      pw := if nan then t.pw ||| 0x00040000 else t.pw }
  | .rctr v => { t with rctrSeen := v }
  | .push _ _ _ _ => t
  | .creg _ _ => t

/-- R114: a result of a bundle issued in cycle `born` has landed now; what landed before is forgotten, unless results of a
V slot still wait. -/
def Thread.noteLanded (t : Thread) (now born : Nat) (w : RegWrite) : Thread :=
  { t with landed := (if t.heldV.isEmpty then t.landed.filter (·.1 == now) else t.landed) ++ [(now, born, w)] }

/-- R114: a relaxed load of a bundle issued in cycle `born` writes its register as it completes, unless a later-issued
bundle's result has landed there in this cycle. -/
def Thread.landLoad (t : Thread) (now born d : Nat) (v : Word) : Thread :=
  let beaten := t.landed.any fun x => x.1 == now && decide (born < x.2.1) && (match x.2.2 with
    | .a n _ => n == d
    | _ => false)
  if beaten then t else (t.setReg d v).noteLanded now born (.a d v)

/-- R114, R206: a push of the acting thread has its value: it lands in the cycle that was fixed as it was claimed, before
the thread's other accesses of that cycle. -/
def State.sendPush (s : State) (x pos : Nat) (val mask : Vec) : State :=
  match s.cur.pushes.find? fun y => y.sq == x && y.pos == pos with
  | none => s
  | some y => s.dueAt (max s.now y.due) (rankThread - 3) (.ev (.streamPushLands s.cur.uid x pos val mask))

/-- R114: a result that a V slot held back reaches its register as it would have in its landing cycle: what has landed there
since stays over it. -/
def State.landHeld (s : State) (c : Nat) (w : RegWrite) : State :=
  match w with
  | .push x pos val mask => s.sendPush x pos val mask
  | w =>
    let later := s.cur.landed.filter fun x => decide (c < x.1)
    { s with cur := later.foldl (fun t x => t.landWrite x.2.2) (s.cur.landWrite w) }

/-- R114: as the bundle retires, the results its V slot held back and that were to land before this cycle are in their
registers. -/
def State.landEarlier (s : State) : State :=
  let l := s.cur.heldV.filter fun x => decide (x.1 < s.now)
  l.foldl (fun s x => s.landHeld x.1 x.2) { s with cur := { s.cur with heldV := s.cur.heldV.filter fun x => decide (s.now ≤ x.1) } }

/-- R114: and the later ones are on their way. -/
def State.releaseHeld (s : State) : State :=
  let s := s.landEarlier
  let l := s.cur.heldV
  let s := { s with cur := { s.cur with heldV := [], landed := s.cur.landed.filter (·.1 == s.now) } }
  l.foldl (fun s (c, w) =>
    if c = s.now then s.landHeld c w
    else s.dueAt c (landRank (c - s.cur.lastIssue)) (.ev (.registerResultLands s.cur.uid s.cur.lastIssue w))) s

/-- R334, R335: no push of a bundle before the current one is outstanding. -/
def Thread.pushed (t : Thread) : Bool := t.pushes.all fun y => decide (t.lastIssue ≤ y.born)

/-- The streams of a bundle that does not retire: pops and claims of it are undone, an element that was sampled for such a
pop too; what landed since stays (R208). -/
def undoStream (now old : StreamReg) : StreamReg :=
  { now with
    k := old.k
    pops := old.pops
    buf := now.buf.filter fun e => decide (e.1 < old.k + 4)
    exh := now.exh && old.exh
    flight := if now.push && now.k != old.k then now.flight - 1 else now.flight }

/-- Chunks a port stream popped go back to the front of their queue, a claimed place in one is given up. -/
def State.undoPort (s : State) (x : Nat) : State :=
  match s.cur.streams.toList[x]?, s.cur.back.toList[x]? with
  | some st, some old =>
    if st.bound && st.port && st.k != old.k then
      s.onCluster s.cur.loc.cluster fun c =>
        let n := field st.w0 25 23
        let q := Tab.getD ⟨[], none, 0⟩ n c.ports
        let q := if st.push then { q with flight := q.flight - 1 }
          else { q with chunks := (st.buf.filter (·.1 = old.k)).map (fun e => ⟨e.2.1, 0⟩) ++ q.chunks }
        { c with ports := Tab.put n q c.ports }
    else s
  | _, _ => s

/-- R17, R208: the streams as they stood before the bundle. -/
def State.undoStreams (s : State) : State :=
  let s := (List.range 4).foldl State.undoPort s
  let claimed (y : Push) : Bool :=
    match s.cur.streams.toList[y.sq]?, s.cur.back.toList[y.sq]? with
    | some st, some old => st.push && st.k != old.k && y.pos == old.k
    | _, _ => false
  { s with cur := { s.cur with
      streams := Vector.zipWith undoStream s.cur.streams s.cur.back
      pushes := s.cur.pushes.filter fun y => !claimed y } }

/-- A fault found where an access performs or completes: the bundle does not retire, its V slot writes nothing and pops
nothing (R17, R208). -/
def State.faultAccess (s : State) (kind : Nat) (info : Word) : State :=
  let s := { s.undoStreams with cur := { s.undoStreams.cur with heldV := [] } }
  (if kind = 7 then s.count 20 else s).startTrap (.of kind 0 info s.cur.pc)

/-! Contexts (R63). -/

/-- A partition's contexts in a cluster, in context order, in a thread-count mode. -/
def Part.contextsIn (p : Part) (tcmode cluster : Nat) : List Loc :=
  if 3 < p.lg then
    (List.range p.units).flatMap fun k =>
      let u := p.first + k
      [⟨cluster, u / 8, 2 * (u % 8)⟩, ⟨cluster, u / 8, 2 * (u % 8) + 1⟩]
  else
    (List.range (p.units / 8)).flatMap fun k =>
      (List.range (modeThreads tcmode)).map fun q => ⟨cluster, p.first / 8 + k, q⟩

/-- A partition's contexts in a cluster under its launch. -/
def Part.contexts (p : Part) (cluster : Nat) : List Loc := p.contextsIn p.run.tcmode cluster

/-- The core number that stands for no context: a thread in transit or in the fault-service store. -/
def noContext (cluster : Nat) : Loc := ⟨cluster, 8, 0⟩

/-- The context a queue head has taken (R75). -/
def Head.takes (l : Loc) : Head → Bool
  | .staging m _ => m == l
  | .placed m _ => m == l
  | _ => false

/-- R413: a context whose thread has ended in this cycle. -/
def State.freeing (s : State) (l : Loc) : Bool := s.agenda.any fun i => match i.what with
  | .freed f m _ => f == s.p.first && m == l
  | _ => false

def State.occupied (s : State) (l : Loc) : Bool :=
  s.freeing l ||
  (s.cluster l.cluster).queue.head.takes l ||
  (s.cur.uid != 0 && s.cur.part == s.p.first && s.cur.loc == l && !s.cur.proctor)
    || s.threads.any fun t => t.part == s.p.first && t.loc == l && !t.proctor

def State.coreFenced (s : State) (cluster core : Nat) : Bool :=
  (Tab.getD ⟨0, false, 0⟩ core (s.cluster cluster).rolls).fenced

/-- The free contexts of the focused partition in a cluster, in context order; none on a fenced core (R124). -/
def State.freeContexts (s : State) (cluster : Nat) : List Loc :=
  (s.p.contexts cluster).filter fun l => !s.occupied l && !s.coreFenced cluster l.core

/-! Starting and ending a thread. -/

/-- R171: the launch key and the thread's key. -/
def State.newThread (s : State) (l : Loc) (pc a0 geom : Word) (anch : Bool) (recite : Nat) : Thread :=
  { Thread.rest with
    uid := s.nextUid
    part := s.p.first
    loc := l
    status := .ready
    pc := pc
    a := Thread.rest.a.set 0 a0
    pw := if anch then 0x00010001 else 1
    geom := geom
    recite := recite
    fromCluster := l.cluster }

/-- R111: in throughput mode the slots of a core that is used are looked at for lending, from a cycle on. -/
def State.lendFrom (s : State) (l : Loc) (c : Nat) : State :=
  if s.det then s
  else
    let w : Task := .lend s.p.first l.cluster l.core
    if s.agenda.any fun i => i.what == w then s else s.dueAt (max c s.now) rankLend w

/-- A thread starts in a context: it issues at its first own slot at or after a cycle (R46, R75). -/
def State.addThread (s : State) (t : Thread) (e : Nat) : State :=
  let c := s.nextSlot t e
  let t := { t with slotAt := c }
  let s := { s with threads := insertThread t s.threads, nextUid := s.nextUid + 1 }
  let s := s.lendFrom t.loc e
  if t.recite = 2 then s else s.dueAt c (rankIssue + t.loc.key) (.issue t.uid)

/-- Something ended: the launch may retire at the end of this tick (R414). -/
def State.mayRetire (s : State) : State :=
  if s.p.run.active then s.dueAt (s.now / 2 * 2 + 1) (rankEnd + 9) (.ev (.launchRetires s.p.first)) else s

/-- The head of a queue is looked at, later in this cycle. -/
def State.lookAtHead (s : State) (c : Nat) : State :=
  let w : Task := .ev (.taskDispatch s.p.first c)
  if s.agenda.any fun i => i.cycle == s.now && i.what == w then s else s.dueAt s.now rankDispatch w

/-- A context of a cluster is free: waiting migrations and the queue head are served (R75, R318). -/
def State.contextFreed (s : State) (cluster : Nat) : State :=
  let s := match (s.cluster cluster).arrived with
    | u :: _ => s.dueIn 0 rankQueue (.migrationArrival u false)
    | [] => s
  s.lookAtHead cluster

/-- R413: one slot of a footprint is released: a clean slot becomes free, a dirty one stays valid. -/
def State.unpinSlot (s : State) (cluster core slot : Nat) : State :=
  s.onCluster cluster fun c =>
    let k := core * 16384 + slot
    match Tab.find k c.tags with
    | some e => { c with tags := Tab.put k { e with pin := false, valid := e.valid && e.dirty != 0 } c.tags }
    | none => c

/-- R413, R75: the footprint a task pinned is released, and the heads that may wait for its slots are looked at. -/
def State.unpin (s : State) (pins : List (Nat × Nat × Nat)) : State :=
  let s := pins.foldl (fun s (cluster, core, slot) => s.unpinSlot cluster core slot) s
  ((pins.map (·.1)).eraseDups).foldl State.lookAtHead s

/-- R413: a context is free again, and the slots its thread had pinned. -/
def State.freeContext (s : State) (first : Nat) (l : Loc) (pins : List (Nat × Nat × Nat)) : State :=
  let s := s.focusPart first
  if s.p.first ≠ first then s else (s.unpin pins).contextFreed l.cluster

/-- R413, R358: a thread ends; its context, its footprint and its monitor are free from the next cycle on. -/
def State.endThread (s : State) (counted : Bool) : State :=
  let t := s.cur
  let s := { s with cur := .rest }
  let s := if counted then s.count 10 else s
  (s.dueAt (s.now + 1) rankDone (.freed s.p.first t.loc t.pins)).mayRetire

/-! Accesses (R110, R116, R262-R264). -/

/-- R316: whether an access homed elsewhere moves the acting thread. -/
def State.roams (s : State) : Bool :=
  !s.cur.pw.getLsbD 16 && s.cur.bound == 0 && s.cur.recite == 0 && !s.cur.proctor && !s.cur.trapActive &&
  s.cur.streams.toList.all (!·.bound) && s.cur.parkedCmd.isNone &&
  s.p.jobs.all fun j => j.uid != s.cur.uid

/-- The goal that stands for the fault-service store (R323). -/
def serviceStore : Nat := 63

/-- R317 steps 1 and 2: the thread leaves rotation for another cluster, or for the fault-service store; it is sent when
its scalar results have landed and its relaxed accesses have completed. The bundle issues again there. -/
def State.migrate (s : State) (home : Nat) (a : Acc) : State :=
  let s := s.undoStreams
  let c := s.agenda.foldl (fun m i => match i.what with
    | .ev (.registerResultLands _ _ (.v _ _ _)) => m
    | .ev (.registerResultLands _ _ (.vm _ _ _)) => m
    | .ev (.registerResultLands u _ _) => if u = s.cur.uid then max m i.cycle else m
    | .ev (.accessComplete u _) => if u = s.cur.uid then max m i.cycle else m
    | _ => m) s.now
  let s := { s with cur := { s.cur with
    status := .migrating
    goal := home
    heldV := []
    missed := some { a with rlx := false } } }
  s.dueAt c (rankIssue + 20000) (.ev (.migrationSend s.cur.uid))

/-- The order an access has at its target inside a cycle: the thread port for the own core's store, else the engine port
(R239, R331). -/
def accessRank (l : Loc) : Target → Nat
  | .loc cl co _ => if cl = l.cluster ∧ co = l.core then rankThread + l.key else rankEngine + l.key
  | _ => rankEngine + l.key

/-- R264, R332: accesses of one thread to one word take effect in issue order: the completion of the latest outstanding
relaxed one. -/
def Thread.lastDue (t : Thread) (va : Word) : Nat :=
  t.relaxed.foldl (fun m a => if a.va.toNat / 8 = va.toNat / 8 then max m a.due else m) 0

/-- R332: the cycle in which the latest push of the thread to a word lands. -/
def Thread.lastPush (t : Thread) (flat : Nat) : Nat :=
  t.pushes.foldl (fun m y => if y.flat.any fun f => decide (f ≤ flat) && decide (flat < f + 64) then max m y.due else m) 0

/-- The earliest completion of an access of the acting thread that may take `lat` cycles: it performs `lat - lat / 2` cycles
before that, after every earlier access of the thread to the word (R264, R332). -/
def State.dueAfter (s : State) (t : Thread) (va : Word) (target : Target) (lat : Nat) : Nat :=
  let push := match target with
    | .loc cl co b => t.lastPush (flatLocal cl co b)
    | _ => 0
  max (max (s.now + lat) (t.lastDue va)) (if push = 0 then 0 else push + (lat - lat / 2))

/-- The time of an access: exact or free (R116). -/
def State.accessTime (s : State) (t : Target) : Nat × State :=
  match t with
  | .host _ => s.hostElapse
  | t => s.elapse (s.figureOf s.cur.loc t)

/-- R313, R388: a request of the acting thread leaves for a peer package; its reply is awaited. -/
def State.askPeer (s : State) (pkg : Nat) (a : Acc) : State :=
  { s.emit (.request (s.peerAddr pkg) pkg (s.sendStamp 0) a) with cur := { s.cur with asked := s.cur.asked ++ [a] } }

/-- An access that is under way performs where it is served, half its time before it completes (R330, R347; assumption
2); a relaxed store to a peer leaves the package then, and the reply of a peer ends any other. -/
def State.startAccess (s : State) (a : Acc) (t : Target) : State :=
  let at_ := a.due - (a.lat - a.lat / 2)
  let go (c : Nat) : State := s.dueAt c (accessRank s.cur.loc t) (.ev (.accessComplete s.cur.uid (.acc a)))
  match t with
  | .peer pkg => if a.rlx && a.op == .store then (s.askPeer pkg a).dueAt a.due (accessRank s.cur.loc t) (.ev (.accessComplete s.cur.uid (.acc a)))
      else s.askPeer pkg a
  | _ => go at_

/-- Puts an access on its way: a plain one takes the thread out of rotation, a relaxed one does not, except a ninth
(R110, R116, R264). -/
def State.sendAccess (s : State) (a : Acc) (t : Target) : State :=
  let (lat, s) := s.accessTime t
  let lat := match t with
    | .peer _ => if a.rlx && a.op == .store then 196 * s.dil else lat
    | _ => lat
  let due := s.dueAfter s.cur a.va t lat
  let full := a.rlx && decide (8 ≤ s.cur.relaxed.length)
  let a := { a with id := s.nextId, lat := lat, due := due, stage := if full then 2 else 0 }
  let s := { s with nextId := s.nextId + 1 }
  let s := if full then s else s.startAccess a t
  if a.rlx then
    { s with cur := { s.cur with
        relaxed := s.cur.relaxed ++ [a]
        status := if full then .waiting .relaxed else s.cur.status } }
  else { s with cur := { s.cur with status := .access a.id } }

/-- The address checks of a plain access: alignment and routing are address faults, which come before the protection
faults (R263, R391). -/
def State.checkAccess (s : State) (op : AccOp) (va : Word) (n : Nat) : Except Nat Target :=
  if va.toNat % n ≠ 0 then .error 4 else
  match s.route va n with
  | .error k => .error k
  | .ok (.board _ _) => .error 4
  | .ok (.counters b) => if op = .store then .error 5 else .ok (.counters b)
  | .ok t => .ok t

/-- An access of the acting thread, not yet on its way. -/
def State.newAcc (s : State) (op : AccOp) (va : Word) (n : Nat) (sx : Bool) (d : Nat) (data : Word) (rlx : Bool)
    (sc : Nat) : Acc :=
  ⟨0, op, va, n, sx, d, data, rlx, sc, 0, 0, s.cur.asid, false, BitVec.ofNat 2 (s.cur.loc.cluster / 12), s.now, 0, 0, 0, false, false,
    match s.cur.xlat with
    | some (v, p) => if v = va then some p else none
    | none => none⟩

/-- Whether the bundle issues again after a migration: its access is plain and counted already (R264, R327). -/
def State.moved (s : State) : Bool := s.cur.fromCluster != s.cur.loc.cluster

/-- A load, store or monitor of the acting thread (R263, R356): its checks at issue, its migration, or its way to the
target. -/
def State.access (s : State) (op : AccOp) (va : Word) (n : Nat) (sx : Bool) (d : Nat) (data : Word) (rlx : Bool) : State :=
  match s.checkAccess op va n with
  | .error k => s.raise k va
  | .ok t =>
    let a := s.newAcc op va n sx d data (rlx && !s.moved) 0
    match t with
    | .hbm home _ =>
      if home ≠ s.cur.loc.cluster && s.roams then s.migrate home a
      else s.sendAccess { a with remote := home != s.cur.loc.cluster } t
    | _ => s.sendAccess a t

/-! Relaxed accesses and what waits for them (R334, R335). -/

/-- R361: a packet of the acting thread leaves in a cycle: its arrival, or its way to a peer. -/
def State.launchPacket (s : State) (p : Packet) (at_ : Nat) : State :=
  if p.pkg ≠ s.ownPkg then s.emit (.packet (s.peerAddr p.pkg) { p with phase := .fromPeer (s.sendStamp (at_ - s.now)) })
  else
    let (t, s) := s.elapse (if p.dest = s.cur.loc.cluster then 12 else 196)
    s.dueAt (at_ + t) (rankEngine + p.srcKey) (.ev (.packetArrives p))

/-- Nothing relaxed and no push of an earlier bundle of the acting thread is outstanding. -/
def State.drained (s : State) : Bool := s.cur.relaxed.isEmpty && s.cur.pushed

/-- R335: a synchronising access of the acting thread that waited for its earlier accesses may perform from the next
cycle on. -/
def State.wakeListed (s : State) : State :=
  if s.cur.status = .listed && s.drained then
    match s.lists.find? fun e => e.2.any fun w => w.uid == s.cur.uid with
    | some (flat, _) => s.wakeList flat (s.now + s.dil)
    | none => s
  else s

/-- R361: a closed packet leaves in the cycle after the last earlier access of its thread performs. -/
def State.sendUnsent (s : State) : State :=
  match s.cur.unsent with
  | none => s
  | some (p, bound, left) =>
    if left = 0 ∧ s.cur.relaxed.all (fun a => decide (bound ≤ a.id)) then
      let s := { s with cur := { s.cur with unsent := none, pktLeaves := s.now + s.dil } }
      (s.launchPacket p (s.now + s.dil)).dueAt (s.now + s.dil) 0 .wake
    else s

/-- A relaxed access of the acting thread is over: a ninth one starts (R110). -/
def State.relaxedDone (s : State) (id : Nat) : State :=
  let l := s.cur.relaxed.filter (·.id ≠ id)
  match l.find? (·.stage = 2) with
  | none => ({ s with cur := { s.cur with relaxed := l } } : State).sendUnsent.wakeListed
  | some a =>
    match s.route a.va a.bytes with
    | .ok t =>
      let b := { a with stage := 0, due := s.dueAfter { s.cur with relaxed := l.filter (·.stage ≠ 2) } a.va t a.lat }
      { s with cur := { s.cur with relaxed := l.map fun (x : Acc) => if x.id = a.id then b else x } }.startAccess b t
    | .error _ => { s with cur := { s.cur with relaxed := l } }

/-! Jobs of a thread (R275). -/

/-- The status of a job ID as the acting thread sees it (Table 11.5). -/
def Thread.jobStatus (t : Thread) (id : Word) : Word :=
  let eng := field id 7 0
  let seq := field id 39 8
  if eng = 0 ∨ 3 < eng ∨ field id 63 40 ≠ 0 ∨ seq = 0 then 5 else
  match t.jobs.find? fun j => j.eng == eng && j.seq == seq with
  | some j => BitVec.ofNat 64 (j.code + 256 * j.addr.toNat)
  | none => if seq ≤ t.seqs.toList.getD (eng - 1) 0 then 6 else 5

/-- R284: no command parked and every ID landed. -/
def Thread.idsLanded (t : Thread) : Bool := t.parkedCmd.isNone && t.idsDue == 0

/-- R334, R344, R345: whether a fence's wait is over. -/
def State.fenceDone (s : State) (sc : Nat) : Bool :=
  s.drained && decide (s.cur.waitTo ≤ s.now) && ((sc != 8 && sc != 9) || s.cur.asked.isEmpty)

/-- R361: an earlier packet of the acting thread has left. -/
def State.packetGone (s : State) : Bool := s.cur.unsent.isNone && decide (s.cur.pktLeaves ≤ s.now)

/-- Whether what a thread waits for has come (R175: relaxed accesses and pushes before it ends). -/
def State.waitDone (s : State) : WaitFor → Bool
  | .skip => decide (s.cur.waitTo ≤ s.now)
  | .fence sc => s.fenceDone sc
  | .job id _ => field (s.cur.jobStatus id) 7 0 != 0
  | .ids _ => s.cur.idsLanded
  | .bind _ => (match s.cur.parkedCmd with | some c => c.eng != s.cur.bound.toNat | none => true)
  | .pushes => s.cur.relaxed.isEmpty && s.cur.pushes.isEmpty
  | .enqueue => false
  | .asidDrop => false
  | .packetLeft _ _ => s.packetGone
  | .relaxed => decide (s.cur.relaxed.length ≤ 8) && s.cur.relaxed.all (·.stage ≠ 2)
  | .drain => s.drained
  | .command => s.cur.nextCmd.isNone
  | .freed x => (match s.cur.streams.toList[x]? with | some st => st.flight == 0 | none => true)

end Sys2Proof.Machine
end

