-- ==== Sys2Proof/Machine/Issue.lean ====
section
/-! DEFINITION. What one issue slot does: the thread's stops, the fetch, the two slots of a bundle as one precise unit,
retirement, forwarding to recitation followers and lent slots. The meaning of an instruction is a parameter here. -/

namespace Sys2Proof.Machine

/-- The code a thread fetches from (R90-R92). -/
def State.codeOf (s : State) : List Word :=
  if s.cur.proctor then s.firmware.toList.getD (s.cur.loc.cluster - 48) [] else s.p.code

/-- R91: the bundle at the pc, none where the fetch faults. -/
def State.fetch (s : State) : Option Word :=
  if s.cur.pc.toNat % 8 ≠ 0 then none else s.codeOf[s.cur.pc.toNat / 8]?

/-- What a wait that is over leaves: the result of `jwait` (R284), the binding of `ebind` (R121), the open packet
(R360). -/
def State.finishWait (s : State) : WaitFor → State
  | .job id d => { s with cur := s.cur.setReg d (s.cur.jobStatus id) }
  | .ids d => { s with cur := s.cur.setReg d 1 }
  | .bind e => { s with cur := { s.cur with bound := BitVec.ofNat 3 e } }
  | .freed x => { s with cur := { s.cur with streams := if h : x < 4 then s.cur.streams.set x s.cur.streams[x].freed else s.cur.streams } }
  | .packetLeft dest tag => { s with cur := { s.cur with openPkt := some ⟨dest, tag, []⟩ } }
  | _ => s

/-- R122, R97: a leader issues only when every follower has passed the last bundle. -/
def State.groupReady (s : State) : Bool :=
  s.cur.recite != 1 || s.cur.group.all fun u =>
    u == s.cur.uid || match s.findThread u with
      | some t => t.status.rotating && t.fwd.isNone && t.slotAt < s.now
      | none => true

/-- R98: a fault of a member keeps the bundle from the followers after it; kinds 8 and 9 come after the bundle. -/
def State.groupFaulted (s : State) : Bool :=
  s.cur.group.any fun u => match s.findThread u with
    | some t => t.status == .trapping && t.raised.any fun r => r.kind != 8 && r.kind != 9
    | none => false

/-- R99: a recitation group stops for a pre-emption where no member holds an open packet. -/
def State.groupClosed (s : State) : Bool :=
  s.cur.group.all fun u => match s.findThread u with
    | some t => t.openPkt.isNone
    | none => true

/-- R459, R317: a relaxed access of a thread that migrates, or is on its way into its handler, found no translation, and
nothing else of it is outstanding: it parks first. -/
def State.lateAlone (s : State) : Bool :=
  match s.cur.late, s.cur.lateMiss with
  | none, some a => s.cur.relaxed.all (·.id == a.id)
  | _, _ => false

/-- R459: a late fault or late miss stops the thread once its other relaxed accesses are complete. -/
def State.lateStop (s : State) : Option State :=
  match s.cur.late, s.cur.lateMiss with
  | some r, _ =>
    some (if s.cur.relaxed.isEmpty then
      s.dueIn 0 (rankIssue + 90000) (.lateFault s.cur.uid r.kind r.info none) else s.scheduleIssue (s.now + 1))
  | none, some a =>
    some (if s.cur.relaxed.all (·.id == a.id) then
      s.dueIn 0 (rankIssue + 90000) (.lateFault s.cur.uid 0 a.va (some a)) else s.scheduleIssue (s.now + 1))
  | none, none => none

/-- Table 17.12: a pre-emption that has stopped the partition stops a thread at its issue slot, outside an open packet. -/
def State.preempts (s : State) : Bool :=
  s.p.paused && s.cur.openPkt.isNone && !s.cur.proctor && s.groupClosed

/-- A bundle that waits unretired, and a `texit` that waits, is given up: it issues again later (Table 17.12, R459). -/
def State.giveUp (s : State) (w : WaitFor) : State :=
  let s := s.undoStreams
  { s with cur := { s.cur with
      heldV := []
      pc := if w = .pushes then s.cur.pc - 8 else s.cur.pc
      status := .ready } }

/-- An issue slot of a thread in rotation. -/
def State.readySlot (s : State) (again : Bool) : Bool × State :=
  match s.lateStop with
  | some s' => (false, s')
  | none =>
    if !s.cur.proctor && s.coreFenced s.cur.loc.cluster s.cur.loc.core then
      (false, { s with cur := { s.cur with status := .fenced } })
    else if s.p.run.ending && !s.cur.proctor then (false, { s with cur := { s.cur with status := .saved again } })
    else if s.cur.recite = 2 && s.groupFaulted then (false, s)
    else if !s.groupReady then (false, s.scheduleIssue (s.now + 1))
    else if s.preempts && s.cur.recite != 2 then (false, { s with cur := { s.cur with status := .saved again } })
    else (true, s)

/-- R459: an own slot of a thread that its bundle keeps out of rotation: a late fault or miss stops it, and the bundle is
given up. -/
def State.lateSlot (s : State) : Bool × State :=
  if s.cur.late.isNone && s.cur.lateMiss.isNone then (false, s)
  else
    let lists := s.lists.map fun (f, l) => (f, l.filter fun (w : Waiter) => w.uid != s.cur.uid)
    ((({ s with lists := lists.filter fun e => !e.2.isEmpty } : State).giveUp .drain).readySlot true)

/-- The thread whose issue item has come up: whether it issues now (R110). A follower issues only what has been forwarded to
it; a thread that waits is looked at for a stop. -/
def State.takeSlot (s : State) (uid : Nat) (lent : Bool) : Bool × State :=
  let s := s.focusThread uid
  if s.cur.uid ≠ uid ∨ uid = 0 ∨ (!lent ∧ s.cur.slotAt ≠ s.now) then (false, s) else
  match s.cur.status with
  | .ready => if s.cur.recite = 2 ∧ s.cur.fwd.isNone then (false, s) else s.readySlot false
  | .held _ _ _ => ({ s with cur := { s.cur with status := .ready } } : State).readySlot true
  | .waiting w =>
    if s.lateStop.isSome || (s.preempts && w.unretired && s.cur.recite == 0) then (s.giveUp w).readySlot true
    else (false, s.scheduleIssue (s.now + 1))
  | .listed => s.lateSlot
  | .napping => s.lateSlot
  | _ => (false, s)

/-! Waits (R110). -/

/-- R394: the acting thread, whose fault is raised, goes on to its handler. -/
def State.trapOn (s : State) : State :=
  ({ s with cur := { s.cur with status := .trapping } } : State).dueIn 0 (rankIssue - 10) (.trapEntry s.cur.uid)

/-- What the acting thread waits for has come: it is in rotation again from this cycle on, and issues at its first own slot,
where its issue item stands; a `texit` ends it (R175). -/
def State.endWait (s : State) (w : WaitFor) : State :=
  if w = .pushes then s.endThread true
  else if w = .drain ∧ s.cur.raised.isSome then s.trapOn
  else
    let s := if w.unretired then s.landEarlier else s
    let s := s.finishWait w
    let s := { s with cur := { s.cur with
      status := .ready
      slotAt := if s.cur.recite = 2 then 0 else s.cur.slotAt } }
    if w.unretired then s.retire.releaseHeld else s

/-- Everything that acts goes back to its place. -/
def State.rest (s : State) : State := s.storeThread.storePart

/-- The bundle a fetched word stands for: one that faults stands for its fault (R81, R91). -/
def bundleOf : Option (Except DecodeError Bundle) → Bundle
  | some (.ok b) => b
  | some (.error e) => .long (.illegalInstruction e.slot)
  | none => .long .fetchFault

/-- The guard of a transfer, `texit` or `rtt` (R96, R397); none for any other instruction. -/
def transferOf : Bundle → Option Guard
  | .long (.br g _) => some g
  | .long (.call g _ _) => some g
  | .long (.rtt g) => some g
  | .paired (.jr g _) _ => some g
  | .paired (.jrl g _ _) _ => some g
  | .paired (.texit g) _ => some g
  | _ => none

/-- R95: the bundle goes to the followers, m core cycles later, with the leader's next pc and guard. -/
def State.forward (s : State) (group : List Nat) (pc : Word) (g : Bool) : State :=
  (group.drop 1).zipIdx.foldl (fun s (u, m) =>
    let c := s.now + m + 1
    let s := s.onThread u fun t => { t with slotAt := c, fwd := some (pc, g) }
    s.dueAt c (rankIssue + s.cur.loc.key) (.issue u)) s

/-- R113, R397: the cycle from which the bundle after the acting one may issue: a transfer resolves within 2. -/
def State.nextIssue (s : State) (b : Bundle) : Nat := s.now + if (transferOf b).isSome then 2 else 1

/-- The acting thread issues again at its first own slot from a cycle on; a follower only what is forwarded to it. -/
def State.again (s : State) (c : Nat) : State :=
  if s.cur.recite = 2 && s.cur.status == .ready then s else s.scheduleIssue c

/-- R176: the acting thread is out of rotation up to its next own slot, and issues at the one after. -/
def State.skipVisit (s : State) : State :=
  let c := s.nextSlot s.cur (s.now + 1) + 1
  let s := ({ s with cur := { s.cur with waitTo := c } } : State).dueAt c 0 .wake
  if s.cur.recite = 2 then s else s.scheduleIssue c

/-- After a bundle without a fault: it retires, waits or moves (R110, R125). -/
def State.settleOk (b : Bundle) (s : State) : State :=
  match s.cur.status with
  | .ready => s.retire.again (s.nextIssue b)
  | .waiting .skip => s.retire.skipVisit
  | .waiting w => (if w.unretired then { s with goto := none } else s.retire).again (s.now + 1)
  | .napping => { s with goto := none }
  | _ => { s with goto := none }

/-- After a bundle that raised `r` (R17, R391, R394): it writes nothing; kinds 8 and 9 come after it has retired. Kind 7 is
counted (R209, R257). -/
def State.settleFault (s0 s : State) (r : Raised) : State :=
  if r.kind = 8 ∨ r.kind = 9 then
    let s := s.retire
    s.startTrap { r with pc := s.cur.pc }
  else
    let s0 := { s0 with fresh := s.fresh }
    (if r.kind = 7 then s0.count 20 else s0).startTrap r

/-- Of the faults of the two slots the lowest kind is raised, the S slot's where both are the same (R391). -/
def lowerFault : Option Raised → Option Raised → Option Raised
  | none, r => r
  | r, none => r
  | some a, some b => if b.kind < a.kind then some b else some a

/-- A bundle of a recitation member that is held back is still the one that was forwarded to it (R95, R98). -/
def State.keepForward (kept s : State) : State :=
  if s.cur.recite = 0 then s else { s with cur := { s.cur with fwd := kept.cur.fwd, done := kept.cur.done } }

/-- The end of a bundle: settle it, then forward it (R95-R98). -/
def State.settle (b : Bundle) (kept s0 s : State) (r : Option Raised) : State :=
  let lead := s0.cur.recite == 1
  let g := match transferOf b with | some g => s0.transferGuard g | none => true
  let pc := s.goto.getD (s0.cur.pc + 8)
  if s.cur.status.isHeld then
    kept.keepForward (({ s0 with
      p := kept.p
      cur := { s0.cur with status := s.cur.status, lastIssue := kept.cur.lastIssue } } : State).scheduleIssue (s.now + 1))
  else
  match r with
  | some r =>
    let s := s0.settleFault s r
    if lead && (r.kind == 8 || r.kind == 9) then s.forward s0.cur.group pc g else s
  | none =>
    let s := s.settleOk b
    if lead then s.forward s0.cur.group pc g else s

/-- R98, R125: a member that the done mask leaves out passes the bundle: it does not count again. -/
def State.settleSkip (b : Bundle) (s0 s : State) : State :=
  let g := match transferOf b with | some g => s0.transferGuard g | none => true
  let pc := s.goto.getD (s0.cur.pc + 8)
  let s := s.passBundle.again (s.nextIssue b)
  if s0.cur.recite == 1 then s.forward s0.cur.group pc g else s

/-- R107: the acting thread has issued in its core's slot of this cycle. -/
def State.noteIssue (s : State) : State :=
  if s.det || s.cur.proctor then s else
  s.onCluster s.cur.loc.cluster fun c =>
    { c with rolls := Tab.put s.cur.loc.core { Tab.getD ⟨0, false, 0⟩ s.cur.loc.core c.rolls with issued := s.now } c.rolls }

/-- One bundle, its two slots as one unit (R77, R82, R114): both read the registers as they stand, and a fault of
either leaves no effect of both. A slot after a migrating or held S slot does nothing. -/
def runBundle (ex : Instr → State → Res) (b : Bundle) (s : State) : Res :=
  let s0 := { s with
    goto := none, slotV := false,
    force := match s.cur.fwd with | some (_, g) => some g | none => none,
    cur := { s.cur with back := s.cur.streams, raised := none, lastIssue := s.now, issueTvec := s.trapTvec } }
  let skip := s.cur.done.getLsbD (if s.cur.recite = 2 then s.cur.group.idxOf s.cur.uid else 0) && s.cur.recite != 0
  let s0 := ({ s0 with cur := { s0.cur with done := 0, fwd := none } } : State).noteIssue
  let target (s1 : State) : State :=
    match s.cur.fwd with | some (pc, _) => { s1 with goto := some pc } | none => s1
  match b with
  | .long i =>
    match ex i s0 with
    | .next s1 =>
      if skip then .next (State.settleSkip b s0 (target { s0 with goto := s1.goto }))
      else .next (State.settle b s s0 (target s1) s1.cur.raised)
    | .fault f => .fault f
    | .refused r => .refused r
  | .paired i j =>
    match ex i s0 with
    | .next s1 =>
      if skip then .next (State.settleSkip b s0 (target { s0 with goto := s1.goto }))
      else if s1.cur.status == .migrating || s1.cur.status.isHeld then .next (State.settle b s s0 s1 none)
      else
        match ex j { s1 with slotV := true, cur := { s1.cur with raised := none } } with
        | .next s2 => .next (State.settle b s s0 (target s2) (lowerFault s1.cur.raised s2.cur.raised))
        | .fault f => .fault f
        | .refused r => .refused r
    | .fault f => .fault f
    | .refused r => .refused r

/-! Lent slots (R111). -/

/-- Whether a slot of a core is one that may be lent in this cycle: nothing has issued in it, and it belongs to a context of
the partition whose owner is out of rotation or absent and no recitation member (R122), at a visit at which the owner may
issue. A `nap` that times out in this cycle ends in it (R357). -/
def State.lendable (s : State) (cluster core : Nat) : Bool :=
  (Tab.getD ⟨0, false, 0⟩ core (s.cluster cluster).rolls).issued != s.now &&
  (s.p.contexts cluster).any fun l =>
    l.core == core &&
    s.nextSlot { Thread.rest with loc := l } s.now == s.now &&
    !(s.partThreads.any fun t => t.loc == l && (t.status.rotating || t.recite != 0 || (t.status == .napping && t.napAt == s.now)))

/-- The eligible thread of the lowest position. -/
def State.borrower (s : State) (cluster core : Nat) : Option Nat :=
  let l := s.partThreads.filter fun t =>
    t.loc.cluster == cluster && t.loc.core == core && t.status.rotating && t.recite == 0 && !t.proctor &&
    decide (t.lastIssue + 2 < s.now)
  (l.foldl (fun (b : Option Thread) t => match b with
    | none => some t
    | some u => if t.loc.pos < u.loc.pos then some t else some u) none).map (·.uid)

/-- The next cycle's lent slot, while a thread of the core is in rotation in throughput mode. -/
def State.lendNext (s : State) (first cluster core : Nat) : State :=
  let s := s.focusPart first
  if !s.det && s.p.run.active && s.partThreads.any (fun t => t.loc.cluster == cluster && t.loc.core == core) then
    if s.agenda.any (fun i => i.what == .lend first cluster core) then s
    else s.dueAt (s.now + 1) rankLend (.lend first cluster core)
  else s

end Sys2Proof.Machine
end

