-- ==== Sys2Proof/Machine/Queue.lean ====
section
/-! DEFINITION. Which thing happens next: the earliest of the agenda, the launches' logical queues and the roll-call
fences, and the passing of time up to it. -/

namespace Sys2Proof.Machine

/-- What the next step does, with the core cycle it falls in. -/
inductive Pick where
  | idle
  | agenda (i : Item) (rest : List Item)
  | plan (first : Nat) (i : Item) (rest : List Item)
  | fence (cycle first cluster core : Nat)
  deriving DecidableEq, Repr

/-- The cycle and rank of a pick, for the choice of the earliest. -/
def State.pickKey (s : State) : Pick → Nat × Nat
  | .idle => (0, 0)
  | .agenda i _ => (i.cycle, i.rank)
  | .plan f i _ => match s.parts.find? (·.first = f) with
    | some p => (p.run.cycleOf s.tickOff i, i.rank)
    | none => (i.cycle, i.rank)
  | .fence c _ _ _ => (c, rankIssue)

def State.earlier (s : State) (a b : Pick) : Pick :=
  match a, b with
  | .idle, b => b
  | a, .idle => a
  | a, b =>
    let x := s.pickKey a
    let y := s.pickKey b
    if y.1 < x.1 ∨ (y.1 = x.1 ∧ y.2 < x.2) then b else a

/-- Whether a thread is in rotation; a recitation group is, or is not, as one (R97). -/
def State.rotates (s : State) (t : Thread) : Bool :=
  t.status.rotating && (t.recite == 0 || t.group.all fun u => match s.threads.find? (·.uid == u) with
    | some x => x.status.rotating
    | none => true)

/-- Whether a context of the partition on a core is in rotation (R123). -/
def State.coreRuns (s : State) (p : Part) (cluster core : Nat) : Bool :=
  s.threads.any fun t => t.part == p.first && t.loc.cluster == cluster && t.loc.core == core && s.rotates t && !t.proctor

/-- The cores of a partition with a thread in rotation. -/
def State.runningCores (s : State) (p : Part) : List (Nat × Nat) :=
  ((s.threads.filter fun t => t.part == p.first && s.rotates t && !t.proctor).map fun t => (t.loc.cluster, t.loc.core)).eraseDups

/-- R123: the roll-call interval in core cycles, at the launch's dilation; 0 where no launch runs. -/
def Part.rollLimit (p : Part) : Nat :=
  if !p.run.active then 0 else p.run.interval * 256 * p.run.d

/-- R46: no context is in rotation before the first core cycle of tick 0. -/
def State.rollFrom (s : State) (p : Part) : Nat := max s.now (s.cycleOfTick p.run.tick0)

def Part.roll (p : Part) (cluster core : Nat) : Roll := Tab.getD ⟨0, false, 0⟩ core (Tab.getD .rest cluster p.clusters).rolls

/-- R124: the earliest roll-call fence of a partition. -/
def State.fences (s : State) (p : Part) : Pick :=
  if p.rollLimit = 0 then .idle else
  (s.runningCores p).foldl (fun b (cl, co) =>
    let r := p.roll cl co
    if r.fenced then b else s.earlier b (.fence (s.rollFrom p + (p.rollLimit - r.count)) p.first cl co)) .idle

/-- The earliest of everything that is due. Partitions are all in their places. -/
def State.pick (s : State) : Pick :=
  let a := match s.agenda with
    | [] => .idle
    | i :: r => .agenda i r
  s.parts.foldl (fun b p =>
    let b := match p.run.tq with
      | [] => b
      | i :: r => if p.run.stopped then b else s.earlier b (.plan p.first i r)
    s.earlier b (s.fences p)) a

/-- Time passes to a cycle: the roll-call counts of the cores with a thread in rotation advance (R123). They are kept
in core cycles; `k.roll` shows them divided by the dilation (R112). -/
def State.advance (s : State) (c : Nat) : State :=
  if c ≤ s.now then s else
  { s with
    now := c
    parts := s.parts.map fun p =>
      let p := { p with oldStores := [] }
      if !p.run.active then p else
      let dt := c - s.rollFrom p
      (s.runningCores p).foldl (fun p (cl, co) =>
        let k := Tab.getD .rest cl p.clusters
        let r := p.roll cl co
        { p with clusters := Tab.put cl { k with rolls := Tab.put co { r with count := r.count + dt } k.rolls } p.clusters }) p }

/-- The item a pick takes, the state with it taken out and time passed to it. -/
def State.takePick (s : State) (k : Pick) : Task × State :=
  match k with
  | .idle => (.tickEnd 64, s.advance (s.now + 1))
  | .agenda i r => (i.what, ({ s with agenda := r } : State).advance i.cycle)
  | .plan f i r =>
    (i.what, (({ s with parts := s.parts.map fun p => if p.first = f then { p with run := { p.run with tq := r } } else p } : State).advance
      (s.pickKey k).1))
  | .fence c f cl co => (.ev (.rollCallFence f cl co), s.advance c)

/-- R87: a stream's word comes up: its tile and stream act, and its word is the one the body holds (R36). -/
def State.takeWord (s : State) (first tile stream : Nat) : Option Word × State :=
  let s := s.focusPart first
  if s.p.first ≠ first then (none, s) else
  let s := { s.focusTile tile with tstream := stream }
  let st : TStream := s.tl.streams.toList.getD stream .rest
  if st.done ∨ st.due ≠ s.plan then (none, s) else (st.body[st.next]?, s)

/-- A stream word that does not decode stands for its fault (R89). -/
def wordOfDecoded : Except DecodeError StreamWord → Instr
  | .ok w => w.instr
  | .error _ => .illegalStreamWord

/-- The stream that acts moves on: by default to its next word (R87). `brp`, `loop` and `wait` set other values after. -/
def State.advanceStream (s : State) : State :=
  if h : s.tstream < 7 then
    let st := s.tl.streams[s.tstream]
    let st := { st with next := st.next + 1, done := st.body.length ≤ st.next + 1 }
    { s with tl := { s.tl with streams := s.tl.streams.set s.tstream st } }
  else s

/-- The idle count of a stream word (Table 4.9). -/
def idleOf (w : Word) : Nat := field w 63 54

/-- Puts the next word of every stream of the acting tile whose item is not in the queue yet into it. -/
def State.queueWord (s : State) (stream : Nat) : State :=
  match s.tl.streams.toList[stream]? with
  | none => s
  | some st => if st.done then s else s.duePlan st.due (rankWord + s.tix * 8 + stream) (.word s.p.first s.tix stream)

/-- Order of the end of a logical tick, after every effect of it. -/
def rankTick : Nat := rankEnd + 40

/-- The end of this logical tick is looked at: boundary words, drains (R216, R410). -/
def State.watchTick (s : State) (plan : Nat) : State :=
  let w : Task := .tickEnd s.p.first
  if s.p.run.tq.any fun i => i.cycle == plan && i.what == w then s else s.duePlan plan rankTick w

/-- After a word: its stream's next issue tick, if the word set none (R87). -/
def State.settleWord (s : State) : State :=
  if h : s.tstream < 7 then
    let st := s.tl.streams[s.tstream]
    let st := if st.due ≤ s.plan && !st.done then { st with due := s.plan + 1 + idleOf (st.body.getD st.next 0) } else st
    let s := { s with tl := { s.tl with streams := s.tl.streams.set s.tstream st } }
    let s := (s.queueWord s.tstream).storeTile
    if s.tstream == 0 && st.done then s.watchTick s.plan else s
  else s

end Sys2Proof.Machine
end

