-- ==== Sys2Proof/Machine/Operands.lean ====
section
/-! DEFINITION. Operand forms and the pure integer functions of the scalar instructions (06, 07). -/

namespace Sys2Proof.Machine

/-- R140: the keyed counter function, one round. -/
def randRound (x k : Word) : Word :=
  let y := (x ^^^ k) * 0x9E3779B97F4A7C15
  y ^^^ (y >>> 29)

/-- R140: the keyed counter function. -/
def randBits (key ctr : Word) : Word :=
  let c : Word := 0xD1B54A32D192ED03
  randRound (randRound (randRound (randRound (randRound (randRound ctr key) (key + c)) (key + 2 * c)) (key + 3 * c))
    (key + 4 * c)) (key + 5 * c)

/-- R152: the immediate of the immediate form. -/
def imm9 (i : BitVec 9) : Word := i.signExtend 64
/-- SignExtend(imm32, 32). -/
def imm32s (i : BitVec 32) : Word := i.signExtend 64
/-- ZeroExtend(imm32, 32). -/
def imm32u (i : BitVec 32) : Word := i.setWidth 64

/-- R154. -/
def shlW (a n : Word) : Word := if 64 ≤ n.toNat then 0 else a <<< n.toNat
def shrW (a n : Word) : Word := if 64 ≤ n.toNat then 0 else a >>> n.toNat
def sarW (a n : Word) : Word := a.sshiftRight (min n.toNat 63)
def rolW (a n : Word) : Word := a.rotateLeft (n.toNat % 64)
def rorW (a n : Word) : Word := a.rotateRight (n.toNat % 64)

/-- R153: signed and unsigned high products. -/
def mulhW (a b : Word) : Word := BitVec.ofInt 64 ((a.toInt * b.toInt) / 2 ^ 64)
def mulhuW (a b : Word) : Word := BitVec.ofNat 64 (a.toNat * b.toNat / 2 ^ 64)

def minS (a b : Word) : Word := if a.toInt ≤ b.toInt then a else b
def maxS (a b : Word) : Word := if a.toInt ≤ b.toInt then b else a
def minU (a b : Word) : Word := if a.toNat ≤ b.toNat then a else b
def maxU (a b : Word) : Word := if a.toNat ≤ b.toNat then b else a

/-- R153: leading zero bits of the low n bits. -/
def clzN (a : Word) : Nat → Nat
  | 0 => 0
  | n + 1 => if a.getLsbD n then 0 else 1 + clzN a n

def popcN (a : Word) : Nat → Nat
  | 0 => 0
  | n + 1 => (if a.getLsbD n then 1 else 0) + popcN a n

/-- R153: bytes in reverse order. -/
def bswapW (a : Word) : Word :=
  BitVec.ofNat 64 ((List.range 8).foldl (fun r i => r * 256 + a.toNat / 256 ^ i % 256) 0)

/-- R155: pos and len of a field descriptor. -/
def extW (a b : Word) : Word :=
  let pos := field b 5 0
  let len := field b 13 8 + 1
  BitVec.ofInt 64 (signExt (BitVec.ofInt 64 (a.toInt / 2 ^ pos)) len)

def extuW (a b : Word) : Word :=
  let pos := field b 5 0
  let len := field b 13 8 + 1
  BitVec.ofNat 64 (a.toNat / 2 ^ pos % 2 ^ len)

/-- R156, Table 7.5: `div` truncates toward zero and `mod` takes the dividend's sign (R14). -/
def divW (a b : Word) : Word := if b = 0 then BitVec.allOnes 64 else BitVec.ofInt 64 (a.toInt.tdiv b.toInt)
def divuW (a b : Word) : Word := if b = 0 then BitVec.allOnes 64 else BitVec.ofNat 64 (a.toNat / b.toNat)
def remW (a b : Word) : Word := if b = 0 then a else BitVec.ofInt 64 (a.toInt.tmod b.toInt)
def remuW (a b : Word) : Word := if b = 0 then a else BitVec.ofNat 64 (a.toNat % b.toNat)

/-- Table 7.8: the conditions of `cmp`. -/
def condW (fn : Nat) (a b : Word) : Bool :=
  match fn with
  | 0 => a == b
  | 1 => a != b
  | 2 => decide (a.toInt < b.toInt)
  | 3 => decide (b.toInt ≤ a.toInt)
  | 4 => decide (a.toNat < b.toNat)
  | 5 => decide (b.toNat ≤ a.toNat)
  | 6 => (a &&& b) != 0
  | _ => (a &&& b) == 0

/-- R165: the target of a direct transfer, and of `spawn`: a 32-bit offset. -/
def relTarget (pc : Word) (imm : BitVec 32) : Word := ((pc + 8 * imm32s imm).setWidth 32).setWidth 64

/-- R104, Table 4.4: the fields of fn in `ld` and `st`: relaxed, size, sign. -/
def fnRelaxed (fn : BitVec 4) : Bool := fn.getLsbD 3
def fnBytes (fn : BitVec 4) : Nat := 2 ^ (fn.extractLsb' 1 2).toNat
def fnSigned (fn : BitVec 4) : Bool := fn.getLsbD 0

end Sys2Proof.Machine
end

