-- ==== Sys2Proof/Machine/Flags.lean ====
section
/-! DEFINITION. Float and integer formats, exact values, rounding, saturation and the flag set FS (06). Every result
is computed exactly and rounded once. -/

namespace Sys2Proof.Machine

/-! Formats (R129, R131). -/

/-- A float format (Table 6.2): widths, bias, whether it has infinities, whether it has NaN codes; the largest finite
value as maxM * 2^maxE. -/
structure Fmt where
  ebits : Nat
  mbits : Nat
  bias  : Nat
  inf   : Bool
  nan   : Bool
  maxM  : Nat
  maxE  : Int
  deriving DecidableEq, Repr

def f64 : Fmt := ⟨11, 52, 1023, true, true, 2 ^ 53 - 1, 971⟩
def f32 : Fmt := ⟨8, 23, 127, true, true, 2 ^ 24 - 1, 104⟩
def f16 : Fmt := ⟨5, 10, 15, true, true, 2 ^ 11 - 1, 5⟩
def bf16 : Fmt := ⟨8, 7, 127, true, true, 2 ^ 8 - 1, 120⟩
def f8e4 : Fmt := ⟨4, 3, 7, false, true, 14, 5⟩
def f8e5 : Fmt := ⟨5, 2, 15, true, true, 7, 13⟩
def f6e3 : Fmt := ⟨3, 2, 3, false, false, 7, 2⟩
def f6e2 : Fmt := ⟨2, 3, 1, false, false, 15, -1⟩
def f4e2 : Fmt := ⟨2, 1, 1, false, false, 3, 1⟩

def Fmt.width (f : Fmt) : Nat := 1 + f.ebits + f.mbits
/-- Exponent of the smallest normal. -/
def Fmt.emin (f : Fmt) : Int := 1 - f.bias

/-- A number format: float, or integer signed or not of a width. -/
inductive NumFmt where
  | fl (f : Fmt)
  | int (signed : Bool) (w : Nat)
  deriving DecidableEq, Repr

def NumFmt.width : NumFmt → Nat
  | .fl f => f.width
  | .int _ w => w

/-! Exact values (R132). -/

/-- NaN, an infinity, or the number (-1)^neg * m * 2^e; m = 0 is a signed zero. -/
inductive FVal where
  | nan
  | inf (neg : Bool)
  | fin (neg : Bool) (m : Nat) (e : Int)
  deriving DecidableEq, Repr

/-- The canonical NaN's code (Table 6.2). -/
def Fmt.nanCode (f : Fmt) : Nat :=
  if f.inf then (2 ^ f.ebits - 1) * 2 ^ f.mbits + 2 ^ (f.mbits - 1) else 2 ^ (f.ebits + f.mbits) - 1

def Fmt.signBit (f : Fmt) (neg : Bool) : Nat := if neg then 2 ^ (f.ebits + f.mbits) else 0
def Fmt.infCode (f : Fmt) (neg : Bool) : Nat := f.signBit neg + (2 ^ f.ebits - 1) * 2 ^ f.mbits
/-- The code of the largest finite value of a sign. -/
def Fmt.maxCode (f : Fmt) (neg : Bool) : Nat :=
  f.signBit neg + (if f.inf then (2 ^ f.ebits - 1) * 2 ^ f.mbits - 1
    else if f.nan then 2 ^ (f.ebits + f.mbits) - 2 else 2 ^ (f.ebits + f.mbits) - 1)

/-- R131, R132: the value of a code. -/
def Fmt.value (f : Fmt) (code : Nat) : FVal :=
  let m := code % 2 ^ f.mbits
  let e := code / 2 ^ f.mbits % 2 ^ f.ebits
  let neg := code / 2 ^ (f.ebits + f.mbits) % 2 = 1
  if f.inf && e == 2 ^ f.ebits - 1 then (if m = 0 then .inf neg else .nan)
  else if f.nan && !f.inf && e == 2 ^ f.ebits - 1 && m == 2 ^ f.mbits - 1 then .nan
  else if e = 0 then .fin neg m (1 - (f.bias : Int) - f.mbits)
  else .fin neg (2 ^ f.mbits + m) ((e : Int) - f.bias - f.mbits)

/-- The value of an integer code. -/
def intValue (signed : Bool) (w code : Nat) : Int :=
  let v := code % 2 ^ w
  if signed ∧ 2 ^ (w - 1) ≤ v then (v : Int) - 2 ^ w else v

def FVal.ofInt (i : Int) : FVal := .fin (decide (i < 0)) i.natAbs 0

def NumFmt.value : NumFmt → Nat → FVal
  | .fl f, c => f.value c
  | .int s w, c => .ofInt (intValue s w c)

/-! Flags (R139): the bits of FS at their places in `pw` (Table 5.4). -/

abbrev FS := BitVec 32
def fnv : FS := 0x00200000
def fdz : FS := 0x00400000
def fof : FS := 0x00800000
def fuf : FS := 0x01000000
def fnx : FS := 0x02000000
def isat : FS := 0x04000000

/-! Comparison of exact values. -/

/-- m * 2^e as an integer number of units 2^u, u at most e. -/
def scaled (neg : Bool) (m : Nat) (e u : Int) : Int :=
  let v : Int := m * 2 ^ (e - u).toNat
  if neg then -v else v

/-- a < b; false where either is NaN; zeros are equal. -/
def FVal.lt : FVal → FVal → Bool
  | .nan, _ => false
  | _, .nan => false
  | .inf n, .inf k => n && !k
  | .inf n, .fin _ _ _ => n
  | .fin _ _ _, .inf k => !k
  | .fin n m e, .fin k l f => decide (scaled n m e (min e f) < scaled k l f (min e f))

def FVal.isNan : FVal → Bool
  | .nan => true
  | _ => false

def FVal.eq (a b : FVal) : Bool := !a.isNan && !b.isNan && !a.lt b && !b.lt a
def FVal.le (a b : FVal) : Bool := !a.isNan && !b.isNan && !b.lt a

def FVal.isNeg : FVal → Bool
  | .nan => false
  | .inf n => n
  | .fin n _ _ => n

def FVal.isZero : FVal → Bool
  | .fin _ m _ => m == 0
  | _ => false

def FVal.isInf : FVal → Bool
  | .inf _ => true
  | _ => false

def FVal.abs : FVal → FVal
  | .nan => .nan
  | .inf _ => .inf false
  | .fin _ m e => .fin false m e

def FVal.neg : FVal → FVal
  | .nan => .nan
  | .inf n => .inf !n
  | .fin n m e => .fin (!n) m e

/-! Rounding (R135-R138). -/

/-- A rounding mode; `rs` carries bits [15:0] of its random word (R136, R141). -/
inductive Rm where
  | rn | rz | ru | rd
  | rs (bits : Nat)
  deriving DecidableEq, Repr

/-- Pick of R136 for m * 2^e in units of 2^t: the unit count, and whether it is inexact. -/
def pickUnits (m : Nat) (e t : Int) (neg : Bool) (r : Rm) : Nat × Bool :=
  if t ≤ e then (m * 2 ^ (e - t).toNat, false) else
  let sh := (t - e).toNat
  let lo := m / 2 ^ sh
  let rem := m % 2 ^ sh
  if rem = 0 then (lo, false) else
  let up : Bool := match r with
    | .rn => decide (2 ^ sh < 2 * rem) || (2 * rem == 2 ^ sh && lo % 2 == 1)
    | .rz => false
    | .ru => !neg
    | .rd => neg
    | .rs bits => decide (bits < rem * 65536 / 2 ^ sh)
  (if up then lo + 1 else lo, true)

/-- R137: an out-of-range result; `fin` marks the overflow of a finite value. -/
def Fmt.outOfRange (f : Fmt) (r : Rm) (neg fin : Bool) : Nat × FS :=
  if !f.nan then (f.maxCode neg, if fin then 0 else fof)
  else if !fin then (if f.inf then (f.infCode neg, 0) else (f.nanCode, fnv))
  else
    let big := if f.inf then f.infCode neg else f.nanCode
    match r with
    | .rn => (big, 0)
    | .rs _ => (big, 0)
    | .rz => (f.maxCode neg, 0)
    | .ru => (if neg then f.maxCode true else big, 0)
    | .rd => (if neg then big else f.maxCode false, 0)

/-- floor(log2 (m * 2^e)) of a positive value. -/
def expOf (m : Nat) (e : Int) : Int := (m.log2 : Int) + e

/-- R136 for a float format. -/
def Fmt.round (f : Fmt) (r : Rm) : FVal → Nat × FS
  | .nan => if f.nan then (f.nanCode, 0) else (0, fnv)
  | .inf n => f.outOfRange r n false
  | .fin n m e =>
    if m = 0 then (f.signBit n, 0) else
    let ex := max (expOf m e) f.emin
    let t := ex - f.mbits
    let (y, ne) := pickUnits m e t n r
    if scaled false f.maxM f.maxE (min t f.maxE) < scaled false y t (min t f.maxE) then
      let (c, fs) := f.outOfRange r n true
      (c, fs ||| fof ||| fnx)
    else
      (f.signBit n + (ex - f.emin).toNat * 2 ^ f.mbits + y,
        if ne then fnx ||| (if expOf m e < f.emin then fuf else 0) else 0)

def intMin (signed : Bool) (w : Nat) : Int := if signed then -2 ^ (w - 1) else 0
def intMax (signed : Bool) (w : Nat) : Int := if signed then 2 ^ (w - 1) - 1 else 2 ^ w - 1

/-- The code of an integer. -/
def intCode (w : Nat) (i : Int) : Nat := (i % 2 ^ w).toNat

/-- R136 for an integer format. -/
def roundInt (signed : Bool) (w : Nat) (r : Rm) : FVal → Nat × FS
  | .nan => (0, fnv)
  | .inf n => (intCode w (if n then intMin signed w else intMax signed w), fnv)
  | .fin n m e =>
    let (y, ne) := pickUnits m e 0 n r
    let i : Int := if n then -y else y
    if i < intMin signed w then (intCode w (intMin signed w), fnv)
    else if intMax signed w < i then (intCode w (intMax signed w), fnv)
    else (intCode w i, if ne then fnx else 0)

/-- R136: RoundTo. -/
def NumFmt.round (f : NumFmt) (r : Rm) (x : FVal) : Nat × FS :=
  match f with
  | .fl g => g.round r x
  | .int s w => roundInt s w r x

/-- R138: SatTo. -/
def NumFmt.sat (f : NumFmt) (x : FVal) : FVal × FS :=
  let lo := match f with | .fl g => FVal.fin true g.maxM g.maxE | .int s w => FVal.ofInt (intMin s w)
  let hi := match f with | .fl g => FVal.fin false g.maxM g.maxE | .int s w => FVal.ofInt (intMax s w)
  let fl := match f with | .fl _ => fof | .int _ _ => isat
  if hi.lt x then (hi, fl) else if x.lt lo then (lo, fl) else (x, 0)

/-- A conversion of one value, saturating or not (R138, R195). -/
def NumFmt.convert (f : NumFmt) (r : Rm) (sat : Bool) (x : FVal) : Nat × FS :=
  if sat then
    let (y, a) := f.sat x
    let (c, b) := f.round r y
    (c, a ||| b)
  else f.round r x

/-! Exact arithmetic (R134). A result is a value with the flags of an invalid or divide-by-zero case. -/

/-- The exact sum of values (R134, R146): NaN for a NaN or for opposite infinities, which is invalid; -0 only where
every term is -0. -/
def FVal.sum (l : List FVal) : FVal × FS :=
  if l.any (·.isNan) then (.nan, 0) else
  let pos := l.any fun x => x == .inf false
  let neg := l.any fun x => x == .inf true
  if pos && neg then (.nan, fnv) else if pos then (.inf false, 0) else if neg then (.inf true, 0) else
  let u := l.foldl (fun (u : Int) x => match x with | .fin _ m e => if m = 0 then u else min u e | _ => u) 16384
  let t := l.foldl (fun (t : Int) x => match x with | .fin n m e => if m = 0 then t else t + scaled n m e u | _ => t) 0
  (if t = 0 then .fin (l.all (·.isNeg)) 0 0 else .fin (decide (t < 0)) t.natAbs u, 0)

/-- The exact product; 0 times infinity is invalid. -/
def FVal.mul (a b : FVal) : FVal × FS :=
  if a.isNan || b.isNan then (.nan, 0) else
  let n := a.isNeg != b.isNeg
  if a.isInf || b.isInf then (if a.isZero || b.isZero then (.nan, fnv) else (.inf n, 0))
  else match a, b with
    | .fin _ m e, .fin _ l f => (.fin n (m * l) (e + f), 0)
    | _, _ => (.nan, 0)

/-- a * b + c with one rounding to follow (R184): a NaN operand adds no flag (R133), but a product of zero and infinity is
invalid whatever the addend (R134; assumption 38). -/
def FVal.fma (a b c : FVal) : FVal × FS :=
  let (p, x) := a.mul b
  let (r, y) := FVal.sum [p, c]
  (r, if p.isNan || c.isNan then x else x ||| y)

/-- A quotient that is not a binary fraction is cut far below any rounding point and marked with an odd last bit. -/
def quotient (m l : Nat) (e : Int) (n : Bool) : FVal :=
  let q := m * 2 ^ 160 / l
  if m * 2 ^ 160 % l = 0 then .fin n q (e - 160) else .fin n (2 * q + 1) (e - 161)

/-- R134: a / b. -/
def FVal.div (a b : FVal) : FVal × FS :=
  if a.isNan || b.isNan then (.nan, 0) else
  let n := a.isNeg != b.isNeg
  match a, b with
  | .inf _, .inf _ => (.nan, fnv)
  | .inf _, _ => (.inf n, 0)
  | _, .inf _ => (.fin n 0 0, 0)
  | .fin _ m e, .fin _ l f =>
    if l = 0 then (if m = 0 then (.nan, fnv) else (.inf n, fdz))
    else (quotient m l (e - f) n, 0)
  | _, _ => (.nan, 0)

/-- floor(sqrt n), bit by bit from bit k. -/
def isqrtFrom (n : Nat) : Nat → Nat → Nat
  | 0, r => if (r + 1) * (r + 1) ≤ n then r + 1 else r
  | k + 1, r => isqrtFrom n k (if (r + 2 ^ (k + 1)) * (r + 2 ^ (k + 1)) ≤ n then r + 2 ^ (k + 1) else r)

def isqrt (n : Nat) : Nat := isqrtFrom n (n.log2 / 2 + 1) 0

/-- The root of m * 2^e, exact or with an odd last bit far below any rounding point. -/
def rootOf (m : Nat) (e : Int) : FVal :=
  let (m, e) := if e % 2 = 0 then (m, e) else (2 * m, e - 1)
  let k := m * 2 ^ 200
  let q := isqrt k
  if q * q = k then .fin false q (e / 2 - 100) else .fin false (2 * q + 1) (e / 2 - 101)

/-- R184: square root; below -0 it is invalid. -/
def FVal.sqrt : FVal → FVal × FS
  | .nan => (.nan, 0)
  | .inf n => if n then (.nan, fnv) else (.inf false, 0)
  | .fin n m e => if m = 0 then (.fin n 0 0, 0) else if n then (.nan, fnv) else (rootOf m e, 0)

/-- An operation's exact result rounded once, nearest even (R134). -/
def Fmt.op (f : Fmt) (x : FVal × FS) : Nat × FS :=
  let (c, fs) := f.round .rn x.1
  (c, x.2 ||| fs)

/-! Operations on codes. -/

def Fmt.add (f : Fmt) (a b : Nat) : Nat × FS := f.op (FVal.sum [f.value a, f.value b])
def Fmt.sub (f : Fmt) (a b : Nat) : Nat × FS := f.op (FVal.sum [f.value a, (f.value b).neg])
def Fmt.mul (f : Fmt) (a b : Nat) : Nat × FS := f.op ((f.value a).mul (f.value b))
def Fmt.div (f : Fmt) (a b : Nat) : Nat × FS := f.op ((f.value a).div (f.value b))
def Fmt.sqrt (f : Fmt) (a : Nat) : Nat × FS := f.op (f.value a).sqrt
/-- Whether the product, and the addend, are negated (Table 8.2). -/
def Fmt.fma (f : Fmt) (np na : Bool) (a b d : Nat) : Nat × FS :=
  let x := f.value a
  f.op (FVal.fma (if np then x.neg else x) (f.value b) (if na then (f.value d).neg else f.value d))

/-- R185: whether code a is the smaller of the two, -0 below +0. -/
def Fmt.below (f : Fmt) (a b : Nat) : Bool :=
  (f.value a).lt (f.value b) || ((f.value a).eq (f.value b) && (f.value a).isNeg && !(f.value b).isNeg)

/-- R185: minimum and maximum keep the operand's own code; a NaN gives the canonical NaN. -/
def Fmt.min (f : Fmt) (a b : Nat) : Nat :=
  if (f.value a).isNan || (f.value b).isNan then f.nanCode else if f.below b a then b else a
def Fmt.max (f : Fmt) (a b : Nat) : Nat :=
  if (f.value a).isNan || (f.value b).isNan then f.nanCode else if f.below a b then b else a

/-- R185: the sign operations. -/
def Fmt.abs (f : Fmt) (a : Nat) : Nat := if (f.value a).isNan then f.nanCode else a % 2 ^ (f.ebits + f.mbits)
def Fmt.negate (f : Fmt) (a : Nat) : Nat := if (f.value a).isNan then f.nanCode else a ^^^ 2 ^ (f.ebits + f.mbits)
def Fmt.sign (f : Fmt) (a b : Nat) : Nat :=
  if (f.value a).isNan then f.nanCode
  else a % 2 ^ (f.ebits + f.mbits) + f.signBit (decide (b / 2 ^ (f.ebits + f.mbits) % 2 = 1))

/-- R188: the class bit of a code. -/
def Fmt.classOf (f : Fmt) (a : Nat) : Nat :=
  let sub : Bool := a / 2 ^ f.mbits % 2 ^ f.ebits == 0
  match f.value a with
  | .nan => 256
  | .inf n => if n then 1 else 128
  | .fin n m _ => if m = 0 then (if n then 8 else 16) else if sub then (if n then 4 else 32) else (if n then 2 else 64)

/-- R133: a value as a code of its own format: a NaN canonical. -/
def Fmt.canon (f : Fmt) (a : Nat) : Nat := if (f.value a).isNan then f.nanCode else a

/-- R148: Tree over v[lo .. lo + n), fuel bounding its depth. -/
def Fmt.tree (f : Fmt) (v : List Nat) : Nat → Nat → Nat → Nat × FS
  | 0, lo, _ => (f.canon (v.getD lo 0), 0)
  | k + 1, lo, n =>
    if n ≤ 1 then (f.canon (v.getD lo 0), 0) else
    let h := 2 ^ (n - 1).log2
    let (a, x) := f.tree v k lo h
    let (b, y) := f.tree v k (lo + h) (n - h)
    let (c, z) := f.add a b
    (c, x ||| y ||| z)

/-- R148: the float sum of a list. -/
def Fmt.sumTree (f : Fmt) (v : List Nat) : Nat × FS := f.tree v (v.length + 1) 0 v.length

/-- R149: the running sums of a list. -/
def Fmt.scan (f : Fmt) : List Nat → List (Nat × FS)
  | [] => []
  | a :: l => (l.foldl (fun (r : List (Nat × FS) × Nat) x =>
      let (c, fs) := f.add r.2 x
      (r.1 ++ [(c, fs)], c)) ([(f.canon a, 0)], f.canon a)).1

/-- R145, R146: one chunk of a product: the accumulator code, its factor (R147), and the factor pairs. -/
def chunkSum (acc : Nat) (scale : FVal) (ps : List (FVal × FVal)) : Nat :=
  let prods := ps.map fun (a, b) => (a.mul b).1
  let s := (FVal.sum prods).1
  (f32.round .rn (FVal.sum [((f32.value acc).mul scale).1, s]).1).1

/-- R145: all chunks of 64 positions in order; the factor joins the first. -/
def chunks (ps : List (FVal × FVal)) (acc : Nat) (scale : FVal) : Nat :=
  (List.range ((ps.length + 63) / 64)).foldl (fun acc j =>
    chunkSum acc (if j = 0 then scale else .fin false 1 0) ((ps.drop (64 * j)).take 64)) acc

/-! Blocked formats (R142-R144). -/

/-- A blocked format's element format and Ex (Table 6.6). -/
def blockFmt (code : Nat) : Fmt × Int :=
  match code with
  | 0 => (f8e4, 8)
  | 1 => (f6e2, 2)
  | _ => (f4e2, 2)

/-- R143: the exact value of an element under a scale byte. -/
def blockValue (f : Fmt) (code scale : Nat) : FVal :=
  if scale = 255 then .nan else
  match f.value code with
  | .fin n m e => .fin n m (e + scale - 127)
  | x => x

/-- R144: the scale byte and element codes of a block; `r i` is the rounding of element i. -/
def quantBlock (f : Fmt) (ex : Int) (r : Nat → Rm) (x : List FVal) : Nat × List Nat :=
  if x.any (fun v => v.isNan || v.isInf) then (255, x.map fun _ => 0) else
  let m := x.foldl (fun (m : FVal) v => if m.lt v.abs then v.abs else m) (.fin false 0 0)
  let e : Int := match m with
    | .fin _ k d => if k = 0 then 0 else min (max (expOf k d - ex + 127) 0) 254
    | _ => 0
  (e.toNat, x.zipIdx.map fun (v, i) =>
    let y := match v with | .fin n k d => FVal.fin n k (d - (e - 127)) | w => w
    ((NumFmt.fl f).convert (r i) true y).1)

/-! Special functions (R200, R201): fixed-point values far below any rounding point of f32 (assumption 8). -/

/-- Fraction bits of the fixed-point values. -/
def fxBits : Nat := 768

def fxMul (a b : Int) : Int := a * b / 2 ^ fxBits
def fxDiv (a b : Int) : Int := a * 2 ^ fxBits / b
def fxOne : Int := 2 ^ fxBits

/-- Taylor sum 1 + x/1! + x^2/2! + ..., from term n. -/
def expTerms (x : Int) : Nat → Nat → Int → Int → Int
  | 0, _, _, s => s
  | k + 1, n, t, s => let t := fxMul t x / n; expTerms x k (n + 1) t (s + t)

def fxExp (x : Int) : Int := expTerms x 180 1 fxOne fxOne

/-- x + x^3/3 + x^5/5 + ... with `sg` 1, alternating with -1. -/
def atanTerms (x2 sg : Int) : Nat → Nat → Int → Int → Int
  | 0, _, _, s => s
  | k + 1, n, p, s => let p := sg * fxMul p x2; atanTerms x2 sg k (n + 2) p (s + p / n)

def fxAtanh (x : Int) : Int := atanTerms (fxMul x x) 1 270 3 x x

def fxLn2 : Int := 2 * fxAtanh (fxOne / 3)

/-- ln of m / 2^k for m / 2^k in [1, 2). -/
def fxLn (m k : Nat) : Int :=
  let a : Int := m * 2 ^ fxBits / 2 ^ k
  2 * fxAtanh (fxDiv (a - fxOne) (a + fxOne))

/-- arctan(1/q) in units of 2^-b. -/
def arcTerms (q : Int) : Nat → Nat → Int → Int → Int
  | 0, _, _, s => s
  | k + 1, n, p, s => let p := -(p / (q * q)); arcTerms q k (n + 2) p (s + p / n)

/-- Pi in units of 2^-1024. -/
def pi1024 : Int :=
  let u : Int := 2 ^ 1024
  16 * arcTerms 5 240 3 (u / 5) (u / 5) - 4 * arcTerms 239 80 3 (u / 239) (u / 239)

/-- sin and cos of a fixed-point angle of at most 1: terms x^n/n! in alternation. -/
def trigTerms (x2 : Int) : Nat → Nat → Int → Int → Int
  | 0, _, _, s => s
  | k + 1, n, t, s => let t := -(fxMul t x2 / (n * (n + 1))); trigTerms x2 k (n + 2) t (s + t)

def fxSin (x : Int) : Int := trigTerms (fxMul x x) 90 2 x x
def fxCos (x : Int) : Int := trigTerms (fxMul x x) 90 1 fxOne fxOne

/-- A fixed-point result that is not exact. -/
def ofFx (v : Int) : FVal := .fin (decide (v < 0)) (2 * v.natAbs + 1) (-(fxBits : Int) - 1)

/-- A positive value below every rounding point; a value as close below 1. -/
def tiny (neg : Bool) : FVal := .fin neg 1 (-1024)
def nearOne (neg : Bool) : FVal := .fin neg (2 ^ 200 - 1) (-200)

/-- m * 2^e as a fixed-point number, exact for every f32. -/
def fxOf (neg : Bool) (m : Nat) (e : Int) : Int := scaled neg m e (-(fxBits : Int))

/-- 2^x for finite x. -/
def exp2Of (neg : Bool) (m : Nat) (e : Int) : FVal :=
  if 8 < expOf m e then (if neg then tiny false else .fin false 1 1024) else
  let x := fxOf neg m e
  let k := x / fxOne
  let f := x - k * fxOne
  if f = 0 then .fin false 1 k
  else match ofFx (fxExp (fxMul f fxLn2)) with
    | .fin n m e => .fin n m (e + k)
    | y => y

/-- log2 of a positive value. -/
def log2Of (m : Nat) (e : Int) : FVal :=
  let k := m.log2
  if m = 2 ^ k then .ofInt (k + e) else ofFx ((k + e) * fxOne + fxDiv (fxLn m k) fxLn2)

/-- The quadrant n and remainder of an angle: x = n * pi/2 + r with |r| at most pi/4. -/
def reduceAngle (neg : Bool) (m : Nat) (e : Int) : Int × Int :=
  let x := fxOf neg m e * 2 ^ (1024 - fxBits)
  let h := pi1024 / 2
  let n := (2 * x + h) / (2 * h)
  (n, (x - n * h) / 2 ^ (1024 - fxBits))

/-- sin for q = 0, cos for q = 1, of a finite non-zero value. -/
def trigOf (q : Int) (neg : Bool) (m : Nat) (e : Int) : FVal :=
  let (n, r) := reduceAngle neg m e
  ofFx (match (n + q) % 4 with | 0 => fxSin r | 1 => fxCos r | 2 => -fxSin r | _ => -fxCos r)

/-- e^-a for a fixed-point a from 0 to 128. -/
def expNeg (a : Int) : Int :=
  let k := a / fxLn2
  fxExp (-(a - k * fxLn2)) / 2 ^ k.toNat

/-- tanh of a finite non-zero value. -/
def tanhOf (neg : Bool) (m : Nat) (e : Int) : FVal :=
  if 5 ≤ expOf m e then nearOne neg else
  let t := expNeg (2 * fxOf false m e)
  let v := fxDiv (fxOne - t) (fxOne + t)
  ofFx (if neg then -v else v)

/-- 1 / (1 + e^-x) of a finite non-zero value. -/
def sigmOf (neg : Bool) (m : Nat) (e : Int) : FVal :=
  if 7 ≤ expOf m e then (if neg then tiny false else nearOne false) else
  let t := expNeg (fxOf false m e)
  ofFx (fxDiv (if neg then t else fxOne) (fxOne + t))

/-- x * (1 + 2x^2/3 + (2x^2)^2/(3*5) + ...). -/
def erfTerms (y : Int) : Nat → Nat → Int → Int → Int
  | 0, _, _, s => s
  | k + 1, n, t, s => let t := fxMul t y / n; erfTerms y k (n + 2) t (s + t)

/-- erf of a finite non-zero value. -/
def erfOf (neg : Bool) (m : Nat) (e : Int) : FVal :=
  if 3 ≤ expOf m e then nearOne neg else
  let x := fxOf false m e
  let x2 := fxMul x x
  let s := fxMul (erfTerms (2 * x2) 520 3 x x) (expNeg x2)
  let rootPi : Int := isqrt (pi1024 / 2 ^ (1024 - fxBits) * 2 ^ fxBits).toNat
  let v := 2 * fxDiv s rootPi
  ofFx (if neg then -v else v)

/-- The functions of Table 8.10. -/
inductive Special where
  | exp2 | log2 | rcp | rsq | sin | cos | tanh | sigm | erf
  deriving DecidableEq, Repr

/-- Table 8.10: special inputs, then the exact value. -/
def Special.value (f : Special) (x : FVal) : FVal × FS :=
  let one : FVal := .fin false 1 0
  match x with
  | .nan => (.nan, 0)
  | .inf n => match f with
    | .exp2 => (if n then .fin false 0 0 else .inf false, 0)
    | .log2 => if n then (.nan, fnv) else (.inf false, 0)
    | .rcp => (.fin n 0 0, 0)
    | .rsq => if n then (.nan, fnv) else (.fin false 0 0, 0)
    | .sin => (.nan, fnv)
    | .cos => (.nan, fnv)
    | .tanh => (.fin n 1 0, 0)
    | .sigm => (if n then .fin false 0 0 else one, 0)
    | .erf => (.fin n 1 0, 0)
  | .fin n m e =>
    if m = 0 then match f with
      | .exp2 => (one, 0)
      | .log2 => (.inf true, fdz)
      | .rcp => (.inf n, fdz)
      | .rsq => (.inf n, fdz)
      | .sin => (x, 0)
      | .cos => (one, 0)
      | .tanh => (x, 0)
      | .sigm => (.fin false 1 (-1), 0)
      | .erf => (x, 0)
    else match f with
      | .exp2 => (exp2Of n m e, 0)
      | .log2 => if n then (.nan, fnv) else (log2Of m e, 0)
      | .rcp => (quotient 1 m (-e) n, 0)
      | .rsq => if n then (.nan, fnv) else
        -- 1 / sqrt(v) = sqrt(1 / v), and 1/v is cut with an odd bit far below
        (match quotient 1 m (-e) false with | .fin _ q d => rootOf q d | y => y, 0)
      | .sin => (trigOf 0 n m e, 0)
      | .cos => (trigOf 1 n m e, 0)
      | .tanh => (tanhOf n m e, 0)
      | .sigm => (sigmOf n m e, 0)
      | .erf => (erfOf n m e, 0)

/-- R200, R201: a special function of an f32 code. -/
def Special.apply (f : Special) (a : Nat) : Nat × FS := f32.op (f.value (f32.value a))

end Sys2Proof.Machine
end

