-- ==== Sys2Proof/Machine/Streams.lean ====
section
/-! DEFINITION. Stream registers (R202-R209): element addresses, ready times, pops, pushes and what a V-slot
instruction's vector operands become. -/

namespace Sys2Proof.Machine

/-- Elements of a stream (R203), of either kind. -/
def StreamReg.total (st : StreamReg) : Nat :=
  field st.w1 15 0 * field st.w1 31 16 * field st.w1 47 32 * field st.w1 63 48

/-- R203: byte offset of element k in the own core. -/
def StreamReg.elem (st : StreamReg) (k : Nat) : Int :=
  let n0 := field st.w1 15 0
  let n1 := field st.w1 31 16
  let n2 := field st.w1 47 32
  (field st.w0 21 0 : Int) + (k % n0 : Nat) * signExt st.w2 32 + (k / n0 % n1 : Nat) * signExt (st.w2 >>> 32) 32
    + (k / (n0 * n1) % n2 : Nat) * signExt st.w3 32 + (k / (n0 * n1 * n2) : Nat) * signExt (st.w3 >>> 32) 32

/-- R205: Lk of an element. -/
def StreamReg.lat (st : StreamReg) (k : Nat) : Nat := if st.elem k < 0x80000 then 8 else 10

/-- R205, R112: the cycle in which element k is ready, none while the pop four before it has not happened. -/
def StreamReg.readyAt (st : StreamReg) (d k : Nat) : Option Nat :=
  if k < 4 then some (st.base + (st.lat k + k) * d)
  else if k < st.k + 4 then (st.pops[st.k + 3 - k]?).map fun p => max (st.base + (st.lat k + k) * d) (p + st.lat k * d)
  else none

/-- Flat address of an element of the acting thread's local-store stream. -/
def State.elemFlat (s : State) (st : StreamReg) (k : Nat) : Nat :=
  flatLocal s.cur.loc.cluster s.cur.loc.core (st.elem k).toNat

/-- An element's contents when it becomes ready are taken then (R205): the item for element k. -/
def State.expectElem (s : State) (x k : Nat) : State :=
  match s.cur.streams.toList[x]? with
  | none => s
  | some st =>
    if st.total ≤ k then s else
    match st.readyAt s.dil k with
    | some c => s.dueAt (max c s.now) (rankThread + s.cur.loc.key) (.sample s.cur.uid x k)
    | none => s

/-- R205: an element becomes ready: its 64 bytes as local store holds them now, with the first poisoned word. -/
def State.sampleElem (s : State) (uid x k : Nat) : State :=
  let s := s.focusThread uid
  if s.cur.uid ≠ uid then s else
  if h : x < 4 then
    let st := s.cur.streams[x]
    if st.bound && !st.push && !st.port && st.readyAt s.dil k == some s.now && st.buf.all (·.1 ≠ k) then
      let f := s.elemFlat st k
      let bad := (List.range 8).find? fun i => s.poisoned (f + 8 * i)
      let e := (k, (BitVec.ofNat 512 (s.mem.readN f 64) : Vec), bad.map fun i =>
        BitVec.ofNat 64 ((2 ^ 47 + s.cur.loc.cluster * 2 ^ 40 + s.cur.loc.core * 2 ^ 37 + (st.elem k).toNat + 8 * i)))
      let st := { st with buf := e :: st.buf.filter fun y => decide (st.k ≤ y.1 + 1) }
      let s := (List.range 8).foldl (fun s i => s.noteErrors (f + 8 * i)) s
      { s with cur := { s.cur with streams := s.cur.streams.set x st } }
    else s
  else s

/-- The stream bound to a vector register of the acting thread. -/
def State.streamOf (s : State) (code : Nat) : Option Nat :=
  (List.range 4).find? fun x => match s.cur.streams.toList[x]? with
    | some st => st.bound && st.reg == code
    | none => false

/-- The port queue of a port stream, in the acting thread's cluster (R209, R304). -/
def State.portOf (s : State) (st : StreamReg) : PortQueue :=
  Tab.getD ⟨[], none, 0⟩ (field st.w0 25 23) (s.cluster s.cur.loc.cluster).ports

def State.setPort (s : State) (cluster q : Nat) (f : PortQueue → PortQueue) : State :=
  s.onCluster cluster fun c => { c with ports := Tab.put q (f (Tab.getD ⟨[], none, 0⟩ q c.ports)) c.ports }

/-- What a vector operand is. -/
inductive Operand where
  | value (v : Vec)
  | notReady
  | illegal
  | poisoned (addr : Word)
  deriving DecidableEq, Repr

/-- R205, R206, R209: the operand a vector source register gives, before anything pops. -/
def State.operand (s : State) (code : Nat) : Operand :=
  match s.streamOf code with
  | none => .value (if h : code < 128 then s.cur.v[code] else 0)
  | some x => match s.cur.streams.toList[x]? with
    | none => .illegal
    | some st =>
      if st.push then .illegal
      else if st.total ≤ st.k then .value 0
      else if st.port then
        match (s.portOf st).chunks with
        | [] => .notReady
        | c :: _ => if c.pois = 0 then .value c.data else .poisoned (Config.unstated s.fresh)
      else match st.buf.find? (·.1 = st.k) with
        | none => .notReady
        | some (_, v, none) => .value v
        | some (_, _, some a) => .poisoned a

/-- R205: the pop itself: the position moves on, or the exhausted bit is set; element k + 4 is expected. -/
def State.popReg (s : State) (code : Nat) : State :=
  match s.streamOf code with
  | none => s
  | some x => if h : x < 4 then
      let st := s.cur.streams[x]
      if st.total ≤ st.k then
        { s with cur := { s.cur with streams := s.cur.streams.set x { st with exh := true } } }
      else if st.port then
        let c := (s.portOf st).chunks.head?
        let s := s.setPort s.cur.loc.cluster (field st.w0 25 23) fun q => { q with chunks := q.chunks.drop 1 }
        let b := match c with | some c => [(st.k, c.data, none)] | none => []
        { s with cur := { s.cur with streams := s.cur.streams.set x { st with k := st.k + 1, buf := b } } }
      else
        let st := { st with k := st.k + 1, pops := (s.now :: st.pops).take 4 }
        ({ s with cur := { s.cur with streams := s.cur.streams.set x st } } : State).expectElem x (st.k + 3)
    else s

/-- Whether a result may be written to a vector register: not one bound to a pop stream, nor one that is read too and
bound (R206). -/
def State.mayWrite (s : State) (code : Nat) (reads : Bool) : Bool :=
  match s.streamOf code with
  | none => true
  | some x => match s.cur.streams.toList[x]? with
    | some st => st.push && !reads
    | none => false

/-- R209, R304: a push into a port queue waits until it has room, counting pushes in flight; one past the last element
writes nothing (R206). -/
def State.pushReady (s : State) (code : Nat) : Bool :=
  match s.streamOf code with
  | none => true
  | some x => match s.cur.streams.toList[x]? with
    | some st => !st.port || decide (st.total ≤ st.k) || decide ((s.portOf st).chunks.length + (s.portOf st).flight < 16)
    | none => true

/-- R205, R209: whether every stream a bundle pops, and the one it pushes, is ready. -/
def State.streamsReady (s : State) (srcs : List Nat) (dst : Option Nat) : Bool :=
  srcs.all (fun c => s.operand c != .notReady) && (match dst with | some d => s.pushReady d | none => true)

/-- R206, R332: a push claims the next element: it lands Lk after its value, in a port queue with it, and after every earlier
access of the thread to a word of the element. -/
def State.claimPush (s : State) (x : Nat) (st : StreamReg) (lat : Nat) : State :=
  let base := s.now + lat * s.dil
  let y : Push :=
    if st.port then ⟨x, st.k, s.now, none, base⟩
    else
      let f := s.elemFlat st st.k
      let words := (List.range 8).map fun i => f + 8 * i
      let after (a : Acc) : Nat := match s.route a.va a.bytes with
        | .ok (.loc cl co b) => if words.any (· == wordOf (flatLocal cl co b)) then a.due + 1 else 0
        | _ => 0
      let pushed := words.foldl (fun m w => max m (s.cur.lastPush w)) 0
      ⟨x, st.k, s.now, some f, max (max (base + st.lat st.k * s.dil) (if pushed = 0 then 0 else pushed + 1))
        (s.cur.relaxed.foldl (fun m a => max m (after a)) 0)⟩
  { s with cur := { s.cur with
    streams := if h : x < 4 then s.cur.streams.set x { st with k := st.k + 1, flight := st.flight + 1 } else s.cur.streams
    pushes := s.cur.pushes ++ [y] } }

/-- A vector result: to its register, or to the next element of the push stream bound to it (R114, R206). -/
def State.landV (s : State) (lat code : Nat) (val mask : Vec) : State :=
  match s.streamOf code with
  | none => s.land lat (.v code val mask)
  | some x => if h : x < 4 then
      let st := s.cur.streams[x]
      if st.total ≤ st.k then
        { s with cur := { s.cur with streams := s.cur.streams.set x { st with exh := true } } }
      else
        let s := if st.port then
          s.setPort s.cur.loc.cluster (field st.w0 25 23) fun q => { q with flight := q.flight + 1 } else s
        let pos := st.k
        let s := s.claimPush x st lat
        s.land lat (.push x pos val mask)
    else s

/-- The operands of a V-slot instruction (R180, R205, R206): `srcs` are its vector sources, `dst` its vector destination
if it has one, `rd` whether it reads that too. A source that is not ready holds the bundle; each popped register pops
once. `f` gives the effect from the operands' values. -/
def State.withOperands (s : State) (srcs : List Nat) (dst : Option Nat) (rd : Bool) (f : (Nat → Vec) → State → State) :
    State :=
  let srcs := srcs.eraseDups
  let ops := srcs.map s.operand
  let badDst := match dst with | some d => !s.mayWrite d rd | none => false
  if badDst || ops.any (· == .illegal) then s.raise 2 s.cur.pc
  else if !s.streamsReady srcs dst then
    { s with cur := { s.cur with status := .held srcs dst false } }
  else match ops.findSome? fun o => match o with | .poisoned a => some a | _ => none with
    | some a => ({ s with fresh := s.fresh + 1 } : State).raise 7 a
    | none =>
      let get := fun c => match s.operand c with | .value v => v | _ => 0
      f get (srcs.foldl State.popReg s)

/-- R206, R240: a push of a register's bits: the bytes the result writes, at the element. A partly written word keeps
its other bytes; poison under it goes only with a whole word. -/
def State.writeElem (s : State) (flat : Nat) (val mask : Vec) : State :=
  (List.range 8).foldl (fun s i =>
    let m := field (mask.extractLsb' (64 * i) 64) 63 0
    if m = 0 then s
    else
      let v := ((val.extractLsb' (64 * i) 64).toNat)
      if m = 2 ^ 64 - 1 then s.store (flat + 8 * i) 8 v
      else if s.poisoned (flat + 8 * i) then s
      else
        let s := (List.range 8).foldl (fun (s : State) j =>
          if m / 2 ^ (8 * j) % 256 = 0 then s
          else { s with mem := s.mem.write (flat + 8 * i + j) (BitVec.ofNat 8 (v / 2 ^ (8 * j))) }) s
        s.touched (flat + 8 * i)) s

/-- One push fewer in flight; a `sbind.free`, a fence or a `texit` may go on. -/
def State.pushDone (s : State) (x pos : Nat) : State :=
  if h : x < 4 then
    let st := s.cur.streams[x]
    let s := { s with cur := { s.cur with
      pushes := s.cur.pushes.filter fun y => y.sq != x || y.pos != pos
      unsent := s.cur.unsent.map fun (p, b, n) => (p, b, n - 1)
      streams := s.cur.streams.set x { st with flight := st.flight - 1 } } }
    s.sendUnsent.wakeListed
  else s

/-- R304: the kind field of a `gjob` descriptor (Table 12.2). -/
def graphKind (desc : List Word) : Nat := field (desc.getD 2 0) 6 4

/-- R304: a chunk has entered a queue that feeds a `gjob` of kind 3: with a pair of chunks there, its line becomes
available a core cycle later. -/
def State.feedGraph (s : State) (cluster q : Nat) : State :=
  let pq := Tab.getD ⟨[], none, 0⟩ q (s.cluster cluster).ports
  match pq.attached with
  | none => s
  | some key => match s.p.jobs.find? (·.key == key) with
    | some j => match j.cmd with
      | .graph desc _ =>
        if graphKind desc = 3 ∧ pq.chunks.length % 2 = 0 then
          s.dueIn s.p.run.d (rankThread - 1) (.accessComplete 0 (.job s.p.first key (4 * 2 ^ 40)))
        else s
      | _ => s
    | none => s

/-- R206, R209: a push lands. A chunk's bytes that the result does not write are not stated (assumption 19). -/
def execStreamPushLands (uid sq pos : Nat) (val mask : Vec) (s : State) : Res :=
  let s := s.focusThread uid
  if s.cur.uid ≠ uid then .next s else
  match s.cur.streams.toList[sq]? with
  | none => .next s
  | some st =>
    if st.port then
      let free : Vec := (List.range 8).foldl (fun v i => v ||| ((Config.unstated (s.fresh + i)).setWidth 512 <<< (64 * i))) 0
      let s := { s with fresh := s.fresh + 8 }
      let s := s.setPort s.cur.loc.cluster (field st.w0 25 23) fun q =>
        { q with chunks := q.chunks ++ [⟨setBits free val mask, 0⟩], flight := q.flight - 1 }
      .next ((s.feedGraph s.cur.loc.cluster (field st.w0 25 23)).pushDone sq pos)
    else .next ((s.writeElem (s.elemFlat st pos) val mask).pushDone sq pos)

/-- R203, R204: a local-window byte of the own core, as an address. -/
def windowAddr (cl co : Nat) (a : Int) : Nat := ((2 ^ 47 + cl * 2 ^ 40 + co * 2 ^ 37 : Nat) + a).toNat

/-- R204: the first element from k on that lies outside the store or in a share the partition does not own: fault kind
and address. -/
def firstBadElem (p : Part) (cl co : Nat) (st : StreamReg) : Nat → Nat → Option (Nat × Nat)
  | 0, _ => none
  | left + 1, k =>
    let a := st.elem k
    if a < 0 ∨ 0x280000 < a + 64 then some (4, windowAddr cl co a)
    else if p.owns (shareUnit co a.toNat) then firstBadElem p cl co st left (k + 1)
    else some (5, windowAddr cl co a)

/-- R204: the words of a stream descriptor read from `va`: the fault kind and address, if anything is wrong. -/
def descFault (p : Part) (cl co : Nat) (va w0 w1 w2 w3 : Word) : Option (Nat × Nat) :=
  let st : StreamReg := { StreamReg.rest with w0 := w0, w1 := w1, w2 := w2, w3 := w3 }
  let port := w0.getLsbD 22
  let n (i : Nat) := field w1 (16 * i + 15) (16 * i)
  let strides := [signExt w2 32, signExt (w2 >>> 32) 32, signExt w3 32, signExt (w3 >>> 32) 32]
  if field w0 63 26 ≠ 0 ∨ n 0 = 0 ∨ n 1 = 0 ∨ n 2 = 0 ∨ n 3 = 0 ∨ field w0 21 0 % 64 ≠ 0 ∨
      strides.any (fun x => x % 64 ≠ 0) ∨ (!port ∧ field w0 25 23 ≠ 0) ∨ (port ∧ (w2 ≠ 0 ∨ w3 ≠ 0)) then
    some (4, va.toNat)
  else if port then (if p.graphSlots = 0 then some (4, va.toNat) else none)
  else
    let spans := strides.zipIdx.map fun (x, i) => x * ((n i - 1 : Nat) : Int)
    let lo := spans.foldl (fun (a : Int) x => a + min x 0) (field w0 21 0 : Int)
    let hi := spans.foldl (fun (a : Int) x => a + max x 0) (field w0 21 0 : Int) + 64
    let inside : Bool := decide (0 ≤ lo) && decide (hi ≤ 0x280000)
    let oneRun : Bool := decide (hi ≤ 0x80000) || decide (0x80000 ≤ lo) || decide (p.lg ≤ 3)
    if inside && oneRun && p.owns (shareUnit co lo.toNat) && p.owns (shareUnit co (hi - 1).toNat) then none
    else firstBadElem p cl co st st.total 0

/-- R204: binds a stream whose descriptor has been read. -/
def State.bindStream (s : State) (x : Nat) (push : Bool) (reg : Nat) (w0 w1 w2 w3 : Word) : State :=
  let (late, s) := if s.det then (0, s) else s.draw (63 * 8 * s.dil)
  let st : StreamReg := {
    bound := true
    push := push
    port := w0.getLsbD 22
    exh := match s.cur.streams.toList[x]? with | some old => old.exh | none => false
    reg := reg
    w0 := w0
    w1 := w1
    w2 := w2
    w3 := w3
    k := 0
    base := s.now + late
    pops := []
    buf := []
    flight := 0 }
  let s := { s with
    cur := { s.cur with streams := if h : x < 4 then s.cur.streams.set x st else s.cur.streams } }
  if push || st.port then s else (List.range 4).foldl (fun s k => s.expectElem x k) s

/-- R67: whether a local-window address names the acting thread's own core. -/
def State.ownCore (s : State) (va : Word) : Bool := field va 45 40 == s.cur.loc.cluster && field va 39 37 == s.cur.loc.core

/-- R204, R391: the window check of a descriptor in the own core's local store, of n bytes: address faults come before the
protection fault of a share that is not owned. -/
def State.ownWindow (s : State) (va : Word) (n align : Nat) : Except Nat Nat :=
  if va.toNat % align ≠ 0 then .error 4 else
  match s.route va n with
  | .error k => .error (if s.ownCore va then k else 4)
  | .ok (.loc _ _ b) => if s.ownCore va then .ok b else .error 4
  | .ok _ => .error 4

/-- A descriptor read of n words in the own core's store: the thread leaves rotation until it completes (R204, R281). -/
def State.readDesc (s : State) (va : Word) (b : Nat) (use : DescUse) : State :=
  let (lat, s) := s.elapse (if b < 0x80000 then 8 else 10)
  let s := { s with nextId := s.nextId + 1, cur := { s.cur with status := .access s.nextId } }
  s.dueIn lat (rankThread + s.cur.loc.key) (.accessComplete s.cur.uid (.desc use va s.now))

/-- R202, R204: binds, or frees after the stream's pushes. -/
def execSbind (g : Guard) (rs x : BitVec 5) (f : BitVec 2) (reg : BitVec 32) (s : State) : Res :=
  if !s.guard g then .next s else
  let x := x.toNat % 4
  match s.cur.streams.toList[x]? with
  | none => .next s
  | some st =>
    if f.getLsbD 1 then
      if !st.bound then .next s
      else if st.flight = 0 then
        .next { s with cur := { s.cur with streams := if h : x < 4 then s.cur.streams.set x st.freed else s.cur.streams } }
      else .next { s with cur := { s.cur with status := .waiting (.freed x) } }
    else if st.bound || (s.streamOf reg.toNat).isSome then .next (s.raise 2 s.cur.pc)
    else
      let va := s.ra rs
      match s.ownWindow va 32 32 with
      | .error k => .next (s.raise k va)
      | .ok b => .next (s.readDesc va b (.sbind x (f.getLsbD 0) reg.toNat))

/-! Threads that wait (R110). -/

/-- A thread that waits is looked at. -/
def State.settleWait (s : State) (uid : Nat) : State :=
  let s := s.focusThread uid
  match s.cur.status with
  | .waiting w => if s.waitDone w then s.endWait w else s
  | .held srcs dst false =>
    if s.streamsReady srcs dst then { s with cur := { s.cur with status := .held srcs dst true } } else s
  | _ => s

/-- Whether a thread waits for something that is looked at. -/
def Thread.waits (t : Thread) : Bool :=
  match t.status with
  | .waiting _ => true
  | .held _ _ noted => !noted
  | _ => false

/-- R110: every thread whose event has come is in rotation again. Nothing acts after it. -/
def State.settleWaits (s : State) : State :=
  let s := s.rest
  ((s.threads.filter Thread.waits).map (·.uid)).foldl (fun s u => (s.settleWait u).rest) s

end Sys2Proof.Machine
end

