-- ==== Sys2Proof/Machine/Governor.lean ====
section
/-! DEFINITION. The stage governor (R364-R367). -/

namespace Sys2Proof.Machine

/-- The flat address of a local-window address of the partition in a cluster, for n bytes. -/
def State.localIn (s : State) (cluster : Nat) (va : Word) (n align : Nat) : Option Nat :=
  if va.toNat % align ≠ 0 then none else
  match s.route va n with
  | .ok (.loc cl co b) => if cl = cluster then some (flatLocal cl co b) else none
  | _ => none

/-- Byte i of a word. -/
def byteOf (w : Word) (i : Nat) : Nat := field w (8 * i + 7) (8 * i)

/-- The cores a table's cmask names, ascending (Table 15.9). -/
def govCores (t : List Word) : List Nat := (List.range 8).filter fun j => (t.getD 0 0).getLsbD (8 + j)

/-- nst of a table; it has nst + 2 stages and uses rings 0 to nst. -/
def govNst (t : List Word) : Nat := field (t.getD 0 0) 2 1
def govRing (t : List Word) (i : Nat) : Word := t.getD (2 + i) 0
def govInit (t : List Word) (i : Nat) : Nat := byteOf (t.getD 5 0) i
def govMin (t : List Word) (i : Nat) : Nat := byteOf (t.getD 6 0) i
def govHi (t : List Word) (i : Nat) : Nat := field (t.getD (7 + i) 0) 15 0
def govLo (t : List Word) (i : Nat) : Nat := field (t.getD (7 + i) 0) 31 16

/-- The words of a pipeline table. -/
def State.govTable (s : State) (cluster : Nat) (w : Word) : Option (List Word) :=
  (s.localIn cluster (BitVec.ofNat 64 (field w 55 0)) 128 128).map fun f => (List.range 16).map fun i => s.word (f + 8 * i)

/-- R365: whether a table may be loaded. -/
def State.govOk (s : State) (cluster : Nat) (t : List Word) : Bool :=
  let w0 := t.getD 0 0
  let nst := govNst t
  let stages := List.range (nst + 2)
  let rings := List.range (nst + 1)
  decide (nst ≤ 2) && decide (1 ≤ field w0 31 16) && decide (1 ≤ field w0 35 32) && decide (field w0 35 32 ≤ 8) &&
  (govCores t).all (fun j => (s.p.contexts cluster).any fun l => l.core == j) &&
  (stages.foldl (fun n i => n + govInit t i) 0 == (govCores t).length) &&
  stages.all (fun i => govInit t i != 0 && govMin t i != 0 && decide (govMin t i ≤ govInit t i)) &&
  rings.all (fun i => decide (govLo t i < govHi t i) && (s.localIn cluster (govRing t i) 64 64).isSome) &&
  (s.localIn cluster (t.getD 1 0) 64 64).isSome

/-- R366: the initial assignment. -/
def govAssign (t : List Word) : List (List Nat) :=
  ((List.range (govNst t + 2)).foldl (fun (r : List (List Nat) × List Nat) i =>
    (r.1 ++ [r.2.take (govInit t i)], r.2.drop (govInit t i))) ([], govCores t)).1

/-- The stage of each core, for the assignment words. -/
def govWords (st : List (List Nat)) : List (Nat × Nat) := st.zipIdx.flatMap fun (l, i) => l.map fun j => (j, i)

/-- R366: core cycles between boundaries. -/
def State.govPeriod (s : State) (t : List Word) : Nat := 256 * field (t.getD 0 0) 31 16 * s.p.run.d

/-- R365, R366: a write of `k.gov` lands: the table before it has no boundary any more. -/
def State.startGov (s : State) (cluster : Nat) (w : Word) : State :=
  let w : Word := BitVec.ofNat 64 (field w 55 0)
  let first := s.p.first
  let s := { s with agenda := s.agenda.filter fun i => i.what != .ev (.governorBoundary first cluster) }
  if w = 0 then s.onCluster cluster fun c => { c with gov := ⟨0, [], [], 0, []⟩ }
  else match s.govTable cluster w with
    | none => s
    | some t =>
      let st := govAssign t
      let s := s.onCluster cluster fun c => { c with gov := ⟨w, t, st, s.now, govWords st⟩ }
      s.dueIn s.p.run.d rankEngine (.governorBoundary s.p.first cluster)

/-- R366: the occupancy of a ring, signed. -/
def State.govOcc (s : State) (cluster : Nat) (t : List Word) (i : Nat) : Int :=
  match s.localIn cluster (govRing t i) 64 64 with
  | some f => (s.word f - s.word (f + 8)).toInt
  | none => 0

/-- The last n of a stage's cores move to another stage. -/
def moveCores (st : List (List Nat)) (from_ dst n : Nat) : List (List Nat) × List Nat :=
  let l := st.getD from_ []
  let m := l.drop (l.length - n)
  ((st.set from_ (l.take (l.length - n))).set dst ((st.getD dst [] ++ m).mergeSort (· ≤ ·)), m)

/-- R366: the move of one boundary: the stages after it, and the words to write. -/
def State.govMove (s : State) (cluster : Nat) (t : List Word) (st : List (List Nat)) : List (List Nat) × List (Nat × Nat) :=
  let mv := field (t.getD 0 0) 35 32
  let rings := List.range (govNst t + 1)
  let n (i : Nat) := (st.getD i []).length
  match rings.find? fun i => decide ((govHi t i : Int) ≤ s.govOcc cluster t i) && decide (govMin t i + mv ≤ n i) with
  | some i => let (q, m) := moveCores st i (i + 1) mv; (q, m.map fun j => (j, i + 1))
  | none =>
    match rings.find? fun i => decide (s.govOcc cluster t i ≤ (govLo t i : Int)) && decide (govMin t (i + 1) + mv ≤ n (i + 1)) with
    | some i => let (q, m) := moveCores st (i + 1) i mv; (q, m.map fun j => (j, i))
    | none => (st, [])

/-- R366: one assignment word a cycle while any is due; else, at a boundary of governed mode, one move. -/
def execGovernorBoundary (first cluster : Nat) (s : State) : Res :=
  let s := s.focusPart first
  if s.p.first ≠ first then .next s else
  let g := (s.cluster cluster).gov
  if g.word = 0 ∨ !s.p.run.active ∨ s.p.paused then .next s else
  let next (s : State) : Nat :=
    let per := s.govPeriod g.table
    per - (s.now - g.start) % per
  match g.pend with
  | (core, stage) :: rest =>
    let s := match s.localIn cluster (g.table.getD 1 0) 64 64 with
      | some f => s.storeWord (f + 8 * core) (BitVec.ofNat 64 stage) true
      | none => s
    let s := s.onCluster cluster fun c => { c with gov := { c.gov with pend := rest } }
    if !rest.isEmpty then .next (s.dueIn s.p.run.d rankEngine (.governorBoundary first cluster))
    else if (g.table.getD 0 0).getLsbD 0 then .next s
    else .next (s.dueIn (next s) rankEngine (.governorBoundary first cluster))
  | [] =>
    if (g.table.getD 0 0).getLsbD 0 then .next s else
    let (st, words) := s.govMove cluster g.table g.stages
    let s := s.onCluster cluster fun c => { c with gov := { c.gov with stages := st, pend := words } }
    .next (s.dueIn (if words.isEmpty then next s else s.p.run.d) rankEngine (.governorBoundary first cluster))

end Sys2Proof.Machine
end

