-- ==== Sys2Proof/Machine/System.lean ====
section
/-! DEFINITION. Traps, the return from them, the control registers, address spaces, and the encodings that fault or do
nothing (R81, R83, R91, R393-R399, R114). -/

namespace Sys2Proof.Machine

/-! Encodings without an instruction. -/

/-- R83: a reserved cell executes as a no-op. In a stream word it is a `nop` (R87). -/
def execResSlotNop (_k : SlotKind) (_bits : BitVec 64) (s : State) : Res := .next s

/-- R81, R84: an illegal-instruction fault in the slot named. -/
def execIllegalInstruction (k : SlotKind) (s : State) : Res :=
  .next (({ s with slotV := k == .v } : State).raise 2 s.cur.pc)

/-- R91: a fetch fault. -/
def execFetchFault (s : State) : Res := .next (s.raise 1 s.cur.pc)

/-! Landing results (R114). -/

/-- Table 8.13: a 1 written clears a stream's exhausted bit. -/
def clearExh (v : Word) (i : Nat) (st : StreamReg) : StreamReg :=
  if v.getLsbD (12 + i) then { st with exh := false } else st

/-- R13: whether L fields may be written: no launch of the partition has reached its first bell. -/
def State.beforeBell (s : State) : Bool := !s.p.run.active || s.p.run.chain == .none || decide (s.tick < s.p.run.tick0)

/-- R398: what a `cwr` leaves when it lands; RO fields keep their values, and so do L fields after the first bell (R13). An
interval of 0, or a homing entry that R72 refuses, is ignored (assumption 48). -/
def State.setCreg (s : State) (n : Nat) (v : Word) : State :=
  let on (f : Thread → Thread) : State := { s with cur := f s.cur }
  match n with
  | 0x002 => if s.beforeBell && field v 15 0 != 0 then s.onRun fun r => { r with interval := field v 15 0 } else s
  | 0x003 => on fun t => { t with rkey := v }
  | 0x004 => on fun t => { t with rctr := v.setWidth 32, rctrSeen := v.setWidth 32 }
  | 0x005 => on fun t => { t with amax := v.setWidth 32 }
  | 0x006 => on fun t => { t with srnd := v }
  | 0x007 => on fun t => { t with streams := Vector.ofFn fun (i : Fin 4) => clearExh v i.val t.streams[i] }
  | 0x009 => s.startGov s.cur.loc.cluster v
  | 0x00A => s.onCluster s.cur.loc.cluster fun c => { c with notice := c.notice &&& ~~~(v.setWidth 10) }
  | 0x010 => on fun t => { t with tvec := v.setWidth 32 &&& 0xFFFFFFF9 }
  | 0x011 => on fun t => { t with epc := v.setWidth 32 &&& 0xFFFFFFF8 }
  | 0x012 => on fun t => { t with epw := v.setWidth 32 }
  | 0x013 => on fun t => { t with fault := v.setWidth 24 &&& 0xFF0FFF }
  | 0x014 => on fun t => { t with finfo := v }
  | 0x015 => on fun t => { t with tscr0 := v }
  | 0x016 => on fun t => { t with tscr1 := v }
  | n =>
    if 0x40 ≤ n ∧ n < 0x80 ∧ s.beforeBell ∧ homingOk (v &&& homingMask) then
      { s with p := s.p.setHoming (n - 0x40) (v &&& homingMask) }
    else s

/-- R114: a result reaches its register, a push its stream, a `cwr` its control register. -/
def execRegisterResultLands (uid born : Nat) (w : RegWrite) (s : State) : Res :=
  let s := s.focusThread uid
  if s.cur.uid ≠ uid then .next s else
  match w with
  | .push sq pos val mask => .next (s.sendPush sq pos val mask)
  | .creg num v => .next (s.setCreg num v)
  | w => .next { s with cur := (s.cur.landWrite w).noteLanded s.now born w }

/-! Control registers (R398). -/

/-- Table 8.13. -/
def Thread.sstat (t : Thread) : Word :=
  t.streams.toList.zipIdx.foldl (fun (w : Word) (st, i) =>
    let b (x : Bool) (k : Nat) : Word := if x then 1#64 <<< (k + i) else 0
    w ||| b st.bound 0 ||| b (st.bound && st.push) 4 ||| b (st.bound && st.port) 8 ||| b st.exh 12) 0

/-- Table 5.5. -/
def State.kmode (s : State) (t : Thread) : Word :=
  BitVec.ofNat 64 ((if s.det then 1 else 0) + 2 * s.p.run.tcmode + 8 * t.bound.toNat)

/-- Table 5.7. -/
def State.kroll (s : State) : Word :=
  let r := Tab.getD ⟨0, false, 0⟩ s.cur.loc.core (s.cluster s.cur.loc.cluster).rolls
  BitVec.ofNat 64 (s.p.run.interval % 65536 + 65536 * (r.count / s.p.run.d % 2 ^ 24))

/-- Table 17.8: the value of a control register, none for a number that is not listed. -/
def State.creg (s : State) (n : Nat) : Option Word :=
  match n with
  | 0x000 => some (s.kmode s.cur)
  | 0x001 => some s.cur.geom
  | 0x002 => some s.kroll
  | 0x003 => some s.cur.rkey
  | 0x004 => some (s.cur.rctrSeen.setWidth 64)
  | 0x005 => some (s.cur.amax.setWidth 64)
  | 0x006 => some s.cur.srnd
  | 0x007 => some s.cur.sstat
  | 0x008 => some (s.cur.asid.setWidth 64)
  | 0x009 => some (s.cluster s.cur.loc.cluster).gov.word
  | 0x00A => some ((s.cluster s.cur.loc.cluster).notice.setWidth 64)
  | 0x010 => some (s.cur.tvec.setWidth 64)
  | 0x011 => some (s.cur.epc.setWidth 64)
  | 0x012 => some (s.cur.epw.setWidth 64)
  | 0x013 => some (s.cur.fault.setWidth 64)
  | 0x014 => some s.cur.finfo
  | 0x015 => some s.cur.tscr0
  | 0x016 => some s.cur.tscr1
  | n => if 0x40 ≤ n ∧ n < 0x80 then some (s.p.homing.toList.getD (n - 0x40) 0) else none

/-- R398 -/
def execCrd (g : Guard) (d : BitVec 5) (imm : BitVec 32) (s : State) : Res :=
  match s.creg (imm.toNat % 4096) with
  | none => .next (s.raise 2 s.cur.pc)
  | some v => .next (if s.guard g then s.landA 4 d v else s)

/-- R398, R365: a write lands after 4; one of `k.gov` is checked at issue. -/
def execCwr (g : Guard) (rs : BitVec 5) (imm : BitVec 32) (s : State) : Res :=
  let n := imm.toNat % 4096
  match s.creg n with
  | none => .next (s.raise 2 s.cur.pc)
  | some _ =>
    if !s.guard g then .next s else
    let v := s.ra rs
    if n = 0x009 ∧ field v 55 0 ≠ 0 then
      match s.govTable s.cur.loc.cluster v with
      | none => .next (s.raise 4 v)
      | some t => if s.govOk s.cur.loc.cluster t then .next (s.land 4 (.creg n v)) else .next (s.raise 4 v)
    else .next (s.land 4 (.creg n v))

/-! Traps (R393-R397). -/

/-- R397: the trap is taken after the bundle retires. -/
def execTrap (g : Guard) (imm : BitVec 32) (s : State) : Res :=
  .next (if s.guard g then s.raise 9 (BitVec.ofNat 64 (imm.toNat % 65536)) else s)

/-- R397: returns from the handler; in a recitation group the leader's decides. -/
def execRtt (g : Guard) (s : State) : Res :=
  if !s.transferGuard g then .next s
  else if !s.cur.trapActive then .next (s.raise 2 s.cur.pc)
  else .next { s with cur := { s.cur.leaveTrap with pc := s.cur.pc }, goto := some s.cur.leaveTrap.pc }

/-- Kinds 8 and 9 are raised after their bundle has retired (R394). -/
def Raised.after (r : Raised) : Bool := r.kind == 8 || r.kind == 9

/-- The fault a thread is to enter its handler with. -/
def State.raisedBy (s : State) (u : Nat) : Option Raised := (s.findThread u).bind (·.raised)

/-- R98: members of the acting thread's recitation group that have executed the leader's current bundle, by member; where a
late fault stops the leader, of the bundle it is about to issue. -/
def State.doneMask (s : State) : BitVec 8 :=
  match s.findThread (s.cur.group.headD 0) with
  | none => 0
  | some l =>
    if l.raised.any (·.late) then l.done else
    s.cur.group.zipIdx.foldl (fun (m : BitVec 8) (u, i) =>
      match s.findThread u with
      | some t => if (match t.raised with | some r => r.after | none => true) && decide (l.lastIssue ≤ t.lastIssue) then m ||| (1#8 <<< i) else m
      | none => m) 0

/-- Whether a thread's current bundle, or a wait of it, is still under way. -/
def Thread.midBundle (t : Thread) : Bool :=
  match t.status with
  | .access _ => true
  | .listed => true
  | .waiting _ => true
  | .napping => true
  | .migrating => true
  | _ => false

/-- R98: the fault that names the bundle a group stops at: one that keeps its bundle from later members, else any. -/
def State.namingFault (s : State) (r : Raised) : Raised :=
  (s.cur.group.findSome? fun u => (s.raisedBy u).filter fun (x : Raised) => !x.after).getD r

/-- R117, R394: whether another member of the acting thread's group keeps the group from its handler. -/
def State.groupBusy (s : State) (r : Raised) : Bool :=
  s.cur.group.any fun u => match s.findThread u with
    | some t => u != s.cur.uid && (t.midBundle || !t.relaxed.isEmpty || decide (s.now < s.landsBy u)
        || ((s.namingFault r).after && t.fwd.isSome))
    | none => false

/-- R394, R395: every member of a recitation group enters with the one that faulted: kind 10 and info 0 for those that did
not, one done mask, the leader's handler. The leader issues next. -/
def State.groupTrap (s : State) (r : Raised) : State :=
  let r := s.namingFault r
  let m := if r.after then 0 else s.doneMask
  let other : Raised := { r with kind := 10, slot := 0, info := 0, late := false, more := false }
  let mine (u : Nat) : Raised := match s.raisedBy u with
    | some x => { x with pc := r.pc, tvec := r.tvec }
    | none => other
  let s := s.cur.group.foldl (fun s u => s.onThread u fun t =>
    { t.enterTrap (mine u) m with fwd := none, done := 0, slotAt := 0 }) s
  let s := s.storeThread.focusThread (s.cur.group.headD 0)
  if s.cur.recite = 1 then s.rejoin s.now else s

/-- R394, R395, R98: trap entry, once what is on its way has landed; an unhandled fault goes on record. -/
def execTrapEntry (uid : Nat) (s : State) : Res :=
  let s := s.focusThread uid
  if s.cur.uid ≠ uid ∨ s.cur.status ≠ .trapping then .next s else
  match s.cur.raised with
  | none => .next s
  | some r =>
    if !r.handled then .next (if r.told then s else s.threadFault r)
    else if s.now < s.landsBy uid then .next (s.dueAt (s.landsBy uid) (rankIssue - 10) (.ev (.trapEntry uid)))
    else if s.lateAlone then .next (s.dueIn 0 (rankIssue + 90000) (.lateFault uid 0 0 s.cur.lateMiss))
    else if !s.cur.relaxed.isEmpty then .next (s.dueIn 1 (rankIssue - 10) (.trapEntry uid))
    else if s.cur.recite = 0 then .next (({ s with cur := s.cur.enterTrap r 0 } : State).scheduleIssue s.now)
    else if s.groupBusy r then .next (s.dueIn 1 (rankIssue - 10) (.trapEntry uid))
    else .next (s.groupTrap r)

/-! Address spaces (R314, R315, R399). -/

/-- R399: the ASID of a register, if it is one. -/
def asidOf (a : Word) : Option (BitVec 12) := if field a 63 12 = 0 then some (a.setWidth 12) else none

/-- R399: in force for the next bundle. -/
def execAsidBind (g : Guard) (rs : BitVec 5) (s : State) : Res :=
  if !s.guard g then .next s else
  match asidOf (s.ra rs) with
  | none => .next (s.raise 4 (s.ra rs))
  | some a =>
    if s.p.retiring.any fun r => r.1 == a.toNat then .next (s.raise 3 (0x1000 + a.setWidth 64))
    else .next { s with cur := { s.cur with asid := a } }

/-- R315, R399: starts the retirement of an ASID, or joins one under way; the acknowledgement ends the wait. In throughput
mode the clearing falls between 200 d cycles and the acknowledgement. -/
def execAsidDrop (g : Guard) (d rs : BitVec 5) (s : State) : Res :=
  if !s.guard g then .next s else
  match asidOf (s.ra rs) with
  | none => .next (s.raise 4 (s.ra rs))
  | some a =>
    let wait (s : State) : State := { s with cur := { s.cur with status := .waiting .asidDrop } }
    match s.p.retiring.find? fun r => r.1 == a.toNat with
    | some (_, ack) =>
      .next (wait (s.dueAt (max ack (s.now + 1)) (rankDone + 1) (.ev (.asidDropAck s.p.first a.toNat s.cur.uid d.toNat false))))
    | none =>
      let (t, s) := s.elapse 400
      let low := 200 * s.dil
      let (late, s) := if s.det then (0, s) else s.draw (t - low)
      let clear := low + late
      let s := { s with p := { s.p with retiring := (a.toNat, s.now + t) :: s.p.retiring } }
      let s := s.dueIn clear rankLand (.asidClear s.p.first a.toNat)
      .next (wait (s.dueIn t rankDone (.asidDropAck s.p.first a.toNat s.cur.uid d.toNat true)))

/-- R315: an entry that holds the ASID loses its v. -/
def TransEntry.dropAsid (asid : Nat) (e : TransEntry) : TransEntry :=
  if field e.w0 51 40 = asid then { e with w0 := e.w0 &&& ~~~(1#64 <<< 53) } else e

/-- R315: every interface clears the entries of the ASID in one cycle. -/
def execAsidClear (first asid : Nat) (s : State) : Res :=
  let s := s.focusPart first
  if s.p.first ≠ first then .next s else
  .next { s with p := { s.p with
    oldStores := s.p.oldStores.map fun (k, l) => (k, l.map (TransEntry.dropAsid asid))
    clusters := s.p.clusters.map fun (k, c) => (k, { c with store := c.store.map (TransEntry.dropAsid asid) }) } }

/-- R315, R399: the last interface has acknowledged: the ASID is live again and the thread goes on with its result. -/
def execAsidDropAck (first asid uid d : Nat) (started : Bool) (s : State) : Res :=
  let s := s.focusPart first
  let s := if started && s.p.first == first then
    { s with p := { s.p with retiring := s.p.retiring.filter (·.1 ≠ asid) } } else s
  let s := s.focusThread uid
  if s.cur.uid ≠ uid ∨ s.cur.status ≠ .waiting .asidDrop then .next s
  else .next (({ s with cur := s.cur.setReg d (if started then 1 else 0) } : State).rejoin s.now)

end Sys2Proof.Machine
end

