-- ==== Sys2Proof/Machine/Translation.lean ====
section
/-! DEFINITION. Migration, translation misses, the wait lists of the fault-service store and the fault ring (R308-R327,
R402). -/

namespace Sys2Proof.Machine

/-! The fault ring (R323). -/

/-- Writes waiting records while the ring has room; MSI-X vector 1 of PF 0 where it turns non-empty. -/
def ringFlush (s : State) : List (List Word) → State
  | [] => { s with ringWait := [] }
  | w :: r =>
    if (s.ringProd - s.ringCons).toNat = 4096 then { s with ringWait := w :: r } else
    let empty : Bool := s.ringProd == s.ringCons
    let s := { s with ring := Tab.put (s.ringProd.toNat % 4096) w s.ring, ringProd := s.ringProd + 1 }
    ringFlush (if empty then s.emit (.msix 64 1) else s) r

def State.ringWrite (s : State) (w : List Word) : State := ringFlush s (s.ringWait ++ [w])

/-- Table 13.5, Table 17.9: a record. -/
def faultRecord (va why asid home first slot quad tick : Nat) : List Word :=
  [BitVec.ofNat 64 (va % 2 ^ 56 + why * 2 ^ 56),
   BitVec.ofNat 64 (asid + home * 2 ^ 12 + first * 2 ^ 18 + slot * 2 ^ 24 + quad * 2 ^ 36),
   BitVec.ofNat 64 tick, 0]

/-- R402: a report of the focused partition (Table 17.9). -/
def State.report (s : State) (kind va home : Nat) : State :=
  let why := if kind = 22 ∨ kind = 24 then 2 else 3
  let slot := if kind = 24 ∨ kind = 25 then 0xFFF else 0
  s.ringWrite (faultRecord va why 0 home s.p.first slot 0 s.tick)

/-- R323: the consumer index; one ahead of the producer, or too far behind, is dropped. -/
def execFaultRingConsumerWrite (v : Word) (s : State) : Res :=
  let c : BitVec 32 := v.setWidth 32
  if 4096 < (s.ringProd - c).toNat then .next s
  else .next (ringFlush { s with ringCons := c } s.ringWait)

/-! Parking (R322, R323). -/

/-- The lowest free entry of the focused partition's wait list. -/
def State.freeEntry (s : State) : Option Nat :=
  (List.range (64 * s.p.units)).find? fun n => (Tab.find n s.p.waits).isNone

/-- Home cluster of an address, as a number for records. -/
def State.homeNow (s : State) (va : Word) : Nat :=
  match s.p.home (field va 45 0) with
  | some (_, h) => h
  | none => 0

/-- R323: the acting thread stands parked in entry n: its count and its record. -/
def State.parkHere (s : State) (n : Nat) : State :=
  match Tab.find n s.p.waits with
  | none => s
  | some e =>
    let s := { s with
      cur := { s.cur with status := .parked n }
      p := { s.p with waits := Tab.put n { e with here := true } s.p.waits } }
    (s.count 13).ringWrite (faultRecord e.va.toNat e.why e.asid.toNat e.home s.p.first n e.quad.toNat s.tick)

/-- Die of a cluster (R57). -/
def dieOf (cluster : Nat) : Nat := cluster / 12

/-- The acting thread's packet leaves for a cluster, or for the fault-service store (R317, R323). Arrivals of one cycle
stand in order of source (R318). -/
def State.sendPacket (s : State) (goal from_ key : Nat) : State :=
  let (t, s) := s.elapse (if goal = serviceStore then 140 else if dieOf goal = dieOf from_ then 84 else 140)
  let s := { s with cur := { s.cur with status := .migrating, goal := goal } }
  s.dueIn t (rankQueue + key) (.migrationArrival s.cur.uid false)

/-- R322, R323: the acting thread, whose access `missed` found no translation, takes a wait-list entry: a roaming thread
travels to the store, any other stays; where the list is full it waits for the first entry that frees. -/
def State.park (s : State) (a : Acc) : State :=
  let s := { s with cur := { s.cur with missed := some a } }
  match s.freeEntry with
  | none => { s with
      cur := { s.cur with status := .unlisted }
      p := { s.p with unlisted := s.p.unlisted ++ [s.cur.uid] } }
  | some n =>
    let transit : Bool := s.cur.loc.core == 8
    let roam := transit || (s.roams && !a.rlx && a.op != .writeBack && s.cur.relaxed.isEmpty)
    let e : WaitEntry := {
      uid := s.cur.uid
      here := false
      act := 0
      why := a.res.toNat
      va := BitVec.ofNat 64 (field a.va 55 0)
      home := s.homeNow a.va
      asid := a.asid
      quad := a.quad
      roaming := roam }
    let s := { s with p := { s.p with waits := Tab.put n e s.p.waits } }
    if !roam then s.parkHere n
    else if transit then s.sendPacket serviceStore s.cur.loc.cluster 0
    else s.migrate serviceStore a

/-- R323: an entry frees: the first thread that waits for one takes it. -/
def State.freeWait (s : State) (n : Nat) : State :=
  let s := { s with p := { s.p with waits := Tab.drop n s.p.waits } }
  match s.p.unlisted with
  | [] => s
  | u :: r =>
    let s := { s with p := { s.p with unlisted := r } }
    let me := s.cur.uid
    let s := s.focusThread u
    let s := match s.cur.missed with
      | some a => if s.cur.uid == u && s.cur.status == Status.unlisted then s.park a else s
      | none => s
    s.focusThread me

/-! Sending and arriving (R317-R320). -/

/-- What lands only in a vector or mask register. -/
def vectorLanding (uid : Nat) (i : Item) : Bool :=
  match i.what with
  | .ev (.registerResultLands u _ (.v _ _ _)) => u == uid
  | .ev (.registerResultLands u _ (.vm _ _ _)) => u == uid
  | _ => false

/-- R317 step 3, R319: what the packet carries stays; vector state is lost, statuses of jobs are dropped. -/
def Thread.packed (t : Thread) (cluster : Nat) : Thread :=
  { t with
    loc := noContext cluster
    v := Vector.replicate 128 0
    vm := Vector.replicate 8 0
    pw := t.pw ||| 0x00020000
    jobs := []
    heldV := [] }

/-- R318: whether one more packet would be the ninth to wait at a cluster's interface: of those there and on their way,
each free context takes one. -/
def State.crowded (s : State) (cluster : Nat) : Bool :=
  let n := ((s.cur :: s.threads).filter fun t =>
    t.part == s.p.first && t.status == .migrating && t.loc.core == 8 && t.goal == cluster).length
  decide (8 + (s.freeContexts cluster).length ≤ n)

/-- R317 steps 3 and 4, R318: the packet is sent once nothing of the thread is on its way; a ninth waits, and leaves in
the cycle after a place frees. -/
def execMigrationSend (uid : Nat) (s : State) : Res :=
  let s := s.focusThread uid
  if s.cur.uid ≠ uid ∨ s.cur.status ≠ .migrating ∨ s.cur.loc.core = 8 then .next s
  else if s.lateAlone then .next ((({ s with cur := { s.cur with missed := none } } : State).giveUp .drain).scheduleIssue s.now)
  else if !s.cur.relaxed.isEmpty then .next (s.dueIn 1 (rankIssue + 20000) (.migrationSend uid))
  else if s.cur.goal ≠ serviceStore ∧ s.crowded s.cur.goal then .next (s.dueIn 1 rankDone (.migrationSend uid))
  else
    let l := s.cur.loc
    let s := { s with
      agenda := s.agenda.filter fun i => !vectorLanding uid i
      cur := s.cur.packed l.cluster }
    let s := s.count 12
    let s := s.sendPacket s.cur.goal l.cluster l.key
    .next (s.contextFreed l.cluster)

/-- Whether an access counts as a write where it is translated (R310). -/
def accWrites : AccOp → Bool
  | .load => false
  | .watch => false
  | .ldf => false
  | _ => true

/-- R318: the thread at the head of a cluster's waiting packets takes the first free context: it issues its bundle again,
takes the fault it was sent with, or, with no entry for it in a full wait list, waits there for one (R323). -/
def State.placeThread (s : State) (l : Loc) : State :=
  match s.cur.missed with
  | none => s
  | some a =>
    let s := ({ s with cur := { s.cur with loc := l, missed := none, status := .ready } } : State).lendFrom l s.now
    if a.bad = 0 then s.rejoin s.now
    else if a.bad < 32 then s.faultAccess a.bad a.va
    else s.park { a with bad := 0 }

/-- R308, R322, R327: the access of a packet that has reached its home is translated, once. It is kept for the bundle's next
issue, and counted; a miss goes on to the fault-service store, if the wait list has an entry. Whether the packet stays. -/
def State.translateArrival (s : State) (cluster : Nat) : Bool × State :=
  match s.cur.missed with
  | none => (true, s)
  | some a =>
    let off := field a.va 45 0
    if a.bad ≠ 0 then (true, s)
    else match s.p.translate off a.asid.toNat (accWrites a.op) with
      | .ok phys =>
        (true, { s.countHot off a.asid.toNat a.quad with cur := { s.cur with xlat := some (a.va, phys) } })
      | .error why =>
        let a := { a with res := BitVec.ofNat 64 why }
        if s.freeEntry.isNone then (true, { s with cur := { s.cur with missed := some { a with bad := 32 } } })
        else (false, ({ s with cur := { s.cur with loc := noContext cluster } } : State).park a)

/-- R318: waiting packets take contexts in arrival order; the queue head looks for another (R75). -/
def serveArrivals (cluster : Nat) : Nat → State → State
  | 0, s => s
  | n + 1, s =>
    match (s.cluster cluster).arrived, s.freeContexts cluster with
    | u :: r, l :: _ =>
      let s := s.onCluster cluster fun c => { c with arrived := r }
      let s := s.focusThread u
      serveArrivals cluster n (if s.cur.uid = u then (s.placeThread l).lookAtHead cluster else s)
    | _, _ => s

/-- R320, R402: a packet with an uncorrectable word ends its thread: a report with its home cluster, and `k.notice` of the
cluster it was sent to; the wait-list entry it had taken frees. -/
def State.loseThread (s : State) : State :=
  let t := s.cur
  let s := { s with cur := .rest }
  let lost (home : Nat) : State := s.report 24 (field t.geom 55 0) home
  let s := match s.p.waits.find? fun e => e.2.uid == t.uid with
    | some (n, e) => (lost e.home).freeWait n
    | none => (lost t.goal).onCluster t.goal fun c => { c with notice := c.notice ||| 0x200 }
  (s.unpin t.pins).mayRetire

/-- R318, R320, R323: a packet arrives, or a context frees for one that waits. -/
def execMigrationArrival (uid : Nat) (corrupt : Bool) (s : State) : Res :=
  let s := s.focusThread uid
  if s.cur.uid ≠ uid ∨ s.cur.status ≠ .migrating ∨ s.cur.loc.core ≠ 8 then .next s
  else if corrupt then .next s.loseThread
  else if s.cur.goal = serviceStore then
    match s.p.waits.find? fun e => e.2.uid == uid with
    | some (n, _) => .next (s.parkHere n)
    | none => .next s
  else
    let cl := s.cur.goal
    let serve (s : State) : Res := .next (serveArrivals cl ((s.cluster cl).arrived.length) s)
    if (s.cluster cl).arrived.contains uid then serve s
    else match s.translateArrival cl with
      | (true, s) => serve (s.onCluster cl fun c => { c with arrived := c.arrived ++ [uid] })
      | (false, s) => .next s

/-! Late faults (R459). -/

/-- Of a thread's late faults and misses the earliest issued stays; the others are discarded, with `more` set. A miss
carries `more` in its `bad` field. -/
def Thread.noteLate (t : Thread) (r : Raised) : Thread :=
  match t.late, t.lateMiss with
  | some o, _ => if o.ord ≤ r.ord then { t with late := some { o with more := true } } else { t with late := some { r with more := true } }
  | none, some a =>
    if a.id ≤ r.ord then { t with lateMiss := some { a with bad := 1 } }
    else { t with lateMiss := none, late := some { r with more := true } }
  | none, none => { t with late := some r }

/-- A late miss, kept under the same rule. -/
def Thread.noteMiss (t : Thread) (a : Acc) : Thread :=
  match t.late, t.lateMiss with
  | some o, _ =>
    if o.ord ≤ a.id then { t with late := some { o with more := true } }
    else { t with late := none, lateMiss := some { a with bad := 1 } }
  | none, some m => { t with lateMiss := some { (if m.id ≤ a.id then m else a) with bad := 1 } }
  | none, none => { t with lateMiss := some a }

/-- The relaxed accesses that were discarded are over; a miss that stays is still outstanding. -/
def State.dropLate (s : State) (ids : List Nat) : State :=
  ids.foldl (fun s id =>
    if (match s.cur.lateMiss with | some m => m.id == id | none => false) then s else s.relaxedDone id) s

/-- R459: a thread that a bundle of its own keeps out of rotation, in a waiter list or a `nap`, stops at its next own slot
too. -/
def State.lateStops (s : State) : State :=
  if s.cur.status = .listed ∨ s.cur.status = .napping then s.scheduleIssue s.now else s

/-- R459: a fault of a relaxed access reaches the acting thread; without a handler the launch ends by it. -/
def State.lateBad (s : State) (a : Acc) (kind : Nat) : State :=
  let ok := s.decidingTvec.getLsbD 0 && !s.cur.trapActive
  let s := if kind = 7 then s.count 20 else s
  let r : Raised := { Raised.of kind 0 a.va s.cur.pc with late := true, ord := a.id, told := !ok }
  let s := if ok then s else s.threadFault r
  let old := s.cur.lateMiss.toList.map (·.id)
  let s := ({ s with cur := s.cur.noteLate r } : State).dropLate (a.id :: old)
  if ok then s.lateStops else s

/-- R459, R310: a relaxed access finds no translation. -/
def State.lateMissed (s : State) (a : Acc) : State :=
  let old := s.cur.lateMiss.toList.map (·.id)
  (({ s with cur := s.cur.noteMiss a } : State).dropLate (a.id :: old)).lateStops

/-- R459: the stop of a thread at a late fault or miss: a fault enters its handler, a miss parks it where it stands. -/
def execLateFault (uid kind : Nat) (info : Word) (miss : Option Acc) (s : State) : Res :=
  let s := s.focusThread uid
  if s.cur.uid ≠ uid then .next s else
  match miss with
  | some a => .next (({ s with cur := { s.cur with lateMiss := none } } : State).park a)
  | none =>
    let r := (s.cur.late).getD { Raised.of kind 0 info s.cur.pc with late := true }
    .next (({ s with cur := { s.cur with late := none } } : State).startTrap { r with pc := s.cur.pc })

/-! Resolving (R324, R325). -/

/-- The entry a resolve word names, if a thread is parked in it. -/
def State.entryOf (s : State) (slot : Nat) : Option WaitEntry :=
  match Tab.find slot s.p.waits with
  | some e => if e.here then some e else none
  | none => none

/-- R324: a parked access is sent again from the context its thread stands in. -/
def State.resend (s : State) (a : Acc) : State :=
  let a := { a with bad := 0, stage := 0, due := s.now + a.lat, res := 0 }
  let s := { s with cur := { s.cur with missed := none } }
  let key := rankEngine + s.cur.loc.key
  if a.rlx then
    let s := { s with cur := { s.cur with
      relaxed := s.cur.relaxed.map fun (x : Acc) => if x.id = a.id then a else x
      status := .waiting .drain } }
    (s.dueIn (a.lat / 2) key (.accessComplete s.cur.uid (.acc a))).scheduleIssue (s.now + 1)
  else
    let s := { s with cur := { s.cur with status := .access a.id } }
    match a.op with
    | .writeBack => (s.giveUp .drain).scheduleIssue (s.now + 1)
    | .load => s.dueIn (a.lat / 2) key (.accessComplete s.cur.uid (.acc a))
    | .store => s.dueIn (a.lat / 2) key (.accessComplete s.cur.uid (.acc a))
    | .watch => s.dueIn (a.lat / 2) key (.accessComplete s.cur.uid (.acc a))
    | _ => s.dueIn (a.lat / 2) (rankArrive + s.cur.loc.key) (.syncAccessArrives s.cur.uid a)

/-- R324: the park of an entry ends, with a retry or with an address fault. -/
def State.resolve (s : State) (slot : Nat) (retry : Bool) : State :=
  match s.entryOf slot with
  | none => s
  | some e =>
    let s := s.focusThread e.uid
    if s.cur.uid ≠ e.uid then s.freeWait slot else
    match s.cur.missed with
    | none => s.freeWait slot
    | some a =>
      let s := if e.roaming then
          let a := { a with bad := if retry then 0 else 4 }
          let (t, s) := s.elapse 140
          let s := { s with cur := { s.cur with status := .migrating, goal := s.homeNow a.va, missed := some a } }
          s.dueIn t (rankQueue + s.cur.loc.key) (.migrationArrival e.uid false)
        else if retry then s.resend a
        else
          let s := { s with cur := { s.cur with missed := none } }
          if a.rlx then
            let s := { s with cur := { s.cur with relaxed := s.cur.relaxed.filter (·.id ≠ a.id) } }
            let r : Raised := { Raised.of 4 0 e.va s.cur.pc with late := true, more := a.bad != 0 }
            if s.cur.raised.isSome then ({ s with cur := { s.cur with late := some r } } : State).trapOn else s.startTrap r
          else s.faultAccess 4 e.va
      s.freeWait slot

/-- R325: while the partition is pre-empted a resolve waits for the restore; a request that still waits for its stop holds
nothing back. -/
def State.resolveOrKeep (s : State) (slot first : Nat) (retry : Bool) : State :=
  let s := s.focusPart first
  if s.p.first ≠ first then s
  else if !s.p.paused then s.resolve slot retry
  else match s.entryOf slot with
    | none => s
    | some e => { s with p := { s.p with waits := Tab.put slot { e with act := if retry then 1 else 2 } s.p.waits } }

/-- R324 action 1. -/
def execResolveRetry (slot first : Nat) (s : State) : Res := .next (s.resolveOrKeep slot first true)

/-- R324 action 2. -/
def execResolveFault (slot first : Nat) (s : State) : Res := .next (s.resolveOrKeep slot first false)

end Sys2Proof.Machine
end

