-- ==== Sys2Proof/Machine/Loads.lean ====
section
/-! DEFINITION. Loads and stores of threads, and where an access performs and completes (R262-R265, R330, R459). -/

namespace Sys2Proof.Machine

/-- What an access found where it performed. -/
inductive Perf where
  | ok (v : Word)
  /-- a fault kind, at the access's address -/
  | bad (kind : Nat)
  /-- no translation: why of Table 13.5 -/
  | miss (why : Nat)
  /-- the port of its bank is taken until a core cycle -/
  | later (cycle : Nat)
  /-- it waits at its channel (R250) -/
  | queued
  deriving DecidableEq, Repr

/-- R263: a load or store of a thread at the flat address of its word; a `watch` arms the monitor at this instant
(R356). -/
def State.performAt (s : State) (a : Acc) (flat : Nat) : State × Perf :=
  match s.loadStore a flat with
  | (s, .error (k, _)) => (s, .bad k)
  | (s, .ok v) =>
    if a.op = .watch then
      ({ s with cur := { s.cur with monitor := { armed := true, seen := false, addr := a.va, flat := flat } } }, .ok v)
    else (s, .ok v)

/-- R308: an access is translated as it arrives at its home, one whose thread migrated for it as its packet did. -/
def State.translated (s : State) (a : Acc) (off : Nat) : Except Nat Nat :=
  match a.phys with
  | some p => .ok p
  | none => s.p.translate off a.asid.toNat (accWrites a.op)

/-- R310, R327, R32, R250: an access at its home: translated, counted where it comes from another cluster, a store checked
against the region table, and served in a position of its channel. -/
def State.performHbm (s : State) (a : Acc) (off : Nat) : State × Perf :=
  match s.translated a off with
  | .error why => (s, .miss why)
  | .ok phys =>
    let s := if a.remote then s.countHot off a.asid.toNat a.quad else s
    if a.op = .store && !s.p.hbmOpen off a.bytes 7 then (s, .bad 6)
    else match s.channelTurn phys (.accessComplete s.cur.uid (.acc { a with phys := some phys, remote := false })) with
      | (true, s) => (s.count 19).performAt a phys
      | (false, s) => (s, .queued)

/-- The first core cycle of the focused partition's next logical tick. -/
def State.nextTick (s : State) : Nat :=
  let d := s.p.run.d
  let t := s.tick - s.p.run.runBase
  s.cycleOfTick (s.p.run.runBase + (t / d + 1) * d)

/-- R3, R32, R212, R244: a packet-plane access of a tile's tensor SRAM: inside an open clearing, a store in a region of
writer 7, in a logical tick in which its bank's common port is free of timed words. -/
def State.performSram (s : State) (a : Acc) (ltile byte : Nat) : State × Perf :=
  if !s.clearingCovers ltile byte a.bytes (if a.op = .store then some 7 else none) then (s, .bad 6)
  else if s.portBusy ltile byte then (s, .later s.nextTick)
  else s.performAt a (flatSram s.p.first ltile byte)

/-- Where an access performs (Table 11.1). A peer's reply brings its own outcome. -/
def State.perform (s : State) (a : Acc) : State × Perf :=
  match s.route a.va a.bytes with
  | .error k => (s, .bad k)
  | .ok (.loc cl co b) => s.performAt a (flatLocal cl co b)
  | .ok (.hbm _ off) => s.performHbm a off
  | .ok (.host off) => s.performAt a (flatHost (s.p.hostBase.toNat + off))
  | .ok (.sram t b) => s.performSram a t b
  | .ok (.counters b) => (s, .ok (loadValue a.sx a.bytes (s.p.counterBytes b a.bytes)))
  | .ok (.board _ _) => (s, .bad 4)
  | .ok (.peer _) => (s, .ok 0)

/-- Whether an access is still one of the acting thread's. -/
def State.liveAccess (s : State) (a : Acc) : Bool :=
  s.cur.status == .access a.id || s.cur.relaxed.any (·.id == a.id)

/-- Whether an operation writes its destination register. -/
def accReads : AccOp → Bool
  | .store => false
  | .stf => false
  | .ste => false
  | .fill => false
  | .empty => false
  | .writeBack => false
  | _ => true

/-- An access in progress comes back in some cycles. -/
def State.againIn (s : State) (delay : Nat) (a : Acc) : State :=
  s.dueIn delay rankDone (.accessComplete s.cur.uid (.acc a))

/-- What an access found where it performed, as it carries it back. -/
def accFound (a : Acc) : Perf → Acc
  | .ok v => { a with stage := 1, res := v }
  | .bad k => { a with stage := 1, bad := k }
  | .miss why => { a with stage := 1, bad := 32 + why }
  | .later _ => a
  | .queued => a

/-- And what it brings. -/
def accBrings (a : Acc) : Perf :=
  if a.bad = 0 then .ok a.res else if a.bad < 32 then .bad a.bad else .miss (a.bad - 32)

/-- An access of the acting thread has been served and completes (R330, R347), not before its own time (R264). -/
def State.comeBack (s : State) (a : Acc) (r : Perf) : State :=
  s.againIn (max (a.lat - a.lat / 2) (a.due - s.now)) (accFound a r)

/-- Whether an enqueue of a thread is still to be accepted (R354, R355). -/
def State.enqueuing (s : State) (uid : Nat) : Bool :=
  (s.agenda.any fun i => match i.what with
    | .ev (.enqueueReachesQueue e) => e.src == .thread uid
    | _ => false)
  || s.p.clusters.any fun e => e.2.queue.waiting.any fun w => w.2 == some uid

/-- An access of the acting thread completes with value v: the register, retirement, and rotation again (R110, R116,
R354). -/
def State.completeAccess (s : State) (a : Acc) (v : Word) : State :=
  let s := if a.rlx then s else s.landEarlier
  let s := if !accReads a.op then s
    else if a.rlx then { s with cur := s.cur.landLoad s.now a.born a.d v }
    else { s with cur := s.cur.setReg a.d v }
  let s := if a.op = .semGive && v.extractLsb' 0 32 == 0xFFFFFFFF#32
    then { s with cur := { s.cur with pw := s.cur.pw ||| 0x04000000 } } else s
  if a.rlx then s.relaxedDone a.id
  else
    let s := s.retire.releaseHeld
    if a.op = .dctr && s.enqueuing s.cur.uid then { s with cur := { s.cur with status := .waiting .enqueue } }
    else s.rejoin s.now

/-- R263, R310, R459: the end of an access, by what it found. A plain access that found no translation waits for the
relaxed accesses before it and then parks (R322). -/
def State.endAccess (s : State) (a : Acc) : Perf → State
  | .ok v => s.completeAccess a v
  | .bad k => if a.rlx then s.lateBad a k else s.faultAccess k a.va
  | .later _ => s
  | .queued => s
  | .miss why =>
    let a := { a with res := BitVec.ofNat 64 why, bad := 0, stage := 0 }
    if a.rlx then (if s.cur.status = .waiting .drain then s.park a else s.lateMissed a)
    else if s.cur.relaxed.isEmpty then s.park a
    else s.againIn 1 { a with stage := 3 }

/-- An access that found no translation and waits for earlier relaxed ones; a late fault gives its bundle up (R459). -/
def State.missedAccess (s : State) (a : Acc) : State :=
  if s.cur.late.isSome || s.cur.lateMiss.isSome then
    (s.giveUp .drain).scheduleIssue (s.now + 1)
  else if s.cur.relaxed.isEmpty then s.park a
  else s.againIn 1 a

/-- R264, R332: the cycle in which an earlier relaxed access of the acting thread to the word, which waits for its port,
is to perform (tensor SRAM); none where there is none. -/
def State.waitsBehind (s : State) (a : Acc) : Option Nat :=
  s.agenda.findSome? fun i => match i.what with
    | .ev (.accessComplete u (.acc b)) =>
      if u = s.cur.uid ∧ b.stage = 0 ∧ b.id < a.id ∧ b.va.toNat / 8 = a.va.toNat / 8 then some i.cycle else none
    | _ => none

/-- R116, R330: an access of the acting thread at its instant, where it performs, or at its completion; a relaxed store to a
peer has left (R345). -/
def State.arriveAccess (s : State) (a : Acc) : State :=
  let later (s : State) (c : Nat) : State := s.dueAt c (rankEngine + s.cur.loc.key) (.ev (.accessComplete s.cur.uid (.acc a)))
  if !s.liveAccess a then s
  else if a.stage = 3 then s.missedAccess a
  else if a.stage = 1 then s.endAccess a (accBrings a)
  else match s.route a.va a.bytes with
    | .ok (.peer _) => s.relaxedDone a.id
    | .ok (.sram _ _) =>
      match s.waitsBehind a with
      | some c => later s c
      | none =>
        let (s, r) := s.perform a
        match r with
        | .later c => later s c
        | r => s.comeBack a r
    | _ =>
      let (s, r) := s.perform a
      match r with
      | .queued => s
      | r => s.comeBack a r

/-- R404: a host-space load that gets no completion ends with a data-poison fault. -/
def execHostTimeout (uid id : Nat) (s : State) : Res :=
  let s := s.focusThread uid
  if s.cur.uid ≠ uid ∨ uid = 0 then .next s else
  let mine := s.agenda.findSome? fun i => match i.what with
    | .ev (.accessComplete u (.acc a)) => if u = uid ∧ a.id = id then some a else none
    | _ => none
  match mine with
  | none => .next s
  | some a =>
    match s.route a.va a.bytes with
    | .ok (.host _) =>
      if a.op = .store ∨ !s.liveAccess a then .next s
      else
        let s := { s with agenda := s.agenda.filter fun i => i.what != Task.ev (.accessComplete uid (.acc a)) }
        .next (s.endAccess a (.bad 7))
    | _ => .next s

/-- R389: the cycle in which the reply to a request to a peer is due in deterministic mode. -/
def State.replyDue (s : State) (a : Acc) : Nat :=
  if a.rlx && a.op == .store then a.due + (4 * s.peerLat + 196) * s.dil else a.due

/-- R356: the flat address that stands for a word of a peer, which no access here reaches. -/
def flatPeer : Nat := 2 ^ 65

/-- R313, R389: a reply of a peer to a request of the acting thread that is not late: what it brings is the end of the
access, or, for a relaxed store, its acknowledgement. -/
def State.takeReply (s : State) (a : Acc) (v : Option Word) (bad : Nat) : State :=
  if a.rlx && a.op == .store then (if bad = 0 then s.wakeListed else s.lateBad a bad)
  else if !s.liveAccess a then s
  else
    let s := if a.op = .watch ∧ bad = 0 ∧ v.isSome then
        { s with cur := { s.cur with monitor := { armed := true, seen := false, addr := a.va, flat := flatPeer } } }
      else s
    s.endAccess a (if bad ≠ 0 then .bad bad else match v with
      | some v => .ok (if a.op = .store then 0 else loadValue a.sx a.bytes (v.toNat % 2 ^ (8 * a.bytes)))
      | none => .bad 7)

/-! The instructions (R263). -/

/-- R263: the address of the register form. -/
def State.indexed (s : State) (rs t : BitVec 5) : Word := s.ra rs + s.ra t

/-- R263 -/
def execLd (g : Guard) (d rs t : BitVec 5) (fn : BitVec 4) (s : State) : Res :=
  .next (if s.guard g then s.access .load (s.indexed rs t) (fnBytes fn) (fnSigned fn) d.toNat 0 (fnRelaxed fn) else s)

/-- R263 -/
def execSt (g : Guard) (d rs t : BitVec 5) (fn : BitVec 4) (s : State) : Res :=
  .next (if s.guard g then s.access .store (s.indexed rs t) (fnBytes fn) false 24 (s.ra d) (fnRelaxed fn) else s)

/-- R263: x[4] is rlx, x[3] sx, f the size. -/
def execLdl (g : Guard) (d rs x : BitVec 5) (f : BitVec 2) (imm : BitVec 32) (s : State) : Res :=
  .next (if s.guard g then
    s.access .load (s.ra rs + imm32s imm) (2 ^ f.toNat) (x.getLsbD 3) d.toNat 0 (x.getLsbD 4) else s)

/-- R263 -/
def execStl (g : Guard) (d rs x : BitVec 5) (f : BitVec 2) (imm : BitVec 32) (s : State) : Res :=
  .next (if s.guard g then
    s.access .store (s.ra rs + imm32s imm) (2 ^ f.toNat) false 24 (s.ra d) (x.getLsbD 4) else s)

end Sys2Proof.Machine
end

