-- ==== Sys2Proof/Machine/Scalar.lean ====
section
/-! DEFINITION. Scalar, compare, predicate, control and random instructions (07). -/

namespace Sys2Proof.Machine

/-- A register-form operation with a scalar result: guard, operands as they stand, landing after `lat` (R80, R114,
R153). -/
def scalarOp (lat : Nat) (g : Guard) (d : BitVec 5) (v : State → Word) (s : State) : Res :=
  .next (if s.guard g then s.landA lat d (v s) else s)

/-- A compare or predicate operation: the result goes to a predicate (R159, R162). -/
def predOp (g : Guard) (d : BitVec 5) (v : State → Bool) (s : State) : Res :=
  .next (if s.guard g then s.landP 2 d.toNat (v s) else s)

/-- R83, R153: no effect. -/
def execNop (_g : Guard) (s : State) : Res := .next s

/-- R153: A + (B << fn). -/
def execAdd (g : Guard) (d rs t : BitVec 5) (fn : BitVec 4) (s : State) : Res :=
  scalarOp 2 g d (fun s => s.ra rs + (s.ra t <<< fn.toNat)) s

/-- R153: A − (B << fn). -/
def execSub (g : Guard) (d rs t : BitVec 5) (fn : BitVec 4) (s : State) : Res :=
  scalarOp 2 g d (fun s => s.ra rs - (s.ra t <<< fn.toNat)) s

/-- R153 -/
def execAnd (g : Guard) (d rs t : BitVec 5) (s : State) : Res := scalarOp 2 g d (fun s => s.ra rs &&& s.ra t) s

/-- R153 -/
def execOr (g : Guard) (d rs t : BitVec 5) (s : State) : Res := scalarOp 2 g d (fun s => s.ra rs ||| s.ra t) s

/-- R153 -/
def execXor (g : Guard) (d rs t : BitVec 5) (s : State) : Res := scalarOp 2 g d (fun s => s.ra rs ^^^ s.ra t) s

/-- R153 -/
def execAndn (g : Guard) (d rs t : BitVec 5) (s : State) : Res := scalarOp 2 g d (fun s => s.ra rs &&& ~~~(s.ra t)) s

/-- R154 -/
def execShl (g : Guard) (d rs t : BitVec 5) (s : State) : Res := scalarOp 2 g d (fun s => shlW (s.ra rs) (s.ra t)) s

/-- R154 -/
def execShr (g : Guard) (d rs t : BitVec 5) (s : State) : Res := scalarOp 2 g d (fun s => shrW (s.ra rs) (s.ra t)) s

/-- R154 -/
def execSar (g : Guard) (d rs t : BitVec 5) (s : State) : Res := scalarOp 2 g d (fun s => sarW (s.ra rs) (s.ra t)) s

/-- R153 -/
def execMul (g : Guard) (d rs t : BitVec 5) (s : State) : Res := scalarOp 4 g d (fun s => s.ra rs * s.ra t) s

/-- R153 -/
def execMulh (g : Guard) (d rs t : BitVec 5) (s : State) : Res := scalarOp 4 g d (fun s => mulhW (s.ra rs) (s.ra t)) s

/-- R153 -/
def execMulhw (g : Guard) (d rs t : BitVec 5) (s : State) : Res := scalarOp 4 g d (fun s => mulhuW (s.ra rs) (s.ra t)) s

/-- R153 -/
def execMin (g : Guard) (d rs t : BitVec 5) (s : State) : Res := scalarOp 2 g d (fun s => minS (s.ra rs) (s.ra t)) s

/-- R153 -/
def execMax (g : Guard) (d rs t : BitVec 5) (s : State) : Res := scalarOp 2 g d (fun s => maxS (s.ra rs) (s.ra t)) s

/-- R153 -/
def execMinw (g : Guard) (d rs t : BitVec 5) (s : State) : Res := scalarOp 2 g d (fun s => minU (s.ra rs) (s.ra t)) s

/-- R153 -/
def execMaxw (g : Guard) (d rs t : BitVec 5) (s : State) : Res := scalarOp 2 g d (fun s => maxU (s.ra rs) (s.ra t)) s

/-- R156 -/
def execDiv (g : Guard) (d rs t : BitVec 5) (s : State) : Res := scalarOp 36 g d (fun s => divW (s.ra rs) (s.ra t)) s

/-- R156 -/
def execDivw (g : Guard) (d rs t : BitVec 5) (s : State) : Res := scalarOp 36 g d (fun s => divuW (s.ra rs) (s.ra t)) s

/-- R156 -/
def execRem (g : Guard) (d rs t : BitVec 5) (s : State) : Res := scalarOp 36 g d (fun s => remW (s.ra rs) (s.ra t)) s

/-- R156 -/
def execRemw (g : Guard) (d rs t : BitVec 5) (s : State) : Res := scalarOp 36 g d (fun s => remuW (s.ra rs) (s.ra t)) s

/-- R155 -/
def execExt (g : Guard) (d rs t : BitVec 5) (s : State) : Res := scalarOp 2 g d (fun s => extW (s.ra rs) (s.ra t)) s

/-- R155 -/
def execExtw (g : Guard) (d rs t : BitVec 5) (s : State) : Res := scalarOp 2 g d (fun s => extuW (s.ra rs) (s.ra t)) s

/-- R154 -/
def execRol (g : Guard) (d rs t : BitVec 5) (s : State) : Res := scalarOp 2 g d (fun s => rolW (s.ra rs) (s.ra t)) s

/-- R154 -/
def execRor (g : Guard) (d rs t : BitVec 5) (s : State) : Res := scalarOp 2 g d (fun s => rorW (s.ra rs) (s.ra t)) s

/-- R153 -/
def execMov (g : Guard) (d rs : BitVec 5) (s : State) : Res := scalarOp 2 g d (fun s => s.ra rs) s

/-- R153 -/
def execClz (g : Guard) (d rs : BitVec 5) (s : State) : Res := scalarOp 2 g d (fun s => BitVec.ofNat 64 (clzN (s.ra rs) 64)) s

/-- R153 -/
def execPopc (g : Guard) (d rs : BitVec 5) (s : State) : Res := scalarOp 2 g d (fun s => BitVec.ofNat 64 (popcN (s.ra rs) 64)) s

/-- R153 -/
def execBswap (g : Guard) (d rs : BitVec 5) (s : State) : Res := scalarOp 2 g d (fun s => bswapW (s.ra rs)) s

/-- R153: A if predicate N is 1, else B. -/
def execSel (g : Guard) (d rs t : BitVec 5) (fn : BitVec 4) (s : State) : Res :=
  scalarOp 2 g d (fun s => if s.cur.pred fn.toNat then s.ra rs else s.ra t) s

/-- R157 -/
def execAddi (g : Guard) (d rs : BitVec 5) (imm : BitVec 9) (s : State) : Res := scalarOp 2 g d (fun s => s.ra rs + imm9 imm) s

/-- R157 -/
def execAndi (g : Guard) (d rs : BitVec 5) (imm : BitVec 9) (s : State) : Res := scalarOp 2 g d (fun s => s.ra rs &&& imm9 imm) s

/-- R157 -/
def execOri (g : Guard) (d rs : BitVec 5) (imm : BitVec 9) (s : State) : Res := scalarOp 2 g d (fun s => s.ra rs ||| imm9 imm) s

/-- R157 -/
def execXori (g : Guard) (d rs : BitVec 5) (imm : BitVec 9) (s : State) : Res := scalarOp 2 g d (fun s => s.ra rs ^^^ imm9 imm) s

/-- R157 -/
def execShli (g : Guard) (d rs : BitVec 5) (imm : BitVec 9) (s : State) : Res := scalarOp 2 g d (fun s => shlW (s.ra rs) (imm9 imm)) s

/-- R157 -/
def execShri (g : Guard) (d rs : BitVec 5) (imm : BitVec 9) (s : State) : Res := scalarOp 2 g d (fun s => shrW (s.ra rs) (imm9 imm)) s

/-- R157 -/
def execSari (g : Guard) (d rs : BitVec 5) (imm : BitVec 9) (s : State) : Res := scalarOp 2 g d (fun s => sarW (s.ra rs) (imm9 imm)) s

/-- R157 -/
def execMuli (g : Guard) (d rs : BitVec 5) (imm : BitVec 9) (s : State) : Res := scalarOp 4 g d (fun s => s.ra rs * imm9 imm) s

/-- R157 -/
def execMini (g : Guard) (d rs : BitVec 5) (imm : BitVec 9) (s : State) : Res := scalarOp 2 g d (fun s => minS (s.ra rs) (imm9 imm)) s

/-- R157 -/
def execMaxi (g : Guard) (d rs : BitVec 5) (imm : BitVec 9) (s : State) : Res := scalarOp 2 g d (fun s => maxS (s.ra rs) (imm9 imm)) s

/-- R157 -/
def execRori (g : Guard) (d rs : BitVec 5) (imm : BitVec 9) (s : State) : Res := scalarOp 2 g d (fun s => rorW (s.ra rs) (imm9 imm)) s

/-- R157 -/
def execMovi (g : Guard) (d : BitVec 5) (imm : BitVec 9) (s : State) : Res := scalarOp 2 g d (fun _ => imm9 imm) s

/-- R158 -/
def execLi (g : Guard) (d : BitVec 5) (imm : BitVec 32) (s : State) : Res := scalarOp 2 g d (fun _ => imm32s imm) s

/-- R158: the upper half; a[d] is read at issue. -/
def execLih (g : Guard) (d : BitVec 5) (imm : BitVec 32) (s : State) : Res :=
  scalarOp 2 g d (fun s => imm ++ (s.ra d).setWidth 32) s

/-- R158 -/
def execAddl (g : Guard) (d rs : BitVec 5) (imm : BitVec 32) (s : State) : Res :=
  scalarOp 2 g d (fun s => s.ra rs + imm32s imm) s

/-- R158 -/
def execAndl (g : Guard) (d rs : BitVec 5) (imm : BitVec 32) (s : State) : Res :=
  scalarOp 2 g d (fun s => s.ra rs &&& imm32u imm) s

/-- R158 -/
def execOrl (g : Guard) (d rs : BitVec 5) (imm : BitVec 32) (s : State) : Res :=
  scalarOp 2 g d (fun s => s.ra rs ||| imm32u imm) s

/-- R158 -/
def execXorl (g : Guard) (d rs : BitVec 5) (imm : BitVec 32) (s : State) : Res :=
  scalarOp 2 g d (fun s => s.ra rs ^^^ imm32u imm) s

/-- R158 -/
def execMull (g : Guard) (d rs : BitVec 5) (imm : BitVec 32) (s : State) : Res :=
  scalarOp 4 g d (fun s => s.ra rs * imm32s imm) s

/-- R159 -/
def execCmp (g : Guard) (d rs t : BitVec 5) (fn : BitVec 4) (s : State) : Res :=
  predOp g d (fun s => condW fn.toNat (s.ra rs) (s.ra t)) s

/-- R160 -/
def execCmpiEq (g : Guard) (d rs : BitVec 5) (imm : BitVec 9) (s : State) : Res := predOp g d (fun s => condW 0 (s.ra rs) (imm9 imm)) s

/-- R160 -/
def execCmpiNe (g : Guard) (d rs : BitVec 5) (imm : BitVec 9) (s : State) : Res := predOp g d (fun s => condW 1 (s.ra rs) (imm9 imm)) s

/-- R160 -/
def execCmpiLt (g : Guard) (d rs : BitVec 5) (imm : BitVec 9) (s : State) : Res := predOp g d (fun s => condW 2 (s.ra rs) (imm9 imm)) s

/-- R160 -/
def execCmpiGe (g : Guard) (d rs : BitVec 5) (imm : BitVec 9) (s : State) : Res := predOp g d (fun s => condW 3 (s.ra rs) (imm9 imm)) s

/-- R160 -/
def execCmpiLtw (g : Guard) (d rs : BitVec 5) (imm : BitVec 9) (s : State) : Res := predOp g d (fun s => condW 4 (s.ra rs) (imm9 imm)) s

/-- R160 -/
def execCmpiGew (g : Guard) (d rs : BitVec 5) (imm : BitVec 9) (s : State) : Res := predOp g d (fun s => condW 5 (s.ra rs) (imm9 imm)) s

/-- R162 -/
def execPand (g : Guard) (d rs t : BitVec 5) (s : State) : Res := predOp g d (fun s => s.cur.pred rs.toNat && s.cur.pred t.toNat) s

/-- R162 -/
def execPor (g : Guard) (d rs t : BitVec 5) (s : State) : Res := predOp g d (fun s => s.cur.pred rs.toNat || s.cur.pred t.toNat) s

/-- R162 -/
def execPxor (g : Guard) (d rs t : BitVec 5) (s : State) : Res := predOp g d (fun s => s.cur.pred rs.toNat != s.cur.pred t.toNat) s

/-- R162 -/
def execPandn (g : Guard) (d rs t : BitVec 5) (s : State) : Res := predOp g d (fun s => s.cur.pred rs.toNat && !s.cur.pred t.toNat) s

/-- R163: `pw` as it stands. -/
def execPrd (g : Guard) (d : BitVec 5) (s : State) : Res := scalarOp 2 g d (fun s => s.cur.pw.setWidth 64) s

/-- R163: `pw` is written, by the rules of R118, where the write lands. -/
def execPwr (g : Guard) (rs : BitVec 5) (s : State) : Res :=
  .next (if s.guard g then s.land 2 (.pwr (s.ra rs)) else s)

/-! Transfers (R164-R168). -/

/-- R165 -/
def execBr (g : Guard) (imm : BitVec 32) (s : State) : Res :=
  .next (if s.transferGuard g then { s with goto := some (relTarget s.cur.pc imm) } else s)

/-- R165: the link is pc + 8. -/
def execCall (g : Guard) (d : BitVec 5) (imm : BitVec 32) (s : State) : Res :=
  .next (if s.transferGuard g then { s.landA 2 d (s.cur.pc + 8) with goto := some (relTarget s.cur.pc imm) } else s)

/-- R166: bits [63:32] of A are ignored. -/
def execJr (g : Guard) (rs : BitVec 5) (s : State) : Res :=
  .next (if s.transferGuard g then { s with goto := some (((s.ra rs).setWidth 32).setWidth 64) } else s)

/-- R166 -/
def execJrl (g : Guard) (d rs : BitVec 5) (s : State) : Res :=
  .next (if s.transferGuard g then { s.landA 2 d (s.cur.pc + 8) with goto := some (((s.ra rs).setWidth 32).setWidth 64) } else s)

/-! Random bits (R169-R172). -/

/-- R171, R172: one draw. The counter advances with the bundle; a wrap sets `pw.rndwrap` and, with `pw.rndtrap`, raises
kind 8 once the bundle has retired. A `cwr` of `k.rctr` that is on its way sets the counter as it lands: the draws before that
do not see it (DESIGN CHOICE, assumption 48). -/
def execRnd (g : Guard) (d rs : BitVec 5) (s : State) : Res :=
  .next (if s.guard g then
    let ctr : Word := (s.ra rs).setWidth 32 ++ s.cur.rctr
    let s := s.landA 6 d (randBits s.cur.rkey ctr)
    let next := s.cur.rctr + 1
    let s := s.land 4 (.rctr next)
    let s := { s with cur := { s.cur with rctr := next } }
    if next = 0 then
      let s := { s with cur := { s.cur with pw := s.cur.pw ||| 0x00080000 } }
      if s.cur.pw.getLsbD 20 then s.raise 8 0 else s
    else s
  else s)

/-! The thread (R173-R178). -/

/-- R173: an enqueue of the acting thread is on its way; the thread is out of rotation until it is accepted (R355). -/
def State.sendEnqueue (s : State) (cluster : Nat) (d : TaskDesc) (cycles : Nat) : State :=
  let (t, s) := s.elapse cycles
  let s := { s with cur := { s.cur with status := .waiting .enqueue } }
  s.dueIn t (rankEnqueue + s.cur.loc.key) (.enqueueReachesQueue ⟨s.p.first, cluster, d, .thread s.cur.uid⟩)

/-- R173 -/
def execSpawn (g : Guard) (rs x : BitVec 5) (f : BitVec 2) (imm : BitVec 32) (s : State) : Res :=
  .next (if s.guard g then
    let c := if f.getLsbD 0 then s.ra x else BitVec.ofNat 64 s.cur.loc.cluster
    if 48 ≤ c.toNat then s.raise 4 c
    else
      let w0 := relTarget s.cur.pc imm ||| (if f.getLsbD 1 then 0x1_0000_0000#64 else 0)
      s.sendEnqueue c.toNat ⟨w0, s.ra rs, 0, 0⟩ (if c.toNat = s.cur.loc.cluster then 24 else 392)
  else s)

/-- R175: the thread ends once its relaxed accesses and pushes are complete; its binding goes. -/
def execTexit (g : Guard) (s : State) : Res :=
  .next (if s.transferGuard g then
    if s.cur.openPkt.isSome then s.raise 3 4
    else { s with cur := { s.cur with bound := 0, status := .waiting .pushes } }
  else s)

/-- R176: the next issuing visit is skipped. -/
def execYield (g : Guard) (s : State) : Res :=
  .next (if s.guard g then { s with cur := { s.cur with status := .waiting .skip } } else s)

/-- R177: the roll-call count of the core restarts. -/
def execRoll (g : Guard) (s : State) : Res :=
  .next (if s.guard g then
    s.onCluster s.cur.loc.cluster fun c =>
      { c with rolls := Tab.put s.cur.loc.core { Tab.getD ⟨0, false, 0⟩ s.cur.loc.core c.rolls with count := 0 } c.rolls }
  else s)

/-- R178: in force from the next bundle. -/
def execAnchor (g : Guard) (fn : BitVec 4) (s : State) : Res :=
  .next (if s.guard g then
    { s with cur := { s.cur with pw := if fn.getLsbD 0 then s.cur.pw ||| 0x00010000 else s.cur.pw &&& ~~~0x00010000 } }
  else s)

/-! Time (R125). -/

/-- R125: logical ticks since tick 0 of overlay 0 in deterministic mode (assumption 18), else TICK. -/
def execTick (g : Guard) (d : BitVec 5) (s : State) : Res :=
  scalarOp 2 g d (fun s => BitVec.ofNat 64 (if s.det then s.plan - s.p.run.plan0 else s.tick)) s

/-- R125: bundles retired in deterministic mode, else core cycles. -/
def execCycl (g : Guard) (d : BitVec 5) (s : State) : Res :=
  scalarOp 2 g d (fun s => if s.det then s.cur.retired else BitVec.ofNat 64 (2 * s.tick + s.now % 2)) s

/-! Engine binding (R121). -/

/-- R121: the thread is out of rotation until its commands to the engine it is bound to are accepted. -/
def execEbind (g : Guard) (x : BitVec 5) (s : State) : Res :=
  .next (if s.guard g then
    if s.cur.openPkt.isSome then s.raise 3 4
    else if s.waitDone (.bind x.toNat) then { s with cur := { s.cur with bound := x.setWidth 3 } }
    else { s with cur := { s.cur with status := .waiting (.bind x.toNat) } }
  else s)

end Sys2Proof.Machine
end

