-- ==== Sys2Proof/Machine/Sync.lean ====
section
/-! DEFINITION. Synchronising accesses, waiter lists, reservation atomics, dependence counters, monitors and fences
(R334-R359). -/

namespace Sys2Proof.Machine

/-! Issue (R347). -/

/-- R347, R351, R354: the checks of a synchronising access: only local store, HBM and peers carry full/empty bits. -/
def State.checkSync (s : State) (va : Word) (align : Nat) : Except Nat Target :=
  if va.toNat % align ≠ 0 then .error 4 else
  match s.route va 8 with
  | .error k => .error k
  | .ok (.host _) => .error 4
  | .ok (.sram _ _) => .error 4
  | .ok (.counters _) => .error 4
  | .ok (.board _ _) => .error 4
  | .ok t => .ok t

/-- R344: the read of host memory that a fence or synchronising access at host or system scope waits for. -/
def State.waitHost (s : State) (sc : Nat) : State :=
  if sc = 7 ∨ sc = 9 then
    let (t, s) := s.hostElapse
    ({ s with cur := { s.cur with waitTo := s.now + t } } : State).dueAt (s.now + t) 0 .wake
  else s

/-- Whether a target is served through the thread port of the acting thread's core (R239). -/
def State.ownPort (s : State) : Target → Bool
  | .loc cl co _ => cl == s.cur.loc.cluster && co == s.cur.loc.core
  | _ => false

/-- R335, R344, R345: what a synchronising access waits for besides its word. -/
def Thread.syncDrained (t : Thread) (now sc : Nat) : Bool :=
  t.relaxed.isEmpty && t.pushed && decide (t.waitTo ≤ now) && ((sc != 8 && sc != 9) || t.asked.isEmpty)

/-- R335, R345: whether a synchronising access may leave for a peer package: what it waits for is over, or, in deterministic
mode, will be before it arrives there. -/
def State.maySend (s : State) (a : Acc) : Bool :=
  s.cur.syncDrained s.now a.scope ||
  (s.det && decide (s.cur.waitTo ≤ s.now) && ((a.scope != 8 && a.scope != 9) || s.cur.asked.isEmpty) &&
    s.cur.relaxed.all fun (x : Acc) => match s.route x.va x.bytes with
      | .ok (.loc _ _ _) => true
      | .ok (.hbm _ _) => true
      | .ok (.peer _) => true
      | _ => false)

/-- R347, R313: a synchronising access of the acting thread leaves for a peer package, or tries again in the next cycle. -/
def State.sendSyncPeer (s : State) (pkg : Nat) (a : Acc) : State :=
  if s.maySend a then s.askPeer pkg { a with due := s.now + a.lat }
  else if s.cur.late.isSome || s.cur.lateMiss.isSome then (s.giveUp .drain).scheduleIssue s.now
  else s.dueIn s.dil (rankArrive + 1 + s.cur.loc.key) (.syncAccessArrives s.cur.uid a)

/-- R347: a synchronising access of the acting thread is on its way; the thread leaves rotation. -/
def State.sendSync (s : State) (a : Acc) (t : Target) : State :=
  let (lat, s) := s.accessTime t
  let s := s.waitHost a.scope
  let a := { a with id := s.nextId, lat := lat, due := s.now + lat }
  let s := { s with nextId := s.nextId + 1, cur := { s.cur with status := .access s.nextId } }
  match t with
  | .peer pkg => s.sendSyncPeer pkg a
  | t => s.dueIn (lat / 2) (if s.ownPort t then rankArrive else rankArrive + 1 + s.cur.loc.key) (.syncAccessArrives s.cur.uid a)

/-- A synchronising access of the acting thread: its checks, its migration (R316), or its way to the word. -/
def State.syncAccess (s : State) (op : AccOp) (va : Word) (align d : Nat) (data : Word) (sc : Nat) : State :=
  match s.checkSync va align with
  | .error k => s.raise k va
  | .ok t =>
    let a := s.newAcc op va 8 false d data false sc
    match t with
    | .hbm home _ =>
      if home ≠ s.cur.loc.cluster && s.roams then s.migrate home a
      else s.sendSync { a with remote := home != s.cur.loc.cluster } t
    | _ => s.sendSync a t

/-! Arrival (R348). -/

/-- R347, R348: an access joins the back of its word's list. -/
def State.joinList (s : State) (a : Acc) (flat : Nat) (own : Bool) : State :=
  let w : Waiter := { uid := s.cur.uid, acc := a, own := own, chosen := false }
  let s := { s with
    lists := Tab.put flat (Tab.getD [] flat s.lists ++ [w]) s.lists
    cur := { s.cur with status := .listed } }
  let s := s.wakeList flat s.now
  if s.now < s.cur.waitTo then s.wakeList flat s.cur.waitTo else s

/-- R32: an access ends where it arrives with a region fault, at its completion. -/
def State.refuseSync (s : State) (a : Acc) (bad : Nat) : State :=
  s.againIn (a.lat - a.lat / 2) (accFound a (.bad bad))

/-- R347, R348, R310, R327: a synchronising access arrives at its bank or channel. -/
def execSyncAccessArrives (uid : Nat) (a : Acc) (s : State) : Res :=
  let s := s.focusThread uid
  if s.cur.uid ≠ uid ∨ uid = 0 ∨ s.cur.status ≠ .access a.id then .next s else
  match s.route a.va 8 with
  | .error k => .next (s.refuseSync a k)
  | .ok (.loc cl co b) => .next (s.joinList a (flatLocal cl co b) (s.ownPort (.loc cl co b)))
  | .ok (.hbm _ off) =>
    match s.translated a off with
    | .error why => .next (s.comeBack a (.miss why))
    | .ok phys =>
      let s := if a.remote then s.countHot off a.asid.toNat a.quad else s
      if accWrites a.op && !s.p.hbmOpen off 8 7 then .next (s.refuseSync a 6)
      else
        let a := { a with phys := some phys, remote := false }
        match s.channelTurn phys (.syncAccessArrives uid a) with
        | (true, s) => .next (s.joinList a phys false)
        | (false, s) => .next s
  | .ok (.peer pkg) => .next (s.sendSyncPeer pkg a)
  | .ok _ => .next (s.refuseSync a 4)

/-! Performing (R348, R349, Tables 15.2 and 15.3). -/

/-- Table 15.2, R353, R354: the condition of a member on a word that is not poisoned. -/
def syncReady (op : AccOp) (full : Bool) (w : Word) : Bool :=
  match op with
  | .ldf => full
  | .ldfe => full
  | .ste => !full
  | .semTake => full && w.extractLsb' 0 32 != 0#32
  | .semGive => full
  | .rsv _ => full
  | .dctr => full
  | _ => true

/-- R350, R401: no thread of a partition that is pre-empted, or whose launch is ending, performs. -/
def State.standsStill (s : State) (first : Nat) : Bool :=
  if s.p.first = first then s.p.paused || s.p.run.ending
  else s.parts.any fun p => p.first == first && (p.paused || p.run.ending)

/-- Whether a member performs if its turn comes now; a poisoned word satisfies every condition (R349). A peer's request
has no thread here. -/
def State.memberReady (s : State) (flat : Nat) (w : Waiter) : Bool :=
  if w.uid = 0 then s.poisoned flat || syncReady w.acc.op (s.isFull flat) (s.word flat) else
  match s.findThread w.uid with
  | none => false
  | some t =>
    t.status == .listed && !s.standsStill t.part && t.syncDrained s.now w.acc.scope &&
    (s.poisoned flat || syncReady w.acc.op (s.isFull flat) (s.word flat))

/-- R353: the new word of a reservation atomic. -/
def rsvWord (f : Nat) (old b : Word) : Word :=
  match f with
  | 0 => b
  | 1 => old + b
  | 2 => old ||| b
  | _ => maxS old b

/-- Bits [31:0] of a word replaced. -/
def withCount (w : Word) (n : BitVec 32) : Word := w.extractLsb' 32 32 ++ n

/-- R354: the enqueue of a dependence counter that reached zero, from the record at `flat`. Enqueues of one cycle reach their
queue in order of source cluster, core and position, whatever port they use (R73; DESIGN CHOICE, assumption 48). -/
def State.releaseSuccessor (s : State) (va : Word) (flat : Nat) (old : Word) : State :=
  let c := field old 37 32
  if 48 ≤ c then s.report 22 (field va 55 0) c
  else
    let near := match localOf flat with
      | some (cl, _, _) => cl == c
      | none => flat / 2 ^ 34 == c
    let d : TaskDesc := {
      w0 := s.word (flat + 8)
      w1 := s.word (flat + 16)
      w2 := s.word (flat + 24)
      w3 := s.word (flat + 32) }
    let (t, s) := s.elapse (if near then 24 else 392)
    s.dueIn t (rankEnqueue + s.cur.loc.key) (.enqueueReachesQueue ⟨s.p.first, c, d, .thread s.cur.uid⟩)

/-- R351, R353, R354: data and bit as a member leaves them. -/
def State.syncEffect (s : State) (a : Acc) (flat : Nat) (old : Word) : State :=
  let n : BitVec 32 := old.extractLsb' 0 32
  match a.op with
  | .ldf => s
  | .ldfe => s.setFull flat false
  | .stf => s.storeWord flat a.data true
  | .ste => s.storeWord flat a.data true
  | .fill => s.setFull flat true
  | .empty => s.setFull flat false
  | .semTake => s.storeWord flat (withCount old (n - 1)) true
  | .semGive => if n = 0xFFFFFFFF#32 then s.setFull flat true else s.storeWord flat (withCount old (n + 1)) true
  | .rsv f => s.storeWord flat (rsvWord f old a.data) false
  | .rls f => s.storeWord flat (rsvWord f old a.data) true
  | .dctr =>
    if n = 0 then s
    else if n = 1 then (s.storeWord flat (withCount old 0) false).releaseSuccessor a.va flat old
    else s.storeWord flat (withCount old (n - 1)) true
  | _ => s

/-- R349: whether an operation is refused on a poisoned word. -/
def refusedOnPoison : AccOp → Bool
  | .stf => false
  | .fill => false
  | _ => true

/-- R348, R349: a member performs: whether its word is refused as poisoned, and the word as it stood. -/
def State.syncAt (s : State) (a : Acc) (flat : Nat) : Bool × Word × State :=
  let bad := s.poisoned flat && refusedOnPoison a.op
  let s := s.noteErrors flat
  let s := if flat < flatLocalBase then s.count 19 else s
  let old := s.word flat
  (bad, old, if bad then s.logWord flat 3 else s.syncEffect a flat old)

/-- R348, R349: a member of the acting thread performs; it completes L/2 later. -/
def State.performSync (s : State) (a : Acc) (flat : Nat) : State :=
  let (bad, old, s) := s.syncAt a flat
  let s := { s with cur := { s.cur with status := .access a.id } }
  s.againIn (a.lat - a.lat / 2) (accFound a (if bad then .bad 7 else .ok old))

/-- R313, R349: a peer's member performs, and its reply leaves. Its access carries the partition in `scope` and the
reply's address in `id`. -/
def State.performPeer (s : State) (a : Acc) (flat : Nat) : State :=
  let (bad, old, s) := (s.focusPart a.scope).syncAt a flat
  s.emit (.reply a.id (if bad then none else some old) 0)

/-- Whether two members are the same one. -/
def Waiter.same (x y : Waiter) : Bool := x.uid == y.uid && (x.uid != 0 || x.acc.id == y.acc.id)

/-- A word's list without a member. -/
def State.leaveList (s : State) (flat : Nat) (w : Waiter) : State :=
  let l := (Tab.getD [] flat s.lists).filter fun x => !x.same w
  { s with lists := if l.isEmpty then Tab.drop flat s.lists else Tab.put flat l s.lists }

/-- R348, R331: in a core cycle the oldest member whose condition holds at its start performs and leaves: on the thread
port before the cycle's other accesses, on the engine port after the thread port's. -/
def execWaiterPerforms (flat : Nat) (s : State) : Res :=
  let l := Tab.getD [] flat s.lists
  match l.find? (·.chosen) with
  | some w =>
    let s := (s.leaveList flat w).focusThread w.uid
    let s := if w.uid = 0 then s.performPeer w.acc flat else if s.cur.uid = w.uid ∧ w.uid ≠ 0 then s.performSync w.acc flat else s
    .next (if (Tab.getD [] flat s.lists).isEmpty then s else s.wakeList flat (s.now + s.p.run.d))
  | none =>
    match l.find? (s.memberReady flat) with
    | none => .next s
    | some w =>
      let l := l.map fun (x : Waiter) => if x.same w then { x with chosen := true } else x
      let s := { s with lists := Tab.put flat l s.lists }
      .next (s.dueIn 0 (if w.own then rankThread - 1 else rankPerform) (.waiterPerforms flat))

/-! The instructions. -/

/-- R351 -/
def execLdf (g : Guard) (d rs t : BitVec 5) (fn : BitVec 4) (s : State) : Res :=
  .next (if s.guard g then s.syncAccess .ldf (s.indexed rs t) 8 d.toNat 0 fn.toNat else s)

/-- R351 -/
def execLdfe (g : Guard) (d rs t : BitVec 5) (fn : BitVec 4) (s : State) : Res :=
  .next (if s.guard g then s.syncAccess .ldfe (s.indexed rs t) 8 d.toNat 0 fn.toNat else s)

/-- R351 -/
def execStf (g : Guard) (d rs t : BitVec 5) (fn : BitVec 4) (s : State) : Res :=
  .next (if s.guard g then s.syncAccess .stf (s.indexed rs t) 8 24 (s.ra d) fn.toNat else s)

/-- R351 -/
def execSte (g : Guard) (d rs t : BitVec 5) (fn : BitVec 4) (s : State) : Res :=
  .next (if s.guard g then s.syncAccess .ste (s.indexed rs t) 8 24 (s.ra d) fn.toNat else s)

/-- R351 -/
def execFill (g : Guard) (rs t : BitVec 5) (fn : BitVec 4) (s : State) : Res :=
  .next (if s.guard g then s.syncAccess .fill (s.indexed rs t) 8 24 0 fn.toNat else s)

/-- R351 -/
def execEmpty (g : Guard) (rs t : BitVec 5) (fn : BitVec 4) (s : State) : Res :=
  .next (if s.guard g then s.syncAccess .empty (s.indexed rs t) 8 24 0 fn.toNat else s)

/-- R351 -/
def execSemTake (g : Guard) (d rs t : BitVec 5) (fn : BitVec 4) (s : State) : Res :=
  .next (if s.guard g then s.syncAccess .semTake (s.indexed rs t) 8 d.toNat 0 fn.toNat else s)

/-- R351: `pw.isat` with a count that cannot grow. -/
def execSemGive (g : Guard) (d rs t : BitVec 5) (fn : BitVec 4) (s : State) : Res :=
  .next (if s.guard g then s.syncAccess .semGive (s.indexed rs t) 8 d.toNat 0 fn.toNat else s)

/-- Table 15.3: the address: a signed offset in words. -/
def State.wordOffset (s : State) (rs : BitVec 5) (imm : BitVec 32) : Word :=
  s.ra rs + 8 * (imm.extractLsb' 4 28).signExtend 64

/-- R353 -/
def execRsv (g : Guard) (d rs x : BitVec 5) (f : BitVec 2) (imm : BitVec 32) (s : State) : Res :=
  .next (if s.guard g then
    s.syncAccess (.rsv f.toNat) (s.wordOffset rs imm) 8 d.toNat (s.ra x) (imm.toNat % 16) else s)

/-- R353 -/
def execRls (g : Guard) (d rs x : BitVec 5) (f : BitVec 2) (imm : BitVec 32) (s : State) : Res :=
  .next (if s.guard g then
    s.syncAccess (.rls f.toNat) (s.wordOffset rs imm) 8 d.toNat (s.ra x) (imm.toNat % 16) else s)

/-- R354 -/
def execDctr (g : Guard) (d rs : BitVec 5) (imm : BitVec 32) (s : State) : Res :=
  .next (if s.guard g then s.syncAccess .dctr (s.wordOffset rs imm) 64 d.toNat 0 (imm.toNat % 16) else s)

/-- R356: a plain load that arms the monitor. -/
def execWatch (g : Guard) (d rs t : BitVec 5) (s : State) : Res :=
  .next (if s.guard g then
    let va := s.indexed rs t
    match s.checkSync va 8 with
    | .error k => s.raise k va
    | .ok _ => s.access .watch va 8 false d.toNat 0 false
  else s)

/-- R357 -/
def State.disarm (s : State) : State := { s with cur := { s.cur with monitor := .rest, napAt := 0 } }

/-- R357: the timeouts of a cycle come after every write of it, those of timed words included, and before its issues of the
threads they release. -/
def rankNap : Nat := rankEnd + 80

/-- R357; a `nap` that issues again after a restore counts the time it had left (R408, Table 17.12). -/
def execNap (g : Guard) (d rs : BitVec 5) (s : State) : Res :=
  .next (if s.guard g then
    let a := s.ra rs
    if field a 63 32 ≠ 0 then s.raise 4 a
    else if !s.cur.monitor.armed then s.landA 2 d 0
    else if s.cur.monitor.seen then s.disarm.landA 2 d 1
    else
      let due := if s.cur.napAt ≠ 0 then max s.now s.cur.napAt else if a = 0 then 0 else s.now + s.dil * a.toNat
      let s := { s with cur := { s.cur with status := .napping, napDest := d.toNat, napAt := due } }
      if due = 0 then s else s.dueAt due rankNap (.ev (.napTimeout s.cur.uid due))
  else s)

/-- A `nap` of the acting thread ends with result v, and its bundle retires. -/
def State.endNap (s : State) (v : Word) : State :=
  let s := s.disarm.landEarlier
  ({ s with cur := s.cur.setReg s.cur.napDest v } : State).retire.releaseHeld.rejoin s.now

/-- R357: the write that ends a `nap` has come through. -/
def execNapWake (uid : Nat) (s : State) : Res :=
  let s := s.focusThread uid
  if s.cur.uid ≠ uid ∨ s.cur.status ≠ .napping ∨ !s.cur.monitor.seen ∨ s.p.paused then .next s else .next (s.endNap 1)

/-- R357: a write in the same cycle or before wins. -/
def execNapTimeout (uid due : Nat) (s : State) : Res :=
  let s := s.focusThread uid
  if s.cur.uid ≠ uid ∨ s.cur.status ≠ .napping ∨ s.cur.napAt ≠ due ∨ s.p.paused then .next s else .next (s.endNap 2)

/-- R334, R344, R345, R359 -/
def execFence (g : Guard) (fn : BitVec 4) (s : State) : Res :=
  .next (if s.guard g then
    let s := s.waitHost fn.toNat
    if s.fenceDone fn.toNat then s else { s with cur := { s.cur with status := .waiting (.fence fn.toNat) } }
  else s)

end Sys2Proof.Machine
end

