-- ==== Sys2Proof/Machine/Net.lean ====
section
/-! DEFINITION. Network packets, matching tables, task queues and the turns of the engines (R73-R76, R272, R355,
R360-R363, R402). -/

namespace Sys2Proof.Machine

/-- R120: an instruction that needs a binding: a bind fault with the engine's code without it. -/
def State.bound (s : State) (eng : Nat) (f : State → State) : State :=
  if s.cur.bound.toNat ≠ eng then s.raise 3 (BitVec.ofNat 64 eng) else f s

/-! Packets (R360, R361). -/

/-- R66: whether a package index names the own package or a peer of the group. -/
def State.validPkg (s : State) (p : Nat) : Bool := p == s.ownPkg || decide (p < s.extent)

/-- R360 -/
def execPktOpen (g : Guard) (rs : BitVec 5) (imm : BitVec 32) (s : State) : Res :=
  .next (if !s.guard g then s else s.bound 4 fun s =>
    let a := s.ra rs
    let tag : BitVec 16 := imm.setWidth 16
    if s.cur.openPkt.isSome then s.raise 3 4
    else if field a 63 32 ≠ 0 ∨ field a 7 6 ≠ 0 ∨ 48 ≤ field a 5 0 ∨ !s.validPkg (field a 15 8) then s.raise 4 a
    else if s.packetGone then { s with cur := { s.cur with openPkt := some { dest := a, tag := tag, words := [] } } }
    else { s with cur := { s.cur with status := .waiting (.packetLeft a tag) } })

/-- R360: the words of a `pkt.add` or `pkt.end` join the open packet, which holds at most 32. -/
def State.addWords (s : State) (l : List Word) (f : OpenPkt → State → State) : State :=
  match s.cur.openPkt with
  | none => s.raise 3 4
  | some p =>
    if 32 < p.words.length + l.length then s.raise 3 4
    else
      let p := { p with words := p.words ++ l }
      f p { s with cur := { s.cur with openPkt := some p } }

/-- The payload operands by f (Table 15.5). -/
def State.payload (s : State) (rs x : BitVec 5) (f : BitVec 2) : List Word :=
  match f.toNat with
  | 0 => [s.ra rs]
  | 1 => [s.ra rs, s.ra x]
  | _ => []

/-- R360 -/
def execPktAdd (g : Guard) (rs x : BitVec 5) (f : BitVec 2) (s : State) : Res :=
  .next (if !s.guard g then s else s.bound 4 fun s => s.addWords (s.payload rs x f) fun _ s => s)

/-- R360, R361: a closed packet leaves at once, or in the cycle after the last earlier relaxed access or push performs. -/
def State.closePacket (s : State) (o : OpenPkt) : State :=
  let p : Packet := {
    phase := .arrive
    first := s.p.first
    pkg := field o.dest 15 8
    dest := field o.dest 5 0
    tag := o.tag
    off := field o.dest 31 16
    words := o.words
    srcKey := s.cur.loc.key }
  let s := { s with cur := { s.cur with openPkt := none } }
  if s.drained then ({ s with cur := { s.cur with pktLeaves := s.now } } : State).launchPacket p s.now
  else { s with cur := { s.cur with unsent := some (p, s.nextId, s.cur.pushes.length) } }

/-- R360, R361 -/
def execPktEnd (g : Guard) (rs x : BitVec 5) (f : BitVec 2) (s : State) : Res :=
  .next (if !s.guard g then s else s.bound 4 fun s =>
    s.addWords (s.payload rs x f) fun p s => if p.words.isEmpty then s.raise 3 4 else s.closePacket p)

/-! The matching table (R362, R363). -/

/-- R362: entries of a matching table, and packets its held-packet buffer holds. -/
def Part.matchSize (p : Part) : Nat := 32 * p.units
def Part.heldSize (p : Part) : Nat := 16 * p.units

/-- R67, R68, R362: a word of the local window of one cluster: a fault kind, or its flat address. -/
def State.clusterWord (s : State) (cluster : Nat) (va : Word) : Except Nat Nat :=
  match s.route va 8 with
  | .error k => .error k
  | .ok (.loc cl co b) => if cl = cluster then .ok (flatLocal cl co b) else .error 4
  | .ok _ => .error 4

/-- R362: the first of n words from va that is not one of the cluster's local window: its fault kind and address. -/
def State.badWord (s : State) (cluster : Nat) (va : Word) : Nat → Option (Nat × Word)
  | 0 => none
  | n + 1 => match s.clusterWord cluster va with
    | .error k => some (k, va)
    | .ok _ => s.badWord cluster (va + 8) n

/-- R362: what is wrong with the addresses of a match descriptor. -/
def State.matchAddresses (s : State) (cluster : Nat) (act : Bool) (nword : Nat) (buf target : Word) : Option (Nat × Word) :=
  if buf.toNat % 8 ≠ 0 then some (4, buf)
  else match s.badWord cluster buf nword with
    | some f => some f
    | none =>
      if target.toNat % (if act then 32 else 8) ≠ 0 then some (4, target)
      else s.badWord cluster target (if act then 4 else 1)

/-- The entry of a matching table that holds a tag. -/
def MatchTable.byTag (m : MatchTable) (tag : BitVec 16) : Option Nat :=
  (m.entries.find? fun e => e.2.tag == tag).map (·.1)

/-- The lowest free entry. -/
def Part.freeMatch (p : Part) (m : MatchTable) : Option Nat :=
  (List.range p.matchSize).find? fun n => (Tab.find n m.entries).isNone

def State.onMatch (s : State) (c : Nat) (f : MatchTable → MatchTable) : State :=
  s.onCluster c fun k => { k with mtab := f k.mtab }

/-- R363: words of a packet reach entry n from a cycle on. -/
def State.deliverFrom (s : State) (p : Packet) (n cycle : Nat) : State :=
  s.dueAt cycle (rankEngine + p.srcKey) (.ev (.packetArrives { p with phase := .deliver n }))

/-- R362: held packets of a tag are handed to entry n in arrival order. -/
def State.handHeld (s : State) (c n : Nat) (tag : BitVec 16) : State :=
  let l := (s.cluster c).mtab.held.filter (·.tag == tag)
  let s := s.onMatch c fun m => { m with held := m.held.filter (·.tag != tag) }
  (l.foldl (fun (r : State × Nat) p => (r.1.deliverFrom p n r.2, r.2 + p.words.length * s.p.run.d)) (s, s.now)).1

/-- R362: a match descriptor has been read at A: the fault, or the installed entry's index, all ones without one. -/
def State.installMatch (s : State) (a w0 w1 w2 w3 : Word) : Except (Nat × Word) (Word × State) :=
  let c := s.cur.loc.cluster
  let act := w0.getLsbD 16
  let nword := field w0 47 32
  if field w0 31 17 ≠ 0 ∨ field w0 63 48 ≠ 0 ∨ w3 ≠ 0 ∨ nword = 0 then .error (4, a)
  else match s.matchAddresses c act nword w1 w2 with
    | some f => .error f
    | none =>
      let tag : BitVec 16 := w0.setWidth 16
      let m := (s.cluster c).mtab
      match m.byTag tag, s.p.freeMatch m with
      | none, some n =>
        let e : MatchEntry := { tag := tag, act := act, nword := nword, buf := w1, target := w2, got := 0 }
        let s := s.onMatch c fun m => { m with entries := Tab.put n e m.entries }
        .ok (BitVec.ofNat 64 n, s.handHeld c n tag)
      | _, _ => .ok (BitVec.allOnes 64, s)

/-- R362 -/
def execMatchTag (g : Guard) (d rs : BitVec 5) (s : State) : Res :=
  .next (if !s.guard g then s else s.bound 4 fun s =>
    let a := s.ra rs
    match s.ownWindow a 32 32 with
    | .error k => s.raise k a
    | .ok b => s.readDesc a b (.matchTag d.toNat))

/-- R363, R402: a packet is dropped: the counter, a network report and `k.notice`. -/
def State.dropPacket (s : State) (p : Packet) : State :=
  let s := (s.count 14).report 25 (p.tag.toNat * 65536 + p.off % 65536) p.dest
  s.onCluster p.dest fun c => { c with notice := c.notice ||| 0x100 }

/-- R124: every context of the partition in a cluster is fenced: the interface takes no packet for them (assumption 50). -/
def State.allFenced (s : State) (cluster : Nat) : Bool :=
  (s.p.contexts cluster).all fun l => s.coreFenced cluster l.core

/-- R363: one payload word for entry n; the entry fires when it has them all. -/
def State.deliverWord (s : State) (p : Packet) (n : Nat) : State :=
  match p.words with
  | [] => s
  | w :: rest =>
    let more (s : State) : State :=
      if rest.isEmpty then s else s.deliverFrom { p with off := p.off + 1, words := rest } n (s.now + s.p.run.d)
    match Tab.find n (s.cluster p.dest).mtab.entries with
    | none => more (s.count 14)
    | some e =>
      if e.tag ≠ p.tag ∨ e.nword ≤ p.off then more (s.count 14)
      else
        let s := match s.clusterWord p.dest (e.buf + BitVec.ofNat 64 (8 * p.off)) with
          | .ok flat => s.storeWord flat w true
          | .error _ => s
        if e.got + 1 = e.nword then
          let s := s.onMatch p.dest fun m => { m with entries := Tab.drop n m.entries }
          more (s.dueIn s.p.run.d (rankEngine + p.srcKey)
            (.packetArrives { p with phase := .fire e.act e.target e.nword, words := [] }))
        else more (s.onMatch p.dest fun m => { m with entries := Tab.put n { e with got := e.got + 1 } m.entries })

/-- R363: what a fired entry does: fill its flag word, or enqueue its task. -/
def State.fireEntry (s : State) (p : Packet) (act : Bool) (target : Word) (nword : Nat) : State :=
  match s.clusterWord p.dest target with
  | .error _ => s
  | .ok flat =>
    if act then
      let d : TaskDesc := {
        w0 := s.word flat
        w1 := s.word (flat + 8)
        w2 := s.word (flat + 16)
        w3 := s.word (flat + 24) }
      let (t, s) := s.elapse 23
      s.dueIn t (rankEnqueue + p.srcKey) (.enqueueReachesQueue ⟨p.first, p.dest, d, .table⟩)
    else s.storeWord flat (BitVec.ofNat 64 nword) true

/-- R363: a packet at its destination interface: matched, held or dropped; then its words, and what a fired entry
releases. -/
def execPacketArrives (p : Packet) (s : State) : Res :=
  let s := s.focusPart p.first
  if s.p.first ≠ p.first ∨ 48 ≤ p.dest then .next s else
  match p.phase with
  | .deliver n => .next (s.deliverWord p n)
  | .fire act target nword => .next (s.fireEntry p act target nword)
  | .fromPeer stamp => s.fromPeer stamp (.packetArrives p) fun s =>
    .next ((s.focusPart p.first).dueIn 0 (rankEngine + p.srcKey) (.packetArrives { p with phase := .arrive }))
  | .arrive =>
    if s.allFenced p.dest then .next (s.dropPacket p) else
    match (s.cluster p.dest).mtab.byTag p.tag with
    | some n => .next (s.deliverWord p n)
    | none =>
      if (s.cluster p.dest).mtab.held.length < s.p.heldSize then
        .next (s.onMatch p.dest fun m => { m with held := m.held ++ [p] })
      else .next (s.dropPacket p)

/-! Task queues (R73, R355). -/

def State.onQueue (s : State) (c : Nat) (f : TaskQueue → TaskQueue) : State :=
  s.onCluster c fun k => { k with queue := f k.queue }

/-- R355: an enqueue of a thread has been accepted: it rejoins rotation if this is what it waits for. -/
def State.enqueueDone (s : State) (uid : Nat) : State :=
  let first := s.p.first
  let s := s.focusThread uid
  let s := if s.cur.uid = uid ∧ uid ≠ 0 ∧ s.cur.status = .waiting .enqueue then s.rejoin s.now else s
  s.focusPart first

/-- R73, R355: an enqueue reaches its queue: accepted, or it waits there. A launch that has ended takes none. -/
def execEnqueueReachesQueue (e : Enq) (s : State) : Res :=
  let s := s.focusPart e.first
  if s.p.first ≠ e.first ∨ !s.p.run.active ∨ 48 ≤ e.cluster then .next s else
  let q := (s.cluster e.cluster).queue
  let src := match e.src with | .thread u => some u | .table => none
  if q.items.length < 64 ∧ q.waiting.isEmpty then
    let s := s.onQueue e.cluster fun q => { q with items := q.items ++ [e.desc] }
    let s := match src with | some u => s.enqueueDone u | none => s
    .next (s.lookAtHead e.cluster)
  else .next (s.onQueue e.cluster fun q => { q with waiting := q.waiting ++ [(e.desc, src)] })

/-- R355: the oldest waiting enqueue is accepted while the queue has room. -/
def execEnqueueAccepted (first cluster : Nat) (s : State) : Res :=
  let s := s.focusPart first
  if s.p.first ≠ first then .next s else
  let q := (s.cluster cluster).queue
  match q.waiting with
  | [] => .next s
  | (d, src) :: r =>
    if 64 ≤ q.items.length then .next s else
    let s := s.onQueue cluster fun q => { q with items := q.items ++ [d], waiting := r }
    .next (match src with | some u => s.enqueueDone u | none => s)

/-- The head leaves its queue; a waiting enqueue takes the room in this cycle (R355); the next head is looked at. -/
def State.leaveQueue (s : State) (c : Nat) : State :=
  let s := s.onQueue c fun q => { q with items := q.items.drop 1, head := .wait }
  let s := if (s.cluster c).queue.waiting.isEmpty then s else s.dueIn 0 (rankDispatch - 1) (.enqueueAccepted s.p.first c)
  (s.lookAtHead c).mayRetire

/-! Dispatch (R74-R76). -/

/-- Footprint entries of a descriptor. -/
def nfoot (d : TaskDesc) : Nat := field d.w0 34 33

/-- R74: whether a footprint word is one: aligned, in space 00, 01 or 10. -/
def footOk (w : Word) : Bool := field w 6 0 == 0 && field w 47 46 != 3

/-- R74: whether a descriptor may run. That one whose pc is no multiple of 8, or whose footprint lies in space 11 or is not
aligned, is a task fault is the model's choice (DESIGN CHOICE, assumption 48). -/
def State.taskOk (s : State) (d : TaskDesc) : Bool :=
  nfoot d != 3 && field d.w0 63 35 == 0 && field d.w0 31 0 % 8 == 0 && decide (field d.w0 31 0 / 8 < s.p.code.length) &&
  (if nfoot d = 0 then d.w2 == 0 else footOk d.w2) && (if nfoot d ≤ 1 then d.w3 == 0 else footOk d.w3)

/-- Lines of a footprint word. -/
def footLines (w : Word) : Nat := field w 63 56 + 1

/-- R242: the slots of a core in the partition's shares, ascending. -/
def Part.ownSlots (p : Part) (core : Nat) : List Nat :=
  ((List.range 8).filter fun k => p.owns (8 * core + k)).flatMap fun k => (List.range 2048).map fun i => 2048 * k + i

def TagEntry.rest : TagEntry := ⟨0, false, false, 0⟩

/-- The tag-table entry of a slot of a core. -/
def State.tagOf (s : State) (cluster core slot : Nat) : TagEntry :=
  Tab.getD .rest (core * 16384 + slot) (s.cluster cluster).tags

/-- An entry equal to the reset entry is not kept. -/
def State.setTag (s : State) (cluster core slot : Nat) (e : TagEntry) : State :=
  let k := core * 16384 + slot
  s.onCluster cluster fun c => { c with tags := if e = .rest then Tab.drop k c.tags else Tab.put k e c.tags }

/-- R75, R243: the free unpinned slots of a core in the partition's shares. -/
def State.freeSlots (s : State) (cluster core : Nat) : List Nat :=
  (s.p.ownSlots core).filter fun n => let e := s.tagOf cluster core n; !e.valid && !e.pin

/-- R75, R76: a slot is taken for staging. -/
def State.pinSlot (s : State) (cluster core : Nat) (n : Nat) : State :=
  s.setTag cluster core n { s.tagOf cluster core n with pin := true }

/-- Where a job's thread stands: the place its accesses are timed from. -/
def Job.loc (j : Job) : Loc := ⟨j.cluster, j.core, j.pos⟩

/-- R272: jobs of one thread on one engine, or of one context's staging. -/
def Job.sameLine (j k : Job) : Bool := j.uid == k.uid && j.eng == k.eng && j.cluster == k.cluster && j.core == k.core && j.pos == k.pos

/-! Turns (R272, R112). -/

/-- The turns of a place in every 128 core cycles, ascending. -/
def turnsOf (core pos n : Nat) : List Nat := (List.range (16 / n)).map fun k => (16 * core + pos + n * k) % 128

/-- Number of the first turn at or after a cycle, in a list of turns a 128 cycles. -/
def turnNumber (l : List Nat) (c : Nat) : Nat := c / 128 * l.length + (l.filter fun r => decide (r < c % 128)).length

/-- The first cycle after `e` in which a place's thread has a turn: every d-th of its turns, counted from v0. -/
def turnAfter (core pos n d v0 e : Nat) : Nat :=
  let l := turnsOf core pos n
  let g := alignUp (turnNumber l v0) d (turnNumber l (e + 1))
  g / l.length * 128 + l.getD (g % l.length) 0

/-- The first turn of a context of the focused partition after a cycle: turns follow the core cycles 2 TICK and 2 TICK + 1
(R107). -/
def State.turnOfPlace (s : State) (core pos n e : Nat) : Nat :=
  turnAfter core pos n s.p.run.d (2 * s.p.run.tick0) (e + 2 * s.tickOff) - 2 * s.tickOff

/-- The first turn of a job's own thread after a cycle. -/
def State.ownTurn (s : State) (j : Job) (e : Nat) : Nat := s.turnOfPlace j.core j.pos j.nthr e

/-- The oldest started job of the focused partition on an engine of a cluster. -/
def State.oldestStarted (s : State) (cluster eng : Nat) : Option Job :=
  (s.p.jobs.filter fun j => j.started && j.cluster == cluster && j.eng == eng).foldl (fun (b : Option Job) j =>
    match b with
    | none => some j
    | some k => if j.accepted < k.accepted ∨ (j.accepted = k.accepted ∧ j.key < k.key) then some j else some k) none

/-- R272: in throughput mode, the first cycle after `e` with a turn that is lent to the oldest started job: one of a
context of the partition that has no started job on the engine. -/
def State.lentTurn (s : State) (j : Job) (e : Nat) : Option Nat :=
  match s.oldestStarted j.cluster j.eng with
  | none => none
  | some o =>
    if o.key ≠ j.key then none else
    let free := (s.p.contexts j.cluster).filter fun l =>
      !(s.p.jobs.any fun k => k.started && k.cluster == j.cluster && k.eng == j.eng && k.core == l.core && k.pos == l.pos)
    free.foldl (fun (b : Option Nat) l =>
      let c := s.turnOfPlace l.core l.pos j.nthr e
      match b with
      | none => some c
      | some m => some (min m c)) none

/-- Order of the step of a lent turn, after the steps that jobs take in their own turns of that cycle. -/
def rankLent : Nat := rankEngine + 50000

/-- R272: the step that the oldest started job of an engine takes in the next lent turn after a cycle, in throughput mode. -/
def State.relend (s : State) (cluster eng e : Nat) : State :=
  if s.det then s else
  let lent (i : Item) : Bool := i.rank == rankLent && (match i.what with
    | .ev (.engineStep f key) => f == s.p.first && s.p.jobs.any fun j => j.key == key && j.cluster == cluster && j.eng == eng
    | _ => false)
  let s := { s with agenda := s.agenda.filter fun i => !lent i }
  match s.oldestStarted cluster eng with
  | none => s
  | some j => match s.lentTurn j e with
    | none => s
    | some c => s.dueAt c rankLent (.ev (.engineStep s.p.first j.key))

/-- A job's step in its own thread's next turn after a cycle falls due. -/
def State.dueStep (s : State) (j : Job) (e : Nat) : State :=
  s.dueAt (s.ownTurn j e) (rankEngine + j.loc.key) (.ev (.engineStep s.p.first j.key))

/-- R272: a job that is first of its thread's on its engine takes its first step in the first turn from now on. -/
def State.startJob (s : State) (j : Job) : State :=
  if s.p.jobs.any fun k => k.sameLine j && decide (k.key < j.key) then s else s.dueStep j s.now

/-- R272: a staging copy job, in the turns of the context it serves. -/
def State.addStage (s : State) (l : Loc) (src : Word) (slots : List Nat) (last : Bool) : State :=
  let j : Job := {
    key := s.nextId
    uid := 0
    part := s.p.first
    cluster := l.cluster
    core := l.core
    pos := l.pos
    nthr := modeThreads s.p.run.tcmode
    eng := 2
    seq := 0
    asid := 0
    quad := BitVec.ofNat 2 (l.cluster / 12)
    cmd := .stage src slots last
    accepted := s.now
    started := false
    step := 0
    steps := 16 + slots.length
    lastStep := 0
    lastAcc := 0
    code := 0
    addr := 0
    emptied := []
    rowList := []
    bundle := 0
    flights := []
    graph := .rest }
  let s := { s with nextId := s.nextId + 1, p := { s.p with jobs := s.p.jobs ++ [j] } }
  s.startJob j

/-- R75 step 2: the footprint of the head goes to the copy engine. -/
def State.placeFoot (s : State) (l : Loc) (d : TaskDesc) : State :=
  let n2 := footLines d.w2
  let all := n2 + (if nfoot d = 2 then footLines d.w3 else 0)
  let slots := (s.freeSlots l.cluster l.core).take all
  let s := slots.foldl (fun s n => s.pinSlot l.cluster l.core n) s
  let s := s.onQueue l.cluster fun q => { q with head := .staging l slots }
  let addr (w : Word) : Word := BitVec.ofNat 64 (field w 55 0)
  let s := s.addStage l (addr d.w2) (slots.take n2) (nfoot d == 1)
  if nfoot d = 2 then s.addStage l (addr d.w3) (slots.drop n2) true else s

/-- R75 step 3: 12 cycles to the start of the task's thread. -/
def State.placeTask (s : State) (l : Loc) (slots : List Nat) : State :=
  let (t, s) := s.elapse 12
  let s := s.onQueue l.cluster fun q => { q with head := .placed l slots }
  s.dueIn t rankDispatch (.taskStaged s.p.first l.cluster)

/-- R74, R75: the head of a queue: reported and dropped where it may not run; else it takes the first free context, once
that context's core has room for the footprint. -/
def execTaskDispatch (first cluster : Nat) (s : State) : Res :=
  let s := s.focusPart first
  if s.p.first ≠ first ∨ !s.p.run.active ∨ s.p.run.ending ∨ s.p.paused then .next s else
  let q := (s.cluster cluster).queue
  match q.head, q.items with
  | .wait, d :: _ =>
    if !s.taskOk d then .next ((s.report 22 (field d.w0 31 0) cluster).leaveQueue cluster)
    else match s.freeContexts cluster with
      | [] => .next s
      | l :: _ =>
        if nfoot d = 0 then .next (s.placeTask l [])
        else
          let need := footLines d.w2 + (if nfoot d = 2 then footLines d.w3 else 0)
          if (s.freeSlots cluster l.core).length < need then .next s else .next (s.placeFoot l d)
  | _, _ => .next s

/-- R170: the key of a thread that starts with this geometry. -/
def State.threadKey (s : State) (geom : Word) : Word := randBits (s.p.run.rec_.getD 3 0) geom

/-- R75 step 3, R170: the task's thread starts. Of `k.geom` the rule gives the cluster and the entry number; the other fields
are zero (DESIGN CHOICE, assumption 48). -/
def State.startTask (s : State) (l : Loc) (slots : List Nat) (d : TaskDesc) : State :=
  let geom : Word := BitVec.ofNat 64 (l.cluster + 0xFF * 2 ^ 32)
  let t := s.newThread l (BitVec.ofNat 64 (field d.w0 31 0)) d.w1 geom (d.w0.getLsbD 32) 0
  let t := { t with rkey := randBits (s.threadKey geom) d.w1, pins := slots.map fun n => (l.cluster, l.core, n) }
  ((s.addThread t s.now).count 11).leaveQueue l.cluster

/-- R75 step 3 -/
def execTaskStaged (first cluster : Nat) (s : State) : Res :=
  let s := s.focusPart first
  if s.p.first ≠ first then .next s else
  let q := (s.cluster cluster).queue
  match q.head, q.items with
  | .placed l slots, d :: _ => .next (s.startTask l slots d)
  | _, _ => .next s

/-- R402: staging word action 1: the blocked head's staging runs again from footprint entry 0. -/
def execStagingRetry (cluster first : Nat) (s : State) : Res :=
  let s := s.focusPart first
  if s.p.first ≠ first ∨ (s.cluster cluster).queue.head ≠ .blocked then .next s
  else .next ((s.onQueue cluster fun q => { q with head := .wait }).lookAtHead cluster)

/-- R402: staging word action 2: the descriptor is dropped. -/
def execStagingDiscard (cluster first : Nat) (s : State) : Res :=
  let s := s.focusPart first
  if s.p.first ≠ first ∨ (s.cluster cluster).queue.head ≠ .blocked then .next s
  else .next (s.leaveQueue cluster)

end Sys2Proof.Machine
end

