-- ==== Sys2Proof/Machine/Tags.lean ====
section
/-! DEFINITION. The tag table of the tag-managed store (R242, R243, R266-R269). -/

namespace Sys2Proof.Machine

/-- R266: the slot a slot register names: a fault kind, or the slot. -/
def State.slotOf (s : State) (a : Word) : Except Nat Nat :=
  let mine : Bool := s.ownCore a && decide (0x80000 ≤ field a 21 0)
  match s.route a 1 with
  | .error k => .error (if mine then k else 4)
  | .ok (.loc _ _ b) => if mine then .ok ((b - 0x80000) / 128) else .error 4
  | .ok _ => .error 4

/-- Local-window address of a slot's first byte in the acting thread's core. -/
def State.slotAddr (s : State) (slot : Nat) : Nat :=
  s.ownPkg * 2 ^ 48 + 2 ^ 47 + s.cur.loc.cluster * 2 ^ 40 + s.cur.loc.core * 2 ^ 37 + 0x80000 + 128 * slot

/-- The slot of a share of the acting thread's core that holds a line (R243: at most one). -/
def State.slotHolding (s : State) (share : Nat) (tag : BitVec 49) : Option Nat :=
  ((List.range 2048).map (· + 2048 * share)).find? fun n =>
    let e := s.tagOf s.cur.loc.cluster s.cur.loc.core n
    e.valid && e.tag == tag

def lineTag (a : Word) : BitVec 49 := a.extractLsb' 7 49

/-- R267 -/
def execTlook (g : Guard) (d rs x : BitVec 5) (imm : BitVec 32) (s : State) : Res :=
  .next (if !s.guard g then s else
    let a := s.ra rs
    let share := imm.toNat % 8
    if field a 63 56 ≠ 0 then s.raise 4 a
    else if !s.p.owns (8 * s.cur.loc.core + share) then s.raise 5 (BitVec.ofNat 64 share)
    else
      let r := s.slotHolding share (lineTag a)
      let v := match r with
        | some n => BitVec.ofNat 64 (s.slotAddr n + a.toNat % 128)
        | none => 0
      (s.landA 6 d v).landP 6 x.toNat r.isSome)

/-- R268: whether a slot can take a line. -/
def State.mayTag (s : State) (slot : Nat) (tag : BitVec 49) : Bool :=
  let e := s.tagOf s.cur.loc.cluster s.cur.loc.core slot
  !e.pin && !(e.valid && e.dirty != 0) && (match s.slotHolding (slot / 2048) tag with | some n => n == slot | none => true)

/-- R268 -/
def execTset (g : Guard) (d rs x : BitVec 5) (s : State) : Res :=
  .next (if !s.guard g then s else
    let a := s.ra rs
    if field a 63 56 ≠ 0 then s.raise 4 a else
    match s.slotOf (s.ra x) with
    | .error k => s.raise k (s.ra x)
    | .ok n =>
      let tag := lineTag a
      if s.mayTag n tag then
        let e : TagEntry := { s.tagOf s.cur.loc.cluster s.cur.loc.core n with tag := tag, valid := true, dirty := 0 }
        (s.setTag s.cur.loc.cluster s.cur.loc.core n e).landP 6 d.toNat true
      else s.landP 6 d.toNat false)

/-- The dirty words of a slot: index, data, poison (R269). -/
def State.dirtyWords (s : State) (slot : Nat) (dirty : BitVec 16) : List (Nat × Word × Bool) :=
  let f := flatLocal s.cur.loc.cluster s.cur.loc.core (0x80000 + 128 * slot)
  ((List.range 16).filter fun i => dirty.getLsbD i).map fun i => (i, s.word (f + 8 * i), s.poisoned (f + 8 * i))

/-- R269: the line address of a tag. -/
def tagLine (tag : BitVec 49) : Word := (tag.setWidth 64) <<< 7

/-- R269, R262: where a write-back goes; the stores of the control space and the boards take none. -/
def State.writeTarget (s : State) (va : Word) (n : Nat) : Except Nat Target :=
  match s.route va n with
  | .error k => .error k
  | .ok (.counters _) => .error 5
  | .ok (.board _ _) => .error 4
  | .ok t => .ok t

/-- R269, R313: the dirty words of a slot of a peer's line leave as requests. -/
def State.askWords (s : State) (pkg : Nat) (line : Word) (lat : Nat) (w : List (Nat × Word × Bool)) : State :=
  w.foldl (fun s (i, v, p) =>
    let a := { s.newAcc .store (line + BitVec.ofNat 64 (8 * i)) 8 false 24 v false 0 with
      id := s.nextId, lat := lat, due := s.now + lat, pois := p }
    { s.emit (.request (s.peerAddr pkg) pkg (s.sendStamp 0) a) with
      nextId := s.nextId + 1
      cur := { s.cur with asked := s.cur.asked ++ [{ a with op := .writeBack }] } }) s

/-- R269: the dirty words of a slot leave for their home; the thread is out of rotation until they have arrived. -/
def State.writeBack (s : State) (pd slot : Nat) (inv : Bool) (e : TagEntry) : State :=
  let line := tagLine e.tag
  match s.writeTarget line 128 with
  | .error k => s.raise k line
  | .ok t =>
    let w := s.dirtyWords slot e.dirty
    let s := s.setTag s.cur.loc.cluster s.cur.loc.core slot { e with dirty := 0 }
    let (lat, s) := s.accessTime t
    let s := { s with nextId := s.nextId + 1, cur := { s.cur with status := .access s.nextId } }
    match t with
    | .peer pkg => (s.askWords pkg line lat w).dueIn lat rankDone (.accessComplete s.cur.uid (.writeBack pd slot inv line w 0 none none))
    | t => s.dueIn (lat / 2) (accessRank s.cur.loc t)
        (.accessComplete s.cur.uid (.writeBack pd slot inv line w (lat - lat / 2) none none))

/-- The slot stops being valid; a queue head may wait for it (R75). -/
def State.invalidate (s : State) (slot : Nat) : State :=
  let e := s.tagOf s.cur.loc.cluster s.cur.loc.core slot
  (s.setTag s.cur.loc.cluster s.cur.loc.core slot { e with valid := false }).lookAtHead s.cur.loc.cluster

/-- R269: f is 0 `.wb`, 1 `.cl`, 2 `.inv`. -/
def execTdrop (g : Guard) (d x : BitVec 5) (f : BitVec 2) (s : State) : Res :=
  .next (if !s.guard g then s else
    match s.slotOf (s.ra x) with
    | .error k => s.raise k (s.ra x)
    | .ok n =>
      let e := s.tagOf s.cur.loc.cluster s.cur.loc.core n
      if e.pin && f != 1 then s.landP 6 d.toNat false
      else if !e.valid then s.landP 6 d.toNat true
      else if f ≠ 2 ∧ e.dirty ≠ 0 then s.writeBack d.toNat n (f != 1) e
      else (if f = 1 then s else s.invalidate n).landP 6 d.toNat true)

/-- R17, R269: a write-back that faults has written no word and keeps every dirty bit. -/
def State.undoWriteBack (s : State) (slot : Nat) (w : List (Nat × Word × Bool)) : State :=
  let e := s.tagOf s.cur.loc.cluster s.cur.loc.core slot
  let dirty := w.foldl (fun (m : BitVec 16) x => m ||| (1#16 <<< x.1)) e.dirty
  s.setTag s.cur.loc.cluster s.cur.loc.core slot { e with dirty := dirty }

/-- One word of a write-back: data only, or the poison pattern (R269). -/
def State.homeWord (s : State) (flat : Nat) (w : Word) (pois : Bool) : State :=
  if pois && decide (flat < flatSramBase) then s.poison flat else s.store flat 8 w.toNat

/-- R269: the words of a write-back perform at their home. -/
def State.homeWords (s : State) (flat : Nat) (w : List (Nat × Word × Bool)) : State :=
  w.foldl (fun s (i, v, p) => s.homeWord (flat + 8 * i) v p) s

/-- R269: the end of a write-back that wrote its words. -/
def State.wroteBack (s : State) (pd slot : Nat) (inv : Bool) : State :=
  let s := if inv then s.invalidate slot else s
  let s := s.landEarlier
  let s := if pd = 0 then s else { s with cur := { s.cur with pw := s.cur.pw ||| (1#32 <<< pd) } }
  s.retire.releaseHeld.rejoin s.now

/-- R269: a write-back where it arrives: its words perform together, or none does; what it found. `again` is the event that
asks its channel again (R250). -/
def State.performWriteBack (s : State) (line : Word) (w : List (Nat × Word × Bool)) (phys : Option Nat)
    (again : Option Nat → Instr) : State × Perf :=
  match s.writeTarget line 128 with
  | .error k => (s, .bad k)
  | .ok (.loc cl co b) => (s.homeWords (flatLocal cl co b) w, .ok 0)
  | .ok (.host off) => (s.homeWords (flatHost (s.p.hostBase.toNat + off)) w, .ok 0)
  | .ok (.hbm home off) =>
    let first := phys.isNone
    match (match phys with | some x => Except.ok x | none => s.p.translate off s.cur.asid.toNat true) with
    | .error why => (s, .miss why)
    | .ok phys =>
      if !s.p.hbmOpen off 128 7 then (s, .bad 6)
      else
        let s := if first && home != s.cur.loc.cluster then
            s.countHot off s.cur.asid.toNat (BitVec.ofNat 2 (s.cur.loc.cluster / 12)) else s
        match s.channelTurn phys (again (some phys)) with
        | (true, s) => ((s.count 19 w.length).homeWords phys w, .ok 0)
        | (false, s) => (s, .queued)
  | .ok (.sram t b) =>
    if !s.clearingCovers t b 128 (some 7) then (s, .bad 6)
    else if s.portBusy t b then (s, .later s.nextTick)
    else (s.homeWords (flatSram s.p.first t b) w, .ok 0)
  | .ok (.peer _) => (s, if s.cur.asked.any fun (x : Acc) => x.op == AccOp.writeBack then .later (s.now + 1) else .ok 0)
  | .ok _ => (s, .bad 4)

/-- R269: a write-back arrives, or completes with what it found; a miss parks its thread (R322). -/
def State.endWriteBack (s : State) (pd slot : Nat) (inv : Bool) (line : Word) (w : List (Nat × Word × Bool)) (back : Nat)
    (found phys : Option Nat) : State :=
  match found with
  | some 0 => s.wroteBack pd slot inv
  | some k =>
    let s := s.undoWriteBack slot w
    if k < 32 then s.faultAccess k line
    else s.park { s.newAcc .writeBack line 8 false 24 0 false 0 with res := BitVec.ofNat 64 (k - 32) }
  | none =>
    let event (f x : Option Nat) : Instr := .accessComplete s.cur.uid (.writeBack pd slot inv line w back f x)
    let (s, r) := s.performWriteBack line w phys (event none)
    let again (s : State) (c rank : Nat) (f : Option Nat) : State := s.dueAt c rank (.ev (event f phys))
    match r with
    | .ok _ => again s (s.now + back) rankDone (some 0)
    | .bad k => again s (s.now + back) rankDone (some k)
    | .miss why => again s (s.now + back) rankDone (some (32 + why))
    | .later c => again s c (rankEngine + s.cur.loc.key) none
    | .queued => s

/-- R313: a peer refuses a word of a write-back of the acting thread: a precise fault, and every dirty bit kept. -/
def State.failWriteBack (s : State) (kind : Nat) : State :=
  let mine (i : Item) : Option (Nat × Word × List (Nat × Word × Bool)) := match i.what with
    | .ev (.accessComplete u (.writeBack _ slot _ line w _ _ _)) => if u = s.cur.uid then some (slot, line, w) else none
    | _ => none
  match s.agenda.findSome? mine with
  | none => s
  | some (slot, line, w) =>
    let s := { s with
      agenda := s.agenda.filter fun i => (mine i).isNone
      cur := { s.cur with asked := s.cur.asked.filter fun (x : Acc) => x.op != AccOp.writeBack } }
    (s.undoWriteBack slot w).faultAccess kind line

end Sys2Proof.Machine
end

