-- ==== Sys2Proof/Machine/Jobs.lean ====
section
/-! DEFINITION. Engine jobs (R270-R285): commands, job IDs and statuses, matrix products, tensor copies
and the staging of task footprints (R75, R76). The steps of a `gjob` are in Graph.lean. -/

namespace Sys2Proof.Machine

/-! Jobs of a partition. -/

def State.job (s : State) (key : Nat) : Option Job := s.p.jobs.find? (·.key == key)

def State.setJob (s : State) (j : Job) : State :=
  { s with p := { s.p with jobs := s.p.jobs.map fun (x : Job) => if x.key = j.key then j else x } }

/-! Acceptance (R270, R271). -/

/-- Jobs a thread has unfinished on an engine. -/
def State.unfinished (s : State) (uid eng : Nat) : Nat := (s.p.jobs.filter fun j => j.uid == uid && j.eng == eng).length

/-- R275: the statuses a thread holds: of its unfinished jobs, and of the last 16 on each engine. -/
def keepStatuses (l : List JobStatus) : List JobStatus :=
  let recent (e : Nat) : List JobStatus := (l.filter (·.eng == e)).take 16
  l.filter fun j => j.code == 0 || (recent j.eng).any (· == j)

/-- Words of the rows and elements a command writes, by flat address; none for those with no full/empty bit. -/
abbrev Dests := List Nat

/-! Matrix jobs (R276-R280). -/

/-- Table 9.8: an element format code. -/
def matFmt (c : Nat) : Fmt :=
  match c with
  | 0 => f8e4
  | 1 => f8e5
  | 2 => f6e3
  | 3 => f6e2
  | 4 => f4e2
  | 5 => bf16
  | _ => f16

/-- An operand descriptor (Table 11.7). -/
structure Pair where
  base : Word
  rp   : Nat
  tp   : Nat
  rot  : Nat
  bad  : Bool
  deriving DecidableEq, Repr

def pairOf (a b : Word) : Pair := ⟨a, field b 15 0, field b 39 16, field b 43 40, field b 63 44 != 0⟩

/-- R276: RowAddr. -/
def Pair.row (p : Pair) (r : Nat) : Word :=
  p.base + BitVec.ofNat 64 (r / 32 * p.tp + r % 32 * p.rp + 8 * (p.rot * (r % 32) % 16))

/-- R276: a row of C: tile t, row rho. -/
def Pair.crow (p : Pair) (t rho : Nat) : Word := p.base + BitVec.ofNat 64 (t * p.tp + rho * p.rp)

/-- What a matrix command says (Table 11.6). -/
structure MatCmd where
  gather : Bool
  a  : Pair
  b  : Pair
  c  : Pair
  list : Word
  fa : Nat
  fb : Nat
  mt : Nat
  nt : Nat
  kc : Nat
  z  : Bool
  k  : Bool
  deriving DecidableEq, Repr

def matCmd (gather : Bool) (a0 a1 b0 b1 c0 c1 list : Word) (imm : BitVec 32) : MatCmd :=
  let f (hi lo : Nat) : Nat := field (imm.setWidth 64) hi lo
  { gather := gather
    a := pairOf a0 a1
    b := pairOf b0 b1
    c := pairOf c0 c1
    list := list
    fa := f 2 0
    fb := f 5 3
    mt := if gather then 1 else f 7 6 + 1
    nt := f 9 8 + 1
    kc := f 17 10 + 1
    z := imm.getLsbD 18
    k := gather && imm.getLsbD 19 }

/-- Bytes of an A row, of a B row. -/
def MatCmd.ra (m : MatCmd) : Nat := 8 * m.kc * (matFmt m.fa).width
def MatCmd.rb (m : MatCmd) : Nat := 8 * m.kc * (matFmt m.fb).width

def MatCmd.arows (m : MatCmd) : List Word := (List.range (32 * m.mt)).map m.a.row
def MatCmd.brows (m : MatCmd) : List Word := (List.range (32 * m.nt)).map m.b.row
def MatCmd.crows (m : MatCmd) : List Word :=
  (List.range (m.mt * m.nt)).flatMap fun t => (List.range 32).map fun r => m.c.crow t r

/-- R277: a pair's own fields: aligned, no reserved bit, and no rotation for C. -/
def Pair.ok (p : Pair) (align : Nat) (rot : Bool) : Bool :=
  !p.bad && p.base.toNat % align == 0 && p.rp % align == 0 && p.tp % align == 0 && (rot || p.rot == 0)

/-- Two byte ranges share a byte. -/
def meets (a n b m : Nat) : Bool := decide (a < b + m) && decide (b < a + n)

/-- R277: the first of a list of rows of n bytes that shares a byte with an earlier one. -/
def overlapping (n : Nat) : List Word → List Word → Option Word
  | _, [] => none
  | seen, w :: r => if seen.any fun x => meets x.toNat n w.toNat n then some w else overlapping n (w :: seen) r

/-- R67, R68: a range of the local window of a cluster: its fault. -/
def State.rowFault (s : State) (cluster n : Nat) (va : Word) : Option (Nat × Word) :=
  match s.route va n with
  | .error k => some (k, va)
  | .ok (.loc cl _ _) => if cl = cluster then none else some (4, va)
  | .ok _ => some (4, va)

/-- Of several faults the lowest kind, the first of it (R391). -/
def firstFault (l : List (Nat × Word)) : Option (Nat × Word) :=
  match l.find? (·.1 == 4) with
  | some f => some f
  | none => l.head?

/-- R277: what is wrong with a matrix command at issue. -/
def State.matFault (s : State) (cluster : Nat) (m : MatCmd) : Option (Nat × Word) :=
  let pairs := (if m.a.ok 8 true then [] else [(4, m.a.base)]) ++ (if m.b.ok 8 true then [] else [(4, m.b.base)])
    ++ (if m.c.ok 128 false then [] else [(4, m.c.base)])
    ++ (if m.gather && m.list.toNat % 128 != 0 then [(4, m.list)] else [])
  if !pairs.isEmpty then pairs.head? else
  let arows := if m.gather then [] else m.arows
  let base := if m.gather then ((s.rowFault cluster 1 m.a.base).filter (·.1 == 4)).toList else []
  let reach := base ++ (arows.filterMap (s.rowFault cluster m.ra)) ++ (m.brows.filterMap (s.rowFault cluster m.rb))
    ++ (m.crows.filterMap (s.rowFault cluster 128)) ++ (if m.gather then (s.rowFault cluster 128 m.list).toList else [])
  let twice := (overlapping m.ra [] arows).toList ++ (overlapping m.rb [] m.brows).toList ++ (overlapping 128 [] m.crows).toList
  let onC := m.crows.filter fun c =>
    arows.any (fun x => meets c.toNat 128 x.toNat m.ra) || m.brows.any (fun x => meets c.toNat 128 x.toNat m.rb) ||
    (m.gather && meets c.toNat 128 m.list.toNat 128)
  firstFault (reach ++ twice.map (fun w => (4, w)) ++ onC.map (fun w => (4, w)))

/-- The flat address of a local-window address that has been checked. -/
def State.flatOf (s : State) (va : Word) : Nat :=
  match s.route va 1 with
  | .ok (.loc cl co b) => flatLocal cl co b
  | _ => flatHostBase

/-- The words of rows of 128 bytes. -/
def State.rowWords (s : State) (rows : List Word) : Dests :=
  rows.flatMap fun r => (List.range 16).map fun i => s.flatOf r + 8 * i

/-- R239, R280: the bank a word lies in: its core, its store, and byte[6:3]. -/
def bankOf (flat : Nat) : Nat :=
  match localOf flat with
  | some (_, co, b) => (co * 2 + (if b < 0x80000 then 0 else 1)) * 16 + b / 8 % 16
  | none => 0

/-- The most words in one bank. -/
def mostInBank (l : List Nat) : Nat :=
  let t := l.foldl (fun (t : Tab Nat) f => let b := bankOf f; Tab.put b (Tab.getD 0 b t + 1) t) []
  t.foldl (fun m e => max m e.2) 0

/-- The words of chunk c of rows whose elements are w bits wide. -/
def State.chunkWords (s : State) (rows : List Word) (w c : Nat) : List Nat :=
  rows.flatMap fun r => (List.range w).map fun i => s.flatOf r + 8 * (w * c + i)

/-- A rows of row tile i; a gather names its own. -/
def MatCmd.tileA (m : MatCmd) (rows : List Word) (i : Nat) : List Word := if m.gather then rows.eraseDups else (rows.drop (32 * i)).take 32

/-- R280: the steps of a matrix job, its A rows known. -/
def State.matSteps (s : State) (m : MatCmd) (arows : List Word) : Nat :=
  let wa := (matFmt m.fa).width
  let wb := (matFmt m.fb).width
  let cb := (List.range (m.mt * m.nt * m.kc)).foldl (fun n x =>
    let c := x % m.kc
    let t := x / m.kc
    n + mostInBank (s.chunkWords (m.tileA arows (t / m.nt)) wa c ++
      s.chunkWords ((m.brows.drop (32 * (t % m.nt))).take 32) wb c)) 0
  24 + cb + m.mt * m.nt * (32 + (if !m.z || m.k then 32 else 0))

/-- Element values of chunk c of a row. -/
def State.rowChunk (s : State) (f : Fmt) (row : Word) (c : Nat) : List FVal :=
  let v := s.bytes (s.flatOf row + 8 * f.width * c) (8 * f.width)
  (List.range 64).map fun k => f.value (v / 2 ^ (f.width * k) % 2 ^ f.width)

/-- R278, R279: one result: chunks over the A rows that target it. -/
def State.product (s : State) (m : MatCmd) (arows : List Word) (brow : Word) (acc : Nat) : Nat :=
  (List.range m.kc).foldl (fun acc c =>
    let b := s.rowChunk (matFmt m.fb) brow c
    chunkSum acc (.fin false 1 0) (arows.flatMap fun a => (s.rowChunk (matFmt m.fa) a c).zip b)) acc

/-- Bytes of a gather's list from byte i on, as the job has read it. -/
def listBytes (l : List Word) (i n : Nat) : Nat := (l.getD (i / 8) 0).toNat / 2 ^ (8 * (i % 8)) % 2 ^ (8 * n)

/-- R279: the A row that entry i of a list names, if it names one. -/
def listSource (l : List Word) (i : Nat) : Option Nat :=
  let src := listBytes l (2 * i) 2
  if src < 32768 then some src else none

/-- R279: a list entry that is not dropped: its A row, and the C row it targets. -/
def listEntry (l : List Word) (i : Nat) : Option (Nat × Nat) :=
  let dst := listBytes l (64 + i) 1
  if dst < 128 then (listSource l i).map fun a => (a, dst % 32) else none

/-- R279: the A rows a list names. -/
def MatCmd.listRows (m : MatCmd) (l : List Word) : List Word := ((List.range 32).filterMap (listSource l)).map m.a.row

/-- R278, R279: the rows of A that make row rho of row tile i. -/
def MatCmd.rowsOf (m : MatCmd) (l : List Word) (i rho : Nat) : List Word :=
  if m.gather then ((List.range 32).filterMap (listEntry l)).filterMap fun (a, q) => if q = rho then some (m.a.row a) else none
  else [m.a.row (32 * i + rho)]

/-- R278, R279: whether the job writes row rho of its C tiles. -/
def MatCmd.writesRow (m : MatCmd) (l : List Word) (rho : Nat) : Bool :=
  !m.gather || !m.k || !(m.rowsOf l 0 rho).isEmpty

/-- R278, R279: the 32 results of row rho of tile t, as 128 bytes. -/
def State.resultRow (s : State) (m : MatCmd) (l : List Word) (t rho : Nat) : Nat :=
  let rows := m.rowsOf l (t / m.nt) rho
  (List.range 32).foldl (fun v n =>
    let acc := if m.z then 0 else s.bytes (s.flatOf (m.c.crow t rho) + 4 * n) 4
    let r := if m.gather && rows.isEmpty then 0
      else s.product m rows (m.b.row (32 * (t % m.nt) + n)) acc
    v + r % 2 ^ 32 * 2 ^ (32 * n)) 0

/-- R274, R278, R279: the first poisoned operand word of a matrix job: C rows it reads, then A and B rows, tile by tile. -/
def State.matPoison (s : State) (m : MatCmd) (l : List Word) : Option Word :=
  let bad (n : Nat) (r : Word) : Option Word :=
    ((List.range (n / 8)).find? fun i => s.poisoned (s.flatOf r + 8 * i)).map fun i => r + BitVec.ofNat 64 (8 * i)
  let cs := if m.z then [] else (List.range (m.mt * m.nt)).flatMap fun t =>
    ((List.range 32).filter (m.writesRow l)).map fun r => (128, m.c.crow t r)
  let as_ := (if m.gather then m.listRows l else m.arows).map fun r => (m.ra, r)
  let bs := m.brows.map fun r => (m.rb, r)
  (cs ++ as_ ++ bs).findSome? fun (n, r) => bad n r

/-- Rows of C the job writes, in order. -/
def MatCmd.outRows (m : MatCmd) (l : List Word) : List (Nat × Nat) :=
  (List.range (m.mt * m.nt)).flatMap fun t => ((List.range 32).filter (m.writesRow l)).map fun r => (t, r)

/-- R275, R277: the first word, in list order, of the A rows of a gather that the job cannot use. -/
def State.listFault (s : State) (cluster : Nat) (m : MatCmd) (l : List Word) : Option (Nat × Word) :=
  let rows := m.listRows l
  let word (r : Word) : Option (Nat × Word) :=
    (List.range (m.ra / 8)).findSome? fun i => s.rowFault cluster 8 (r + BitVec.ofNat 64 (8 * i))
  let onC (r : Word) : Option (Nat × Word) :=
    ((List.range (m.ra / 8)).find? fun i =>
      (m.crows.any fun c => meets c.toNat 128 (r.toNat + 8 * i) 8)).map fun i => (4, r + BitVec.ofNat 64 (8 * i))
  match rows.findSome? word with
  | some f => some f
  | none => match (overlapping m.ra [] rows.eraseDups).map fun r => (4, r) with
    | some f => some f
    | none => rows.findSome? onC

/-- A row of C written, its words full. -/
def State.writeRow (s : State) (flat v : Nat) : State :=
  (List.range 16).foldl (fun s i => s.storeWord (flat + 8 * i) (BitVec.ofNat 64 (v / 2 ^ (64 * i))) true) s

/-- R274: a job stops with a code and the address of the first failing word; a matrix job's unfinished words are
poisoned, those of any other keep their contents and are set full. -/
def State.stopJob (s : State) (j : Job) (code : Nat) (addr : Word) : State × Job :=
  let s := j.emptied.foldl (fun s f => match j.cmd with
    | .mat _ _ _ _ _ _ _ _ _ => s.poison f
    | _ => s.setFull f true) s
  (s, { j with code := code, addr := BitVec.ofNat 64 (field addr 55 0), emptied := [], step := j.steps })

/-- R279: the first step of a gather: the list is read and kept, the words the job is to write become empty. -/
def State.gatherList (s : State) (j : Job) (m : MatCmd) : State × Job :=
  let f := s.flatOf m.list
  let l := (List.range 16).map fun i => s.word (f + 8 * i)
  let bad := (List.range 16).find? fun i => s.poisoned (f + 8 * i)
  let s := (List.range 16).foldl (fun s i => s.noteErrors (f + 8 * i)) s
  let dests := s.rowWords ((m.outRows l).map fun (t, r) => m.c.crow t r)
  let s := dests.foldl (fun s f => s.setFull f false) s
  let j := { j with rowList := l, emptied := dests }
  match bad with
  | some i => s.stopJob j 2 (m.list + BitVec.ofNat 64 (8 * i))
  | none => match s.listFault j.cluster m l with
    | some (k, a) => s.stopJob j (if k = 4 then 3 else 4) a
    | none => (s, { j with step := 1, steps := s.matSteps m (m.listRows l) })

/-- R278, R279, R280: the step of a matrix job: a gather reads its list in the first, every job reads its operands and
writes its results in the last (assumption 9). -/
def State.matStep (s : State) (j : Job) (m : MatCmd) : State × Job :=
  if m.gather && j.step == 0 then s.gatherList j m
  else if j.step + 1 < j.steps then (s, { j with step := j.step + 1 })
  else match s.matPoison m j.rowList with
    | some a => s.stopJob j 2 a
    | none =>
      let rows := (m.outRows j.rowList).map fun (t, r) => (s.flatOf (m.c.crow t r), s.resultRow m j.rowList t r)
      let s := rows.foldl (fun s (f, v) => s.writeRow f v) s
      (s, { j with step := j.steps, emptied := [] })

/-! Copy jobs (R281-R283). -/

/-- Element e of a list of fields of w bits packed in words from word k on. -/
def packed (l : List Word) (k w e : Nat) : Nat := (l.getD (k + e * w / 64) 0).toNat / 2 ^ (e * w % 64) % 2 ^ w

/-- Counts and signed strides of a copy descriptor (Table 11.9). -/
def copyN (l : List Word) (m : Nat) : Nat := packed l 3 16 m
def copyS (l : List Word) (m : Nat) : Int := signExt (BitVec.ofNat 64 (packed l 6 32 m)) 32
def copyT (l : List Word) (m : Nat) : Int := signExt (BitVec.ofNat 64 (packed l 12 32 m)) 32
def copySize (l : List Word) : Nat := 8 * 2 ^ field (l.getD 2 0) 6 4
def copyDims (l : List Word) : Nat := field (l.getD 2 0) 3 0
/-- E, the product of the counts. -/
def copyCount (l : List Word) : Nat := (List.range 12).foldl (fun p m => p * copyN l m) 1

/-- R281: whether every field of a copy descriptor is good. -/
def copyOk (l : List Word) : Bool :=
  let w2 := l.getD 2 0
  let nd := copyDims l
  let z : Int := copySize l
  decide (1 ≤ nd) && decide (nd ≤ 12) && decide (field w2 6 4 ≤ 4) && field w2 63 7 == 0 &&
  (List.range 6).all (fun i => l.getD (18 + i) 0 == 0) &&
  (List.range 12).all (fun m =>
    copyN l m != 0 && copyS l m % z == 0 && copyT l m % z == 0 &&
    (decide (m < nd) || (copyN l m == 1 && copyS l m == 0 && copyT l m == 0))) &&
  decide (copyCount l ≤ 2 ^ 32)

/-- R282: the address of element k along strides. -/
def copyAddr (l : List Word) (base : Word) (str : Nat → Int) (k : Nat) : Word :=
  let (off, _) := (List.range 12).foldl (fun (r : Int × Nat) m =>
    (r.1 + ((r.2 % copyN l m : Nat) : Int) * str m, r.2 / copyN l m)) ((0 : Int), k)
  base + BitVec.ofInt 64 off

def copySrc (l : List Word) (k : Nat) : Word := copyAddr l (l.getD 0 0) (copyS l) k
def copyDst (l : List Word) (k : Nat) : Word := copyAddr l (l.getD 1 0) (copyT l) k

/-- The lowest and highest element addresses. -/
def copyEnds (l : List Word) (base : Word) (str : Nat → Int) : Word × Word :=
  let lo := (List.range 12).foldl (fun (a : Int) m => a + min 0 (((copyN l m - 1 : Nat) : Int) * str m)) 0
  let hi := (List.range 12).foldl (fun (a : Int) m => a + max 0 (((copyN l m - 1 : Nat) : Int) * str m)) 0
  (base + BitVec.ofInt 64 lo, base + BitVec.ofInt 64 hi)

/-- R281: the check of an end of a copy at issue. -/
def State.copyEnd (s : State) (l : List Word) (base : Word) (str : Nat → Int) : Option (Nat × Word) :=
  let z := copySize l
  let (lo, hi) := copyEnds l base str
  if base.toNat % z ≠ 0 then some (4, lo) else
  if field base 63 56 ≠ 0 ∨ !s.validPkg (field base 55 48) then some (4, lo) else
  if field base 55 48 ≠ s.ownPkg then (if field base 47 46 = 0 then none else some (4, lo)) else
  match field base 47 46 with
  | 2 => firstFault ([lo, hi].filterMap fun a => match s.route a z with
    | .error k => some (k, a)
    | .ok (.loc _ _ _) => none
    | .ok _ => some (4, a))
  | 3 => if field base 45 44 = 0 then none else some (4, lo)
  | _ => if field lo 63 46 = field base 63 46 ∧ field hi 63 46 = field base 63 46 then none else some (4, if field lo 63 46 = field base 63 46 then hi else lo)

/-- R281: what is wrong with a copy command whose descriptor was read at `addr`. -/
def State.copyFault (s : State) (l : List Word) (addr : Word) : Option (Nat × Word) :=
  if !copyOk l then some (4, addr)
  else firstFault ((s.copyEnd l (l.getD 0 0) (copyS l)).toList ++ (s.copyEnd l (l.getD 1 0) (copyT l)).toList)

/-- R308: the translation of an engine's HBM access: what its arrival at the home interface found, else what is there now. -/
def State.engineXlat (s : State) (asid : BitVec 12) (off : Nat) (write : Bool) : Option (Option Nat) → Option Nat
  | some x => x
  | none => (s.p.translate off asid.toNat write).toOption

/-- The flat address of n bytes that an engine reaches at a virtual address, as a reader or as the writer of that code, with
what its arrival found; the error is a status code (Table 11.5). -/
def State.engineAt (s : State) (asid : BitVec 12) (va : Word) (n : Nat) (writer : Option Nat) (x : Option (Option Nat)) :
    Except Nat Nat :=
  match s.route va n with
  | .error 5 => .error 4
  | .error _ => .error 3
  | .ok (.loc cl co b) => .ok (flatLocal cl co b)
  | .ok (.hbm _ off) => match s.engineXlat asid off writer.isSome x with
    | none => .error 3
    | some phys => (match writer with
      | some w => if s.p.hbmOpen off n w then .ok phys else .error 4
      | none => .ok phys)
  | .ok (.host off) => .ok (flatHost (s.p.hostBase.toNat + off))
  | .ok (.sram t b) => if s.clearingCovers t b n writer then .ok (flatSram s.p.first t b) else .error 4
  | .ok _ => .error 3

/-- And of an access that is not on its way. -/
def State.engineFlat (s : State) (asid : BitVec 12) (va : Word) (n : Nat) (writer : Option Nat) : Except Nat Nat :=
  s.engineAt asid va n writer none

/-- R275: of n bytes that an engine cannot reach, the first word it cannot. -/
def State.firstBad (s : State) (asid : BitVec 12) (va : Word) (n : Nat) (writer : Option Nat) (x : Option (Option Nat)) : Word :=
  let at_ (i : Nat) : Word := va + BitVec.ofNat 64 (8 * i)
  match (List.range (n / 8)).find? fun i => !(s.engineAt asid (at_ i) 8 writer (x.map fun p => p.map (· + 8 * i))).toBool with
  | some i => at_ i
  | none => va

/-- R313, R389: a job's requests to a peer package, one for each word from an address on; their numbers are those from
`nextId` on. -/
def State.askJob (s : State) (j : Job) (pkg : Nat) (op : AccOp) (va : Word) (due : Nat) (w : List (Word × Bool)) : State :=
  w.zipIdx.foldl (fun s ((v, p), i) =>
    { s.emit (.request (s.peerAddr pkg) pkg (s.sendStamp 0) ⟨s.nextId, op, va + BitVec.ofNat 64 (8 * i), 8, false, 24, v, false, 0, due - s.now, due, j.asid,
        false, j.quad, s.now, 0, 0, 0, p, true, none⟩) with nextId := s.nextId + 1 }) s

/-- R282, R274: the destination words of a copy from element k on that lie in a peer package are to be set empty, or
full. -/
def State.askBits (s : State) (j : Job) (k : Nat) (op : AccOp) : State :=
  match j.cmd with
  | .copy l _ =>
    (match s.route (l.getD 1 0) (copySize l) with
    | .ok (.peer pkg) => ((List.range (copyCount l)).drop k).foldl (fun s i =>
        s.askJob j pkg op (copyDst l i) (s.now + s.figureOf j.loc (.peer pkg) * s.p.run.d)
          (List.replicate (copySize l / 8) (0, false))) s
    | _ => s)
  | _ => s

/-- R282: the words of a copy's destination that carry a full/empty bit. -/
def State.copyDests (s : State) (asid : BitVec 12) (l : List Word) : Dests :=
  (List.range (copyCount l)).flatMap fun k =>
    match s.engineFlat asid (copyDst l k) (copySize l) none with
    | .ok f => if f < flatSramBase then (List.range (copySize l / 8)).map fun i => f + 8 * i else []
    | .error _ => []

/-- The place of one end of an element: inside the cluster's local store, or outside it with its access time. -/
def State.outside (s : State) (j : Job) (va : Word) (n : Nat) : Option Target :=
  match s.route va n with
  | .ok (.loc cl co b) => if cl = j.cluster then none else some (.loc cl co b)
  | .ok t => some t
  | .error _ => none

/-- Source and destination of element k of a copy or staging job, its size, and the writer it is checked as. -/
def State.element (s : State) (j : Job) (k : Nat) : Word × Word × Nat :=
  match j.cmd with
  | .copy l _ => (copySrc l k, copyDst l k, copySize l)
  | .stage src slots _ =>
    (src + BitVec.ofNat 64 (128 * k),
      BitVec.ofNat 64 (2 ^ 47 + j.cluster * 2 ^ 40 + j.core * 2 ^ 37 + 0x80000 + 128 * slots.getD k 0), 128)
  | _ => (0, 0, 8)

/-- Elements a job copies. -/
def Job.elements (j : Job) : Nat := j.steps - 16

/-- A job's source words, read now; or the code and the first word that cannot be read. A peer's words come with its
replies. -/
def State.readWords (s : State) (j : Job) (va : Word) (n : Nat) (x : Option (Option Nat)) :
    State × Except (Nat × Word) (List (Word × Bool)) :=
  match s.engineAt j.asid va n none x with
  | .error k => (s, .error (k, s.firstBad j.asid va n none x))
  | .ok f =>
    let s := if f < flatLocalBase then s.count 19 else s
    let l := (List.range (n / 8)).map fun i => (s.word (f + 8 * i), s.poisoned (f + 8 * i))
    ((List.range (n / 8)).foldl (fun s i => s.noteErrors (f + 8 * i)) s, .ok l)

/-- R243: a staged line's slot: tagged with its source, valid and clean, unless another slot of its share holds the line. -/
def State.tagStaged (s : State) (j : Job) (k : Nat) : State :=
  match j.cmd with
  | .stage src slots _ =>
    let n := slots.getD k 0
    let tag := lineTag (src + BitVec.ofNat 64 (128 * k))
    let other := ((List.range 2048).map (· + 2048 * (n / 2048))).any fun m =>
      m != n && (let e := s.tagOf j.cluster j.core m; e.valid && e.tag == tag)
    if other then s
    else s.setTag j.cluster j.core n { s.tagOf j.cluster j.core n with tag := tag, valid := true, dirty := 0 }
  | _ => s

/-- R282: an element's words written, each whole, full where the word has a bit; or the code and the first word that
cannot be written. A peer has written its words already. -/
def State.writeWords (s : State) (j : Job) (k : Nat) (va : Word) (w : List (Word × Bool)) (x : Option (Option Nat)) :
    State × Except (Nat × Word) (List Nat) :=
  let n := 8 * w.length
  match s.route va n with
  | .ok (.peer _) => (s, .ok [])
  | _ => match s.engineAt j.asid va n (some 9) x with
    | .error k => (s, .error (k, s.firstBad j.asid va n (some 9) x))
    | .ok f =>
      let s := if f < flatLocalBase then s.count 19 else s
      let s := w.zipIdx.foldl (fun s ((v, p), i) =>
        if f < flatSramBase then s.copyWord (f + 8 * i) v p else s.store (f + 8 * i) 8 v.toNat) s
      (s.tagStaged j k, .ok ((List.range w.length).map fun i => f + 8 * i))

/-- The words of element k's destination that carry a full/empty bit. -/
def State.elementDests (s : State) (j : Job) (k : Nat) : List Nat :=
  let (_, dst, n) := s.element j k
  match s.engineFlat j.asid dst n none with
  | .ok f => if f < flatSramBase then (List.range (n / 8)).map fun i => f + 8 * i else []
  | .error _ => []

/-- R274, R282: element k cannot be reached: nothing from it on is written, and the words that stay unwritten are set
full. -/
def State.failElement (s : State) (j : Job) (k code : Nat) (addr : Word) : State × Job :=
  let l := j.flights.filter fun f => decide (f.k < k)
  let keep := l.flatMap fun f => s.elementDests j f.k
  let s := (j.emptied.filter fun x => !keep.contains x).foldl (fun s x => s.setFull x true) s
  let s := s.askBits j k .fill
  (s, { j with
    code := code
    addr := BitVec.ofNat 64 (field addr 55 0)
    step := j.steps
    emptied := j.emptied.filter fun x => keep.contains x
    flights := l })

/-- R212: whether an end of an element lies in tensor SRAM whose port is taken in this tick. -/
def State.endPort (s : State) (va : Word) (n : Nat) : Bool :=
  match s.route va n with
  | .ok (.sram t b) => s.portBusy t b
  | _ => false

/-- An access of element k of a job is looked at again in the next logical tick. -/
def State.retryElement (s : State) (j : Job) (k : Nat) : State :=
  let w : Task := .ev (.accessComplete 0 (.job s.p.first j.key k))
  if s.agenda.any fun i => i.cycle == s.nextTick && i.what == w then s else s.dueAt s.nextTick (rankEngine + j.loc.key) w

/-- R283: elements that are ready are written in order, lowest first; one that meets a busy port of tensor SRAM waits for
the next logical tick (R212). -/
def drainFlights : Nat → State → Job → State × Job
  | 0, s, j => (s, j)
  | n + 1, s, j =>
    match j.flights with
    | [] => (s, j)
    | f :: r =>
      let (_, dst, _) := s.element j f.k
      if f.phase ≠ .ready then (s, j)
      else if s.endPort dst (8 * f.words.length) then (s.retryElement j f.k, j)
      else match s.writeWords j f.k dst f.words f.xlat with
      | (s, .ok l) =>
        let out := (s.outside j dst (8 * f.words.length)).isSome
        drainFlights n s { j with
          flights := r
          emptied := j.emptied.filter fun x => !l.contains x
          lastAcc := if out then s.now else j.lastAcc }
      | (s, .error (c, a)) =>
        let (s, j) := s.failElement { j with flights := r } f.k c a
        drainFlights n s j

/-- The time of a job's access outside its cluster's local store (R283). -/
def State.jobTime (s : State) (j : Job) (t : Target) : Nat × State :=
  match t with
  | .host _ => s.hostElapse
  | t => s.elapseAt (s.figureOf j.loc t) s.p.run.d

/-- The code of the arrival of an access of element k at its home interface. -/
def arrivalOf (k : Nat) : Nat := 2 ^ 40 + k

/-- An access of element k of a job completes after its time; one to HBM is translated half-way (R308, R347). -/
def State.flyElement (s : State) (j : Job) (k : Nat) (t : Target) : State :=
  let (c, s) := s.jobTime j t
  let go (s : State) (c k : Nat) : State := s.dueIn c (rankEngine + j.loc.key) (.accessComplete 0 (.job s.p.first j.key k))
  match t with
  | .hbm _ _ => go (go s (c / 2) (arrivalOf k)) c k
  | _ => go s c k

/-- R308, R327: an access of element k arrives at its home interface: it is translated, and counted where it comes from
another cluster. -/
def State.elementArrives (s : State) (j : Job) (k : Nat) : State × Job :=
  match j.flights.find? (·.k == k) with
  | none => (s, j)
  | some f =>
    let (src, dst, n) := s.element j k
    let write := f.phase != .reading
    match s.route (if write then dst else src) n with
    | .ok (.hbm home off) =>
      let x := s.engineXlat j.asid off write none
      let s := if x.isSome && home != j.cluster then s.countHot off j.asid.toNat j.quad else s
      (s, { j with flights := j.flights.map fun (y : CopyFlight) => if y.k = k then { y with xlat := some x } else y })
    | _ => (s, j)

/-- The requests of n words that leave next. -/
def State.asksFor (s : State) (n : Nat) : List (Nat × Option (Word × Bool)) :=
  (List.range n).map fun i => (s.nextId + i, none)

/-- The cycle in which an access of a job to a peer is due (R283, R389). -/
def State.peerDue (s : State) (j : Job) (pkg : Nat) : Nat := s.now + s.figureOf j.loc (.peer pkg) * s.p.run.d

/-- Changes element k's flight. -/
def Job.onFlight (j : Job) (k : Nat) (f : CopyFlight → CopyFlight) : Job :=
  { j with flights := j.flights.map fun (x : CopyFlight) => if x.k = k then f x else x }

/-- R283: the read of element k, whose flight is in the list and whose source lies outside the cluster's local store, is
issued. -/
def State.issueRead (s : State) (j : Job) (k : Nat) (src : Word) (n : Nat) (t : Target) : State × Job :=
  match t with
  | .peer pkg =>
    let due := s.peerDue j pkg
    (s.askJob j pkg .load src due (List.replicate (n / 8) (0, false)),
      j.onFlight k fun _ => ⟨k, .reading, [], s.asksFor (n / 8), due, none⟩)
  | t => (s.flyElement j k t, j.onFlight k fun _ => ⟨k, .reading, [], [], 0, none⟩)

/-- R282, R313: the writes to peer packages that no earlier element's read holds back leave. -/
def State.sendWrites (s : State) (j : Job) : State × Job :=
  let (s, l, _) := j.flights.foldl (fun (r : State × List CopyFlight × Bool) f =>
    let (s, l, held) := r
    let (_, dst, n) := s.element j f.k
    match f.phase with
    | .reading => (s, l ++ [f], true)
    | .blocked => (s, l ++ [f], true)
    | .unsent =>
      (match s.outside j dst n with
      | some (.peer pkg) =>
        if held then (s, l ++ [f], true)
        else
          let due := s.peerDue j pkg
          (s.askJob j pkg .store dst due f.words, l ++ [{ f with phase := .writing, asks := s.asksFor f.words.length, due := due }], false)
      | _ => (s, l ++ [f], held))
    | _ => (s, l ++ [f], held)) (s, [], false)
  (s, { j with flights := l })

/-- R283: the words of element k, whose flight is in the list, are there: its write is issued, or waits for the elements
below it. -/
def State.elementRead (s : State) (j : Job) (k : Nat) (w : List (Word × Bool)) : State × Job :=
  let (_, dst, n) := s.element j k
  let at_ (phase : FlightPhase) : Job := j.onFlight k fun _ => ⟨k, phase, w, [], 0, none⟩
  let (s, j) := match s.outside j dst n with
    | some (.peer _) => (s, at_ .unsent)
    | some t => (s.flyElement j k t, at_ .writing)
    | none => drainFlights 9 s (at_ .ready)
  s.sendWrites j

/-- The bytes of an end of an element: in a peer package, or by flat address. -/
def State.span (s : State) (j : Job) (va : Word) (n : Nat) : Option (Bool × Nat) :=
  match s.route va n with
  | .ok (.peer _) => some (true, va.toNat)
  | _ => ((s.engineFlat j.asid va n none).toOption).map fun f => (false, f)

/-- R282: whether the source of element k shares a byte with what an element below it has still to write. -/
def State.mustWait (s : State) (j : Job) (k : Nat) : Bool :=
  let (src, _, n) := s.element j k
  match s.span j src n with
  | none => false
  | some (q, a) => j.flights.any fun f =>
    decide (f.k < k) && (let (_, dst, m) := s.element j f.k
      match s.span j dst m with
      | some (r, b) => q == r && meets a n b m
      | none => false)

/-- The source of element k, whose flight is in the list, is read now, or waits for the elements below it. -/
def State.readElement (s : State) (j : Job) (k : Nat) (x : Option (Option Nat)) : State × Job :=
  let (src, _, n) := s.element j k
  if s.mustWait j k then (s, j.onFlight k fun f => { f with phase := .blocked, asks := [], xlat := x })
  else match s.readWords j src n x with
    | (s, .error (c, a)) => s.failElement { j with flights := j.flights.filter fun f => f.k != k } k c a
    | (s, .ok w) => s.elementRead j k w

/-- R282: the elements that no longer wait for those below them are read, lowest first; a peer is asked again. -/
def unblock : Nat → State → Job → State × Job
  | 0, s, j => (s, j)
  | n + 1, s, j =>
    match j.flights.find? fun f => f.phase == .blocked && !s.mustWait j f.k with
    | none => (s, j)
    | some f =>
      let (src, _, m) := s.element j f.k
      let (s, j) := match s.route src m with
        | .ok (.peer pkg) => s.issueRead j f.k src m (.peer pkg)
        | _ => s.readElement j f.k f.xlat
      unblock n s j

/-- R283: the step of element k: with both ends inside it is copied; else its access is issued. -/
def State.stepElement (s : State) (j : Job) (k : Nat) : State × Job :=
  let (src, _, n) := s.element j k
  let read : Option Target := match s.route src n with
    | .error _ => none
    | .ok _ => s.outside j src n
  let j := { j with flights := j.flights ++ [⟨k, .reading, [], [], 0, none⟩] }
  match read with
  | some t => s.issueRead j k src n t
  | none =>
    let (s, j) := s.readElement j k none
    unblock 9 s j

/-- R283: the step of a copy or staging job; the ninth outside element in flight waits. -/
def State.copyStep (s : State) (j : Job) : State × Job :=
  if j.step < 16 then (s, { j with step := j.step + 1 })
  else if 8 ≤ j.flights.length then (s, j)
  else
    let k := j.step - 16
    let (s, j) := s.stepElement { j with step := j.step + 1 } k
    (s, j)

/-- R283, R212: an access of element k of a job completes: its data is read, or its write may perform. -/
def State.elementDone (s : State) (j : Job) (k : Nat) : State × Job :=
  match j.flights.find? (·.k == k) with
  | none => (s, j)
  | some f =>
    let (src, _, n) := s.element j k
    let (s, j) := match f.phase with
      | .reading =>
        if s.endPort src n then (s.retryElement j k, j)
        else s.readElement { j with lastAcc := s.now } k f.xlat
      | .writing => drainFlights 9 s (j.onFlight k fun f => { f with phase := .ready })
      | .ready => drainFlights 9 s j
      | _ => (s, j)
    unblock 9 s j

/-- R282, R313: a peer answers request `id` of a job: a word, one that is poisoned, or a refusal, which stops the job. -/
def State.elementReply (s : State) (j : Job) (f : CopyFlight) (id : Nat) (v : Option Word) (bad : Nat) : State × Job :=
  let (src, dst, _) := s.element j f.k
  let j := { j with lastAcc := s.now }
  if bad ≠ 0 then
    s.failElement j f.k (if bad = 6 then 4 else 3)
      ((if f.phase = .reading then src else dst) + BitVec.ofNat 64 (8 * f.asks.findIdx fun x => x.1 == id))
  else
    let asks := f.asks.map fun x => if x.1 = id then (id, some (v.getD 0, v.isNone)) else x
    let j := j.onFlight f.k fun _ => { f with asks := asks }
    let (s, j) :=
      if asks.any (·.2.isNone) then (s, j)
      else if f.phase = .reading then
        if s.mustWait j f.k then (s, j.onFlight f.k fun f => { f with phase := .blocked, asks := [] })
        else s.elementRead j f.k (asks.filterMap (·.2))
      else drainFlights 9 s (j.onFlight f.k fun f => { f with phase := .ready })
    unblock 9 s j

/-! Commands (R270, R277, R281). -/

/-- R270, R271: a command of the acting thread is accepted: its sequence number, its destination words set empty, its ID
on its way, its job. -/
def State.acceptJob (s : State) (eng d : Nat) (cmd : Command) (bundle : Word) (steps : Nat) (dests : Dests) : State :=
  let last := s.cur.seqs.toList.getD (eng - 1) 0
  let seq := last % 0xFFFFFFFF + 1
  let id : Word := BitVec.ofNat 64 (eng + 256 * seq)
  let j : Job := {
    key := s.nextId
    uid := s.cur.uid
    part := s.p.first
    cluster := s.cur.loc.cluster
    core := s.cur.loc.core
    pos := s.cur.loc.pos
    nthr := modeThreads s.p.run.tcmode
    eng := eng
    seq := seq
    asid := s.cur.asid
    quad := BitVec.ofNat 2 (s.cur.loc.cluster / 12)
    cmd := cmd
    accepted := s.now
    started := false
    step := 0
    steps := steps
    lastStep := 0
    lastAcc := 0
    code := 0
    addr := 0
    emptied := dests
    rowList := []
    bundle := bundle
    flights := []
    graph := .rest }
  let s := dests.foldl (fun s f => s.setFull f false) s
  let s := { s with
    nextId := s.nextId + 1
    p := { s.p with jobs := s.p.jobs ++ [j] }
    cur := { s.cur with
      seqs := if h : eng - 1 < 3 then s.cur.seqs.set (eng - 1) (last + 1) else s.cur.seqs
      idsDue := s.cur.idsDue + 1
      jobs := keepStatuses (⟨eng, seq, 0, 0⟩ :: s.cur.jobs) } }
  let s := s.dueIn (4 * s.dil + 1) rankLand (.jobIdReturn s.cur.uid d id)
  (s.askBits j 0 .empty).startJob j

/-- The steps a command takes and the words it sets empty at acceptance. -/
def State.commandPlan (s : State) (asid : BitVec 12) (c : Command) : Nat × Dests :=
  match c with
  | .mat g a0 a1 b0 b1 c0 c1 l imm =>
    let m := matCmd g a0 a1 b0 b1 c0 c1 l imm
    if g then (2, []) else (s.matSteps m m.arows, s.rowWords m.crows)
  | .copy l _ => (16 + copyCount l, s.copyDests asid l)
  | .graph _ _ => (1, [])
  | .stage _ slots _ => (16 + slots.length, [])

end Sys2Proof.Machine
end

