-- ==== Sys2Proof/Machine/Vector.lean ====
section
/-! DEFINITION. Vector instructions (08): lanes, masks, float and integer arithmetic, compares, reductions, conversions,
moves, mask logic and special functions. -/

namespace Sys2Proof.Machine

/-! Lanes (R180). -/

/-- Lane i of w bits. -/
def lane (v : Vec) (w i : Nat) : Nat := v.toNat / 2 ^ (w * i) % 2 ^ w

/-- Lanes put together from (lane, value) pairs. -/
def ofLanes (w : Nat) (l : List (Nat × Nat)) : Vec :=
  BitVec.ofNat 512 (l.foldl (fun r (i, v) => r + v % 2 ^ w * 2 ^ (w * i)) 0)

/-- The bits of the named lanes. -/
def laneMask (w : Nat) (l : List Nat) : Vec := ofLanes w (l.map fun i => (i, 2 ^ w - 1))

/-- R181: a mask register as an instruction reads it. -/
def State.maskReg (s : State) (n : Nat) : Word := if n = 0 then BitVec.allOnes 64 else if h : n < 8 then s.cur.vm[n] else 0

/-- The lanes a mask includes, of n. -/
def State.included (s : State) (vm : BitVec 3) (n : Nat) : List Nat :=
  (List.range n).filter fun i => (s.maskReg vm.toNat).getLsbD i

/-- R180, R139: the lanes of a result with their flags. -/
def State.landLanes (s : State) (lat code w : Nat) (r : List (Nat × Nat × FS)) : State :=
  let s := s.landV lat code (ofLanes w (r.map fun x => (x.1, x.2.1))) (laneMask w (r.map (·.1)))
  s.landFlags lat (r.foldl (fun a x => a ||| x.2.2) 0)

/-- A lane operation of two vector sources (R180, R184): `rd` where the old lane of vd is a third operand. -/
def vecOp (w lat : Nat) (rd : Bool) (vm : BitVec 3) (vd va vb : BitVec 7) (f : Nat → Nat → Nat → Nat × FS) (s : State) : Res :=
  .next (s.withOperands [va.toNat, vb.toNat] (some vd.toNat) rd fun get s =>
    let old := match s.operand vd.toNat with | .value v => v | _ => 0
    s.landLanes lat vd.toNat w ((s.included vm (512 / w)).map fun i =>
      (i, f (lane (get va.toNat) w i) (lane (get vb.toNat) w i) (lane old w i))))

/-- A lane operation of one vector source. -/
def vecOp1 (w lat : Nat) (vm : BitVec 3) (vd va : BitVec 7) (f : Nat → Nat × FS) (s : State) : Res :=
  .next (s.withOperands [va.toNat] (some vd.toNat) false fun get s =>
    s.landLanes lat vd.toNat w ((s.included vm (512 / w)).map fun i => (i, f (lane (get va.toNat) w i))))

/-- R187: a compare: the condition in included lanes, zero at and above n. -/
def vecCmp (w lat : Nat) (vm : BitVec 3) (vd va vb : BitVec 7) (f : Nat → Nat → Bool) (s : State) : Res :=
  .next (s.withOperands [va.toNat, vb.toNat] none false fun get s =>
    let n := 512 / w
    let l := s.included vm n
    let val := l.foldl (fun (m : Word) i =>
      if f (lane (get va.toNat) w i) (lane (get vb.toNat) w i) then m ||| (1#64 <<< i) else m) 0
    let inc := l.foldl (fun (m : Word) i => m ||| (1#64 <<< i)) 0
    s.land lat (.vm vd.toNat val (inc ||| ~~~(BitVec.ofNat 64 (2 ^ n - 1)))))

/-- R191: a reduction: lane 0 takes the result, the others zero. -/
def vecReduce (w lat : Nat) (vm : BitVec 3) (vd va : BitVec 7) (f : List (Nat × Bool) → Nat × FS) (s : State) : Res :=
  .next (s.withOperands [va.toNat] (some vd.toNat) false fun get s =>
    let inc := s.included vm (512 / w)
    let (v, fs) := f ((List.range (512 / w)).map fun i => (lane (get va.toNat) w i, inc.contains i))
    (s.landV lat vd.toNat (BitVec.ofNat 512 (v % 2 ^ w)) (BitVec.allOnes 512)).landFlags lat fs)

/-- R192: a scan: the running result in each included lane. -/
def vecScan (w lat : Nat) (vm : BitVec 3) (vd va : BitVec 7) (f : List (Nat × Bool) → List (Nat × FS)) (s : State) : Res :=
  .next (s.withOperands [va.toNat] (some vd.toNat) false fun get s =>
    let inc := s.included vm (512 / w)
    let r := f ((List.range (512 / w)).map fun i => (lane (get va.toNat) w i, inc.contains i))
    let s := s.landV lat vd.toNat (ofLanes w (inc.map fun i => (i, (r.getD i (0, 0)).1))) (laneMask w inc)
    s.landFlags lat (r.foldl (fun a x => a ||| x.2) 0))

/-- Table 4.7: the format of rows 0x00 and 0x20, and of row 0x10. -/
def fmtOf (alt : BitVec 1) : Fmt := if alt = 0 then f32 else f64
def fmtOfH (alt : BitVec 1) : Fmt := if alt = 0 then bf16 else f16

/-- A result with no flags. -/
def quiet (n : Nat) : Nat × FS := (n, 0)

/-- R85: no effect. -/
def execVnop (s : State) : Res := .next s

/-! Float arithmetic (R184-R186). -/

/-- R184 -/
def execFadd (alt : BitVec 1) (vm : BitVec 3) (vd va vb : BitVec 7) (s : State) : Res :=
  vecOp (fmtOf alt).width 8 false vm vd va vb (fun a b d => (fmtOf alt).add a b) s

/-- R184 -/
def execFsub (alt : BitVec 1) (vm : BitVec 3) (vd va vb : BitVec 7) (s : State) : Res :=
  vecOp (fmtOf alt).width 8 false vm vd va vb (fun a b d => (fmtOf alt).sub a b) s

/-- R184 -/
def execFmul (alt : BitVec 1) (vm : BitVec 3) (vd va vb : BitVec 7) (s : State) : Res :=
  vecOp (fmtOf alt).width 8 false vm vd va vb (fun a b d => (fmtOf alt).mul a b) s

/-- R184 -/
def execFma (alt : BitVec 1) (vm : BitVec 3) (vd va vb : BitVec 7) (s : State) : Res :=
  vecOp (fmtOf alt).width 8 true vm vd va vb (fun a b d => (fmtOf alt).fma false false a b d) s

/-- R184 -/
def execFms (alt : BitVec 1) (vm : BitVec 3) (vd va vb : BitVec 7) (s : State) : Res :=
  vecOp (fmtOf alt).width 8 true vm vd va vb (fun a b d => (fmtOf alt).fma false true a b d) s

/-- R184 -/
def execFnma (alt : BitVec 1) (vm : BitVec 3) (vd va vb : BitVec 7) (s : State) : Res :=
  vecOp (fmtOf alt).width 8 true vm vd va vb (fun a b d => (fmtOf alt).fma true false a b d) s

/-- R184 -/
def execFnms (alt : BitVec 1) (vm : BitVec 3) (vd va vb : BitVec 7) (s : State) : Res :=
  vecOp (fmtOf alt).width 8 true vm vd va vb (fun a b d => (fmtOf alt).fma true true a b d) s

/-- R185 -/
def execFmin (alt : BitVec 1) (vm : BitVec 3) (vd va vb : BitVec 7) (s : State) : Res :=
  vecOp (fmtOf alt).width 4 false vm vd va vb (fun a b d => quiet ((fmtOf alt).min a b)) s

/-- R185 -/
def execFmax (alt : BitVec 1) (vm : BitVec 3) (vd va vb : BitVec 7) (s : State) : Res :=
  vecOp (fmtOf alt).width 4 false vm vd va vb (fun a b d => quiet ((fmtOf alt).max a b)) s

/-- R185 -/
def execFabs (alt : BitVec 1) (vm : BitVec 3) (vd va : BitVec 7) (s : State) : Res :=
  vecOp1 (fmtOf alt).width 4 vm vd va (fun a => quiet ((fmtOf alt).abs a)) s

/-- R185 -/
def execFneg (alt : BitVec 1) (vm : BitVec 3) (vd va : BitVec 7) (s : State) : Res :=
  vecOp1 (fmtOf alt).width 4 vm vd va (fun a => quiet ((fmtOf alt).negate a)) s

/-- R185 -/
def execFsgn (alt : BitVec 1) (vm : BitVec 3) (vd va vb : BitVec 7) (s : State) : Res :=
  vecOp (fmtOf alt).width 4 false vm vd va vb (fun a b d => quiet ((fmtOf alt).sign a b)) s

/-- R184 -/
def execFdiv (alt : BitVec 1) (vm : BitVec 3) (vd va vb : BitVec 7) (s : State) : Res :=
  vecOp (fmtOf alt).width (if alt = 0 then 28 else 44) false vm vd va vb (fun a b d => (fmtOf alt).div a b) s

/-- R184 -/
def execFsqrt (alt : BitVec 1) (vm : BitVec 3) (vd va : BitVec 7) (s : State) : Res :=
  vecOp1 (fmtOf alt).width (if alt = 0 then 28 else 44) vm vd va (fun a => (fmtOf alt).sqrt a) s

/-- R186 -/
def execHadd (alt : BitVec 1) (vm : BitVec 3) (vd va vb : BitVec 7) (s : State) : Res :=
  vecOp 16 8 false vm vd va vb (fun a b d => (fmtOfH alt).add a b) s

/-- R186 -/
def execHsub (alt : BitVec 1) (vm : BitVec 3) (vd va vb : BitVec 7) (s : State) : Res :=
  vecOp 16 8 false vm vd va vb (fun a b d => (fmtOfH alt).sub a b) s

/-- R186 -/
def execHmul (alt : BitVec 1) (vm : BitVec 3) (vd va vb : BitVec 7) (s : State) : Res :=
  vecOp 16 8 false vm vd va vb (fun a b d => (fmtOfH alt).mul a b) s

/-- R186 -/
def execHma (alt : BitVec 1) (vm : BitVec 3) (vd va vb : BitVec 7) (s : State) : Res :=
  vecOp 16 8 true vm vd va vb (fun a b d => (fmtOfH alt).fma false false a b d) s

/-- R186 -/
def execHmin (alt : BitVec 1) (vm : BitVec 3) (vd va vb : BitVec 7) (s : State) : Res :=
  vecOp 16 8 false vm vd va vb (fun a b d => quiet ((fmtOfH alt).min a b)) s

/-- R186 -/
def execHmax (alt : BitVec 1) (vm : BitVec 3) (vd va vb : BitVec 7) (s : State) : Res :=
  vecOp 16 8 false vm vd va vb (fun a b d => quiet ((fmtOfH alt).max a b)) s

/-- R186: a + b * c + d * e, exact and rounded once. -/
def dot2 (f : Fmt) (acc a0 b0 a1 b1 : Nat) : Nat × FS :=
  let (p, x) := (f.value a0).mul (f.value b0)
  let (q, y) := (f.value a1).mul (f.value b1)
  let (r, z) := FVal.sum [p, q]
  let (t, w) := FVal.sum [r, f32.value acc]
  f32.op (t, x ||| y ||| z ||| w)

/-- R186 -/
def execHdot (alt : BitVec 1) (vm : BitVec 3) (vd va vb : BitVec 7) (s : State) : Res :=
  let h := fmtOfH alt
  .next (s.withOperands [va.toNat, vb.toNat] (some vd.toNat) true fun get s =>
    let old := match s.operand vd.toNat with | .value v => v | _ => 0
    s.landLanes 10 vd.toNat 32 ((s.included vm 16).map fun i =>
      (i, dot2 h (lane old 32 i) (lane (get va.toNat) 16 (2 * i)) (lane (get vb.toNat) 16 (2 * i))
        (lane (get va.toNat) 16 (2 * i + 1)) (lane (get vb.toNat) 16 (2 * i + 1)))))

/-! Compares, classes and select (R187-R189). -/

/-- R187 -/
def execHcmpEq (alt : BitVec 1) (vm : BitVec 3) (vd va vb : BitVec 7) (s : State) : Res :=
  vecCmp 16 8 vm vd va vb (fun a b => ((fmtOfH alt).value a).eq ((fmtOfH alt).value b)) s

/-- R187 -/
def execHcmpLt (alt : BitVec 1) (vm : BitVec 3) (vd va vb : BitVec 7) (s : State) : Res :=
  vecCmp 16 8 vm vd va vb (fun a b => ((fmtOfH alt).value a).lt ((fmtOfH alt).value b)) s

/-- R187 -/
def execHcmpLe (alt : BitVec 1) (vm : BitVec 3) (vd va vb : BitVec 7) (s : State) : Res :=
  vecCmp 16 8 vm vd va vb (fun a b => ((fmtOfH alt).value a).le ((fmtOfH alt).value b)) s

/-- R187 -/
def execFcmpEq (alt : BitVec 1) (vm : BitVec 3) (vd va vb : BitVec 7) (s : State) : Res :=
  vecCmp (fmtOf alt).width 8 vm vd va vb (fun a b => ((fmtOf alt).value a).eq ((fmtOf alt).value b)) s

/-- R187 -/
def execFcmpLt (alt : BitVec 1) (vm : BitVec 3) (vd va vb : BitVec 7) (s : State) : Res :=
  vecCmp (fmtOf alt).width 8 vm vd va vb (fun a b => ((fmtOf alt).value a).lt ((fmtOf alt).value b)) s

/-- R187 -/
def execFcmpLe (alt : BitVec 1) (vm : BitVec 3) (vd va vb : BitVec 7) (s : State) : Res :=
  vecCmp (fmtOf alt).width 8 vm vd va vb (fun a b => ((fmtOf alt).value a).le ((fmtOf alt).value b)) s

/-- R187 -/
def execFcmpUn (alt : BitVec 1) (vm : BitVec 3) (vd va vb : BitVec 7) (s : State) : Res :=
  vecCmp (fmtOf alt).width 8 vm vd va vb (fun a b => ((fmtOf alt).value a).isNan || ((fmtOf alt).value b).isNan) s

/-- R188 -/
def execFclass (alt : BitVec 1) (vm : BitVec 3) (vd va : BitVec 7) (s : State) : Res :=
  vecOp1 (fmtOf alt).width 8 vm vd va (fun a => quiet ((fmtOf alt).classOf a)) s

/-- R189: the mask selects; every lane is written. -/
def execVsel (alt : BitVec 1) (vm : BitVec 3) (vd va vb : BitVec 7) (s : State) : Res :=
  let w := (fmtOf alt).width
  .next (s.withOperands [va.toNat, vb.toNat] (some vd.toNat) false fun get s =>
    s.landLanes 4 vd.toNat w ((List.range (512 / w)).map fun i =>
      (i, quiet (lane (if (s.maskReg vm.toNat).getLsbD i then get va.toNat else get vb.toNat) w i))))

/-! Float reductions and scans (R191, R192). -/

/-- The sign-bit code: -0. -/
def minusZero (f : Fmt) : Nat := f.signBit true

/-- R191 -/
def execFsum (alt : BitVec 1) (vm : BitVec 3) (vd va : BitVec 7) (s : State) : Res :=
  vecReduce (fmtOf alt).width 12 vm vd va (fun l =>
    (fmtOf alt).sumTree (l.map fun x => if x.2 then x.1 else minusZero (fmtOf alt))) s

/-- R191, R149 -/
def execFmaxr (alt : BitVec 1) (vm : BitVec 3) (vd va : BitVec 7) (s : State) : Res :=
  vecReduce (fmtOf alt).width 12 vm vd va (fun l => quiet ((l.filter (·.2)).foldl (fun m x => (fmtOf alt).max m x.1)
    ((fmtOf alt).infCode true))) s

/-- R191, R149 -/
def execFminr (alt : BitVec 1) (vm : BitVec 3) (vd va : BitVec 7) (s : State) : Res :=
  vecReduce (fmtOf alt).width 12 vm vd va (fun l => quiet ((l.filter (·.2)).foldl (fun m x => (fmtOf alt).min m x.1)
    ((fmtOf alt).infCode false))) s

/-- R192, R149 -/
def execFscan (alt : BitVec 1) (vm : BitVec 3) (vd va : BitVec 7) (s : State) : Res :=
  vecScan (fmtOf alt).width 14 vm vd va (fun l =>
    (fmtOf alt).scan (l.map fun x => if x.2 then x.1 else minusZero (fmtOf alt))) s

/-- R191 -/
def execFamaxr (alt : BitVec 1) (vm : BitVec 3) (vd va : BitVec 7) (s : State) : Res :=
  vecReduce (fmtOf alt).width 12 vm vd va (fun l => quiet ((l.filter (·.2)).foldl
    (fun m x => (fmtOf alt).max m ((fmtOf alt).abs x.1)) 0)) s

/-! Integer lanes (R190). -/

/-- Table 4.7: lane widths of rows 0x30, 0x40 and 0x50. -/
def width30 (alt : BitVec 1) : Nat := if alt = 0 then 32 else 16
def width40 (alt : BitVec 1) : Nat := if alt = 0 then 8 else 64
def width50 (alt : BitVec 1) : Nat := if alt = 0 then 32 else 64

/-- The operations of Table 8.4. -/
inductive LaneOp where
  | add | sub | mul | mulh | min | max | minw | maxw | and | or | xor | andn | shl | shr | sar | adds
  deriving DecidableEq, Repr

/-- Table 8.4: one lane of width w. -/
def LaneOp.apply (o : LaneOp) (w a b : Nat) : Nat × FS :=
  let sa := intValue true w a
  let sb := intValue true w b
  match o with
  | .add => quiet ((a + b) % 2 ^ w)
  | .sub => quiet ((a + (2 ^ w - b)) % 2 ^ w)
  | .mul => quiet (a * b % 2 ^ w)
  | .mulh => quiet (intCode w (sa * sb / 2 ^ w))
  | .min => quiet (if sa ≤ sb then a else b)
  | .max => quiet (if sa ≤ sb then b else a)
  | .minw => quiet (if a ≤ b then a else b)
  | .maxw => quiet (if a ≤ b then b else a)
  | .and => quiet (a &&& b)
  | .or => quiet (a ||| b)
  | .xor => quiet (a ^^^ b)
  | .andn => quiet (a &&& (2 ^ w - 1 - b))
  | .shl => quiet (if w ≤ b then 0 else a * 2 ^ b % 2 ^ w)
  | .shr => quiet (if w ≤ b then 0 else a / 2 ^ b)
  | .sar => quiet (intCode w (sa / 2 ^ (if w ≤ b then w - 1 else b)))
  | .adds =>
    let t := sa + sb
    if t < intMin true w then (intCode w (intMin true w), isat)
    else if intMax true w < t then (intCode w (intMax true w), isat)
    else quiet (intCode w t)

/-- A lane integer instruction: its products take 6 core cycles, the others 4 (Table 5.2). -/
def intOp (o : LaneOp) (w : Nat) (vm : BitVec 3) (vd va vb : BitVec 7) (s : State) : Res :=
  vecOp w (if o = .mul ∨ o = .mulh then 6 else 4) false vm vd va vb (fun a b _ => o.apply w a b) s

/-- R190 -/
def execVaddW3216 (alt : BitVec 1) (vm : BitVec 3) (vd va vb : BitVec 7) (s : State) : Res :=
  intOp .add (width30 alt) vm vd va vb s

/-- R190 -/
def execVsubW3216 (alt : BitVec 1) (vm : BitVec 3) (vd va vb : BitVec 7) (s : State) : Res :=
  intOp .sub (width30 alt) vm vd va vb s

/-- R190 -/
def execVmulW3216 (alt : BitVec 1) (vm : BitVec 3) (vd va vb : BitVec 7) (s : State) : Res :=
  intOp .mul (width30 alt) vm vd va vb s

/-- R190 -/
def execVmulhW3216 (alt : BitVec 1) (vm : BitVec 3) (vd va vb : BitVec 7) (s : State) : Res :=
  intOp .mulh (width30 alt) vm vd va vb s

/-- R190 -/
def execVminW3216 (alt : BitVec 1) (vm : BitVec 3) (vd va vb : BitVec 7) (s : State) : Res :=
  intOp .min (width30 alt) vm vd va vb s

/-- R190 -/
def execVmaxW3216 (alt : BitVec 1) (vm : BitVec 3) (vd va vb : BitVec 7) (s : State) : Res :=
  intOp .max (width30 alt) vm vd va vb s

/-- R190 -/
def execVminwW3216 (alt : BitVec 1) (vm : BitVec 3) (vd va vb : BitVec 7) (s : State) : Res :=
  intOp .minw (width30 alt) vm vd va vb s

/-- R190 -/
def execVmaxwW3216 (alt : BitVec 1) (vm : BitVec 3) (vd va vb : BitVec 7) (s : State) : Res :=
  intOp .maxw (width30 alt) vm vd va vb s

/-- R190 -/
def execVandW3216 (alt : BitVec 1) (vm : BitVec 3) (vd va vb : BitVec 7) (s : State) : Res :=
  intOp .and (width30 alt) vm vd va vb s

/-- R190 -/
def execVorW3216 (alt : BitVec 1) (vm : BitVec 3) (vd va vb : BitVec 7) (s : State) : Res :=
  intOp .or (width30 alt) vm vd va vb s

/-- R190 -/
def execVxorW3216 (alt : BitVec 1) (vm : BitVec 3) (vd va vb : BitVec 7) (s : State) : Res :=
  intOp .xor (width30 alt) vm vd va vb s

/-- R190 -/
def execVandnW3216 (alt : BitVec 1) (vm : BitVec 3) (vd va vb : BitVec 7) (s : State) : Res :=
  intOp .andn (width30 alt) vm vd va vb s

/-- R190 -/
def execVshlW3216 (alt : BitVec 1) (vm : BitVec 3) (vd va vb : BitVec 7) (s : State) : Res :=
  intOp .shl (width30 alt) vm vd va vb s

/-- R190 -/
def execVshrW3216 (alt : BitVec 1) (vm : BitVec 3) (vd va vb : BitVec 7) (s : State) : Res :=
  intOp .shr (width30 alt) vm vd va vb s

/-- R190 -/
def execVsarW3216 (alt : BitVec 1) (vm : BitVec 3) (vd va vb : BitVec 7) (s : State) : Res :=
  intOp .sar (width30 alt) vm vd va vb s

/-- R190 -/
def execVaddsW3216 (alt : BitVec 1) (vm : BitVec 3) (vd va vb : BitVec 7) (s : State) : Res :=
  intOp .adds (width30 alt) vm vd va vb s

/-- R190 -/
def execVaddW864 (alt : BitVec 1) (vm : BitVec 3) (vd va vb : BitVec 7) (s : State) : Res :=
  intOp .add (width40 alt) vm vd va vb s

/-- R190 -/
def execVsubW864 (alt : BitVec 1) (vm : BitVec 3) (vd va vb : BitVec 7) (s : State) : Res :=
  intOp .sub (width40 alt) vm vd va vb s

/-- R190 -/
def execVmulW864 (alt : BitVec 1) (vm : BitVec 3) (vd va vb : BitVec 7) (s : State) : Res :=
  intOp .mul (width40 alt) vm vd va vb s

/-- R190 -/
def execVmulhW864 (alt : BitVec 1) (vm : BitVec 3) (vd va vb : BitVec 7) (s : State) : Res :=
  intOp .mulh (width40 alt) vm vd va vb s

/-- R190 -/
def execVminW864 (alt : BitVec 1) (vm : BitVec 3) (vd va vb : BitVec 7) (s : State) : Res :=
  intOp .min (width40 alt) vm vd va vb s

/-- R190 -/
def execVmaxW864 (alt : BitVec 1) (vm : BitVec 3) (vd va vb : BitVec 7) (s : State) : Res :=
  intOp .max (width40 alt) vm vd va vb s

/-- R190 -/
def execVminwW864 (alt : BitVec 1) (vm : BitVec 3) (vd va vb : BitVec 7) (s : State) : Res :=
  intOp .minw (width40 alt) vm vd va vb s

/-- R190 -/
def execVmaxwW864 (alt : BitVec 1) (vm : BitVec 3) (vd va vb : BitVec 7) (s : State) : Res :=
  intOp .maxw (width40 alt) vm vd va vb s

/-- R190 -/
def execVandW864 (alt : BitVec 1) (vm : BitVec 3) (vd va vb : BitVec 7) (s : State) : Res :=
  intOp .and (width40 alt) vm vd va vb s

/-- R190 -/
def execVorW864 (alt : BitVec 1) (vm : BitVec 3) (vd va vb : BitVec 7) (s : State) : Res :=
  intOp .or (width40 alt) vm vd va vb s

/-- R190 -/
def execVxorW864 (alt : BitVec 1) (vm : BitVec 3) (vd va vb : BitVec 7) (s : State) : Res :=
  intOp .xor (width40 alt) vm vd va vb s

/-- R190 -/
def execVandnW864 (alt : BitVec 1) (vm : BitVec 3) (vd va vb : BitVec 7) (s : State) : Res :=
  intOp .andn (width40 alt) vm vd va vb s

/-- R190 -/
def execVshlW864 (alt : BitVec 1) (vm : BitVec 3) (vd va vb : BitVec 7) (s : State) : Res :=
  intOp .shl (width40 alt) vm vd va vb s

/-- R190 -/
def execVshrW864 (alt : BitVec 1) (vm : BitVec 3) (vd va vb : BitVec 7) (s : State) : Res :=
  intOp .shr (width40 alt) vm vd va vb s

/-- R190 -/
def execVsarW864 (alt : BitVec 1) (vm : BitVec 3) (vd va vb : BitVec 7) (s : State) : Res :=
  intOp .sar (width40 alt) vm vd va vb s

/-- R190 -/
def execVaddsW864 (alt : BitVec 1) (vm : BitVec 3) (vd va vb : BitVec 7) (s : State) : Res :=
  intOp .adds (width40 alt) vm vd va vb s

/-- Table 7.8 within a lane of width w. -/
def condLane (fn w a b : Nat) : Bool :=
  match fn with
  | 0 => a == b
  | 1 => a != b
  | 2 => decide (intValue true w a < intValue true w b)
  | 3 => decide (intValue true w b ≤ intValue true w a)
  | 4 => decide (a < b)
  | _ => decide (b ≤ a)

/-- R187 -/
def execVcmpEq (alt : BitVec 1) (vm : BitVec 3) (vd va vb : BitVec 7) (s : State) : Res :=
  vecCmp (width50 alt) 4 vm vd va vb (condLane 0 (width50 alt)) s

/-- R187 -/
def execVcmpNe (alt : BitVec 1) (vm : BitVec 3) (vd va vb : BitVec 7) (s : State) : Res :=
  vecCmp (width50 alt) 4 vm vd va vb (condLane 1 (width50 alt)) s

/-- R187 -/
def execVcmpLt (alt : BitVec 1) (vm : BitVec 3) (vd va vb : BitVec 7) (s : State) : Res :=
  vecCmp (width50 alt) 4 vm vd va vb (condLane 2 (width50 alt)) s

/-- R187 -/
def execVcmpGe (alt : BitVec 1) (vm : BitVec 3) (vd va vb : BitVec 7) (s : State) : Res :=
  vecCmp (width50 alt) 4 vm vd va vb (condLane 3 (width50 alt)) s

/-- R187 -/
def execVcmpLtw (alt : BitVec 1) (vm : BitVec 3) (vd va vb : BitVec 7) (s : State) : Res :=
  vecCmp (width50 alt) 4 vm vd va vb (condLane 4 (width50 alt)) s

/-- R187 -/
def execVcmpGew (alt : BitVec 1) (vm : BitVec 3) (vd va vb : BitVec 7) (s : State) : Res :=
  vecCmp (width50 alt) 4 vm vd va vb (condLane 5 (width50 alt)) s

/-- R191 -/
def execIsum (alt : BitVec 1) (vm : BitVec 3) (vd va : BitVec 7) (s : State) : Res :=
  vecReduce (width50 alt) 12 vm vd va (fun l => quiet ((l.filter (·.2)).foldl (fun m x => m + x.1) 0 % 2 ^ width50 alt)) s

/-- R191 -/
def execImaxr (alt : BitVec 1) (vm : BitVec 3) (vd va : BitVec 7) (s : State) : Res :=
  vecReduce (width50 alt) 12 vm vd va (fun l => quiet ((l.filter (·.2)).foldl
    (fun m x => (LaneOp.max.apply (width50 alt) m x.1).1) (2 ^ (width50 alt - 1)))) s

/-- R191 -/
def execIminr (alt : BitVec 1) (vm : BitVec 3) (vd va : BitVec 7) (s : State) : Res :=
  vecReduce (width50 alt) 12 vm vd va (fun l => quiet ((l.filter (·.2)).foldl
    (fun m x => (LaneOp.min.apply (width50 alt) m x.1).1) (2 ^ (width50 alt - 1) - 1))) s

/-- R192: running sums that wrap. -/
def intScan (w : Nat) (l : List (Nat × Bool)) : List (Nat × FS) :=
  (l.foldl (fun (r : List (Nat × FS) × Nat) x =>
    let t := (r.2 + if x.2 then x.1 else 0) % 2 ^ w
    (r.1 ++ [quiet t], t)) ([], 0)).1

/-- R192 -/
def execIscan (alt : BitVec 1) (vm : BitVec 3) (vd va : BitVec 7) (s : State) : Res :=
  vecScan (width50 alt) 14 vm vd va (intScan (width50 alt)) s

/-- R190 -/
def execVabs (alt : BitVec 1) (vm : BitVec 3) (vd va : BitVec 7) (s : State) : Res :=
  vecOp1 (width50 alt) 4 vm vd va (fun a => quiet (intCode (width50 alt) (intValue true (width50 alt) a).natAbs)) s

/-- R190 -/
def execVneg (alt : BitVec 1) (vm : BitVec 3) (vd va : BitVec 7) (s : State) : Res :=
  vecOp1 (width50 alt) 4 vm vd va (fun a => quiet (intCode (width50 alt) (-(intValue true (width50 alt) a)))) s

/-! Conversions (R193-R197). -/

/-- A row of Table 8.6: formats, elements, parts; the element's width in a register (R194). -/
def cvtRow (c : Nat) : Option (NumFmt × NumFmt × Nat × Nat) :=
  let two (a b : NumFmt) (n p : Nat) := some (if c % 2 = 0 then (a, b, n, p) else (b, a, n, p))
  match c / 2 with
  | 0 => two (.fl f32) (.fl f64) 8 2
  | 1 => two (.fl f32) (.fl bf16) 16 2
  | 2 => two (.fl f32) (.fl f16) 16 2
  | 3 => two (.fl f32) (.fl f8e4) 16 4
  | 4 => two (.fl f32) (.fl f8e5) 16 4
  | 5 => two (.fl f32) (.fl f6e3) 16 4
  | 6 => two (.fl f32) (.fl f6e2) 16 4
  | 7 => two (.fl f32) (.fl f4e2) 16 4
  | 8 => two (.fl f32) (.int true 32) 16 1
  | 9 => two (.fl f32) (.int false 32) 16 1
  | 10 => two (.fl f64) (.int true 64) 8 1
  | 11 => two (.fl f64) (.int false 64) 8 1
  | 12 => two (.fl f32) (.int true 16) 16 2
  | 13 => two (.fl f32) (.int true 8) 16 4
  | 14 => two (.fl f32) (.int false 8) 16 4
  | _ => none

/-- R194: bits an element occupies in a vector register. -/
def NumFmt.slot (f : NumFmt) : Nat := if f.width < 8 then 8 else f.width

def NumFmt.isFloat : NumFmt → Bool
  | .fl _ => true
  | .int _ _ => false

/-- R19, R141: the launch key of the running record (W3). -/
def Part.launchKey (p : Part) : Word := p.run.rec_.getD 3 0

/-- R197, Table 6.5: the random word of element i. -/
def State.cvtRand (s : State) (i : Nat) : Nat :=
  let base := field s.cur.srnd 63 24
  let ctr := field s.cur.srnd 15 0 * 2 ^ 48 + field s.cur.srnd 23 16 * 2 ^ 40 + (base + i) % 2 ^ 40
  (randBits s.p.launchKey (BitVec.ofNat 64 ctr)).toNat % 65536

/-- R193-R196: a conversion; `mode` gives the rounding of element i. -/
def convert (mode : State → Nat → Rm) (alt : BitVec 1) (vm : BitVec 3) (vd va vb : BitVec 7) (s : State) : Res :=
  let p := vb.toNat / 32
  match cvtRow (vb.toNat % 32) with
  | none => .next (s.raise 2 s.cur.pc)
  | some (src, dst, n, parts) =>
    if parts ≤ p then .next (s.raise 2 s.cur.pc) else
    .next (s.withOperands [va.toNat] (some vd.toNat) false fun get s =>
      let sOff := if src.slot < dst.slot then n * p else 0
      let dOff := if dst.slot < src.slot then n * p else 0
      let inc := s.included vm n
      let xs := inc.map fun i => (i, src.value (lane (get va.toNat) src.slot (sOff + i)))
      let r := xs.map fun (i, x) => (dOff + i, dst.convert (mode s i) (alt == 1) x)
      let s := s.landLanes 8 vd.toNat dst.slot r
      if src.isFloat then
        let m := xs.foldl (fun (m : FVal) x => if m.lt x.2.abs then x.2.abs else m) (.fin false 0 0)
        s.land 8 (.amax (BitVec.ofNat 32 (f32.round .ru m).1) (xs.any fun x => x.2.isNan))
      else s)

/-- R193, R195 -/
def execCvtRn (alt : BitVec 1) (vm : BitVec 3) (vd va vb : BitVec 7) (s : State) : Res :=
  convert (fun _ _ => .rn) alt vm vd va vb s

/-- R193, R195 -/
def execCvtRz (alt : BitVec 1) (vm : BitVec 3) (vd va vb : BitVec 7) (s : State) : Res :=
  convert (fun _ _ => .rz) alt vm vd va vb s

/-- R193, R195 -/
def execCvtRu (alt : BitVec 1) (vm : BitVec 3) (vd va vb : BitVec 7) (s : State) : Res :=
  convert (fun _ _ => .ru) alt vm vd va vb s

/-- R193, R195 -/
def execCvtRd (alt : BitVec 1) (vm : BitVec 3) (vd va vb : BitVec 7) (s : State) : Res :=
  convert (fun _ _ => .rd) alt vm vd va vb s

/-- R193, R195, R197 -/
def execCvtRs (alt : BitVec 1) (vm : BitVec 3) (vd va vb : BitVec 7) (s : State) : Res :=
  convert (fun s i => .rs (s.cvtRand i)) alt vm vd va vb s

/-! Moves and permutes (R198). -/

/-- R198 -/
def execVperm (alt : BitVec 1) (vm : BitVec 3) (vd va vb : BitVec 7) (s : State) : Res :=
  let w := (fmtOf alt).width
  let n := 512 / w
  .next (s.withOperands [va.toNat, vb.toNat] (some vd.toNat) false fun get s =>
    s.landLanes 6 vd.toNat w ((s.included vm n).map fun i =>
      let x := lane (get vb.toNat) w i
      (i, quiet (if x < n then lane (get va.toNat) w x else 0))))

/-- R198: the index is the old lane of vd. -/
def execVshuf (alt : BitVec 1) (vm : BitVec 3) (vd va vb : BitVec 7) (s : State) : Res :=
  let w := (fmtOf alt).width
  let n := 512 / w
  .next (s.withOperands [va.toNat, vb.toNat] (some vd.toNat) true fun get s =>
    let old := match s.operand vd.toNat with | .value v => v | _ => 0
    s.landLanes 6 vd.toNat w ((s.included vm n).map fun i =>
      let x := lane old w i
      (i, quiet (if x < n then lane (get va.toNat) w x else if x < 2 * n then lane (get vb.toNat) w (x - n) else 0))))

/-- R198 -/
def execVbcast (alt : BitVec 1) (vm : BitVec 3) (vd va : BitVec 7) (s : State) : Res :=
  let w := (fmtOf alt).width
  .next (s.withOperands [] (some vd.toNat) false fun _ s =>
    s.landLanes 4 vd.toNat w ((s.included vm (512 / w)).map fun i => (i, quiet ((s.cur.reg va.toNat).toNat % 2 ^ w))))

/-- R198: one lane from a scalar. -/
def execVins (alt : BitVec 1) (vd va vb : BitVec 7) (s : State) : Res :=
  let w := (fmtOf alt).width
  .next (s.withOperands [] (some vd.toNat) false fun _ s =>
    s.landLanes 4 vd.toNat w [(vb.toNat, quiet ((s.cur.reg va.toNat).toNat % 2 ^ w))])

/-- R198: one lane to a scalar. -/
def execVext (alt : BitVec 1) (vd va vb : BitVec 7) (s : State) : Res :=
  let w := (fmtOf alt).width
  .next (s.withOperands [va.toNat] none false fun get s =>
    s.landA 6 (vd.setWidth 5) (BitVec.ofNat 64 (lane (get va.toNat) w vb.toNat)))

/-- R198 -/
def execVmov (alt : BitVec 1) (vm : BitVec 3) (vd va : BitVec 7) (s : State) : Res :=
  vecOp1 (fmtOf alt).width 4 vm vd va quiet s

/-! Mask logic (R199). -/

/-- R199 -/
def maskOp (f : Word → Word → Word) (vd va vb : BitVec 7) (s : State) : Res :=
  .next (s.land 2 (.vm vd.toNat (f (s.maskReg va.toNat) (s.maskReg vb.toNat)) (BitVec.allOnes 64)))

/-- R199 -/
def execMand (vd va vb : BitVec 7) (s : State) : Res :=
  maskOp (fun x y => x &&& y) vd va vb s

/-- R199 -/
def execMor (vd va vb : BitVec 7) (s : State) : Res :=
  maskOp (fun x y => x ||| y) vd va vb s

/-- R199 -/
def execMxor (vd va vb : BitVec 7) (s : State) : Res :=
  maskOp (fun x y => x ^^^ y) vd va vb s

/-- R199 -/
def execMandn (vd va vb : BitVec 7) (s : State) : Res :=
  maskOp (fun x y => x &&& ~~~y) vd va vb s

/-! Special functions (R200, R201). -/

/-- R200 -/
def specialOp (f : Special) (vm : BitVec 3) (vd va : BitVec 7) (s : State) : Res := vecOp1 32 18 vm vd va f.apply s

/-- R200 -/
def execFexp2 (vm : BitVec 3) (vd va : BitVec 7) (s : State) : Res :=
  specialOp .exp2 vm vd va s

/-- R200 -/
def execFlog2 (vm : BitVec 3) (vd va : BitVec 7) (s : State) : Res :=
  specialOp .log2 vm vd va s

/-- R200 -/
def execFrcp (vm : BitVec 3) (vd va : BitVec 7) (s : State) : Res :=
  specialOp .rcp vm vd va s

/-- R200 -/
def execFrsq (vm : BitVec 3) (vd va : BitVec 7) (s : State) : Res :=
  specialOp .rsq vm vd va s

/-- R200 -/
def execFsin (vm : BitVec 3) (vd va : BitVec 7) (s : State) : Res :=
  specialOp .sin vm vd va s

/-- R200 -/
def execFcos (vm : BitVec 3) (vd va : BitVec 7) (s : State) : Res :=
  specialOp .cos vm vd va s

/-- R200 -/
def execFtanh (vm : BitVec 3) (vd va : BitVec 7) (s : State) : Res :=
  specialOp .tanh vm vd va s

/-- R200 -/
def execFsigm (vm : BitVec 3) (vd va : BitVec 7) (s : State) : Res :=
  specialOp .sigm vm vd va s

/-- R200 -/
def execFerf (vm : BitVec 3) (vd va : BitVec 7) (s : State) : Res :=
  specialOp .erf vm vd va s

end Sys2Proof.Machine
end

