-- ==== Sys2Proof/Machine/Stages.lean ====
section
/-! DEFINITION. Stream graphs as functions on token sequences (R292-R300, R306): the configuration checks of
admission, ratio and depth, and what each stage makes of the tokens that enter it. -/

namespace Sys2Proof.Machine

/-! Stage words (R293-R296). -/

/-- The operations of Table 12.6. -/
inductive StageOp where
  | pass | add | sub | mul | min | max | logic | shift | cmp | sel | cvt | dqs | qnt | acc | cnt | csum
  | fifo | hash | agen | scat
  deriving DecidableEq, Repr

/-- A stage word (Table 12.4). -/
structure Stage where
  op   : StageOp
  ty   : Nat
  side : Nat
  sat  : Bool
  sub  : Nat
  k    : Nat
  c    : Nat
  deriving DecidableEq, Repr

/-- Table 12.6: none where the cell is refused. -/
def stageOp (n : Nat) : Option StageOp :=
  ([.pass, .add, .sub, .mul, .min, .max, .logic, .shift, .cmp, .sel, .cvt, .dqs, .qnt, .acc, .cnt, .csum,
    .fifo, .hash, .agen, .scat] : List StageOp)[n]?

/-- Table 12.5: a lane type. -/
def laneFmt (ty : Nat) : NumFmt :=
  match ty with
  | 0 => .int false 8
  | 1 => .int false 16
  | 2 => .int false 32
  | 3 => .int false 64
  | 4 => .int true 8
  | 5 => .int true 16
  | 6 => .int true 32
  | 7 => .int true 64
  | 8 => .fl f32
  | 9 => .fl bf16
  | 10 => .fl f16
  | 11 => .fl f64
  | 12 => .fl f8e4
  | 13 => .fl f8e5
  | _ => .fl f4e2

def laneWidth (ty : Nat) : Nat := (laneFmt ty).width

/-- Rows of a bag line by line, of an `agen` or `scat` (R298, R299). -/
def Stage.rl (st : Stage) : Nat := st.c % 16 + 1

/-- Element width of a blocked unit (R297). -/
def Stage.blockWidth (st : Stage) : Nat := (blockFmt st.sub).1.width

/-- Table 12.7: the lane types, the sides and the variants an operation takes. -/
def Stage.fieldsOk (st : Stage) : Bool :=
  let ints := decide (st.ty < 8)
  let nums := decide (st.ty < 12)
  let any := decide (st.ty < 15)
  let y := st.side == 0 || st.side == 1
  let none_ := st.side == 2
  let plainC := st.side == 0 || st.c == 0
  match st.op with
  | .pass => any && none_ && st.sub == 0 && st.k == 0 && st.c == 0
  | .add => nums && y && st.sub == 0 && st.k == 0 && plainC
  | .sub => nums && y && st.sub == 0 && st.k == 0 && plainC
  | .mul => nums && y && st.sub == 0 && st.k == 0 && plainC
  | .min => nums && y && st.sub == 0 && st.k == 0 && plainC
  | .max => nums && y && st.sub == 0 && st.k == 0 && plainC
  | .logic => ints && y && decide (st.sub ≤ 3) && st.k == 0 && plainC
  | .shift => ints && y && decide (st.sub ≤ 2) && st.k == 0 && plainC
  | .cmp => nums && y && decide (st.sub ≤ 3) && st.k == 0 && plainC
  | .sel => any && st.side == 1 && st.sub == 0 && st.k == 0
  | .cvt => any && none_ && decide (st.sub ≤ 14) && st.sub != st.ty && decide (st.k ≤ 3) && st.c == 0
  | .dqs => decide (8 ≤ st.ty) && decide (st.ty ≤ 10) && none_ && decide (st.sub ≤ 2) && st.k == 0 && st.c == 0
  | .qnt => st.ty == 8 && none_ && decide (st.sub ≤ 2) && decide (st.k ≤ 3) && st.c == 0
  | .acc => nums && none_ && decide (st.sub ≤ 2) && decide (1 ≤ st.k) && decide (st.k ≤ 1024) && decide (st.c < 16)
  | .cnt => st.ty == 0 && none_ && st.sub == 0 && decide (1 ≤ st.k) && st.c == 0
  | .csum => st.ty == 0 && none_ && st.sub == 0 && decide (1 ≤ st.k) && st.c == 0
  | .fifo => any && none_ && st.sub == 0 && decide (1 ≤ st.k) && decide (st.k ≤ 64) && st.c == 0
  | .hash => (st.ty == 2 || st.ty == 3) && none_ && st.sub == 0 && st.k == 0
  | .agen => st.ty == 2 && none_ && st.sub == 0 && st.k == 0 && decide (st.c < 16)
  | .scat => nums && none_ && decide (st.sub ≤ 2) && st.k == 0 && decide (st.c < 16)

/-- A stage word that admission takes by itself. -/
def stageOf (w : Word) : Option Stage :=
  match stageOp (field w 4 0) with
  | none => none
  | some op =>
    let st : Stage := {
      op := op
      ty := field w 8 5
      side := field w 10 9
      sat := w.getLsbD 11
      sub := field w 15 12
      k := field w 31 16
      c := field w 63 32 }
    if st.fieldsOk && (op == .cvt || !st.sat) then some st else none

/-- R295-R299: a stage's ratio, as input and output counts. -/
def Stage.ratio (st : Stage) : Nat × Nat :=
  match st.op with
  | .cvt =>
    let ws := laneWidth st.ty
    let wd := laneWidth st.sub
    if ws ≤ wd then (1, wd / ws) else (ws / wd, 1)
  | .dqs => (4 * st.blockWidth + 1, 4 * laneWidth st.ty)
  | .qnt => (128, 4 * st.blockWidth + 1)
  | .acc => (st.k, 1)
  | .cnt => (st.k, 8)
  | .csum => (st.k, 1)
  | .agen => (1, 32 * st.rl)
  | .scat => (1 + 32 * st.rl, 0)
  | _ => (1, 1)

/-- Table 12.7: latency. -/
def Stage.lat (st : Stage) : Nat :=
  match st.op with
  | .add => if 8 ≤ st.ty then 2 else 1
  | .sub => if 8 ≤ st.ty then 2 else 1
  | .mul => 2
  | .cvt => 2
  | .dqs => 2
  | .qnt => 2
  | .acc => 3
  | .cnt => 2
  | .csum => 2
  | .hash => 2
  | _ => 1

/-- Table 12.7: depth. -/
def Stage.depth (st : Stage) : Nat :=
  match st.op with
  | .dqs => 2 + 4 * st.blockWidth
  | .qnt => 10
  | .acc => 3 + (st.k - 1) * (st.rl - 1)
  | .cnt => 2 + st.k - (st.k + 7) / 8
  | _ => st.lat

/-! Graphs (R293, R299, R300). -/

/-- A graph's stages, ratio a : b and depth D. -/
structure Graph where
  stages : List Stage
  a : Nat
  b : Nat
  depth : Nat
  deriving DecidableEq, Repr

/-- R293: a skip stands behind a stage of ratio 1:1 only. -/
def skipsOk : List Stage → Bool
  | a :: b :: r => (b.side != 1 || a.ratio == (1, 1)) && skipsOk (b :: r)
  | _ => true

/-- R299: at most one `agen`, at most one `scat`, never both, `scat` last. -/
def memOk (l : List Stage) : Bool :=
  let na := (l.filter (·.op == .agen)).length
  let ns := (l.filter (·.op == .scat)).length
  decide (na + ns ≤ 1) && (ns == 0 || (match l.getLast? with | some st => st.op == .scat | none => false))

/-- R300: whether a graph is dynamic-only. -/
def dynamicOnly (l : List Stage) : Bool := l.any fun st => st.op == .agen || st.op == .scat

/-- R293-R300: the graph of a configuration block; none where admission refuses it. -/
def graphOf (words : List Word) : Option Graph :=
  match words with
  | [] => none
  | h :: ws =>
    let n := h.toNat
    if n = 0 ∨ 8 < n ∨ ws.length ≠ n then none else
    let sts := ws.filterMap stageOf
    if sts.length ≠ n ∨ !skipsOk sts ∨ !memOk sts then none else
    let a := sts.foldl (fun p st => p * st.ratio.1) 1
    let b := sts.foldl (fun p st => p * st.ratio.2) 1
    let d := sts.foldl (fun p st => p + st.depth) 0
    let g := if b = 0 then 1 else Nat.gcd a b
    if 65535 < a / g ∨ 65535 < b / g ∨ 65535 < d then none
    else some { stages := sts, a := a / g, b := b / g, depth := d }

/-! Lanes of a line (R293). -/

def lineLane (v : Line) (w i : Nat) : Nat := v.toNat / 2 ^ (w * i) % 2 ^ w

def lineLanes (v : Line) (w : Nat) : List Nat := (List.range (1024 / w)).map (lineLane v w)

def ofLineLanes (w : Nat) (l : List Nat) : Line :=
  BitVec.ofNat 1024 (l.foldr (fun x r => x % 2 ^ w + 2 ^ w * r) 0)

/-- R292: a null token's lanes are zero. -/
def Token.lanes (t : Token) (w : Nat) : List Nat := lineLanes (if t.null then 0 else t.line) w

/-- R293: the constant c in every lane. -/
def Stage.const (st : Stage) : Nat :=
  match st.ty with
  | 7 => intCode 64 (signExt (BitVec.ofNat 64 st.c) 32)
  | 11 => (f64.round .rn (f32.value st.c)).1
  | _ => st.c % 2 ^ laneWidth st.ty

/-! Lanewise operations (R295). -/

/-- A binary operation on one lane of a float type, rounded to nearest. -/
def floatLane (f : Fmt) (op : StageOp) (sub x y : Nat) : Nat :=
  let vx := f.value x
  let vy := f.value y
  let all := 2 ^ f.width - 1
  match op with
  | .add => (f.add x y).1
  | .sub => (f.sub x y).1
  | .mul => (f.mul x y).1
  | .min => f.min x y
  | .max => f.max x y
  | _ =>
    let t : Bool := match sub with
      | 0 => vx.eq vy
      | 1 => !vx.eq vy
      | 2 => vx.lt vy
      | _ => vx.le vy
    if t then all else 0

/-- A binary operation on one lane of an integer type; results wrap. -/
def intLane (sg : Bool) (w : Nat) (op : StageOp) (sub x y : Nat) : Nat :=
  let do_ (o : LaneOp) : Nat := (o.apply w x y).1
  let vx := intValue sg w x
  let vy := intValue sg w y
  match op with
  | .add => do_ .add
  | .sub => do_ .sub
  | .mul => do_ .mul
  | .min => do_ (if sg then .min else .minw)
  | .max => do_ (if sg then .max else .maxw)
  | .logic => do_ (match sub with | 0 => .and | 1 => .or | 2 => .xor | _ => .andn)
  | .shift => do_ (match sub with | 0 => .shl | 1 => .shr | _ => .sar)
  | _ =>
    let t : Bool := match sub with
      | 0 => vx == vy
      | 1 => vx != vy
      | 2 => decide (vx < vy)
      | _ => decide (vx ≤ vy)
    if t then 2 ^ w - 1 else 0

/-- R295: what a lanewise stage makes of lane x of its token and lane y of its operand. -/
def Stage.lane (st : Stage) (x y : Nat) : Nat :=
  match st.op with
  | .sel => if x ≠ 0 then y else st.const
  | .hash => (randBits (BitVec.ofNat 64 st.c) (BitVec.ofNat 64 x)).toNat % 2 ^ laneWidth st.ty
  | op => match laneFmt st.ty with
    | .fl f => floatLane f op st.sub x y
    | .int sg w => intLane sg w op st.sub x y

/-- R292, R306: a lanewise stage on one token and its operand y. -/
def Stage.lanewise (st : Stage) (x y : Token) : Token :=
  let w := laneWidth st.ty
  let ys := if st.side = 1 then y.lanes w else List.replicate (1024 / w) st.const
  { line := ofLineLanes w ((x.lanes w).zip ys |>.map fun (a, b) => st.lane a b)
    pois := if st.side = 1 then x.pois ||| y.pois else x.pois
    null := x.null && (st.side != 1 || y.null)
    at_ := x.at_ }

/-! Operations on units of tokens (R296-R298). -/

/-- The complete units of n tokens, in order. -/
def unitsOf (n : Nat) (l : List Token) : List (List Token) :=
  (List.range (l.length / n)).map fun u => (l.drop (n * u)).take n

/-- The same with the unit that is not complete yet behind them. -/
def partsOf (n : Nat) (l : List Token) : List (List Token) :=
  (List.range ((l.length + n - 1) / n)).map fun u => (l.drop (n * u)).take n

/-- The cycle in which the last token of a unit became available (R303). -/
def lastAt (l : List Token) : Nat := l.foldl (fun m t => max m t.at_) 0

/-- R306: all words where a word of the unit is poisoned. -/
def unitPois (l : List Token) : BitVec 16 := if l.any (·.pois != 0) then BitVec.allOnes 16 else 0

/-- The words that results of width w, with these poison marks, poison. -/
def poisOf (w : Nat) (l : List Bool) : BitVec 16 :=
  l.zipIdx.foldl (fun (m : BitVec 16) (p, i) => if p then m ||| (1#16 <<< (w * i / 64)) else m) 0

/-- Rounding codes 0 to 3 of `cvt` and `qnt`. -/
def stageRm (k : Nat) : Rm :=
  match k % 4 with
  | 0 => .rn
  | 1 => .rz
  | 2 => .ru
  | _ => .rd

/-- R296, R306: conversion of a unit: result i from lane i, over as many output tokens as they fill. -/
def Stage.convert (st : Stage) (u : List Token) : List Token :=
  let ws := laneWidth st.ty
  let wd := laneWidth st.sub
  let cells : List (Nat × Bool × Bool) := u.flatMap fun t => (t.lanes ws).zipIdx.map fun (x, i) =>
    (((laneFmt st.sub).convert (stageRm st.k) st.sat ((laneFmt st.ty).value x)).1, t.pois.getLsbD (ws * i / 64), t.null)
  let n := 1024 / wd
  (List.range (cells.length / n)).map fun m =>
    let l := (cells.drop (n * m)).take n
    { line := ofLineLanes wd (l.map (·.1))
      pois := poisOf wd (l.map (·.2.1))
      null := l.all (·.2.2)
      at_ := lastAt u }

/-- Lines of a list of codes of width w. -/
def packLines (w : Nat) (pois : BitVec 16) (at_ : Nat) (l : List Nat) : List Token :=
  let n := 1024 / w
  (List.range (l.length / n)).map fun m =>
    { line := ofLineLanes w ((l.drop (n * m)).take n)
      pois := pois
      null := false
      at_ := at_ }

/-- The lines of a unit as one number, null lines zero. -/
def unitBits (u : List Token) : Nat :=
  u.foldr (fun t r => (if t.null then 0 else t.line.toNat) + 2 ^ 1024 * r) 0

/-- R297: a blocked unit decoded. -/
def Stage.dequantise (st : Stage) (u : List Token) : List Token :=
  let (f, _) := blockFmt st.sub
  let w := f.width
  let bits := unitBits u
  let scales := bits / 2 ^ (1024 * 4 * w)
  packLines (laneWidth st.ty) (unitPois u) (lastAt u) ((List.range 4096).map fun i =>
    ((laneFmt st.ty).round .rn (blockValue f (bits / 2 ^ (w * i) % 2 ^ w) (scales / 2 ^ (8 * (i / 32)) % 256))).1)

/-- R297: 128 f32 lines quantised into one blocked unit. -/
def Stage.quantise (st : Stage) (u : List Token) : List Token :=
  let (f, ex) := blockFmt st.sub
  let blocks := u.map fun t => quantBlock f ex (fun _ => stageRm st.k) ((t.lanes 32).map f32.value)
  let elems := blocks.flatMap (·.2)
  let bits := elems.foldr (fun x r => x % 2 ^ f.width + 2 ^ f.width * r) 0
  let lines := (List.range (4 * f.width)).map fun i => (BitVec.ofNat 1024 (bits / 2 ^ (1024 * i)) : Line)
  (lines ++ [ofLineLanes 8 (blocks.map (·.1))]).map fun l =>
    { line := l
      pois := unitPois u
      null := false
      at_ := lastAt u }

/-- R149, R191: the largest or smallest lane of a bag, the identity where every row is null. -/
def bagExtreme (ty : Nat) (big : Bool) (l : List Nat) : Nat :=
  match laneFmt ty with
  | .fl f => l.foldl (fun m x => if big then f.max m x else f.min m x) (f.infCode big)
  | .int sg w =>
    l.foldl (fun m x => intLane sg w (if big then .max else .min) 0 m x)
      (intCode w (if big then intMin sg w else intMax sg w))

/-- R298: one lane over the rows of a bag; each row gives its lane, or none where it is null. -/
def Stage.bagLane (st : Stage) (rows : List (Option Nat)) : Nat :=
  if st.sub ≠ 0 then bagExtreme st.ty (st.sub == 1) (rows.filterMap id)
  else match laneFmt st.ty with
    | .fl f => (f.sumTree (rows.map fun r => r.getD (f.signBit true))).1
    | .int _ w => (rows.filterMap id).foldl (· + ·) 0 % 2 ^ w

/-- R298, R303, R306: a bag of k rows of RL lines: the output lines whose rows have all come; line q depends on line q of each
row. -/
def Stage.bag (st : Stage) (u : List Token) : List Token :=
  let w := laneWidth st.ty
  (List.range (u.length - (st.k - 1) * st.rl)).map fun q =>
    let rows := (List.range st.k).filterMap fun i => u[i * st.rl + q]?
    { line := ofLineLanes w ((List.range (1024 / w)).map fun e =>
        st.bagLane (rows.map fun t => if t.null then none else some (lineLane t.line w e)))
      pois := rows.foldl (fun (m : BitVec 16) t => m ||| t.pois) 0
      null := false
      at_ := lastAt rows }

/-- R298: 256 bins over the bytes of the tokens that are not null. -/
def countUnit (u : List Token) : List Token :=
  let bytes := (u.filter (!·.null)).flatMap fun t => lineLanes t.line 8
  packLines 32 (unitPois u) (lastAt u) ((List.range 256).map fun b => (bytes.filter (· == b)).length)

/-- R19: CRC-32 (IEEE 802.3, reflected, initial value and final XOR all ones). -/
def crcBits : Nat → Nat → Nat
  | 0, c => c
  | n + 1, c => crcBits n (if c % 2 = 1 then (c / 2) ^^^ 0xEDB88320 else c / 2)

def crc32 (bytes : List Nat) : Nat :=
  (bytes.foldl (fun c b => crcBits 8 (c ^^^ b)) 0xFFFFFFFF) ^^^ 0xFFFFFFFF

/-- R298: the CRC-32 of a unit. -/
def sumUnit (u : List Token) : List Token :=
  [{ line := BitVec.ofNat 1024 (crc32 (u.flatMap (·.lanes 8)))
     pois := unitPois u
     null := false
     at_ := lastAt u }]

/-! Stages on token sequences (R292). -/

/-- R299, R306: what `agen` makes of an index lane: a line index to read, null tokens or poisoned ones. -/
inductive IndexUse where
  | read (idx : Nat)
  | null
  | poisoned
  deriving DecidableEq, Repr

def Token.index (t : Token) (i : Nat) : IndexUse :=
  if t.pois.getLsbD (i / 2) then .poisoned
  else if t.null then .read 0
  else
    let x := lineLane t.line 32 i
    if x = 0xFFFFFFFF then .null else .read x

/-- R299: the tokens `agen` has emitted, up to the first whose read is not over. `late` is the time an index takes
through the graph and `reads` the tokens its reads brought, by position. -/
def agenOut (rl late : Nat) (reads : Nat → Option Token) (ins : List Token) : List Token :=
  let want : List (Option Token) := ins.zipIdx.flatMap fun (t, n) => (List.range 32).flatMap fun i => (List.range rl).map fun q =>
    match t.index i with
    | .read _ => reads ((32 * n + i) * rl + q)
    | .null => some { line := 0, pois := 0, null := true, at_ := t.at_ + late }
    | .poisoned => some { line := 0, pois := BitVec.allOnes 16, null := false, at_ := t.at_ + late }
  (want.takeWhile Option.isSome).filterMap id

/-- A zero line, as a `fifo` emits first (R298). -/
def Token.zeroAt (c : Nat) : Token := { line := 0, pois := 0, null := false, at_ := c }

/-- R292: the output tokens of a stage, from the tokens that have entered it, those that entered the stage before it,
and the tokens its `agen` reads brought. -/
def Stage.apply (st : Stage) (late : Nat) (reads : Nat → Option Token) (ins prev : List Token) : List Token :=
  match st.op with
  | .pass => ins
  | .cvt => (unitsOf st.ratio.1 ins).flatMap st.convert
  | .dqs => (unitsOf st.ratio.1 ins).flatMap st.dequantise
  | .qnt => (unitsOf st.ratio.1 ins).flatMap st.quantise
  | .acc => (partsOf (st.k * st.rl) ins).flatMap st.bag
  | .cnt => (unitsOf st.k ins).flatMap countUnit
  | .csum => (unitsOf st.k ins).flatMap sumUnit
  | .fifo => ins.zipIdx.map fun (t, i) =>
      if i < st.k then .zeroAt t.at_ else { (ins.getD (i - st.k) (.zeroAt 0)) with at_ := t.at_ }
  | .agen => agenOut st.rl late reads ins
  | .scat => []
  | _ => if st.side = 1 then (ins.zip prev).map fun (x, y) => st.lanewise x y else ins.map fun x => st.lanewise x x

/-- The tokens that leave a list of stages; `late` as above, `prev` what entered the stage before the first. -/
def runStages (late : Nat) (reads : Nat → Option Token) : List Stage → List Token → List Token → List Token
  | [], ins, _ => ins
  | st :: r, ins, prev => runStages late reads r (st.apply late reads ins prev) ins

/-- R292: the output of a graph that reads no memory, over the input of one stream at one array. -/
def Graph.run (g : Graph) (ins : List Token) : List Token := runStages 0 (fun _ => none) g.stages ins ins

/-- The sum of the latencies of stages (R302, R303). -/
def latSum (l : List Stage) : Nat := l.foldl (fun n st => n + st.lat) 0

/-- The stages before the `agen` or `scat` of a list, and those from it on. -/
def splitMem (l : List Stage) : List Stage × List Stage := l.span fun st => st.op != .agen && st.op != .scat

/-- R292: the line a token leaves as: a null token as zeros. -/
def Token.out (t : Token) : Line := if t.null then 0 else t.line

end Sys2Proof.Machine
end

