-- ==== Sys2Proof/Machine/Graph.lean ====
section
/-! DEFINITION. Dynamic streams through a graph (R287-R289, R302-R306): the checks of a `gjob` descriptor, its accesses
turn by turn, and its port queues. -/

namespace Sys2Proof.Machine

/-- A `gjob` descriptor (Table 12.2). -/
structure GraphDesc where
  src   : Word
  dst   : Word
  gslot : Nat
  kind  : Nat
  q     : Nat
  n     : Nat
  tbase : Word
  bad   : Bool
  deriving DecidableEq, Repr

def graphDesc (l : List Word) : GraphDesc :=
  let w (i : Nat) : Word := l.getD i 0
  { src := w 0
    dst := w 1
    gslot := field (w 2) 3 0
    kind := graphKind l
    q := field (w 2) 9 7
    n := field (w 2) 47 16
    tbase := w 3
    bad := field (w 0) 63 56 != 0 || field (w 1) 63 56 != 0 || field (w 2) 15 10 != 0 || field (w 2) 63 48 != 0 ||
      field (w 3) 63 56 != 0 || (l.drop 4).any (· != 0) }

/-- R291, R30: the graph a slot holds at the array beside a cluster. -/
def Part.graphAt (p : Part) (gslot cluster : Nat) : Option Graph :=
  match p.graphs.find? fun g => g.1 == gslot && (g.2.1 == 0 || g.2.1.getLsbD cluster) with
  | some g => graphOf g.2.2
  | none => none

/-- Table 12.3: where a kind's lines come from and go: HBM, local store, a port queue. -/
def GraphDesc.fromHbm (g : GraphDesc) : Bool := decide (g.kind ≤ 2)
def GraphDesc.fromPort (g : GraphDesc) : Bool := g.kind == 3
def GraphDesc.toPort (g : GraphDesc) : Bool := g.kind == 2
def GraphDesc.toLocal (g : GraphDesc) : Bool := g.kind == 1 || g.kind == 5

/-- R288: the lowest and highest line of a local-window end of n lines. -/
def endLines (base : Word) (n : Nat) : List Word := [base, base + BitVec.ofNat 64 (128 * (n - 1))]

/-- R67, R288: whether these are addresses of the cluster's local window, in a share that the partition owns or not. -/
def State.localEnds (s : State) (cluster : Nat) (base : Word) (n : Nat) : Bool :=
  (endLines base n).all fun a => field a 45 40 == cluster && match s.route a 128 with
    | .ok (.loc _ _ _) => true
    | .error k => k == 5
    | _ => false

/-- R288: an end of a `gjob` of n lines: aligned, in the space its kind gives it. -/
def State.graphEnd (s : State) (cluster : Nat) (base : Word) (hbm : Bool) (n : Nat) : Bool :=
  base.toNat % 128 == 0 &&
  (if hbm then field base 47 46 == 0 else field base 47 46 == 2 && s.localEnds cluster base n)

/-- R288, R289: whether a `gjob` descriptor passes every check in a cluster. -/
def State.graphOk (s : State) (cluster : Nat) (l : List Word) : Bool :=
  let g := graphDesc l
  match s.p.graphAt g.gslot cluster with
  | none => false
  | some gr =>
    let nout := g.n * gr.b / gr.a
    let writes := gr.b != 0 && !g.toPort
    !g.bad && decide (g.kind ≤ 5) && decide (g.gslot < s.p.graphSlots) && g.n != 0 && g.n % gr.a == 0 &&
    (gr.b != 0 || !(g.toPort || g.toLocal)) &&
    (if g.fromPort || g.toPort then true else g.q == 0) &&
    (if g.fromPort then g.src == 0 else s.graphEnd cluster g.src g.fromHbm g.n) &&
    (if writes then s.graphEnd cluster g.dst (!g.toLocal) nout else g.dst == 0) &&
    (if dynamicOnly gr.stages then g.tbase.toNat % 128 == 0 && field g.tbase 47 46 == 0 else g.tbase == 0)

/-- R68, R288: the line of a local-window end that lies in a share the partition does not own. -/
def State.graphUnowned (s : State) (l : List Word) : Option Word :=
  let g := graphDesc l
  let nout := match s.p.graphs.find? fun x => x.1 == g.gslot with
    | some x => (match graphOf x.2.2 with
      | some gr => g.n * gr.b / gr.a
      | none => 0)
    | none => 0
  let src := if g.fromHbm || g.fromPort then [] else endLines g.src g.n
  let dst := if g.toLocal then endLines g.dst nout else []
  (src ++ dst).find? fun a => match s.route a 128 with
    | .error k => k == 5
    | _ => false

/-! Lines (R288, R305). -/

/-- R288: the flat address of a line that a job reads, or writes as the writer of that code: an HBM line must be homed
in the job's cluster. -/
def State.graphFlat (s : State) (cluster : Nat) (asid : BitVec 12) (va : Word) (writer : Option Nat) : Except Nat Nat :=
  match s.route va 128 with
  | .ok (.hbm home _) => if home = cluster then s.engineFlat asid va 128 writer else .error 3
  | .ok (.loc cl _ _) => if cl = cluster then s.engineFlat asid va 128 writer else .error 3
  | .error 5 => .error 4
  | _ => .error 3

/-- A line read now, as a token available from a cycle on; the full/empty bits do not enter it (R299). -/
def State.readLine (s : State) (flat at_ : Nat) : State × Token :=
  let s := if flat < flatLocalBase then s.count 19 else s
  let s := (List.range 16).foldl (fun s i => s.noteErrors (flat + 8 * i)) s
  (s, { line := s.line flat
        pois := s.linePois flat
        null := false
        at_ := at_ })

/-- A line written, each word set full, poisoned words with the pattern (R305, R306). -/
def State.writeLine (s : State) (flat : Nat) (l : Line) (pois : BitVec 16) : State :=
  let s := if flat < flatLocalBase then s.count 19 else s
  (List.range 16).foldl (fun s i =>
    s.copyWord (flat + 8 * i) (l.extractLsb' (64 * i) 64) (pois.getLsbD i)) s

/-- R305: the words of the output lines of a command, which become empty at acceptance. -/
def State.graphDests (s : State) (asid : BitVec 12) (l : List Word) (gr : Graph) : Dests :=
  let g := graphDesc l
  if g.kind = 2 ∨ g.kind = 3 ∨ gr.b = 0 then [] else
  (List.range (g.n * gr.b / gr.a)).flatMap fun k =>
    match s.engineFlat asid (g.dst + BitVec.ofNat 64 (128 * k)) 128 none with
    | .ok f => (List.range 16).map fun i => f + 8 * i
    | .error _ => []

/-! The stream of a job. -/

/-- Tokens 0, 1, ... of a table, up to the first that has not come. -/
def prefixOf (t : Tab Token) : Nat → Nat → List Token
  | 0, _ => []
  | n + 1, k => match Tab.find k t with
    | some x => x :: prefixOf t n (k + 1)
    | none => []

/-- The input tokens that have entered the graph. -/
def Job.tokens (j : Job) : List Token := prefixOf j.graph.inputs j.graph.inputs.length 0

/-- R302: the core cycles an index takes to leave `agen`, or a data line to reach `scat`. -/
def Graph.lead (g : Graph) (d : Nat) : Nat :=
  match splitMem g.stages with
  | (pre, m :: _) => 2 * d * (latSum pre + if m.op = .agen then m.lat else 0)
  | _ => 0

/-- The stages a token passes after the last access that made it available (R303). -/
def Graph.tail (g : Graph) : List Stage :=
  match splitMem g.stages with
  | (_, m :: r) => if m.op = .agen then r else g.stages
  | _ => g.stages

/-- The job's output lines so far. -/
def Job.outputs (j : Job) (g : Graph) (d : Nat) : List Token :=
  runStages (g.lead d) (fun k => Tab.find k j.graph.agen) g.stages j.tokens j.tokens

/-- R303, R112: the cycles in which output lines are ready. -/
def readyTimes (d lat : Nat) : List Token → Option Nat → List Nat
  | [], _ => []
  | t :: r, last =>
    let e := t.at_ + (2 * lat + 4) * d
    let c := match last with
      | none => e
      | some m => max e (m + d)
    c :: readyTimes d lat r (some c)

/-- The tokens that have entered the `agen` or `scat` stage. -/
def Job.atMem (j : Job) (g : Graph) : List Token :=
  let pre := (splitMem g.stages).1
  runStages 0 (fun _ => none) pre j.tokens j.tokens

/-- The memory stage of a graph. -/
def Graph.mem (g : Graph) : Option Stage := (splitMem g.stages).2.head?

/-- R299: the next read of an `agen` from a place on: its place, the line's number, the cycle its index leaves. -/
def nextRead (rl lead : Nat) (toks : List Token) : Nat → Nat → Option (Nat × Nat × Nat)
  | 0, _ => none
  | fuel + 1, p => match toks[p / rl / 32]? with
    | none => none
    | some t => match t.index (p / rl % 32) with
      | .read x => some (p, x * rl + p % rl, t.at_ + lead)
      | _ => nextRead rl lead toks fuel (p + 1)

/-- A `scat` update: its place, its line's number, its data, and the cycle the data is complete; or a poisoned index. -/
inductive Update where
  | line (p idx : Nat) (data : Token) (ready : Nat)
  | poisoned (p tok word : Nat)
  deriving DecidableEq, Repr

/-- R299: the next update of a `scat` from a place on whose data line has come. -/
def nextUpdate (rl lead : Nat) (toks : List Token) : Nat → Nat → Option Update
  | 0, _ => none
  | fuel + 1, p =>
    let u := p / (32 * rl)
    let n := u * (1 + 32 * rl)
    let i := p % (32 * rl) / rl
    match toks[n]?, toks[n + 1 + p % (32 * rl)]? with
    | some ix, some data =>
      (match ix.index i with
      | .read x => some (.line p (x * rl + p % rl) data (max ix.at_ data.at_ + lead))
      | .null => nextUpdate rl lead toks fuel (p + 1)
      | .poisoned => some (.poisoned p n (i / 2)))
    | _, _ => none

/-- Places of an `agen` or `scat` that the tokens so far give. -/
def memPlaces (rl : Nat) (toks : List Token) : Nat := 32 * rl * toks.length + 1

/-- The next read of a job's `agen`. -/
def Job.nextRead (j : Job) (g : Graph) (d : Nat) : Option (Nat × Nat × Nat) :=
  match g.mem with
  | some m => if m.op = .agen then Machine.nextRead m.rl (g.lead d) (j.atMem g) (memPlaces m.rl (j.atMem g)) j.graph.mem else none
  | none => none

/-- The next update of a job's `scat`. -/
def Job.nextUpdate (j : Job) (g : Graph) (d : Nat) : Option Update :=
  match g.mem with
  | some m => if m.op = .scat then Machine.nextUpdate m.rl (g.lead d) (j.atMem g) (memPlaces m.rl (j.atMem g)) j.graph.mem else none
  | none => none

/-! Accesses in flight (R302). -/

/-- The classes of a job's accesses: an input read, an `agen` read, a `scat` update, an output write, a line of a
queue. -/
def accessClass (k : Nat) : Nat := k / 2 ^ 40
def accessIndex (k : Nat) : Nat := k % 2 ^ 40

/-- The latest completion of accesses of a class: of this job, or of every job for a `scat` (R305: step order). -/
def State.latestOf (s : State) (j : Job) (cls : Nat) : Nat :=
  s.agenda.foldl (fun m i => match i.what with
    | .ev (.accessComplete _ (.job f key k)) =>
      if f = s.p.first ∧ accessClass k = cls ∧ (cls = 2 ∨ key = j.key) then max m i.cycle else m
    | _ => m) 0

/-- The number of an access: its class and its place there. -/
def accessKey (cls k : Nat) : Nat := cls * 2 ^ 40 + k

/-- An access of a job to a flat address is on its way: its completion, no earlier than those before it of its class. It reaches
the home interface, beside its cluster, in the step that issues it, and is translated there once (R308). -/
def State.flyLine (s : State) (j : Job) (cls k time flat : Nat) : State × Job × Nat :=
  let c := time * s.p.run.d
  let (c, s) := s.atLeast c
  let at_ := max (s.now + c) (s.latestOf j cls)
  let s := s.dueAt at_ (rankEngine + j.loc.key) (.ev (.accessComplete 0 (.job s.p.first j.key (accessKey cls k))))
  let g := j.graph
  (s, { j with graph := { g with
    flight := g.flight + 1
    reads := if cls ≤ 1 then g.reads + 1 else g.reads
    flats := Tab.put (accessKey cls k) flat g.flats } }, at_)

/-- The destination words of output lines whose writes are on their way. -/
def Job.flyingWords (j : Job) : List Nat :=
  j.graph.flats.flatMap fun (k, f) => if accessClass k = 3 then (List.range 16).map fun i => f + 8 * i else []

/-- R274, R305: a `gjob` stops: the destination words it will not write are set full. -/
def State.stopGraph (s : State) (j : Job) (code : Nat) (addr : Word) : State × Job :=
  let fly := j.flyingWords
  let (s, j') := s.stopJob { j with emptied := j.emptied.filter fun f => !fly.contains f } code addr
  (s, { j' with emptied := j.emptied.filter fun f => fly.contains f })

/-! Steps (R302). -/

/-- Step 1: the write of output line k. -/
def State.graphWrite (s : State) (j : Job) (g : GraphDesc) (k : Nat) (t : Token) : State × Job :=
  let va := g.dst + BitVec.ofNat 64 (128 * k)
  match s.graphFlat j.cluster j.asid va (some 7) with
  | .error c => s.stopGraph j c va
  | .ok f =>
    let j := { j with graph := { j.graph with wrote := k + 1 } }
    if f < flatLocalBase then
      let (s, j, _) := s.flyLine j 3 k 200 f
      (s, j)
    else
      let s := s.writeLine f t.out t.pois
      let j := { j with emptied := j.emptied.filter fun x => !(decide (f ≤ x) && decide (x < f + 128)) }
      let (s, j, _) := s.flyLine j 3 k 24 f
      (s, j)

/-- Step 2: a `scat` update, or the stop on a poisoned index. The index word's own address is known where the index
lines enter `scat` as they were read. -/
def State.graphScatter (s : State) (j : Job) (g : GraphDesc) (pre : List Stage) : Update → State × Job
  | .poisoned _ tok word =>
    if !g.fromPort && pre.all (fun st => st.ratio == (1, 1)) then
      s.stopGraph j 2 (g.src + BitVec.ofNat 64 (128 * tok + 8 * word))
    else ({ s with fresh := s.fresh + 1 } : State).stopGraph j 2 (Config.unstated s.fresh)
  | .line p idx _ _ =>
    let va := g.tbase + BitVec.ofNat 64 (128 * idx)
    let past := 2 ^ 46 ≤ field g.tbase 45 0 + 128 * idx
    match (if past then .error 3 else s.graphFlat j.cluster j.asid va (some 8)) with
    | .error c => s.stopGraph j c va
    | .ok f =>
      let (s, j, _) := s.flyLine { j with graph := { j.graph with mem := p + 1 } } 2 p 400 f
      (s, j)

/-- Step 3: an `agen` read. -/
def State.graphFetch (s : State) (j : Job) (g : GraphDesc) (p idx : Nat) : State × Job :=
  let va := g.tbase + BitVec.ofNat 64 (128 * idx)
  let past := 2 ^ 46 ≤ field g.tbase 45 0 + 128 * idx
  match (if past then .error 3 else s.graphFlat j.cluster j.asid va none) with
  | .error c => s.stopGraph j c va
  | .ok f =>
    let (s, j, _) := s.flyLine { j with graph := { j.graph with mem := p + 1 } } 1 p 200 f
    (s, j)

/-- Step 4: an input read; local store is read in the step (R330). -/
def State.graphInput (s : State) (j : Job) (g : GraphDesc) : State × Job :=
  let i := j.graph.issued
  let va := g.src + BitVec.ofNat 64 (128 * i)
  match s.graphFlat j.cluster j.asid va none with
  | .error c => s.stopGraph j c va
  | .ok f =>
    let j := { j with graph := { j.graph with issued := i + 1 } }
    if f < flatLocalBase then
      let (s, j, _) := s.flyLine j 0 i 200 f
      (s, j)
    else
      let (s, j, c) := s.flyLine j 0 i 24 f
      let (s, t) := s.readLine f c
      (s, { j with graph := { j.graph with inputs := Tab.put i t j.graph.inputs } })

/-- Output lines ready and not delivered (R302). -/
def readyUndelivered (now wrote : Nat) (ready : List Nat) : Nat := ((ready.drop wrote).filter fun c => decide (c ≤ now)).length

/-- R302: the access a job takes in a turn, if one is possible; whether it took one. -/
def State.graphTurn (s : State) (j : Job) (g : GraphDesc) (gr : Graph) : Bool × State × Job :=
  let d := s.p.run.d
  let outs := j.outputs gr d
  let ready := readyTimes d (latSum gr.tail) outs none
  let k := j.graph.wrote
  match outs[k]?, ready[k]? with
  | some t, some c => if !g.toPort && decide (c ≤ s.now) then (true, s.graphWrite j g k t) else rest d ready
  | _, _ => rest d ready
where
  rest (d : Nat) (ready : List Nat) : Bool × State × Job :=
    match j.nextUpdate gr d with
    | some u =>
      let possible := match u with
        | .line _ _ _ c => decide (c ≤ s.now)
        | .poisoned _ _ _ => true
      if possible then (true, s.graphScatter j g (splitMem gr.stages).1 u) else input ready
    | none => match j.nextRead gr d with
      | some (p, idx, c) => if c ≤ s.now then (true, s.graphFetch j g p idx) else input ready
      | none => input ready
  input (ready : List Nat) : Bool × State × Job :=
    if !g.fromPort && decide (j.graph.issued < g.n) && decide (readyUndelivered s.now j.graph.wrote ready < 32) &&
        decide (j.graph.reads < 8) then (true, s.graphInput j g)
    else (false, s, j)

/-- R304: the lines that have become outputs of a kind 2 job are on their way to its queue. -/
def State.sendLines (s : State) (j : Job) (g : GraphDesc) (gr : Graph) : State × Job :=
  if !g.toPort then (s, j) else
  let d := s.p.run.d
  let outs := j.outputs gr d
  let ready := readyTimes d (latSum gr.tail) outs none
  let s := (List.range outs.length).foldl (fun s k =>
    if k < j.graph.sent then s
    else match outs[k]?, ready[k]? with
      | some t, some c => s.dueAt (max c s.now) (rankThread - 2)
          (.ev (.portQueueChunkEnters s.p.first j.cluster g.q j.key t.out t.pois))
      | _, _ => s) s
  (s, { j with graph := { j.graph with sent := outs.length } })

/-- Whether a `gjob` has nothing left to do but what is in flight (R303). -/
def Job.graphOver (j : Job) (g : GraphDesc) (gr : Graph) (d : Nat) : Bool :=
  j.tokens.length == g.n && j.graph.wrote == g.n * gr.b / gr.a &&
  (j.nextUpdate gr d).isNone && (j.nextRead gr d).isNone && j.graph.flight == 0

/-! Port queues (R290, R304). -/

/-- R290: a job of kind 2 or 3 attaches its queue, unless another job holds it; the lines that wait there feed it. -/
def State.attach (s : State) (j : Job) (g : GraphDesc) : Option State :=
  if !(g.fromPort || g.toPort) then some s else
  let q := Tab.getD ⟨[], none, 0⟩ g.q (s.cluster j.cluster).ports
  match q.attached with
  | some k => if k = j.key then some s else none
  | none =>
    let s := s.setPort j.cluster g.q fun q => { q with attached := some j.key }
    if !g.fromPort then some s
    else some ((List.range (q.chunks.length / 2)).foldl (fun s _ =>
      s.dueIn s.p.run.d (rankThread - 1) (.accessComplete 0 (.job s.p.first j.key (4 * 2 ^ 40)))) s)

/-- R290: a job that completes releases its queue. -/
def State.detach (s : State) (j : Job) : State :=
  match j.cmd with
  | .graph l _ =>
    let g := graphDesc l
    if g.fromPort || g.toPort then
      s.setPort j.cluster g.q fun q => if q.attached = some j.key then { q with attached := none } else q
    else s
  | _ => s

/-- R304: the two chunks of an input line leave the queue, and the line becomes available. -/
def State.takeLine (s : State) (j : Job) (g : GraphDesc) : State × Job :=
  match (Tab.getD ⟨[], none, 0⟩ g.q (s.cluster j.cluster).ports).chunks with
  | a :: b :: _ =>
    if g.n ≤ j.graph.issued then (s, j) else
    let t : Token := {
      line := a.data.setWidth 1024 ||| (b.data.setWidth 1024 <<< 512)
      pois := a.pois.setWidth 16 ||| (b.pois.setWidth 16 <<< 8)
      null := false
      at_ := s.now }
    let s := s.setPort j.cluster g.q fun q => { q with chunks := q.chunks.drop 2 }
    (s, { j with
      lastAcc := s.now
      graph := { j.graph with issued := j.graph.issued + 1, inputs := Tab.put j.graph.issued t j.graph.inputs } })
  | _ => (s, j)

/-! Completions (R302, R330). -/

/-- R299: one 64-bit word of a `scat` update, lane by lane. -/
def scatWord (st : Stage) (old data : Word) : Word :=
  let w := laneWidth st.ty
  let op : StageOp := match st.sub with | 0 => .add | 1 => .max | _ => .min
  BitVec.ofNat 64 ((List.range (64 / w)).foldr (fun i r =>
    let x := old.toNat / 2 ^ (w * i) % 2 ^ w
    let y := data.toNat / 2 ^ (w * i) % 2 ^ w
    (match laneFmt st.ty with
      | .fl f => floatLane f op 0 x y
      | .int sg w => intLane sg w op 0 x y) + 2 ^ w * r) 0)

/-- R299, R306: a target line is read, updated and written, word by word. -/
def State.scatLine (s : State) (st : Stage) (flat : Nat) (t : Token) : State :=
  let s := (List.range 16).foldl (fun s i => s.noteErrors (flat + 8 * i)) (s.count 19)
  (List.range 16).foldl (fun s i =>
    let f := flat + 8 * i
    s.copyWord f (scatWord st (s.word f) (t.out.extractLsb' (64 * i) 64)) (s.poisoned f || t.pois.getLsbD i)) s

/-- Access k of a job has completed. -/
def Job.landed (j : Job) (k now : Nat) : Job :=
  { j with
    lastAcc := max j.lastAcc now
    graph := { j.graph with
      flight := j.graph.flight - 1
      reads := if accessClass k ≤ 1 then j.graph.reads - 1 else j.graph.reads
      flats := Tab.drop k j.graph.flats } }

/-- R305, R339: once a job that has stopped has nothing more in flight, no destination word stays empty. -/
def State.fillStopped (s : State) (j : Job) : State × Job :=
  if j.code = 0 ∨ j.graph.flight ≠ 0 then (s, j)
  else (j.emptied.foldl (fun s f => s.setFull f true) s, { j with emptied := [] })

/-- The HBM line that access k of a `gjob` reaches. -/
def Job.graphPlace (j : Job) (k : Nat) : Option Nat := (Tab.find k j.graph.flats).filter fun f => decide (f < flatLocalBase)

/-- R302, R308: an access of a `gjob` completes: the line it was translated to is read or written; that of an end in local
store was, in its step. A job that has stopped takes no more lines. -/
def State.graphAccess (s : State) (j : Job) (g : GraphDesc) (gr : Graph) (k : Nat) : State × Job :=
  let i := accessIndex k
  let stopped := j.code != 0
  if accessClass k = 4 then (if stopped then (s, j) else s.takeLine j g) else
  let place := j.graphPlace k
  let j := j.landed k s.now
  match accessClass k, place with
  | _, none => (s, j)
  | 0, some f =>
    if stopped then (s, j) else
    let (s, t) := s.readLine f s.now
    (s, { j with graph := { j.graph with inputs := Tab.put i t j.graph.inputs } })
  | 1, some f =>
    if stopped then (s, j) else
    let (s, t) := s.readLine f s.now
    (s, { j with graph := { j.graph with agen := Tab.put i t j.graph.agen } })
  | 2, some f =>
    (match gr.mem with
    | some m => (match nextUpdate m.rl 0 (j.atMem gr) 1 i with
      | some (.line _ _ t _) => (s.scatLine m f t, j)
      | _ => (s, j))
    | none => (s, j))
  | _, some f =>
    (match (j.outputs gr s.p.run.d)[i]? with
    | some t => (s.writeLine f t.out t.pois, { j with emptied := j.emptied.filter fun x => !(decide (f ≤ x) && decide (x < f + 128)) })
    | none => (s, j))

end Sys2Proof.Machine
end

