-- ==== Sys2Proof/Machine/Holds.lean ====
section
/-! DEFINITION. Notice boards, the close of a clearing, and the holds of a group (R382-R386, Tables 16.5 and 16.7). -/

namespace Sys2Proof.Machine

/-! Reasons (R384). A slot's key is its tile and slot; a management reason's lies above. -/

def slotKey (ltile slot : Nat) : Nat := ltile * 16 + slot
def mgmtKey (r : Nat) : Nat := 65536 + r

/-- Whether the running launch is a group launch (R457). -/
def State.groupLaunch (s : State) : Bool := s.p.run.group

/-- A message to the proctors of the group, where the launch has one (R388). -/
def State.tellGroup (s : State) (m : GroupMsg) : State := if s.groupLaunch then s.groupMail m else s

/-- The start of a hold is looked at, before every word of that PLAN tick. -/
def State.watchHold (s : State) (plan : Nat) : State := s.duePlan plan 1 (.ev (.holdBegins s.p.first))

/-- Table 16.5: the limit of a slot that is a reason: it counts d ticks of TICK from the start of the hold (R52). -/
def State.startLimit (s : State) (r : Reason) : State :=
  if r.pkg ≠ s.ownPkg ∨ 65536 ≤ r.key then s else
  match s.p.tileOf (r.key / 16) with
  | none => s
  | some t =>
    match ((s.p.tiles.getD t .rest).board.toList.getD (r.key % 16) .rest).limit with
    | some l => s.dueAt (s.cycleOfTick (s.p.run.heldAt + l * s.p.run.d)) rankStart (.ev (.holdLimitExpires s.p.first t (r.key % 16)))
    | none => s

/-- Table 16.7: a reason arises. -/
def State.addReason (s : State) (r : Reason) : State :=
  let run := s.p.run
  let s := s.onRun fun x => { x with reasons := x.reasons ++ [r] }
  match run.hold with
  | .running => (s.onRun fun x => { x with hold := .pending, h0 := r.h0 }).watchHold r.h0
  | .pending => if r.h0 < run.h0 then (s.onRun fun x => { x with h0 := r.h0 }).watchHold r.h0 else s
  | _ => (s.onRun fun x => { x with hold := .holding }).startLimit r

/-- Table 16.7: a reason leaves, at a TICK. -/
def State.dropReason (s : State) (pkg key tick : Nat) : State :=
  let l := s.p.run.reasons.filter fun r => r.pkg != pkg || r.key != key
  if l.length = s.p.run.reasons.length then s
  else
    let s := s.onRun fun x => { x with reasons := l }
    if !l.isEmpty then s
    else match s.p.run.hold with
      | .pending => s.onRun fun x => { x with hold := .running }
      | .holding =>
        let at_ := tick + s.holdLead
        (s.onRun fun x => { x with hold := .resuming, resumeAt := at_ }).dueAt (s.cycleOfTick at_) 1 (.ev (.holdResume s.p.first))
      | _ => s

/-- Whether a word is a `bell` (Table 9.2). -/
def isBell (w : Word) : Bool := field w 53 46 == 0x10

/-- R385: whether a management hold may start now: tick 0 of an overlay, or a `bell` word is due. -/
def State.bellDue (s : State) : Bool :=
  s.plan == s.p.run.ovlPlan ||
  s.p.tiles.any fun t => match t.streams.toList[0]? with
    | some st => !st.done && st.due == s.plan && isBell (st.body.getD st.next 0)
    | none => false

/-- The package and key of a management reason: a code below 256 is this package's own reason, 256 (p + 1) + r is reason r
of package p (R384). -/
def State.mgmtPkg (s : State) (c : Nat) : Nat := if c < 256 then s.ownPkg else c / 256 - 1

/-- R385: the management requests that take H0 now. -/
def State.takeRequests (s : State) : State :=
  if !s.bellDue then s else
  let l := s.p.run.mreqs.filter fun r => decide (r.2 ≤ s.plan)
  let s := s.onRun fun x => { x with mreqs := x.mreqs.filter fun r => decide (s.plan < r.2) }
  l.foldl (fun s r => s.addReason ⟨s.mgmtPkg r.1, mgmtKey (r.1 % 256), s.plan⟩) s

/-- R384: a message to the members of a formed group about a management reason; a group record runs in a partition of size
1/1 alone (R457). -/
def State.tellMembers (s : State) (m : GroupMsg) : State := if s.formed && s.p.lg == 0 then s.groupMail m else s

/-- R385: the first logical tick that may be a new request's H0: the request's logical tick + Hd; 0 where no launch has been
accepted, and the H0 of a hold under way. -/
def State.requestFrom (s : State) : Nat :=
  let run := s.p.run
  if !run.active then 0
  else if run.hold = .holding ∨ run.hold = .resuming then run.h0
  else s.plan + s.holdLead

/-- R385, Table 16.7: a management reason comes into force for a launch. It takes its H0 as PLAN gets there; in a hold it
joins at once. -/
def State.requestHold (s : State) (c at_ : Nat) : State :=
  let run := s.p.run
  if !run.active ∨ (256 ≤ c ∧ !run.group) then s
  else if run.hold = .holding ∨ run.hold = .resuming then s.addReason ⟨s.mgmtPkg c, mgmtKey (c % 256), run.h0⟩
  else
    let s := s.onRun fun x => { x with mreqs := x.mreqs ++ [(c, at_)] }
    if run.chain = .none then s else s.watchHold at_

/-- A management reason comes into force in the focused partition. -/
def State.recordHold (s : State) (c at_ : Nat) : State :=
  if s.p.holds.contains c then s
  else ({ s with p := { s.p with holds := s.p.holds ++ [c] } } : State).requestHold c at_

/-- R385: a management reason of this package; the other members are told. -/
def State.addHold (s : State) (r : Nat) : State :=
  if s.p.holds.contains r then s
  else
    let at_ := s.requestFrom
    (s.tellMembers (.reason s.p.first s.ownPkg (mgmtKey r) at_ s.tick)).recordHold r at_

/-- A management reason leaves, at a TICK. -/
def State.removeHold (s : State) (c tick : Nat) : State :=
  let s := { s with p := { s.p with holds := s.p.holds.filter (· != c) } }
  let s := s.onRun fun x => { x with mreqs := x.mreqs.filter (·.1 != c) }
  s.dropReason (s.mgmtPkg c) (mgmtKey (c % 256)) tick

/-- R385: a management reason of this package is removed; the other members are told. -/
def State.dropHold (s : State) (r : Nat) : State :=
  if !s.p.holds.contains r then s
  else (s.tellMembers (.removal s.p.first s.ownPkg (mgmtKey r) s.tick)).removeHold r s.tick

/-- Table 16.5: the slots whose H0 has begun. -/
def NoticeSlot.atHold (n : NoticeSlot) (plan : Nat) : NoticeSlot :=
  if n.state = .awaiting ∧ n.h0 ≤ plan then { n with state := .holding } else n

def Tile.atHold (plan : Nat) (t : Tile) : Tile := { t with board := t.board.map fun n => n.atHold plan }

/-- Table 16.7: logical tick H0 is due with reasons left: PLAN keeps its value from tick H0 − 1. A request
whose own H0 would be later is a reason of this hold: the earlier H0 stands. -/
def State.enterHold (s : State) : State :=
  let h0 := s.p.run.h0
  let t := s.tick
  let s := { s with p := { s.p with tiles := s.p.tiles.map (Tile.atHold h0) } }
  let join := s.p.run.mreqs.map fun r => (⟨s.mgmtPkg r.1, mgmtKey (r.1 % 256), h0⟩ : Reason)
  let s := s.onRun fun x => { x with
    hold := .holding
    stopped := true
    plan := h0 - 1
    runBase := t
    heldAt := t
    reasons := x.reasons ++ join
    mreqs := [] }
  s.p.run.reasons.foldl State.startLimit (s.count 16)

/-- R385, Table 16.7. -/
def execHoldBegins (first : Nat) (s : State) : Res :=
  let s := s.focusPart first
  if s.p.first ≠ first ∨ !s.p.run.active ∨ s.p.run.stopped then .next s else
  let s := s.takeRequests
  if s.p.run.hold = .pending ∧ s.p.run.h0 ≤ s.plan then .next s.enterHold
  else if s.p.run.mreqs.isEmpty then .next s else .next (s.watchHold (s.plan + 1))

/-- Table 16.7: TICK reaches the resume value: logical tick H0 begins. -/
def execHoldResume (first : Nat) (s : State) : Res :=
  let s := s.focusPart first
  if s.p.first ≠ first ∨ s.p.run.hold ≠ .resuming ∨ s.p.run.resumeAt ≠ s.tick then .next s
  else
    let n := s.tick - s.p.run.heldAt
    let s := s.onRun fun x => { x with hold := .running, stopped := false, plan := x.h0, runBase := s.tick }
    let s := s.count 17 n
    .next (if s.p.run.mreqs.isEmpty then s else s.watchHold (s.plan + 1))

/-- Table 16.5, Table 16.7: a slot's limit expires in a hold: a deadline fault. -/
def execHoldLimitExpires (first tile slot : Nat) (s : State) : Res :=
  let s := s.focusPart first
  if s.p.first ≠ first ∨ (s.p.run.hold ≠ .holding ∧ s.p.run.hold ≠ .resuming) then .next s else
  let s := { s.focusTile tile with tstream := 0 }
  let n := s.tl.board.toList.getD slot .rest
  match n.limit with
  | none => .next s
  | some l =>
    if (n.state = .awaiting ∨ n.state = .holding) ∧ s.tick = s.p.run.heldAt + l * s.p.run.d then .next (s.tileFault 17 0)
    else .next s

/-! Closing a clearing (R4, R380, R383). -/

/-- R33: the policy of a slot: policy, limit, substitute. -/
def Part.policyOf (p : Part) (ltile slot : Nat) : Option Policy :=
  p.policies.find? fun q => q.tile == ltile && q.slot == slot

/-- Table 16.5: the close of one slot of the acting tile; `limit` is that of a `hold` word. A slot with no policy entry
takes a value that the spec does not state (assumption 19). -/
def State.closeSlot (s : State) (limit : Option Nat) (slot : Nat) : State :=
  if h : slot < 16 then
    let n := s.tl.board[slot]
    let q := match limit with
      | some l => some (2, l, (0 : Word))
      | none => (s.p.policyOf s.tl.ltile slot).map fun q => (q.policy, q.limit, q.subst)
    let h0 := s.plan + s.holdLead
    let n : NoticeSlot := match q with
      | some (2, _, _) => { n with quiet := h0 }
      | _ => n
    let put (s : State) (n : NoticeSlot) : State := { s with tl := { s.tl with board := s.tl.board.set slot n } }
    if n.state = .posted then put s { n with state := .idle, value := n.pending }
    else if n.state ≠ .opened then put s n
    else match q with
      | none => put { s with fresh := s.fresh + 1 } { n with state := .idle, value := Config.unstated s.fresh }
      | some (p, l, v) =>
        if p = 2 then
          let s := (put s { n with state := .awaiting, limit := some l, h0 := h0 }).storeTile
          let key := slotKey s.tl.ltile slot
          (s.addReason ⟨s.ownPkg, key, h0⟩).tellGroup (.reason s.p.first s.ownPkg key h0 s.tick)
        else put s { n with state := .idle, value := if p = 1 then v &&& 0xFFFF else v }
  else s

/-- R380, R383: a clearing closes at the start of its closing tick. -/
def execClearingClose (first tile : Nat) (mask : BitVec 16) (limit : Option Nat) (s : State) : Res :=
  let s := s.focusPart first
  if s.p.first ≠ first then .next s else
  let s := s.focusTile tile
  let s := { s with tl := { s.tl with clearings := s.tl.clearings.filter fun c => c.mask != mask || c.close != s.plan } }
  .next (((List.range 16).filter fun n => mask.getLsbD n).foldl (fun s n => s.closeSlot limit n) s).storeTile

/-! Posts (R381-R383). -/

/-- Whether a slot of a tile is open in the current tick: an opening event is one of the tick after its word (R383). -/
def Tile.slotOpen (t : Tile) (slot plan : Nat) : Bool :=
  t.clearings.any fun c => c.mask.getLsbD slot && decide (c.from_ ≤ plan)

/-- Table 16.5: a post reaches a board: its outcome, none where it is refused. -/
def State.boardPost (s : State) (ltile slot : Nat) (v : Word) : Option Nat × State :=
  match s.p.tileOf ltile with
  | none => (none, s)
  | some t =>
    if h : slot < 16 then
      let x := s.p.tiles.getD t .rest
      let n := x.board[slot]
      let put (n : NoticeSlot) : State := s.onTile t fun y => { y with board := y.board.set slot n }
      match n.state with
      | .idle => (none, s)
      | .opened => if x.slotOpen slot s.plan then (some 0, put { n with state := .posted, pending := v }) else (none, s)
      | .posted => (some 2, s)
      | _ =>
        let s := put { n with state := .idle, value := v }
        let key := slotKey ltile slot
        (some 1, (s.tellGroup (.removal s.p.first s.ownPkg key s.tick)).dropReason s.ownPkg key s.tick)
    else (none, s)

/-- R382: whether a `brp` or `chkp` may read a slot of the acting tile, and its settled value. -/
def State.readSlot (s : State) (slot : Nat) : Option Word :=
  let n := s.tl.board.toList.getD slot .rest
  if s.plan < n.quiet then none else some n.value

end Sys2Proof.Machine
end

