-- ==== Sys2Proof/Machine/Timed.lean ====
section
/-! DEFINITION. The timed plane's common ground (R87, R210-R217): stream registers, operands, ports, occupancy, the
checks of a landing line; and the words common to every engine and those of the control stream (R218-R224, R379,
R380). -/

namespace Sys2Proof.Machine

/-! Orders at the end of a logical tick. -/

def rankRedirect : Nat := rankEnd + 5
def rankCapture : Nat := rankEnd + 10
def rankHbm : Nat := rankEnd + 20

/-! Stream registers (R127, R210). -/

/-- The stream that acts. -/
def State.stream (s : State) : TStream := s.tl.streams.toList.getD s.tstream .rest

/-- Changes a stream of the acting tile. -/
def State.onStream (s : State) (n : Nat) (f : TStream → TStream) : State :=
  if h : n < 7 then { s with tl := { s.tl with streams := s.tl.streams.set n (f s.tl.streams[n]) } } else s

def TStream.regA (t : TStream) (r : Nat) : Word := t.ta.toList.getD r 0
def TStream.regN (t : TStream) (r : Nat) : BitVec 32 := t.tn.toList.getD r 0

def TStream.setA (t : TStream) (r : Nat) (v : Word) : TStream := if h : r < 16 then { t with ta := t.ta.set r v } else t
def TStream.setN (t : TStream) (r : Nat) (v : BitVec 32) : TStream := if h : r < 8 then { t with tn := t.tn.set r v } else t

/-- ta register of the acting stream. -/
def State.ta (s : State) (r : BitVec 4) : Word := s.stream.regA r.toNat

/-! Operands (R211). -/

/-- A tensor SRAM operand of n bytes. -/
def sramOperand (v : Word) (n align : Nat) : Option Nat :=
  if v.toNat < 2 ^ 23 ∧ v.toNat % align = 0 ∧ v.toNat + n ≤ 0x600000 then some v.toNat else none

/-- An operand of tensor SRAM, or an address fault. -/
def State.sramArg (s : State) (v : Word) (n align : Nat) (f : Nat → State) : State :=
  match sramOperand v n align with
  | some a => f a
  | none => s.tileFault 4 v

/-- An operand in HBM, or an address fault: its offset. -/
def State.hbmArg (s : State) (v : Word) (f : Nat → State) : State :=
  if field v 63 56 = 0 ∧ field v 47 46 = 0 ∧ field v 55 48 = s.ownPkg ∧ v.toNat % 128 = 0 then f (field v 45 0)
  else s.tileFault 4 v

/-- The virtual address of an HBM offset of the own package. -/
def State.hbmVa (s : State) (off : Nat) : Word := BitVec.ofNat 64 (s.ownPkg * 2 ^ 48 + off % 2 ^ 46)

/-! Ports (R212). -/

/-- A use of a port of the acting tile by its stream: a second of one port and bank in a tick is a schedule fault at the
start of that tick, once for the tick. Which stream the fault names is open (assumption 19). -/
def State.bookBank (s : State) (tick : Nat) (operand : Bool) (bank word : Nat) : State :=
  let u : PortUse := ⟨tick, operand, bank, s.tstream, word⟩
  let same := s.tl.uses.filter fun (x : PortUse) => x.tick == tick && x.operand == operand && x.bank == u.bank
  let s := { s with tl := { s.tl with uses := u :: s.tl.uses } }
  let told := s.p.run.tq.any fun i => i.cycle == tick && (match i.what with
    | .ev (.timedEffectLands _ t (.fault _ 16 0)) => t == s.tix
    | _ => false)
  if same.isEmpty || told then s
  else
    let st := (Config.unstated s.fresh).toNat % 7
    ({ s with fresh := s.fresh + 1 } : State).duePlan tick rankStart (.ev (.timedEffectLands s.p.first s.tix (.fault st 16 0)))

/-- The same for the port and bank of a line at an offset of tensor SRAM. -/
def State.book (s : State) (tick : Nat) (operand : Bool) (off word : Nat) : State := s.bookBank tick operand (off / 128 % 16) word

/-- Whether a bank's port is used once in the current tick; a conflicting access does not take place. -/
def State.bankOk (s : State) (operand : Bool) (bank : Nat) : Bool :=
  decide ((s.tl.uses.filter fun (x : PortUse) => x.tick == s.plan && x.operand == operand && x.bank == bank).length ≤ 1)

def State.portOk (s : State) (operand : Bool) (off : Nat) : Bool := s.bankOk operand (off / 128 % 16)

/-- R375: the on-package fabric's ways out of a tile and into it, one line a tick each, booked beside the banks. -/
def fabricOut : Nat := 16
def fabricIn : Nat := 17

/-- Does something in another tile's name. -/
def State.atTile (s : State) (n : Nat) (f : State → State) : State :=
  let me := s.tix
  (f (s.storeTile.focusTile n)).storeTile.focusTile me

/-- Every line of n bytes at an offset. -/
def linesOf (off n : Nat) : List Nat :=
  (List.range ((off + n + 127) / 128 - off / 128)).map fun i => (off / 128 + i) * 128

/-- Books every line of n bytes. -/
def State.bookBytes (s : State) (tick : Nat) (operand : Bool) (off n word : Nat) : State :=
  (linesOf off n).foldl (fun s a => s.book tick operand a word) s

def State.portsOk (s : State) (operand : Bool) (off n : Nat) : Bool := (linesOf off n).all (s.portOk operand)

/-! Words in progress. -/

/-- R214: a data word: a schedule fault while its engine, or its half of the link engine, is occupied. -/
def State.dataWord (s : State) (recv : Bool) (f : State → State) : State :=
  if s.plan < (if recv then s.stream.busy2 else s.stream.busy) then s.tileFault 16 0 else f s

/-- R214: the engine is occupied for n ticks. -/
def State.occupy (s : State) (recv : Bool) (n : Nat) : State :=
  s.onStream s.tstream fun t => if recv then { t with busy2 := s.plan + n } else { t with busy := s.plan + n }

/-- An effect of the acting stream in a later tick (R213, R223, R410). -/
def State.effect (s : State) (tick rank : Nat) (e : TEff) : State :=
  (s.onStream s.tstream fun t => { t with lands := max t.lands tick }).duePlan tick rank (.ev (.timedEffectLands s.p.first s.tix e))

/-- A word keeps what its later effects need under a key; no word lasts 2^18 ticks. -/
def State.keepWord (s : State) (i : TimedWord) (r0 r1 r2 r3 : Word) : Nat × State :=
  let w : WordRun := ⟨s.nextId, s.tstream, s.plan, i, r0, r1, r2, r3, [], [], [], false⟩
  (s.nextId, { s with nextId := s.nextId + 1, tl := { s.tl with words := w :: s.tl.words.filter fun x => decide (s.plan < x.issued + 2 ^ 18) } })

/-- The move or matrix word a kept word is. -/
def WordRun.instr (w : WordRun) : Instr :=
  match w.what with
  | .plain i => i
  | _ => .nop ⟨0, 0⟩

def State.wordRun (s : State) (key : Nat) : Option WordRun := s.tl.words.find? (·.key = key)

def State.onWord (s : State) (key : Nat) (f : WordRun → WordRun) : State :=
  { s with tl := { s.tl with words := s.tl.words.map fun w => if w.key = key then f w else w } }

/-- The word is over. -/
def State.dropWord (s : State) (key : Nat) : State := { s with tl := { s.tl with words := s.tl.words.filter (·.key ≠ key) } }

/-- A fault of a word in progress, in its stream's name. -/
def State.wordFault (s : State) (stream kind : Nat) (info : Word) : State := { s with tstream := stream }.tileFault kind info

/-! Tensor SRAM and accumulators. -/

/-- Flat address of a byte of the acting tile's tensor SRAM. -/
def State.sramFlat (s : State) (off : Nat) : Nat := flatSram s.p.first s.tl.ltile off

/-- R244: what n bytes at an offset of the acting tile hold; errors met are corrected and counted, or raise a poison
fault. -/
def State.readSram (s : State) (off n : Nat) : Nat × State :=
  let l := (List.range (n / 8 + 2)).map fun i => s.sramFlat ((off / 8 + i) * 8)
  let l := l.filter fun f => decide (f < s.sramFlat (off + n))
  let bad := l.any fun f => s.attrOf f &&& 8 != 0
  let s := l.foldl State.noteErrors s
  (s.bytes (s.sramFlat off) n, if bad then s.tileFault 18 0 else s)

/-- R215, R32: n bytes of a word's line land, checked against the region table in force; a refused line writes nothing. -/
def State.landBytes (s : State) (stream off n data writer : Nat) : State :=
  if !s.p.sramEngine s.tl.ltile off n writer then s.wordFault stream 6 (BitVec.ofNat 64 off)
  else
    (List.range n).foldl (fun (s : State) i =>
      let f := s.sramFlat (off + i)
      let s := { s with mem := s.mem.write f (BitVec.ofNat 8 (data / 2 ^ (8 * i))) }
      s.setAttr f 0) s

/-- Bytes that may cross a line land piece by piece, each with its own port and check (R215). -/
def State.landPieces (s : State) (stream off n data writer : Nat) : State :=
  (linesOf off n).foldl (fun s a =>
    let lo := max a off
    let hi := min (a + 128) (off + n)
    if s.portOk false a then s.landBytes stream lo (hi - lo) (data / 2 ^ (8 * (lo - off)) % 2 ^ (8 * (hi - lo))) writer else s) s

/-! The words common to every engine (R218). -/

/-- Idle count of the word that is next. -/
def TStream.nextIdle (t : TStream) : Nat := idleOf (t.body.getD t.next 0)

/-- R218 -/
def execNopStream (s : State) : Res := .next s

/-- R218 -/
def execWait (n : BitVec 40) (s : State) : Res :=
  .next (s.onStream s.tstream fun t => if t.done then t else { t with due := s.plan + 1 + n.toNat + t.nextIdle })

/-- A stream goes on at another word (R218, R220); an index beyond its body ends it. -/
def TStream.jump (t : TStream) (next : Nat) : TStream := { t with next := next, done := decide (t.body.length ≤ next) }

/-- R218 -/
def execLoop (c : BitVec 3) (always : BitVec 1) (target : BitVec 13) (s : State) : Res :=
  .next (s.onStream s.tstream fun t =>
    if always = 1 then t.jump target.toNat
    else if t.regN c.toNat ≠ 0 then (t.setN c.toNat (t.regN c.toNat - 1)).jump target.toNat
    else t)

/-- R218 -/
def execSetta (imm : BitVec 32) (hi : BitVec 1) (reg : BitVec 4) (cls : BitVec 2) (s : State) : Res :=
  .next (s.onStream s.tstream fun t =>
    if cls = 1 then t.setN reg.toNat imm
    else if hi = 1 then t.setA reg.toNat (imm ++ (t.regA reg.toNat).extractLsb' 0 32)
    else t.setA reg.toNat (imm.setWidth 64))

/-- R218 -/
def execAddta (imm : BitVec 32) (reg : BitVec 4) (cls : BitVec 2) (s : State) : Res :=
  .next (s.onStream s.tstream fun t =>
    if cls = 1 then t.setN reg.toNat (t.regN reg.toNat + imm)
    else t.setA reg.toNat (t.regA reg.toNat + imm.signExtend 64))

/-! The control words. -/

/-- R216: the acting tile issues a boundary word. -/
def State.boundary (s : State) : State :=
  (s.onRun fun r => { r with bounds := r.bounds ++ [(s.plan, s.tl.ltile, s.bundle &&& 0x003FFFFFFFFFFFFF)] }).watchTick s.plan

/-- R219: the `region` words of the period take effect, the last one of an index winning. -/
def State.flipRegions (s : State) : State :=
  let l := s.tl.regions
  let rs := l.foldl (fun (rs : List Region) (i, w) => rs.modify i fun r => { r with writer := w }) s.p.regions
  { s with p := { s.p with regions := rs }, tl := { s.tl with regions := [] } }

/-- R219 -/
def execBell (n : BitVec 16) (s : State) : Res :=
  .next (if n.toNat ≠ (s.tl.bells + 1) % 65536 then s.tileFault 17 0
  else ({ s with tl := { s.tl with bells := s.tl.bells + 1 } } : State).flipRegions.boundary)

/-- R220: the control stream goes on at its arm; the others follow at the end of the tick. -/
def execBrp (slot count : BitVec 4) (base span : BitVec 13) (s : State) : Res :=
  match s.readSlot slot.toNat with
  | none => .next (s.tileFault 16 0)
  | some v =>
    let k := base.toNat + min v.toNat count.toNat * span.toNat
    let s := s.onStream s.tstream fun t => t.jump k
    .next (s.duePlan s.plan rankRedirect (.ev (.timedEffectLands s.p.first s.tix (.redirect k))))

/-- R220, R127: at the end of the tick, every other stream that has a word left. -/
def State.redirect (s : State) (k : Nat) : State :=
  (List.range 7).foldl (fun s n =>
    if n = 0 then s else
    let t : TStream := s.tl.streams.toList.getD n .rest
    if t.body.isEmpty || t.done then s
    else
      let t := t.jump k
      (s.onStream n fun _ => { t with due := s.plan + 1 + t.nextIdle }).queueWord n) s

/-- R221: a register write of the control stream into another, seen from the next tick. -/
def State.crossWrite (s : State) (stream : Nat) (tn : Bool) (reg : Nat) (v : Word) : State :=
  s.duePlan (s.plan + 1) rankStart (.ev (.timedEffectLands s.p.first s.tix (.setReg stream tn reg v)))

/-- R221, R382 -/
def execChkp (slot : BitVec 4) (stream : BitVec 3) (cls : BitVec 2) (reg : BitVec 4) (s : State) : Res :=
  .next (match s.readSlot slot.toNat with
  | none => s.tileFault 16 0
  | some v => s.crossWrite stream.toNat (cls == 1) reg.toNat v)

/-- R221 -/
def execRgeom (reg : BitVec 4) (stream : BitVec 3) (s : State) : Res :=
  .next (s.crossWrite stream.toNat false reg.toNat s.tl.geom)

/-- R223: whether nothing of the words issued before this tick is still to land, and no clearing is open, in a tile that is
resident. No word issues while a hold is in force (R386). -/
def State.quiet (s : State) : Bool :=
  s.storeTile.p.tiles.all fun t => t.clearings.isEmpty &&
    t.streams.toList.all fun x => decide (x.lands ≤ s.plan) && decide (x.before ≤ s.plan)

/-- R223: a pre-emption point; the first tile of the tick sees whether it is quiet, here and in the passes before, and its end
decides. -/
def execPrept (_n : BitVec 16) (s : State) : Res :=
  let seen := match s.p.run.prept with
    | some (t, _) => t == s.plan
    | none => false
  let q := s.quiet && !s.p.run.noisy.contains s.plan
  let s := if seen then s else s.onRun fun r =>
    { r with prept := some (s.plan, q), noisy := if q then r.noisy else s.plan :: r.noisy }
  .next s.boundary

/-- R222: the writer of a region from the next bell on. -/
def execRegion (index : BitVec 12) (writer : BitVec 8) (s : State) : Res :=
  .next { s with tl := { s.tl with regions := s.tl.regions ++ [(index.toNat, writer.toNat)] } }

/-- R224: at the end of the tick no stream issues any more. -/
def execHalt (code : BitVec 16) (s : State) : Res :=
  .next ((s.onRun fun r => { r with halted := some (r.halted.getD code) }).boundary)

/-- R380, R383: opens slots of the acting tile, and its window, from the next tick until a closing tick. -/
def State.openClearing (s : State) (mask : BitVec 16) (seed : Option Nat) (close : Nat) (limit : Option Nat) : State :=
  let busy := (List.range 16).any fun n => mask.getLsbD n && (s.tl.board.toList.getD n .rest).state != .idle
  if busy then s.tileFault 16 0
  else
    let b : Vector NoticeSlot 16 := Vector.ofFn fun (i : Fin 16) =>
      if mask.getLsbD i.val then { s.tl.board[i] with state := .opened, pending := 0, limit := none } else s.tl.board[i]
    let c : Clearing := ⟨mask, seed, s.plan + 1, close⟩
    let s := { s with tl := { s.tl with board := b, clearings := c :: s.tl.clearings } }
    s.duePlan close rankStart (.ev (.clearingClose s.p.first s.tix mask limit))

/-- R380 -/
def execClear (mask : BitVec 16) (seed : BitVec 12) (span : BitVec 18) (s : State) : Res :=
  .next (s.openClearing mask (if seed = 0xFFF then none else some seed.toNat) (s.plan + span.toNat + 1) none)

/-- R383: a slot opened for one tick, closing under policy 2. -/
def execHold (slot : BitVec 4) (limit : BitVec 24) (s : State) : Res :=
  .next (s.openClearing (1#16 <<< slot.toNat) none (s.plan + 2) (some limit.toNat))

/-! Links (R370, R371, R379). -/

/-- The signed phase of a link-table entry. -/
def LinkEntry.phase (l : LinkEntry) : Int := signExt (l.w0 >>> 32) 16

/-- R379: whether a port is in phase. -/
def LinkEntry.inPhase (l : LinkEntry) : Bool :=
  l.w0.getLsbD 12 && l.w0.getLsbD 13 && decide (2 * l.phase.natAbs ≤ field l.w0 63 48)

/-- R379: a port out of phase is a link fault in this tick. -/
def execDrift (mask : BitVec 16) (s : State) : Res :=
  .next (match (List.range 16).find? fun n => mask.getLsbD n && !(s.links.toList.getD n ⟨0, 0⟩).inPhase with
  | none => s
  | some n => (s.tileFault 19 (BitVec.ofNat 64 n)).breakGroup)

/-- R89: a stream word that does not decode when it issues. -/
def execIllegalStreamWord (s : State) : Res := .next (s.tileFault 2 0)

end Sys2Proof.Machine
end

