-- ==== Sys2Proof/Machine/Moves.lean ====
section
/-! DEFINITION. The words that move lines between HBM, tensor SRAM and the tiles: `tld`, `tst`, `tldg`, `tldr`, with
their requests, the budget of static requests, poison policies and graphs (R225-R229, R248, R249, R301, R330). -/

namespace Sys2Proof.Machine

/-! Transfer descriptors (R225). -/

/-- Counts and strides of a transfer. -/
structure Shape where
  cnt    : List Nat
  stride : List Int
  deriving DecidableEq, Repr

def Shape.lines (x : Shape) : Nat := x.cnt.foldl (· * ·) 1

/-- Line displacement of place j: i0 fastest. -/
def Shape.disp : List Nat → List Int → Nat → Int
  | c :: cs, d :: ds, j => (j % c : Nat) * d + Shape.disp cs ds (j / c)
  | _, _, _ => 0

/-- Table 9.4; none where it is broken. -/
def shapeOf (w : List Word) : Option Shape :=
  let g (i : Nat) : Word := w.getD i 0
  let nd := field (g 0) 2 0
  let cnt := [field (g 1) 15 0, field (g 1) 31 16, field (g 1) 47 32, field (g 1) 63 48, field (g 2) 15 0, field (g 2) 31 16]
  let str := [signExt (g 3) 32, signExt (g 3 >>> 32) 32, signExt (g 4) 32, signExt (g 4 >>> 32) 32,
    signExt (g 5) 32, signExt (g 5 >>> 32) 32]
  let x : Shape := ⟨cnt, str⟩
  if nd = 0 ∨ 6 < nd ∨ field (g 0) 63 3 ≠ 0 ∨ field (g 2) 63 32 ≠ 0 ∨ g 6 ≠ 0 ∨ g 7 ≠ 0 ∨
      (cnt.take nd).any (fun c => c = 0 || decide (4096 < c)) ∨ (cnt.drop nd).any (· ≠ 1) ∨ (str.drop nd).any (· ≠ 0) ∨
      4096 < x.lines then none
  else some x

/-! Addresses of lines. -/

/-- The shape of a `tld` or `tst` whose word is kept. -/
def WordRun.shape (w : WordRun) : Shape :=
  match w.instr with
  | .tld _ _ _ _ _ _ form n => if form = 1 then (shapeOf w.acc).getD ⟨[], []⟩ else ⟨[n.toNat + 1], [1]⟩
  | .tst _ _ _ _ _ form n => if form = 1 then (shapeOf w.acc).getD ⟨[], []⟩ else ⟨[n.toNat + 1], [1]⟩
  | _ => ⟨[], []⟩

/-- Index r of a `tldg`: as its line was read, else as it stands. -/
def State.gatherIndex (s : State) (w : WordRun) (r : Nat) : Nat :=
  match w.lines.find? (fun x => x.1 == r / 32 && x.2.1 == 48) with
  | some (_, _, t) => lineLane t.line 32 (r % 32)
  | none => s.bytes (s.sramFlat (w.r2.toNat + 4 * r)) 4

/-- Rows − 1 and lines of a row of a `tldg`. -/
def WordRun.rowLines (w : WordRun) : Nat :=
  match w.instr with
  | .tldg _ _ _ _ _ _ _ rl => rl.toNat + 1
  | _ => 1

/-- HBM offset of line j of a word; it may lie outside the 46 bits. -/
def State.lineOff (s : State) (w : WordRun) (j : Nat) : Int :=
  match w.instr with
  | .tldg _ _ _ _ _ _ _ rl =>
    let k := rl.toNat + 1
    (w.r0.toNat + 128 * (s.gatherIndex w (j / k) * k + j % k) : Nat)
  | _ => (w.r0.toNat : Int) + 128 * Shape.disp w.shape.cnt w.shape.stride j

/-- Whether an offset lies in HBM space. -/
def offOk (off : Int) : Bool := decide (0 ≤ off) && decide (off < 2 ^ 46)

/-- R211, R308: the flat address of a line, translated with ASID 0. -/
def State.lineFlat (s : State) (off : Int) (write : Bool) : Option Nat :=
  if offOk off then (match s.p.translate off.toNat 0 write with | .ok f => some f | .error _ => none) else none

/-- The controller of an HBM offset. -/
def State.ctlOf (s : State) (off : Int) : Nat :=
  if offOk off then (match s.p.home off.toNat with | some (_, h) => h | none => 48) else 48

def State.lineVa (s : State) (off : Int) : Word := s.hbmVa (off % 2 ^ 46).toNat

/-! The budget (R249). -/

/-- Demand of the running overlay (Table 1.13). -/
def Run.demand (r : Run) : Nat := field (r.block.getD 0 0) 30 24

/-- R249: one more static request to a channel is in budget. -/
def State.inBudget (s : State) (flat : Nat) : Bool :=
  let ch := channelOf flat
  decide ((s.p.run.requests.filter fun r => r.2 == ch && decide (s.plan < r.1 + 68) && decide (r.1 ≤ s.plan)).length + 1 ≤ s.p.run.demand)

/-- A static request is made. -/
def State.noteRequest (s : State) (flat : Nat) : State :=
  let ch := channelOf flat
  let keep (r : Nat × Nat) : Bool := decide (1 < s.p.run.passes) || decide (s.plan < r.1 + 136)
  (s.onRun fun r => { r with requests := (s.plan, ch) :: r.requests.filter keep }).count 18

/-! Graphs (R301). -/

/-- The configuration a slot holds at a controller. -/
def Part.graphWords (p : Part) (gslot ctl : Nat) : Option (List Word) :=
  (p.graphs.find? fun g => g.1 == gslot && (g.2.1 == 0 || g.2.1.getLsbD ctl)).map (·.2.2)

/-- Graph slot of a word that uses one. -/
def graphSlotOf : Instr → Option Nat
  | .tld _ _ _ gslot g _ _ _ => if g = 1 then some gslot.toNat else none
  | .tst _ _ _ gslot g _ _ => if g = 1 then some gslot.toNat else none
  | .tldg _ _ _ gslot g _ _ _ => if g = 1 then some gslot.toNat else none
  | _ => none

/-- The graph of a word, at the controller of its line 0. -/
def State.wordGraph (s : State) (w : WordRun) : Option Graph :=
  match graphSlotOf w.instr with
  | none => none
  | some n => s.p.graphAt n (s.ctlOf (s.lineOff w 0))

/-- R301: whether the unit of a lines from place j on lies at one controller, with the graph of line 0's. -/
def State.unitOk (s : State) (w : WordRun) (j n : Nat) : Bool :=
  match graphSlotOf w.instr with
  | none => true
  | some g =>
    let c := s.ctlOf (s.lineOff w j)
    (match s.p.graphWords g c, s.p.graphAt g c with
    | some ws, some gr =>
      !dynamicOnly gr.stages && s.p.graphWords g (s.ctlOf (s.lineOff w 0)) == some ws &&
      ((List.range n).all fun i => s.ctlOf (s.lineOff w (j + i)) == c)
    | _, _ => false)

/-- R301: line k of the graph's output, and its poison, from the lines that have come: its unit's controller has them in
order. -/
def State.graphLine (s : State) (w : WordRun) (gr : Graph) (k : Nat) (ctl : Nat → Nat) : Option Token :=
  let u := k / gr.b
  let c := ctl u
  let before := ((List.range u).filter fun v => ctl v == c).length
  let ins := (List.range (w.lines.length + 1)).filterMap fun i =>
    (w.lines.find? fun x => x.1 == i && x.2.1 == c).map (·.2.2)
  (gr.run ins)[before * gr.b + k % gr.b]?

/-! Issue. -/

/-- R226: what a word with N lines through a graph of ratio a : b moves: its output lines and their places in the
sequence of requests. -/
def outTick (a b k : Nat) : Nat := max k (((k + 1) * a + b - 1) / b - 1)

/-- The requests of a word's lines, one a tick (Table 9.5). -/
def State.requestLines (s : State) (key n m : Nat) (write halt graph : Bool) : State :=
  (List.range n).foldl (fun s j =>
    s.duePlan (s.plan + 1 + j) rankRead (.ev (.timedLineRequest {
      first := s.p.first
      tile := s.tix
      stream := s.tstream
      word := key
      idx := j
      land := s.plan + 160 + j
      sram := m + 128 * j
      write := write
      halt := halt
      graph := graph
      va := 0
      flat := 0 }))) s

/-- The last effect of the acting stream's word falls in a tick. -/
def State.landsIn (s : State) (tick : Nat) : State := s.onStream s.tstream fun t => { t with lands := max t.lands tick }

/-- R307: the last effect of a word with a graph. -/
def State.graphLandsIn (s : State) (tick : Nat) : State :=
  (s.landsIn tick).onStream s.tstream fun t => { t with glands := max t.glands tick }

/-- R226, R301: a `tld` or `tldg` of n lines into offset m. -/
def State.startLoad (s : State) (key n m : Nat) (halt : Bool) : State :=
  match s.wordRun key with
  | none => s
  | some w =>
    let graph := (graphSlotOf w.instr).isSome
    let s := (s.occupy false n).requestLines key n m false halt graph
    if !graph then
      ((List.range n).foldl (fun s j => s.book (s.plan + 160 + j) false (m + 128 * j) key) s).landsIn (s.plan + 159 + n)
    else match s.wordGraph w with
      | none => s
      | some g =>
        let out := n * g.b / g.a
        let s := (List.range out).foldl (fun s k =>
          let t := s.plan + 160 + g.depth + outTick g.a g.b k
          (s.book t false (m + 128 * k) key).effect t rankWrite (.graphOut key k)) s
        s.graphLandsIn (s.plan + 160 + g.depth + outTick g.a g.b (out - 1))

/-- The lines a load of n writes, for the check of its operand: through a graph, as many as its ratio gives. -/
def State.outLines (s : State) (w : WordRun) (n : Nat) : Nat :=
  match s.wordGraph w with
  | some g => n * g.b / g.a
  | none => n

/-- R301: whether n lines are whole units, for a load or a store. -/
def State.unitsOk (s : State) (w : WordRun) (n : Nat) (write : Bool) : Bool :=
  match s.wordGraph w with
  | some g => if write then g.b != 0 && n % g.b == 0 else n % g.a == 0
  | none => true

/-- The words of a form 1 descriptor, read in the issue tick (R225, R244). -/
def State.readDescriptor (s : State) (off key : Nat) : List Word × State :=
  let (v, s) := (s.book s.plan false off key).readSram off 64
  ((List.range 8).map fun i => BitVec.ofNat 64 (v / 2 ^ (64 * i)), s)

/-- R225: a broken descriptor is an address fault in the tick after. -/
def State.badDescriptor (s : State) (va : Word) : State :=
  s.duePlan (s.plan + 1) rankStart (.ev (.timedEffectLands s.p.first s.tix (.fault s.tstream 4 va)))

/-- R225: a transfer's descriptor, or its contiguous form, joins its kept word. -/
def State.withShape (s : State) (key : Nat) (form : BitVec 1) (x : BitVec 4) (f : State → WordRun → State) : State :=
  let go (s : State) : State := match s.wordRun key with | some w => f s w | none => s
  if form = 0 then go s
  else s.sramArg (s.ta x) 64 64 fun off =>
    let (l, s) := s.readDescriptor off key
    if (shapeOf l).isNone then (s.dropWord key).badDescriptor (s.ta x)
    else go (s.onWord key fun w => { w with acc := l })

/-- R226 -/
def execTld (h m x gslot : BitVec 4) (g pol form : BitVec 1) (n : BitVec 12) (s : State) : Res :=
  .next (s.dataWord false fun s => s.hbmArg (s.ta h) fun off =>
    let i : Instr := .tld h m x gslot g pol form n
    let (key, s) := s.keepWord (.plain i) (BitVec.ofNat 64 off) (s.ta m) (s.ta x) 0
    s.withShape key form x fun s w =>
      let lines := w.shape.lines
      if !s.unitsOk w lines false then (s.dropWord key).tileFault 4 (s.ta h)
      else s.sramArg (s.ta m) (128 * s.outLines w lines) 128 fun m => s.startLoad key lines m (pol == 1))

/-- R228 -/
def execTldg (h m x gslot : BitVec 4) (g pol : BitVec 1) (rows : BitVec 10) (rl : BitVec 4) (s : State) : Res :=
  .next (s.dataWord false fun s => s.hbmArg (s.ta h) fun off =>
    let k := rl.toNat + 1
    let r := rows.toNat + 1
    s.sramArg (s.ta x) (128 * ((r + 31) / 32)) 128 fun list =>
    let (key, s) := s.keepWord (.plain (.tldg h m x gslot g pol rows rl)) (BitVec.ofNat 64 off) (s.ta m) (BitVec.ofNat 64 list) 0
    match s.wordRun key with
    | none => s
    | some w =>
      if !s.unitsOk w (r * k) false then (s.dropWord key).tileFault 4 (s.ta h)
      else s.sramArg (s.ta m) (128 * s.outLines w (r * k)) 128 fun m =>
        let s := (List.range ((r + 31) / 32)).foldl (fun s u =>
          let t := s.plan + 32 * u * k
          (s.book t false (list + 128 * u) key).duePlan t rankRead (.ev (.timedEffectLands s.p.first s.tix (.listRead key u)))) s
        s.startLoad key (r * k) m (pol == 1))

/-- R226, R301 -/
def execTst (h m x gslot : BitVec 4) (g form : BitVec 1) (n : BitVec 12) (s : State) : Res :=
  .next (s.dataWord false fun s => s.hbmArg (s.ta h) fun off =>
    let (key, s) := s.keepWord (.plain (.tst h m x gslot g form n)) (BitVec.ofNat 64 off) (s.ta m) (s.ta x) 0
    s.withShape key form x fun s w =>
      let lines := w.shape.lines
      if !s.unitsOk w lines true then (s.dropWord key).tileFault 4 (s.ta h)
      else
        match (if g = 1 then s.wordGraph w else none) with
        | none => s.sramArg (s.ta m) (128 * lines) 128 fun m =>
          let s := (s.occupy false lines).requestLines key lines m true false (g == 1)
          let s := (List.range lines).foldl (fun s j => s.book (s.plan + 1 + j) false (m + 128 * j) key) s
          s.landsIn (s.plan + 159 + lines)
        | some gr =>
          let nin := lines * gr.a / gr.b
          s.sramArg (s.ta m) (128 * nin) 128 fun m =>
            let s := (s.occupy false (max nin lines)).requestLines key lines m true false true
            let s := (List.range nin).foldl (fun s i =>
              (s.book (s.plan + 1 + i) false (m + 128 * i) key).effect (s.plan + 1 + i) rankRead (.graphIn key i)) s
            let s := (List.range lines).foldl (fun s k =>
              s.effect (s.plan + 160 + gr.depth + outTick gr.a gr.b k) rankHbm (.graphOut key k)) s
            s.graphLandsIn (s.plan + 160 + gr.depth + outTick gr.a gr.b (lines - 1)))

/-! Requests (R226, R228, R249, R301). -/

/-- This line and every later line of its word are not requested. -/
def State.failWord (s : State) (req : LineReq) (kind : Nat) (info : Word) : State :=
  (s.onWord req.word fun w => { w with dead := true }).wordFault req.stream kind info

/-- R211, R228: the first line from place j on, of n, that lies outside HBM space or does not translate. -/
def State.badLine (s : State) (w : WordRun) (j n : Nat) (write : Bool) : Option Int :=
  ((List.range n).map fun i => s.lineOff w (j + i)).find? fun off => (s.lineFlat off write).isNone

/-- Lines of a unit of the acting word's graph, on the side of its requests. -/
def State.unitLines (s : State) (w : WordRun) (write : Bool) : Nat :=
  match s.wordGraph w with
  | some g => if write then g.b else g.a
  | none => 1

/-- R226, R228, R249, R301: a line request in its tick: its unit, its address, its budget; then the line of a load is
taken at the end of the tick, that of a store is read from tensor SRAM. -/
def execTimedLineRequest (req : LineReq) (s : State) : Res :=
  let s := s.focusPart req.first
  if s.p.first ≠ req.first then .next s else
  let s := s.focusTile req.tile
  match s.wordRun req.word with
  | none => .next s
  | some w =>
    if w.dead then .next s else
    let j := req.idx
    let unit := s.unitLines w req.write
    let off := s.lineOff w j
    let rows := if j % w.rowLines = 0 then w.rowLines else 1
    .next (State.storeTile (
      if req.graph && j % unit == 0 && !s.unitOk w j unit then s.failWord req 4 (s.lineVa off)
      else match s.badLine w j rows req.write with
      | some b => s.failWord req 4 (s.lineVa b)
      | none =>
        match s.lineFlat off req.write with
        | none => s.failWord req 4 (s.lineVa off)
        | some flat =>
          if req.write && !req.graph && !s.portOk false req.sram then s
          else if !s.inBudget flat then s.failWord req 16 0
          else
            let s := s.noteRequest flat
            let q := { req with va := s.lineVa off, flat := flat }
            if !req.write then s.duePlan s.plan rankCapture (.ev (.timedEffectLands s.p.first s.tix (.capture q)))
            else if req.graph then s.onWord req.word fun w => { w with places := Tab.put j flat w.places }
            else
              let (v, s) := s.readSram req.sram 128
              s.duePlan req.land rankHbm (.ev (.timedEffectLands s.p.first s.tix
                (.hbm req.stream q.va flat (BitVec.ofNat 1024 v) 0)))))

/-! Effects. -/

/-- R330: a requested line as it stands at the end of its tick; it lands as it is, or waits for its graph. -/
def State.captureLine (s : State) (req : LineReq) : State :=
  let (s, t) := s.readLine req.flat s.plan
  if req.graph then
    s.onWord req.word fun w => { w with lines := w.lines ++ [(req.idx, req.flat / 2 ^ 34, t)] }
  else
    s.duePlan req.land rankWrite (.ev (.timedEffectLands s.p.first s.tix
      (.land req.stream req.sram t.line t.pois req.halt 1 req.va req.flat none)))

/-- R227, R374: one word whose poison policy is zero-and-log. -/
def State.logTile (s : State) (va : Word) (flat : Nat) (port : Option Nat) (i : Nat) : State :=
  let tile := (4 * s.p.first + s.tix) * 2 ^ 34 + s.tl.ltile * 2 ^ 42
  let e (w0 : Word) (w3 : Word) : LogEntry :=
    ⟨w0 ||| BitVec.ofNat 64 tile, BitVec.ofNat 64 s.tick, BitVec.ofNat 64 s.ltick, w3⟩
  let s := { s with tl := { s.tl with tpoison := s.tl.tpoison + 1 } }
  match port with
  | none => s.logEntry (hbmPlace flat).ctl (e (logW0 7 (hbmPlace (flat + 8 * i)) true) (va &&& 0x00FFFFFFFFFFFFFF))
  | some n => s.logEntry (12 * (n / 4)) (e (BitVec.ofNat 64 (8 + n * 2 ^ 52)) 0)

/-- A line with its poisoned words zero. -/
def zeroWords (data : Line) (pois : BitVec 16) : Line :=
  (List.range 16).foldl (fun (d : Line) i =>
    if pois.getLsbD i then d &&& ~~~((BitVec.allOnes 64).setWidth 1024 <<< (64 * i)) else d) data

/-- R215, R227, R374: a line lands in the acting tile's tensor SRAM. -/
def State.landLine (s : State) (stream off : Nat) (data : Line) (pois : BitVec 16) (halt : Bool) (writer : Nat) (va : Word)
    (flat : Nat) (port : Option Nat) : State :=
  if !s.portOk false off then s
  else if pois ≠ 0 ∧ halt then s.wordFault stream 18 va
  else
    let s := ((List.range 16).filter fun i => pois.getLsbD i).foldl (fun s i => s.logTile va flat port i) s
    s.landBytes stream off 128 (zeroWords data pois).toNat writer

/-- R226, R227, R32: a `tst` line performs: each word full, poisoned ones with the pattern. -/
def State.landHbm (s : State) (stream : Nat) (va : Word) (flat : Nat) (data : Line) (pois : BitVec 16) : State :=
  if !s.p.hbmNamed (field va 45 0) 128 6 then s.wordFault stream 6 va else s.writeLine flat data pois

/-- R301: output line k of a kept word. -/
def State.landGraph (s : State) (key k : Nat) : State :=
  match s.wordRun key with
  | none => s
  | some w => match s.wordGraph w with
    | none => s
    | some g =>
      let load (halt : Bool) : State :=
        match s.graphLine w g k fun u => s.ctlOf (s.lineOff w (u * g.a)) with
        | none => s
        | some t =>
          let j := k / g.b * g.a
          let off := s.lineOff w j
          s.landLine w.stream (w.r1.toNat + 128 * k) t.out t.pois halt 1 (s.lineVa off) ((s.lineFlat off false).getD 0) none
      match w.instr with
      | .tld _ _ _ _ _ pol _ _ => load (pol == 1)
      | .tldg _ _ _ _ _ pol _ _ => load (pol == 1)
      | _ =>
        (match Tab.find k w.places, s.graphLine w g k fun u => s.ctlOf (s.lineOff w (u * g.b)) with
        | some flat, some t => s.landHbm w.stream (s.lineVa (s.lineOff w k)) flat t.out t.pois
        | _, _ => s)

/-- R301: input line i of a `tst` through a graph, for its unit's controller. -/
def State.graphTake (s : State) (key i : Nat) : State :=
  match s.wordRun key with
  | none => s
  | some w => match s.wordGraph w with
    | none => s
    | some g =>
      let off := w.r1.toNat + 128 * i
      if w.dead || !s.portOk false off then s
      else
        let (v, s) := s.readSram off 128
        let t : Token := ⟨BitVec.ofNat 1024 v, 0, false, s.plan⟩
        s.onWord key fun x => { x with lines := x.lines ++ [(i, s.ctlOf (s.lineOff w (i / g.a * g.b)), t)] }

/-- R228: an index line. -/
def State.readList (s : State) (key u : Nat) : State :=
  match s.wordRun key with
  | none => s
  | some w =>
    let off := w.r2.toNat + 128 * u
    if !s.portOk false off then s
    else
      let (v, s) := s.readSram off 128
      s.onWord key fun x => { x with lines := x.lines ++ [(u, 48, ⟨BitVec.ofNat 1024 v, 0, false, s.plan⟩)] }

/-! `tldr` (R229). -/

/-- R229 -/
def execTldr (src m : BitVec 4) (tile : BitVec 8) (n : BitVec 12) (s : State) : Res :=
  .next (s.dataWord false fun s =>
    let k := n.toNat + 1
    s.sramArg (s.ta src) (128 * k) 128 fun from_ => s.sramArg (s.ta m) (128 * k) 128 fun to_ =>
    match s.p.tileOf tile.toNat with
    | none => s.tileFault 4 (s.ta src)
    | some t =>
      let (key, s) := s.keepWord (.plain (.tldr src m tile n)) (BitVec.ofNat 64 from_) (BitVec.ofNat 64 to_) (BitVec.ofNat 64 t) 0
      let s := s.occupy false k
      (List.range k).foldl (fun s j =>
        let at_ := s.plan + 1 + j
        let s := s.atTile t fun s => (s.book at_ false (from_ + 128 * j) key).bookBank at_ false fabricOut key
        let s := s.bookBank (at_ + Config.tileLatency) false fabricIn key
        ((s.book (at_ + Config.tileLatency) false (to_ + 128 * j) key).effect at_ rankRead (.tldrRead key j)).landsIn
          (at_ + Config.tileLatency)) s)

/-- R229, R375: line j is read at its source and is on its way. -/
def State.readRemote (s : State) (key j : Nat) : State :=
  match s.wordRun key with
  | none => s
  | some w =>
    let off := w.r0.toNat + 128 * j
    let t := w.r2.toNat
    let at_ := s.storeTile.focusTile t
    let ok := at_.portOk false off && at_.bankOk false fabricOut
    if !ok then s
    else
      let flat := flatSram s.p.first (s.p.tiles.getD t .rest).ltile off
      let s := s.atTile t fun s => (s.readSram off 128).2
      s.duePlan (s.plan + Config.tileLatency) rankWrite (.ev (.timedEffectLands s.p.first s.tix
        (.land w.stream (w.r1.toNat + 128 * j) (s.line flat) 0 false 1 0 0 none)))

end Sys2Proof.Machine
end

