-- ==== Sys2Proof/Machine/Matrix.lean ====
section
/-! DEFINITION. The matrix engine's words: `mma`, `mmag` and the accumulator words (R230-R235, R145-R147). -/

namespace Sys2Proof.Machine

/-! What a word has read. -/

/-- A line of tensor SRAM is read through its port and kept at a place; one whose port is in conflict is not. -/
def State.keepLine (s : State) (key place : Nat) (operand : Bool) (off n : Nat) : State :=
  if !s.portOk operand off then s
  else
    let (v, s) := s.readSram off n
    s.onWord key fun w => { w with lines := w.lines ++ [(place, 0, ⟨BitVec.ofNat 1024 v, 0, false, s.plan⟩)] }

/-- The line kept at a place. -/
def WordRun.lineAt (w : WordRun) (place : Nat) : Line :=
  match w.lines.find? (fun x => x.1 == place) with
  | some (_, _, t) => t.line
  | none => 0

/-- Places of lists, of decay and of scale lines, beyond those of blocks. -/
def listPlace : Nat := 2 ^ 20
def decayPlace : Nat := 2 ^ 20 + 1
def scalePlace (off : Nat) : Nat := 2 ^ 21 + off / 128 * 128

/-! Operands (R230, R231). -/

/-- Kt of Table 9.8: elements of a row in a block. -/
def matKt (f : Nat) : Nat := if f < 4 then 32 else if f = 4 then 64 else 16

/-- R231: scales of a row in a tick. -/
def matScales (f : Nat) : Nat := matKt f / 32

/-- R230, R231: the values of row r of A, or of B, over kk blocks; `sa` is the address of its scales where it is blocked. -/
def WordRun.rowVals (w : WordRun) (b : Bool) (f kk : Nat) (sa : Option Nat) (r : Nat) : List FVal :=
  (List.range kk).flatMap fun t =>
    let l := (w.lineAt (16 * t + (if b then 8 else 0) + r / 4)).toNat / 2 ^ (256 * (r % 4))
    (List.range (matKt f)).map fun e =>
      let code := l / 2 ^ ((matFmt f).width * e) % 2 ^ (matFmt f).width
      match sa with
      | none => (matFmt f).value code
      | some sa =>
        let at_ := sa + 32 * matScales f * t + matScales f * r + e / 32
        blockValue (matFmt f) code (lineLane (w.lineAt (scalePlace at_)) 8 (at_ % 128))

/-- R145, R147, R233: the chunks of a product whose chunk sums are taken over several A rows. -/
def rowChunks (as_ : List (List FVal)) (b : List FVal) (acc : Nat) (scale : FVal) : Nat :=
  (List.range ((b.length + 63) / 64)).foldl (fun acc j =>
    chunkSum acc (if j = 0 then scale else .fin false 1 0)
      (as_.flatMap fun a => ((a.drop (64 * j)).take 64).zip ((b.drop (64 * j)).take 64))) acc

/-! Accumulators. -/

/-- Element n of an accumulator of the acting tile. -/
def State.accElem (s : State) (m n : Nat) : Nat := s.bytes (flatAcc s.p.first s.tl.ltile m n) 4

/-- Writes every element of an accumulator. -/
def State.setAcc (s : State) (m : Nat) (v : List Nat) : State :=
  v.zipIdx.foldl (fun (s : State) (x, n) =>
    { s with mem := s.mem.writeN (flatAcc s.p.first s.tl.ltile m n) 4 x }) s

/-- The elements (i, j), row by row. -/
def elems (f : Nat → Nat → Nat) : List Nat := (List.range 1024).map fun n => f (n / 32) (n % 32)

/-- R235: a product is still at work on one of these accumulators. -/
def State.accBusy (s : State) (ms : List Nat) : Bool :=
  s.tl.words.any fun w => match w.instr with
    | .mma m _ _ _ _ kk _ _ _ _ => ms.contains m.toNat && decide (s.plan < w.issued + kk.toNat + 6)
    | .mmag m _ _ _ _ kk _ _ _ _ _ => ms.contains m.toNat && decide (s.plan < w.issued + kk.toNat + 6)
    | _ => false

/-! Products. -/

/-- R230, R235: the blocks of a product of kk ticks, through the operand port, and its end. -/
def State.startProduct (s : State) (key a b kk : Nat) : State :=
  let s := (s.occupy false kk)
  let s := (List.range kk).foldl (fun s t =>
    let at_ := s.plan + 1 + t
    let s := (s.bookBytes at_ true (a + 1024 * t) 1024 key).bookBytes at_ true (b + 1024 * t) 1024 key
    s.effect at_ rankRead (.mmaRead key t)) s
  s.effect (s.plan + kk + 5) rankWrite (.mmaDone key)

/-- R230: the first lines of A and B lie eight banks apart. -/
def banksApart (a b : Nat) : Bool := (a / 128 + 16 - b / 128 % 16) % 16 == 8

/-- R230: two operands of kk blocks. -/
def State.withBlocks (s : State) (ta tb : BitVec 4) (kk : Nat) (f : Nat → Nat → State) : State :=
  s.sramArg (s.ta ta) (1024 * kk) 128 fun a => s.sramArg (s.ta tb) (1024 * kk) 128 fun b =>
    if banksApart a b then f a b else s.tileFault 16 0

/-- R231: the scale lines of a row operand with the tick after T that first uses each. -/
def scaleLines (sa n kk : Nat) : List (Nat × Nat) :=
  (List.range ((32 * n * kk + 127) / 128)).map fun i => (sa + 128 * i, 128 * i / (32 * n))

/-- R231: scale lines are read once each, through the common port, in the first tick that uses one of their bytes. -/
def State.readScales (s : State) (key : Nat) (l : List (Nat × Nat)) : State :=
  (l.map (·.1)).eraseDups.foldl (fun s off =>
    let t := ((l.filter (·.1 = off)).map (·.2)).foldl min 511
    (s.book (s.plan + 1 + t) false off key).effect (s.plan + 1 + t) rankRead (.scaleRead key off)) s

/-- R230-R232, R235 -/
def execMma (m : BitVec 3) (ta tb : BitVec 4) (fa fb : BitVec 3) (kk : BitVec 9) (z blk : BitVec 1) (sa sb : BitVec 4)
    (s : State) : Res :=
  .next (s.dataWord false fun s => s.withBlocks ta tb kk.toNat fun a b =>
    let i : Instr := .mma m ta tb fa fb kk z blk sa sb
    if blk = 0 then
      let (key, s) := s.keepWord (.plain i) (BitVec.ofNat 64 a) (BitVec.ofNat 64 b) 0 0
      s.startProduct key a b kk.toNat
    else
      let na := matScales fa.toNat
      let nb := matScales fb.toNat
      s.sramArg (s.ta sa) (32 * na * kk.toNat) 128 fun x => s.sramArg (s.ta sb) (32 * nb * kk.toNat) 128 fun y =>
        let (key, s) := s.keepWord (.plain i) (BitVec.ofNat 64 a) (BitVec.ofNat 64 b) (BitVec.ofNat 64 x) (BitVec.ofNat 64 y)
        (s.startProduct key a b kk.toNat).readScales key (scaleLines x na kk.toNat ++ scaleLines y nb kk.toNat))

/-- R233, R235 -/
def execMmag (m : BitVec 3) (ta tb : BitVec 4) (fa fb : BitVec 3) (kk : BitVec 9) (lst dec : BitVec 4) (z k dd : BitVec 1)
    (s : State) : Res :=
  .next (s.dataWord false fun s => s.withBlocks ta tb kk.toNat fun a b => s.sramArg (s.ta lst) 64 64 fun l =>
    let i : Instr := .mmag m ta tb fa fb kk lst dec z k dd
    let go (s : State) (key : Nat) : State :=
      (((s.startProduct key a b kk.toNat).book s.plan false l key).effect s.plan rankRead (.mmaLists key))
    if dd = 0 then
      let (key, s) := s.keepWord (.plain i) (BitVec.ofNat 64 a) (BitVec.ofNat 64 b) (BitVec.ofNat 64 l) 0
      go s key
    else s.sramArg (s.ta dec) 128 128 fun d =>
      let (key, s) := s.keepWord (.plain i) (BitVec.ofNat 64 a) (BitVec.ofNat 64 b) (BitVec.ofNat 64 l) (BitVec.ofNat 64 d)
      (go s key).book s.plan false d key)

/-- R230: block t of both operands. -/
def State.readBlock (s : State) (key t : Nat) : State :=
  match s.wordRun key with
  | none => s
  | some w =>
    (List.range 8).foldl (fun s i =>
      (s.keepLine key (16 * t + i) true (w.r0.toNat + 1024 * t + 128 * i) 128).keepLine key (16 * t + 8 + i) true
        (w.r1.toNat + 1024 * t + 128 * i) 128) s

/-- R233: the lists, and the decay vector where the word has one. -/
def State.readLists (s : State) (key : Nat) : State :=
  match s.wordRun key with
  | none => s
  | some w =>
    let s := s.keepLine key listPlace false w.r2.toNat 64
    match w.instr with
    | .mmag _ _ _ _ _ _ _ _ _ _ dd => if dd = 1 then s.keepLine key decayPlace false w.r3.toNat 128 else s
    | _ => s

/-- R233: destination and source of list entry i, where it gives a result row that is not dropped. -/
def WordRun.listRow (w : WordRun) (i : Nat) : Option (Nat × Nat) :=
  let src := lineLane (w.lineAt listPlace) 8 i
  let dst := lineLane (w.lineAt listPlace) 8 (32 + i)
  if src < 128 ∧ dst < 128 then some (dst % 32, src % 32) else none

/-- R232: the elements of `mma`. -/
def State.mmaElems (s : State) (w : WordRun) (m fa fb kk : Nat) (z blk : Bool) : List Nat :=
  let rows (b : Bool) (f : Nat) (sa : Word) : List (List FVal) :=
    (List.range 32).map (w.rowVals b f kk (if blk then some sa.toNat else none))
  let a := rows false fa w.r2
  let b := rows true fb w.r3
  elems fun i j => rowChunks [a.getD i []] (b.getD j []) (if z then 0 else s.accElem m (32 * i + j)) (.fin false 1 0)

/-- R233, Table 9.10: the elements of `mmag`. -/
def State.mmagElems (s : State) (w : WordRun) (m fa fb kk : Nat) (z k d : Bool) : List Nat :=
  let a := (List.range 32).map (w.rowVals false fa kk none)
  let b := (List.range 32).map (w.rowVals true fb kk none)
  let l := (List.range 32).filterMap w.listRow
  let delta (q : Nat) : FVal := if d then f32.value (lineLane (w.lineAt decayPlace) 32 q) else .fin false 1 0
  elems fun q j =>
    let old := s.accElem m (32 * q + j)
    let as_ := (l.filter (·.1 = q)).map fun x => a.getD x.2 []
    if as_.isEmpty then
      if !k then 0
      else if d then (f32.round .rn ((delta q).mul (f32.value old)).1).1
      else old
    else if z then rowChunks as_ (b.getD j []) 0 (.fin false 1 0)
    else rowChunks as_ (b.getD j []) old (delta q)

/-- R235: the final values of a product. -/
def State.productDone (s : State) (key : Nat) : State :=
  match s.wordRun key with
  | none => s
  | some w =>
    let s := match w.instr with
      | .mma m _ _ fa fb kk z blk _ _ => s.setAcc m.toNat (s.mmaElems w m.toNat fa.toNat fb.toNat kk.toNat (z == 1) (blk == 1))
      | .mmag m _ _ fa fb kk _ _ z k dd =>
        s.setAcc m.toNat (s.mmagElems w m.toNat fa.toNat fb.toNat kk.toNat (z == 1) (k == 1) (dd == 1))
      | _ => s
    s.dropWord key

/-! Accumulator words (R234). -/

/-- R234, R235: a word that names accumulators a product is at work on is a schedule fault. -/
def State.accWord (s : State) (ms : List Nat) (f : State → State) : State :=
  s.dataWord false fun s => if s.accBusy ms then s.tileFault 16 0 else f s

/-- Format of a spill. -/
def spillFmt (f : BitVec 2) : Fmt := if f = 0 then f32 else if f = 1 then bf16 else f16

/-- Lines of a spill. -/
def spillLines (f : BitVec 2) : Nat := if f = 0 then 32 else 16

/-- R234 -/
def execMspill (m : BitVec 3) (ta : BitVec 4) (fmt : BitVec 2) (zr : BitVec 1) (s : State) : Res :=
  .next (s.accWord [m.toNat] fun s =>
    let n := spillLines fmt
    s.sramArg (s.ta ta) (128 * n) 128 fun off =>
      let (key, s) := s.keepWord (.plain (.mspill m ta fmt zr)) (BitVec.ofNat 64 off) 0 0 0
      let s := (s.occupy false (n / 4)).effect (s.plan + 1) rankRead (.spillRead key)
      let s := if zr = 1 then s.effect (s.plan + 1) rankWrite (.accWrite key) else s
      ((List.range n).foldl (fun s j => s.book (s.plan + 2 + j / 4) false (off + 128 * j) key) s).landsIn
        (s.plan + 1 + n / 4))

/-- R234: an `mspill` reads its accumulator; its lines are on their way. -/
def State.spill (s : State) (key : Nat) : State :=
  match s.wordRun key with
  | none => s
  | some w => match w.instr with
    | .mspill m _ fmt _ =>
      let f := spillFmt fmt
      let per := 1024 / f.width
      (List.range (spillLines fmt)).foldl (fun s j =>
        let v := (List.range per).foldl (fun v e =>
          v + (f.round .rn (f32.value (s.accElem m.toNat (per * j + e)))).1 % 2 ^ f.width * 2 ^ (f.width * e)) 0
        s.effect (s.plan + 1 + j / 4) rankWrite (.bytes w.stream (w.r0.toNat + 128 * j) 128 v 2)) s
    | _ => s

/-- R234 -/
def execMfill (m : BitVec 3) (ta : BitVec 4) (s : State) : Res :=
  .next (s.accWord [m.toNat] fun s => s.sramArg (s.ta ta) 4096 128 fun off =>
    let (key, s) := s.keepWord (.plain (.mfill m ta)) (BitVec.ofNat 64 off) 0 0 0
    let s := (List.range 32).foldl (fun s j =>
      (s.book (s.plan + 1 + j / 4) false (off + 128 * j) key).effect (s.plan + 1 + j / 4) rankRead (.fillRead key j)) (s.occupy false 8)
    s.effect (s.plan + 9) rankWrite (.accWrite key))

/-- R234 -/
def execMadd (md ma mb : BitVec 3) (s : State) : Res :=
  .next (s.accWord [md.toNat, ma.toNat, mb.toNat] fun s =>
    let (key, s) := s.keepWord (.plain (.madd md ma mb)) 0 0 0 0
    ((s.occupy false 2).effect (s.plan + 1) rankRead (.accRead key)).effect (s.plan + 2) rankWrite (.accWrite key))

/-- R234 -/
def execMmov (md ma : BitVec 3) (z : BitVec 1) (s : State) : Res :=
  .next (s.accWord (if z = 1 then [md.toNat] else [md.toNat, ma.toNat]) fun s =>
    let (key, s) := s.keepWord (.plain (.mmov md ma z)) 0 0 0 0
    ((s.occupy false 1).effect (s.plan + 1) rankRead (.accRead key)).effect (s.plan + 1) rankWrite (.accWrite key))

/-- R234: what `madd` and `mmov` write, from what they read. -/
def State.accResult (s : State) (i : Instr) : List Nat :=
  match i with
  | .madd _ ma mb => elems fun i j => (f32.add (s.accElem ma.toNat (32 * i + j)) (s.accElem mb.toNat (32 * i + j))).1
  | .mmov _ ma z => elems fun i j => if z = 1 then 0 else s.accElem ma.toNat (32 * i + j)
  | _ => []

def State.readAcc (s : State) (key : Nat) : State :=
  match s.wordRun key with
  | none => s
  | some w =>
    let v := s.accResult w.instr
    s.onWord key fun w => { w with acc := v.map (BitVec.ofNat 64) }

/-- R234: the accumulator an `mspill.zr`, `mfill`, `madd` or `mmov` writes. -/
def State.writeAcc (s : State) (key : Nat) : State :=
  match s.wordRun key with
  | none => s
  | some w => match w.instr with
    | .mspill m _ _ _ => s.setAcc m.toNat (elems fun _ _ => 0)
    | .mfill m _ => (s.setAcc m.toNat (elems fun i j => lineLane (w.lineAt i) 32 j)).dropWord key
    | .madd md _ _ => (s.setAcc md.toNat (w.acc.map (·.toNat))).dropWord key
    | .mmov md _ _ => (s.setAcc md.toNat (w.acc.map (·.toNat))).dropWord key
    | _ => s

end Sys2Proof.Machine
end

