-- ==== Sys2Proof/Machine/Elementwise.lean ====
section
/-! DEFINITION. The elementwise words of the vector engine and the shape words (R236-R238). -/

namespace Sys2Proof.Machine

/-! Groups (R236). -/

/-- Table 9.14. -/
def elemFmt (c : Nat) : Fmt :=
  match c with
  | 0 => f32
  | 1 => bf16
  | 2 => f16
  | 3 => f8e4
  | 4 => f8e5
  | 5 => f6e3
  | 6 => f6e2
  | _ => f4e2

/-- Bytes of a group of elements of a width. -/
def groupSize (w : Nat) : Nat := 4 * w

/-- Alignment of a group operand. -/
def groupAlign (w : Nat) : Nat := if w = 6 then 8 else 4 * w

/-- Element e of a group. -/
def elemOf (v w e : Nat) : Nat := v / 2 ^ (w * e) % 2 ^ w

/-- A group of 32 elements. -/
def packGroup (w : Nat) (f : Nat → Nat) : Nat := (List.range 32).foldl (fun v e => v + f e % 2 ^ w * 2 ^ (w * e)) 0

/-- Tensor SRAM operands in turn; the first that breaks R211 is an address fault. -/
def State.sramArgs (s : State) : List (Word × Nat × Nat) → (List Nat → State) → State
  | [], f => f []
  | (v, n, al) :: l, f => s.sramArg v n al fun x => s.sramArgs l fun xs => f (x :: xs)

/-- Groups at several offsets, through the common port; none where a port is in conflict. -/
def State.readGroups (s : State) (n : Nat) : List Nat → Option (List Nat) × State
  | [] => (some [], s)
  | off :: l =>
    if !s.portsOk false off n then (none, s)
    else
      let (v, s) := s.readSram off n
      let (r, s) := s.readGroups n l
      (r.map fun vs => v :: vs, s)

/-- The offsets a word keeps at issue. -/
def WordRun.off (w : WordRun) : Nat → Nat
  | 0 => w.r0.toNat
  | 1 => w.r1.toNat
  | 2 => w.r2.toNat
  | _ => w.r3.toNat

/-! Elementwise words. -/

/-- Lv of Table 9.13. -/
def VecOp.lv : VecOp → Nat
  | .cvt _ _ _ => 4
  | .exp => 8
  | .rcp => 8
  | .rsq => 8
  | .tanh => 8
  | .log2 => 8
  | _ => 3

/-- R236: a special function, its f32 result rounded once more to the format. -/
def Special.toFmt (f : Special) (g : Fmt) (a : Nat) : Nat :=
  (g.round .rn (f32.value (f32.op (f.value (g.value a))).1)).1

/-- R236: 1.0 or +0. -/
def Fmt.truth (f : Fmt) (b : Bool) : Nat := if b then (f.round .rn (.fin false 1 0)).1 else 0

/-- R237: the random bits of an element: step from tn6, the site, the logical index of the first element from tn7. -/
def State.elemRand (s : State) (w : WordRun) (site k : Nat) : Nat :=
  let ctr := w.r1.toNat % 2 ^ 16 * 2 ^ 48 + site * 2 ^ 40 + (w.r2.toNat + k) % 2 ^ 40
  (randBits s.p.launchKey (BitVec.ofNat 64 ctr)).toNat % 65536

/-- Table 6.3: a rounding mode with the random bits it may take. -/
def roundingOf (mode bits : Nat) : Rm :=
  match mode with
  | 0 => .rn
  | 1 => .rz
  | 2 => .ru
  | 3 => .rd
  | _ => .rs bits

/-- Table 9.13: the result of logical element k of a word, from source elements x, y and z. -/
def State.vecElem (s : State) (w : WordRun) (op : VecOp) (f g : Fmt) (k x y z : Nat) : Nat :=
  match op with
  | .add => (f.add x y).1
  | .sub => (f.sub x y).1
  | .mul => (f.mul x y).1
  | .ma => (f.fma false false x y z).1
  | .max => f.max x y
  | .min => f.min x y
  | .cvt mode site sat => ((NumFmt.fl g).convert (roundingOf mode (s.elemRand w site k)) sat (f.value x)).1
  | .exp => Special.exp2.toFmt f x
  | .rcp => Special.rcp.toFmt f x
  | .rsq => Special.rsq.toFmt f x
  | .tanh => Special.tanh.toFmt f x
  | .log2 => Special.log2.toFmt f x
  | .sel => if (f.value z).isZero then y else x
  | .cmp c =>
    f.truth (if c = 0 then (f.value x).eq (f.value y) else if c = 1 then (f.value x).lt (f.value y) else (f.value x).le (f.value y))
  | .scale => (f.op ((f.value x).mul (f32.value (lineLane (w.lineAt listPlace) 32 0)))).1

/-- Source operands of an elementwise word. -/
def VecOp.arity : VecOp → Nat
  | .ma => 3
  | .sel => 3
  | .add => 2
  | .sub => 2
  | .mul => 2
  | .max => 2
  | .min => 2
  | .cmp _ => 2
  | _ => 1

/-- R236: an elementwise word on its source registers, result register and groups: its operands, then its groups. A
conversion keeps tn6 and tn7; `scale` is the address of a scalar that is read once in tick T. -/
def State.startVec (s : State) (op : VecOp) (sf df : Nat) (d a b c : BitVec 4) (n : BitVec 12) : State :=
  s.dataWord false fun s =>
    let n := n.toNat
    let ws := (elemFmt sf).width
    let wd := (elemFmt df).width
    let src := ([a, b, c].take op.arity).map fun r => (s.ta r, groupSize ws * n, groupAlign ws)
    let scalar := if op == VecOp.scale then [(s.ta b, 4, 4)] else []
    s.sramArgs ((s.ta d, groupSize wd * n, groupAlign wd) :: (src ++ scalar)) fun offs =>
      let at_ (i : Nat) : Word := BitVec.ofNat 64 (offs.getD i 0)
      let cvt : Bool := match op with
        | .cvt _ _ _ => true
        | _ => false
      let (key, s) :=
        if cvt then s.keepWord (.vec op sf df n) (at_ 1) ((s.stream.regN 6).setWidth 64) ((s.stream.regN 7).setWidth 64) (at_ 0)
        else s.keepWord (.vec op sf df n) (at_ 1) (at_ 2) (at_ 3) (at_ 0)
      let s := if op == VecOp.scale then
          (s.book s.plan false (offs.getD 2 0) key).effect s.plan rankRead (.scalarRead key)
        else s
      let s := (List.range n).foldl (fun s j =>
        let t := s.plan + 1 + j
        let s := ((offs.drop 1).take op.arity).foldl (fun s off =>
          s.bookBytes t false (off + groupSize ws * j) (groupSize ws) key) s
        (s.effect t rankRead (.group key j)).bookBytes (t + op.lv) false (offs.getD 0 0 + groupSize wd * j) (groupSize wd) key) s
      (s.occupy false n).landsIn (s.plan + n + op.lv)

/-- R236: group j of an elementwise word. -/
def State.vecGroup (s : State) (w : WordRun) (op : VecOp) (sf df j : Nat) : State :=
  let f := elemFmt sf
  let g := elemFmt df
  match s.readGroups (groupSize f.width) ((List.range op.arity).map fun i => w.off i + groupSize f.width * j) with
  | (none, s) => s
  | (some vs, s) =>
    let at_ (i e : Nat) : Nat := elemOf (vs.getD i 0) f.width e
    let v := packGroup g.width fun e => s.vecElem w op f g (32 * j + e) (at_ 0 e) (at_ 1 e) (at_ 2 e)
    s.effect (s.plan + op.lv) rankWrite (.bytes w.stream (w.r3.toNat + groupSize g.width * j) (groupSize g.width) v 3)

/-- R236: an elementwise word in one format. -/
def State.arith (s : State) (op : VecOp) (fmt : BitVec 2) (d a b c : BitVec 4) (n : BitVec 12) : Res :=
  .next (s.startVec op fmt.toNat fmt.toNat d a b c n)

/-- R236 -/
def execEadd (d a b : BitVec 4) (fmt : BitVec 2) (n : BitVec 12) (s : State) : Res := s.arith .add fmt d a b 0 n
/-- R236 -/
def execEsub (d a b : BitVec 4) (fmt : BitVec 2) (n : BitVec 12) (s : State) : Res := s.arith .sub fmt d a b 0 n
/-- R236 -/
def execEmul (d a b : BitVec 4) (fmt : BitVec 2) (n : BitVec 12) (s : State) : Res := s.arith .mul fmt d a b 0 n
/-- R236 -/
def execEma (d a b c : BitVec 4) (fmt : BitVec 2) (n : BitVec 12) (s : State) : Res := s.arith .ma fmt d a b c n
/-- R236 -/
def execEmax (d a b : BitVec 4) (fmt : BitVec 2) (n : BitVec 12) (s : State) : Res := s.arith .max fmt d a b 0 n
/-- R236 -/
def execEmin (d a b : BitVec 4) (fmt : BitVec 2) (n : BitVec 12) (s : State) : Res := s.arith .min fmt d a b 0 n
/-- R237 -/
def execEcvt (d a src dst : BitVec 4) (n : BitVec 12) (rmode : BitVec 3) (sat : BitVec 1) (site : BitVec 8) (s : State) : Res :=
  .next (s.startVec (.cvt rmode.toNat site.toNat (sat == 1)) src.toNat dst.toNat d a 0 0 n)
/-- R236 -/
def execEexp (d a : BitVec 4) (fmt : BitVec 2) (n : BitVec 12) (s : State) : Res := s.arith .exp fmt d a 0 0 n
/-- R236 -/
def execErcp (d a : BitVec 4) (fmt : BitVec 2) (n : BitVec 12) (s : State) : Res := s.arith .rcp fmt d a 0 0 n
/-- R236 -/
def execErsq (d a : BitVec 4) (fmt : BitVec 2) (n : BitVec 12) (s : State) : Res := s.arith .rsq fmt d a 0 0 n
/-- R236 -/
def execEtanh (d a : BitVec 4) (fmt : BitVec 2) (n : BitVec 12) (s : State) : Res := s.arith .tanh fmt d a 0 0 n
/-- R236 -/
def execElog2 (d a : BitVec 4) (fmt : BitVec 2) (n : BitVec 12) (s : State) : Res := s.arith .log2 fmt d a 0 0 n
/-- R236 -/
def execEsel (d a b c : BitVec 4) (fmt : BitVec 2) (n : BitVec 12) (s : State) : Res := s.arith .sel fmt d a b c n
/-- R236 -/
def execEcmp (d a b : BitVec 4) (fmt : BitVec 2) (n : BitVec 12) (cond : BitVec 2) (s : State) : Res :=
  s.arith (.cmp cond.toNat) fmt d a b 0 n
/-- R236 -/
def execEscale (d a b : BitVec 4) (fmt : BitVec 2) (n : BitVec 12) (s : State) : Res := s.arith .scale fmt d a b 0 n

/-! Shape words (R238). -/

/-- Width of an element of a shape word: format code 3 is raw bytes. -/
def shapeWidth (fmt : Nat) : Nat := if fmt = 3 then 8 else (elemFmt fmt).width

/-- Table 9.16: groups of the source as the operand counts them; groups read; groups written; whether its list is read. -/
def ShapeOp.srcGroups : ShapeOp → Nat → Nat
  | .trn, n => 32 * n
  | .bc, _ => 1
  | .slice _, _ => 1
  | _, n => n

def ShapeOp.reads : ShapeOp → Nat → Nat
  | .trn, n => 32 * n
  | .bc, _ => 1
  | _, n => n

def ShapeOp.writes : ShapeOp → Nat → Nat
  | .trn, n => 32 * n
  | .red _, _ => 1
  | _, n => n

/-- Groups between source group j and the word's operand. -/
def ShapeOp.groupAt : ShapeOp → Nat → Int
  | .slice stride, j => j * stride
  | _, j => j

/-- Ticks from T in which group j of the result lands (Table 9.16). -/
def ShapeOp.groupLands : ShapeOp → Nat → Nat → Nat
  | .red _, n, _ => n + 5
  | .trn, _, j => 33 + j
  | .scan, _, j => 5 + j
  | _, _, j => 3 + j

/-- R238: a shape word: operands, groups, occupancy; `list` is the register of the list of `sperm`. -/
def State.startShape (s : State) (op : ShapeOp) (fmt : BitVec 2) (d a : BitVec 4) (list : Option (BitVec 4)) (n : BitVec 12) : State :=
  s.dataWord false fun s =>
    let n := n.toNat
    let w := shapeWidth fmt.toNat
    let g := groupSize w
    let nd := op.writes n
    s.sramArgs ([(s.ta a, g * op.srcGroups n, groupAlign w), (s.ta d, g * nd, groupAlign w)] ++
        list.toList.map fun r => (s.ta r, 32, 1)) fun offs =>
      let from_ := offs.getD 0 0
      let to_ := offs.getD 1 0
      let at_ (j : Nat) : Int := from_ + g * op.groupAt j
      let reads := List.range (op.reads n)
      if reads.any fun j => decide (at_ j < 0) || decide ((0x600000 : Int) < at_ j + g) then s.tileFault 4 (s.ta a)
      else
        let (key, s) := s.keepWord (.shape op fmt.toNat n) (BitVec.ofNat 64 from_) (BitVec.ofNat 64 (offs.getD 2 0)) 0
          (BitVec.ofNat 64 to_)
        let s := if list.isNone then s else
          (s.bookBytes s.plan false (offs.getD 2 0) 32 key).effect s.plan rankRead (.scalarRead key)
        let s := reads.foldl (fun s j =>
          (s.bookBytes (s.plan + 1 + j) false (at_ j).toNat g key).effect (s.plan + 1 + j) rankRead (.group key j)) s
        let s := (List.range nd).foldl (fun s j => s.bookBytes (s.plan + op.groupLands n j) false (to_ + g * j) g key) s
        (s.occupy false (max (op.reads n) nd)).landsIn (s.plan + op.groupLands n (nd - 1))

/-- R238: group j of the result is on its way. -/
def State.shapeOut (s : State) (w : WordRun) (op : ShapeOp) (width n j v : Nat) : State :=
  s.effect (w.issued + op.groupLands n j) rankWrite (.bytes w.stream (w.r3.toNat + groupSize width * j) (groupSize width) v 4)

/-- The source group kept at a place. -/
def WordRun.groupKept (w : WordRun) (j : Nat) : Nat := (w.lineAt j).toNat

/-- Table 9.16: the reduction of element e over groups 0 to n − 1. -/
def WordRun.reduce (w : WordRun) (f : Fmt) (op n e : Nat) : Nat :=
  let l := (List.range n).map fun j => elemOf (w.groupKept j) f.width e
  let fold (g : Nat → Nat → Nat) : Nat := l.foldl g (f.canon (l.headD 0))
  if op = 0 then (f.sumTree l).1 else if op = 1 then fold f.max else fold f.min

/-- A group kept at a place. -/
def WordRun.withGroup (w : WordRun) (j v tick : Nat) : WordRun :=
  { w with lines := (j, 0, ⟨BitVec.ofNat 1024 v, 0, false, tick⟩) :: w.lines.filter fun x => x.1 != j }

/-- R238, Table 9.16: group j of the source is read; `sred` and `strn` keep it until they have all they need, `sscan`
keeps the sum so far. -/
def State.shapeResult (s : State) (w : WordRun) (op : ShapeOp) (fmt n j v : Nat) : State :=
  let width := shapeWidth fmt
  let f := elemFmt fmt
  match op with
  | .red o =>
    let w := w.withGroup j v s.plan
    let s := s.onWord w.key fun _ => w
    if j + 1 = n then s.shapeOut w op width n 0 (packGroup width (w.reduce f o n)) else s
  | .trn =>
    let w := w.withGroup j v s.plan
    let s := s.onWord w.key fun _ => w
    if j % 32 = 31 then
      (List.range 32).foldl (fun s c =>
        s.shapeOut w op width n (j - 31 + c) (packGroup width fun r => elemOf (w.groupKept (j - 31 + r)) width c)) s
    else s
  | .perm => s.shapeOut w op width n j (packGroup width fun e => elemOf v width (lineLane (w.lineAt listPlace) 8 e % 32))
  | .bc => (List.range n).foldl (fun s k => s.shapeOut w op width n k v) s
  | .slice _ => s.shapeOut w op width n j v
  | .scan =>
    let sum := packGroup width fun e =>
      if j = 0 then f.canon (elemOf v width e) else (f.add (elemOf (w.groupKept 0) width e) (elemOf v width e)).1
    (s.onWord w.key fun y => y.withGroup 0 sum s.plan).shapeOut w op width n j sum
  | .roll r => s.shapeOut w op width n j (packGroup width fun e => elemOf v width ((e + r) % 32))

/-- R238: group j of a shape word. -/
def State.shapeGroup (s : State) (w : WordRun) (op : ShapeOp) (fmt n j : Nat) : State :=
  let g := groupSize (shapeWidth fmt)
  match s.readGroups g [(w.r0.toNat + g * op.groupAt j : Int).toNat] with
  | (none, s) => s
  | (some vs, s) => s.shapeResult w op fmt n j (vs.headD 0)

/-- R236-R238: group j of a word. -/
def State.wordGroup (s : State) (key j : Nat) : State :=
  match s.wordRun key with
  | none => s
  | some w => match w.what with
    | .vec op sf df _ => s.vecGroup w op sf df j
    | .shape op fmt n => s.shapeGroup w op fmt n j
    | _ => s

/-- R236, R238: the operand read once in tick T: the scalar of `escale`, the list of `sperm`. -/
def State.readOnce (s : State) (key : Nat) : State :=
  match s.wordRun key with
  | none => s
  | some w =>
    let n := match w.what with
      | .shape _ _ _ => 32
      | _ => 4
    match s.readGroups n [w.r1.toNat] with
    | (none, s) => s
    | (some vs, s) => s.onWord key fun w => w.withGroup listPlace (vs.headD 0) s.plan

/-- R238 -/
def execSred (d a : BitVec 4) (fmt : BitVec 2) (n : BitVec 12) (op : BitVec 2) (s : State) : Res :=
  .next (s.startShape (.red op.toNat) fmt d a none n)
/-- R238 -/
def execStrn (d a : BitVec 4) (fmt : BitVec 2) (n : BitVec 12) (s : State) : Res := .next (s.startShape .trn fmt d a none n)
/-- R238 -/
def execSperm (d a b : BitVec 4) (fmt : BitVec 2) (n : BitVec 12) (s : State) : Res := .next (s.startShape .perm fmt d a (some b) n)
/-- R238 -/
def execSbc (d a : BitVec 4) (fmt : BitVec 2) (n : BitVec 12) (s : State) : Res := .next (s.startShape .bc fmt d a none n)
/-- R238 -/
def execSslice (d a : BitVec 4) (fmt : BitVec 2) (n : BitVec 12) (stride : BitVec 12) (s : State) : Res :=
  .next (s.startShape (.slice stride.toInt) fmt d a none n)
/-- R238 -/
def execSscan (d a : BitVec 4) (fmt : BitVec 2) (n : BitVec 12) (s : State) : Res := .next (s.startShape .scan fmt d a none n)
/-- R238 -/
def execSroll (d a : BitVec 4) (fmt : BitVec 2) (n : BitVec 12) (r : BitVec 5) (s : State) : Res :=
  .next (s.startShape (.roll r.toNat) fmt d a none n)

end Sys2Proof.Machine
end

