-- ==== Sys2Proof/Machine/Links.lean ====
section
/-! DEFINITION. Sending and receiving lines (R372-R378), the effects of timed words, forming and dissolving a group, and
what a peer package sends (R369-R371, R373, R384, R388, R389, R313). -/

namespace Sys2Proof.Machine

/-! Sending (R376, R377). -/

/-- Number of the link stream (Table 1.14). -/
def linkStream : Nat := 5

/-- Where a word of kind 0 or 1 sends to, or takes from. -/
def portOf (kind : BitVec 2) (port : BitVec 4) : Option Nat := if kind = 0 then none else some port.toNat

/-- R375: a line that leaves the acting tile for a tile of this package in a tick uses the fabric out of the one and, at its
arrival, into the other. -/
def State.bookFabric (s : State) (tick ltile key : Nat) : State :=
  let s := s.bookBank tick false fabricOut key
  match s.p.tileOf ltile with
  | none => s
  | some t => s.atTile t fun s => s.bookBank (tick + Config.tileLatency) false fabricIn key

/-! The control flit (R372). -/

/-- First TICK of the frame of a tick. -/
def frameOf (tick : Nat) : Nat := tick / 5 * 5

/-- A line leaves on a port in this tick: the control flit of its frame names it. -/
def State.frameLine (s : State) (port stile dtile : Nat) : State :=
  let k := frameOf s.tick
  let open_ := (Tab.find port s.frames).filter fun f => f.tick == k
  let f : ControlFlit := open_.getD ⟨k, Vector.replicate 5 none⟩
  let f := { f with lines := f.lines.set (s.tick % 5) (some (stile, dtile)) (Nat.mod_lt _ (by decide)) }
  let s := { s with frames := Tab.put port f s.frames }
  if open_.isSome then s else s.dueAt (s.cycleOfTick (k + 4) + 1) (rankEnd + 70) (.frame port)

/-- R372: the frame of a port ends: position 10 carries its control flit. -/
def State.endFrame (s : State) (port : Nat) : State :=
  match Tab.find port s.frames with
  | some f => { s.emit (.control port f) with frames := Tab.drop port s.frames }
  | none => s

/-- R376 -/
def execSendt (src : BitVec 4) (kind : BitVec 2) (tile : BitVec 8) (port : BitVec 4) (n : BitVec 12) (s : State) : Res :=
  .next (s.dataWord false fun s =>
    let k := n.toNat + 1
    s.sramArg (s.ta src) (128 * k) 128 fun off =>
      let (key, s) := s.keepWord (.send tile.toNat (portOf kind port)) (BitVec.ofNat 64 off) (BitVec.ofNat 64 k) 0 0
      let lat := match portOf kind port with
        | none => Config.tileLatency
        | some p => field (s.links.toList.getD p ⟨0, 0⟩).w0 27 16
      ((List.range k).foldl (fun s j =>
        let s := if kind = 0 then s.bookFabric (s.plan + 1 + j) tile.toNat key else s
        (s.book (s.plan + 1 + j) false (off + 128 * j) key).effect (s.plan + 1 + j) rankRead (.sendRead key j))
        (s.occupy false k)).landsIn (s.plan + k + lat))

/-- R377: tiles that send a line on a port in the current tick. -/
def State.sendersOn (s : State) (port : Nat) : Nat :=
  (s.storeTile.p.tiles.filter fun t => t.words.any fun w =>
    match w.what with
    | .send _ p => p == some port && decide (w.issued < s.plan) && decide (s.plan ≤ w.issued + w.r1.toNat)
    | _ => false).length

/-- R376, R378: a line is on its way to a tile of this partition; what comes and is not claimed is a fault. -/
def State.lineComes (s : State) (ltile : Nat) (a : Arrival) : State :=
  match s.p.tileOf ltile with
  | none => s
  | some t =>
    let s := s.onTile t fun x => { x with arriving := x.arriving ++ [a] }
    s.duePlan a.ltick (rankWrite + 5) (.ev (.timedEffectLands s.p.first t .unclaimed))

/-- R376, R377: line j of a `sendt` is read and leaves. -/
def State.sendLine (s : State) (key j : Nat) : State :=
  match s.wordRun key with
  | none => s
  | some w =>
    let off := w.r0.toNat + 128 * j
    match w.what with
    | .send tile none =>
      if !s.portOk false off || !s.bankOk false fabricOut then s
      else
        let (v, s) := s.readSram off 128
        s.lineComes tile {
          ltick := s.plan + Config.tileLatency
          stile := s.tl.ltile
          port := none
          data := BitVec.ofNat 1024 v
          pois := 0
          header := some true }
    | .send tile (some p) =>
      if 1 < s.sendersOn p then s.wordFault w.stream 16 0
      else if !s.portOk false off then s
      else
        let (v, s) := s.readSram off 128
        let lat := field (s.links.toList.getD p ⟨0, 0⟩).w0 27 16
        (s.frameLine p s.tl.ltile tile).emit (.line p tile s.tl.ltile (BitVec.ofNat 1024 v) 0 (s.plan + lat))
    | _ => s

/-! Receiving (R376, R378). -/

/-- R376 -/
def execRecvt (dst : BitVec 4) (kind : BitVec 2) (tile : BitVec 8) (port : BitVec 4) (n : BitVec 12) (pol : BitVec 1)
    (s : State) : Res :=
  .next (s.dataWord true fun s =>
    let k := n.toNat + 1
    s.sramArg (s.ta dst) (128 * k) 128 fun off =>
      let (key, s) := s.keepWord (.recv tile.toNat (portOf kind port) (pol == 1)) (BitVec.ofNat 64 off) 0 0 0
      (List.range k).foldl (fun s j =>
        (s.book (s.plan + 1 + j) false (off + 128 * j) key).effect (s.plan + 1 + j) rankWrite (.claim key j)) (s.occupy true k))

/-- The first arrival of the current tick with a property, and the others. -/
def takeArrival (f : Arrival → Bool) : List Arrival → Option (Arrival × List Arrival)
  | [] => none
  | a :: l => if f a then some (a, l) else (takeArrival f l).map fun r => (r.1, a :: r.2)

/-- The TICK in which a line left for a port that is to arrive in a logical tick. -/
def State.sentTick (s : State) (port ltick : Nat) : Nat :=
  s.tick + ltick - s.plan - field (s.links.toList.getD port ⟨0, 0⟩).w0 27 16

/-- R374: whether the control flit of the frame that a line of a logical tick came in was lost. -/
def State.frameLost (s : State) (port ltick : Nat) : Bool := s.lost.contains (port, frameOf (s.sentTick port ltick))

/-- R374, R378: the claim of line k of a `recvt`: the line of its source; else, in a frame whose control flit was
uncorrectable, a line with every word poisoned and no check; else the claim is empty. A header that disagrees is a fault. -/
def State.claimLine (s : State) (key k : Nat) : State :=
  match s.wordRun key with
  | none => s
  | some w =>
    match w.what with
    | .recv tile port halt =>
      let here (a : Arrival) : Bool := a.ltick == s.plan && a.port == port
      let take := match takeArrival (fun a => here a && a.stile == tile && a.header.isSome) s.tl.arriving with
        | some r => some r
        | none => takeArrival (fun a => here a && a.header.isNone) s.tl.arriving
      (match take with
      | none =>
        if port.any fun n => s.frameLost n s.plan then s.landLine w.stream (w.r0.toNat + 128 * k) 0 0xFFFF halt 5 0 0 port
        else s.wordFault w.stream 16 0
      | some (a, l) =>
        let s := { s with tl := { s.tl with arriving := l } }
        match a.header with
        | some false => s.wordFault w.stream 16 0
        | some true => s.landLine w.stream (w.r0.toNat + 128 * k) a.data a.pois halt 5 0 0 port
        | none => s.landLine w.stream (w.r0.toNat + 128 * k) a.data 0xFFFF halt 5 0 0 port)
    | _ => s

/-- R378: lines of the current tick that nothing claimed are discarded: a fault, but for those whose check is skipped. -/
def State.dropUnclaimed (s : State) : State :=
  let l := s.tl.arriving.filter fun a => decide (a.ltick ≤ s.plan)
  let s := { s with tl := { s.tl with arriving := s.tl.arriving.filter fun a => decide (s.plan < a.ltick) } }
  if l.any fun a => a.header.isSome then s.wordFault linkStream 16 0 else s

/-! What falls due of timed words (R213). -/

/-- An effect of the acting tile. -/
def State.timedEffect (s : State) : TEff → State
  | .setReg stream tn reg v => s.onStream stream fun t => if tn then t.setN reg (v.setWidth 32) else t.setA reg v
  | .redirect next => s.redirect next
  | .fault stream kind info => s.wordFault stream kind info
  | .capture req => s.captureLine req
  | .land stream off data pois halt writer va flat port => s.landLine stream off data pois halt writer va flat port
  | .hbm stream va flat data pois => s.landHbm stream va flat data pois
  | .graphOut word k => s.landGraph word k
  | .graphIn word i => s.graphTake word i
  | .listRead word u => s.readList word u
  | .tldrRead word j => s.readRemote word j
  | .group word j => s.wordGroup word j
  | .scalarRead word => s.readOnce word
  | .bytes stream off n data writer => s.landPieces stream off n data writer
  | .mmaRead word tau => s.readBlock word tau
  | .mmaLists word => s.readLists word
  | .scaleRead word off => s.keepLine word (scalePlace off) false off 128
  | .mmaDone word => s.productDone word
  | .spillRead word => s.spill word
  | .fillRead word j => s.keepLine word j false ((match s.wordRun word with
      | some w => w.r0.toNat
      | none => 0) + 128 * j) 128
  | .accRead word => s.readAcc word
  | .accWrite word => s.writeAcc word
  | .sendRead word j => s.sendLine word j
  | .claim word k => s.claimLine word k
  | .unclaimed => s.dropUnclaimed

/-- The kept word an effect belongs to. -/
def wordOfEff : TEff → Option Nat
  | .graphOut w _ => some w
  | .graphIn w _ => some w
  | .listRead w _ => some w
  | .tldrRead w _ => some w
  | .group w _ => some w
  | .scalarRead w => some w
  | .mmaRead w _ => some w
  | .mmaLists w => some w
  | .scaleRead w _ => some w
  | .mmaDone w => some w
  | .spillRead w => some w
  | .fillRead w _ => some w
  | .accRead w => some w
  | .accWrite w => some w
  | .sendRead w _ => some w
  | .claim w _ => some w
  | _ => none

/-- R213, R215: an effect of a timed word lands in its logical tick. -/
def execTimedEffectLands (first tile : Nat) (e : TEff) (s : State) : Res :=
  let s := s.focusPart first
  if s.p.first ≠ first then .next s else
  let s := s.focusTile tile
  let s := match (wordOfEff e).bind s.wordRun with
    | some w => { s with tstream := w.stream }
    | none => s
  .next (s.timedEffect e).storeTile

/-! Links and the group (R369-R374). -/

/-- A fault of the focused partition's launch that no tile raises. -/
def State.runFault (s : State) (kind : Nat) : State := s.launchFault ⟨kind, s.ltick, s.groupCycle, 0, 0, 0, 0, 0, false, s.ownPkg⟩

/-- Does something with every partition in turn. -/
def State.eachPart (s : State) (f : State → State) : State :=
  let l := (insertPart s.p s.parts).filter (·.first ≠ 64)
  (l.map (·.first)).foldl (fun s n => f (s.focusPart n)) s

/-- R370: a running group launch ends with a link fault in this tick. -/
def State.linkFault (s : State) : State := s.eachPart fun s => if s.p.run.active && s.groupLaunch then s.runFault 19 else s

/-- A mailbox command has run: 0 done, 1 refused, 2 unknown (R425). -/
def State.mailboxDone (s : State) (result : Nat) (words : List Word) : State :=
  let resp : Vector Word 16 := Vector.ofFn fun (i : Fin 16) => words.getD i.val 0
  { s with
    mboxResp := resp
    mgmt := { s.mgmt with mailbox := BitVec.ofNat 64 (1 + 256 * result) } }.emit (.mailbox result words)

/-- R424: a mailbox command runs once bring-up is over. -/
def State.mailbox (s : State) (f : State → State) : Res := .next (if s.mgmt.ready then f s else s)

/-- Whether a launch runs on the package. -/
def State.launchRuns (s : State) : Bool := s.p.run.active || s.parts.any (·.run.active)

/-- A link-table entry with `v` set. -/
def LinkEntry.used (l : LinkEntry) : Bool := l.w0.getLsbD 12

/-- R370: what a port's training finds: an entry in use trains, and its published lat leaves two ticks. -/
def LinkEntry.trains (l : LinkEntry) (extent : Nat) (measured : Option Nat) : Bool :=
  !l.used || (match measured with
    | some m => decide (field l.w0 7 0 < extent) && decide (m + 2 ≤ field l.w0 27 16)
    | none => false)

/-- R370: an entry after training: `up` where it trained, its counters clear where the group forms. -/
def LinkEntry.trained (l : LinkEntry) (extent : Nat) (measured : Option Nat) (formed : Bool) : LinkEntry :=
  let w0 := if l.used then (if measured.isSome && decide (field l.w0 7 0 < extent) then l.w0 ||| 0x2000 else l.w0 &&& ~~~0x2000) else l.w0
  ⟨w0, if formed then 0 else l.w1⟩

/-- PLAN is TICK in every partition (R370). -/
def State.planIsTick (s : State) : State :=
  let now (p : Part) : Part := { p with planLag := 0 }
  { s with p := now s.p, parts := s.parts.map now }

/-- R370: forming the group. Each port with v = 1 is measured; a member is its TICK and the largest lat sum to it. A formation
that fails leaves formed at 0; where a launch runs the command is refused (assumption 20). -/
def execFormGroup (measured members : List (Nat × Nat)) (s : State) : Res :=
  s.mailbox fun s =>
    let extent := field s.group 16 8
    if s.launchRuns then s.mailboxDone 1 [] else
    let ok := (s.links.toList.zipIdx.all fun (l, n) => l.trains extent (Tab.find n measured)) &&
      decide (32 + (members.map (·.2)).foldl max 0 ≤ s.holdLead)
    let links : Vector LinkEntry 16 := Vector.ofFn fun (i : Fin 16) => s.links[i].trained extent (Tab.find i.val measured) ok
    let s := { s with links := links }
    if !ok then s.breakGroup.mailboxDone 1 []
    else
      -- one TICK no smaller than any member's; which one is open
      let t := (members.map (·.1)).foldl max s.tick + (Config.unstated s.fresh).toNat % 2 ^ 32
      let s := { s with
        fresh := s.fresh + 1
        tickOff := t - s.now / 2
        group := s.group ||| 0x20000 }
      s.planIsTick.mailboxDone 0 []

/-- R370: `formed` returns to 0. -/
def execDissolveGroup (s : State) : Res := s.mailbox fun s => (s.linkFault.breakGroup).mailboxDone 0 []

/-- R371: peer, pport, v and lat are written; the other fields are the device's. A lat outside 64 to 4 095 is refused, as
is any change while the group is formed (assumption 20). -/
def execLinkTableEntry (port : Nat) (w0 : Word) (s : State) : Res :=
  s.mailbox fun s =>
    if h : port < 16 then
      if s.formed ∨ (w0.getLsbD 12 ∧ field w0 27 16 < 64) then s.mailboxDone 1 []
      else
        let m : Word := 0x0FFF1FFF
        let l := s.links[port]
        ({ s with links := s.links.set port { l with w0 := (l.w0 &&& ~~~m) ||| (w0 &&& m) } } : State).mailboxDone 0 []
    else s.mailboxDone 1 []

/-- R369: index, extent, hlead and plat, only while no launch runs. -/
def groupWordOk (w : Word) : Bool :=
  let extent := field w 16 8
  decide (field w 7 0 < extent) && decide (extent ≤ 256) && decide (32 ≤ field w 47 32) &&
    (if 2 ≤ extent then decide (256 ≤ field w 63 48) else field w 63 48 == 0)

def execGroupWord (w : Word) (s : State) : Res :=
  s.mailbox fun s =>
    if s.launchRuns ∨ !groupWordOk w then s.mailboxDone 1 []
    else
      let m : Word := 0xFFFFFFFF0001FFFF
      ({ s with group := (s.group &&& ~~~m) ||| (w &&& m) } : State).mailboxDone 0 []

/-- R388: an entry of the peer address table. -/
def execPeerAddress (index : Nat) (v : Word) (s : State) : Res :=
  s.mailbox fun s =>
    if h : index < 256 then ({ s with peers := s.peers.set index v } : State).mailboxDone 0 [] else s.mailboxDone 1 []

/-- R373: a port's phase as measured, and its lock: beyond the margin, or lost, the group raises a link fault. -/
def execLinkFaultEvent (port : Nat) (lockLost : Bool) (phase : BitVec 16) (s : State) : Res :=
  .next (if h : port < 16 then
    let l := s.links[port]
    let w0 := (l.w0 &&& 0xFFFF0000FFFFFFFF) ||| (phase.setWidth 64 <<< 32)
    let l := { l with w0 := if lockLost then w0 &&& ~~~0x2000 else w0 }
    let s := { s with links := s.links.set port l }
    if s.formed && l.used && (lockLost || decide (field w0 63 48 < l.phase.natAbs)) then s.linkFault.breakGroup else s
  else s)

/-- R374: flits of a port are counted: corrected ones and uncorrectable ones. -/
def State.countFlits (s : State) (port corr uncorr : Nat) : State :=
  if h : port < 16 then
    let l := s.links[port]
    let w1 : Word := (BitVec.ofNat 32 (field l.w1 63 32 + uncorr)) ++ (BitVec.ofNat 32 (field l.w1 31 0 + corr))
    { s with links := s.links.set port { l with w1 := w1 } }
  else s

/-- R372, R374: the data flits of a line that were lost, and what they poison: all eight words of each. -/
def badFlits (pois : BitVec 16) : Nat :=
  (if pois.extractLsb' 0 8 = 0 then 0 else 1) + (if pois.extractLsb' 8 8 = 0 then 0 else 1)

def lostWords (pois : BitVec 16) : BitVec 16 :=
  (if pois.extractLsb' 0 8 = 0 then 0 else 0x00FF) ||| (if pois.extractLsb' 8 8 = 0 then 0 else 0xFF00)

/-- R374: a frame has come with its control flit lost: counted once, and kept while a claim may still ask for it. -/
def State.loseFrame (s : State) (port ltick : Nat) : State :=
  if s.frameLost port ltick then s
  else
    let s := s.countFlits port 0 1
    let lat := 4096
    { s with lost := (port, frameOf (s.sentTick port ltick)) :: s.lost.filter fun x => decide (s.tick < x.2 + 2 * lat) }

/-- R372: the entry of a control flit for the line that left in a TICK; none where its valid bit is 0. -/
def flitEntry (c : ControlFlit) (tick : Nat) : Option (Nat × Nat) :=
  if c.tick ≤ tick then (c.lines.toList.getD (tick - c.tick) none) else none

/-- R373-R378: a line comes for a logical tick; `tile` is the logical tile it was sent to, `stile` the one that sent it. On
package there are no flits; by a port the control flit of its frame says whether it is valid, and its tiles. -/
def execLinkLineArrives (first tile stile : Nat) (port : Option Nat) (data : Line) (pois : BitVec 16)
    (flits : FlitsIn) (ltick : Nat) (s : State) : Res :=
  let s := s.focusPart first
  if s.p.first ≠ first ∨ !s.p.run.active ∨ ltick < s.plan then .next s
  else
    let comes (s : State) (header : Option Bool) : Res := .next (s.lineComes tile {
      ltick := ltick
      stile := stile
      port := port
      data := data
      pois := if port.isSome then lostWords pois else pois
      header := header })
    match port with
    | none => comes s (some true)
    | some n =>
      let s := s.countFlits n flits.corrected (badFlits pois)
      match flits.control with
      | none => comes (s.loseFrame n ltick) none
      | some c => match flitEntry c (s.sentTick n ltick) with
        | some h => comes s (some (h == (stile, tile)))
        | none => .next s

/-! What a peer sends (R384, R388, R389). -/

/-- R451: T0, where every member's message is held: in deterministic mode from its stamp + Lp on. -/
def State.tryGroupStart (s : State) : State :=
  let all := (List.range s.extent).all fun k => s.p.stamps.any (·.1 == k)
  if !all then s
  else
    let last := (s.p.stamps.map (·.2.1)).foldl max 0
    s.dueAt (max s.now (if s.det then s.cycleOfTick (last + s.peerLat) else s.now)) rankStart (.ev (.groupLaunchStart s.p.first))

/-- The tile number that stands for a member's boundary words; the own package's stands for its stop (R406). -/
def peerBound (pkg : Nat) : Nat := 1024 + pkg

/-- R216, R389: whether the own package issued this boundary word in that PLAN tick. -/
def State.issuedBoundary (s : State) (plan : Nat) (w : Word) : Bool :=
  (s.p.run.bounds ++ s.p.run.bounds0).any fun b =>
    (decide (b.2.1 < 1024) || b.2.1 == peerBound s.ownPkg) && b.1 == plan && b.2.2 == w

/-- A peer's management reason as `Part.holds` codes it. -/
def peerCode (pkg r : Nat) : Nat := 256 * (pkg + 1) + r

/-- R384, R385: a management reason of a peer. One that comes after its H0 may have passed here is a link fault. -/
def State.peerHold (s : State) (pkg r h0 : Nat) : State :=
  let run := s.p.run
  if s.p.holds.contains (peerCode pkg r) then s
  else if run.group ∧ run.chain ≠ .none ∧ run.tick0 ≤ s.tick ∧ run.hold ≠ .holding ∧ run.hold ≠ .resuming ∧ h0 < s.plan then
    ({ s with p := { s.p with holds := s.p.holds ++ [peerCode pkg r] } } : State).lateMessage
  else s.recordHold (peerCode pkg r) h0

/-- R384, Table 16.7: whether a reason that arose in the last hold comes after its resume, which it would have cancelled. -/
def State.missedReason (s : State) (tick : Nat) : Bool :=
  let run := s.p.run
  run.active && run.group && (run.hold == .running || run.hold == .pending) && decide (run.heldAt ≤ tick) &&
    decide (tick < run.resumeAt)

/-- R384, R388: a message of a member. One that comes after its time is a link fault (R389). -/
def State.groupMessage (s : State) : GroupMsg → State
  | .reason _ pkg key h0 tick =>
    if s.missedReason tick then s.lateMessage
    else if mgmtKey 0 ≤ key then s.peerHold pkg (key - mgmtKey 0) h0
    else if !s.groupLaunch then s
    else if h0 < s.plan then s.lateMessage else s.addReason ⟨pkg, key, h0⟩
  | .removal _ pkg key tick =>
    let s := if mgmtKey 0 ≤ key then s.removeHold (peerCode pkg (key - mgmtKey 0)) tick else s
    if !s.groupLaunch then s
    else if tick + s.holdLead < s.tick then s.lateMessage else s.dropReason pkg key tick
  | .boundary _ pkg plan word =>
    if !s.groupLaunch then s else
    let s := s.onRun fun r => { r with bounds := r.bounds ++ [(plan, peerBound pkg, word)] }
    if s.issuedBoundary plan word then s else s.runFault 17
  | .launch _ pkg stamp pols lag =>
    ({ s with p := { s.p with stamps := (pkg, stamp, pols, lag) :: s.p.stamps.filter (·.1 ≠ pkg) } } : State).tryGroupStart
  | .fault _ pkg kind plan info tile stream thread cycle pc geom =>
    let f : LaunchFault := ⟨kind, plan - s.p.run.ovlPlan, cycle, tile, stream, info, pc, geom, thread, pkg⟩
    if !s.p.run.active then s
    else
      let s := s.onRun fun r => { r with faults := r.faults ++ [f] }
      if s.p.run.ending then s
      else if s.p.run.stopped then s.dueAt (s.now / 2 * 2 + 1) (rankEnd + 50) (.ev (.launchFaultEnd s.p.first))
      else s.duePlan (max s.plan (plan + s.holdLead - 1)) (rankEnd + 50) (.ev (.launchFaultEnd s.p.first))

/-- The partition a message concerns. -/
def msgFirst : GroupMsg → Nat
  | .reason f _ _ _ _ => f
  | .removal f _ _ _ => f
  | .boundary f _ _ _ => f
  | .launch f _ _ _ _ => f
  | .fault f _ _ _ _ _ _ _ _ _ _ => f

/-- R370: whether a message tells a link fault, which dissolves the group on every member. -/
def isLinkFault : GroupMsg → Bool
  | .fault _ _ kind _ _ _ _ _ _ _ _ => kind == 19
  | _ => false

def execGroupControlMessage (m : GroupMsg) (s : State) : Res :=
  let s := if isLinkFault m then s.dissolve else s
  let s := s.focusPart (msgFirst m)
  if s.p.first ≠ msgFirst m then .next s else .next (s.groupMessage m)

/-! Peer requests (R313, R388). -/

/-- The reply a peer's request gets. -/
def State.replyTo (s : State) (r : PeerReq) (v : Option Word) (bad : Nat) : State := s.emit (.reply r.source v bad)

/-- The request as an access: no thread here waits for it. -/
def peerAcc (r : PeerReq) : Acc :=
  ⟨r.source, r.op, r.va, r.bytes, false, 24, r.data, false, r.first, 0, 0, r.asid, true, r.quad, 0, 0, 0, 0, r.pois, r.copy, none⟩

/-- A plain access of a peer performs and its reply leaves. -/
def State.servePeer (s : State) (r : PeerReq) (flat : Nat) : State :=
  if r.op = .store ∧ r.copy then ((s.count 19).copyWord flat r.data r.pois).replyTo r (some 0) 0
  else if r.op = .store ∧ r.pois then ((s.count 19).poison flat).replyTo r (some 0) 0 else
  match (s.count 19).loadStore (peerAcc r) flat with
  | (s, .error (k, _)) => s.replyTo r none (if k = 7 then 0 else k)
  | (s, .ok v) => s.replyTo r (some v) 0

/-- R313, R327, R32, R250: a request of a peer: translated in this package's partition with the requester's ASID, once, and
served in a position of its channel. -/
def State.peerRequest (s : State) (r : PeerReq) : Res :=
  let off := field r.va 45 0
  match (match r.phys with | some x => Except.ok x | none => s.p.translate off r.asid.toNat (accWrites r.op)) with
  | .error _ => .next (s.replyTo r none 4)
  | .ok flat =>
    let s := if r.phys.isNone then s.countHot off r.asid.toNat r.quad else s
    if accWrites r.op && !s.p.hbmOpen off r.bytes (if r.copy then 9 else 7) then .next (s.replyTo r none 6)
    else match s.channelTurn flat (.peerRequestArrives { r with phys := some flat }) with
    | (false, s) => .next s
    | (true, s) => match r.op with
      | .load => .next (s.servePeer r flat)
      | .store => .next (s.servePeer r flat)
      | .watch => .next (s.servePeer r flat)
      | _ =>
        let w : Waiter := { uid := 0, acc := (peerAcc r), own := false, chosen := false }
        let s := { s with lists := Tab.put flat (Tab.getD [] flat s.lists ++ [w]) s.lists }
        .next (s.wakeList flat s.now)

/-- R389: a request of a peer is served in its time. -/
def execPeerRequestArrives (r : PeerReq) (s : State) : Res :=
  let s := s.focusPart r.first
  if s.p.first ≠ r.first then .next (s.replyTo r none 4)
  else s.fromPeer r.stamp (.peerRequestArrives r) fun s => (s.focusPart r.first).peerRequest r

end Sys2Proof.Machine
end

