-- ==== Sys2Proof/Machine/Record.lean ====
section
/-! DEFINITION. The launch record and the program image (R18-R39): their fields, what follows from them (R51-R53,
R59-R64, R458), and the checks of admission (Table 1.16). -/

namespace Sys2Proof.Machine

/-! The header (Table 1.1). -/

abbrev Words := List Word

def Words.w (r : Words) (i : Nat) : Word := r.getD i 0

def recLength (r : Words) : Nat := field (r.w 1) 31 0
def recDet (r : Words) : Bool := !(r.w 2).getLsbD 0
def recMode (r : Words) : Nat := field (r.w 2) 2 1
def recSlots (r : Words) : Nat := field (r.w 2) 9 3
def recRoll (r : Words) : Nat := field (r.w 2) 31 16
def recMinpart (r : Words) : Nat := field (r.w 2) 35 32
def recImage (r : Words) : Nat := field (r.w 7) 55 0

/-- Sections 0 to 4: overlays, packet entries, graphs, region seeds, clearing policies: offset and count. -/
def recOffset (r : Words) (i : Nat) : Nat := field (r.w (4 + i / 2)) (32 * (i % 2) + 19) (32 * (i % 2))
def recCount (r : Words) (i : Nat) : Nat := field (r.w (4 + i / 2)) (32 * (i % 2) + 31) (32 * (i % 2) + 20)

/-- The 2-word entries of a section. -/
def recEntries (r : Words) (i : Nat) : List (Word × Word) :=
  (List.range (recCount r i)).map fun k => (r.w (recOffset r i + 2 * k), r.w (recOffset r i + 2 * k + 1))

/-! The work hierarchy (R21-R23, R457, R59). -/

structure Level where
  dom   : Nat
  scope : Nat
  ext   : Nat
  deriving DecidableEq, Repr

def levelOf (w : Word) : Level := ⟨field w 3 0, field w 7 4, field w 47 16⟩

def recLevels (r : Words) : List Level := (List.range (field (r.w 0) 55 48)).map fun i => levelOf (r.w (8 + i))

def recExtent (r : Words) (dom default : Nat) : Nat :=
  match (recLevels r).find? (·.dom == dom) with
  | some l => l.ext
  | none => default

/-- R457 -/
def recGroup (r : Words) : Bool := (recLevels r).any (·.dom == 0)

/-- R59: logical tiles. -/
def recTiles (r : Words) : Nat := recExtent r 2 1 * recExtent r 4 1

/-- Extent of the lane level under a tile level (Table 3.2), or of one under a cluster, core or thread level (Table 3.3); 1
where absent. -/
def recLanes (r : Words) (tile : Bool) : Nat :=
  let has (d : Nat) : Bool := (recLevels r).any (·.dom == d)
  if (if tile then has 4 else !has 4 && (has 5 || has 6 || has 7)) then recExtent r 8 1 else 1

/-- Table 1.3: extent limit of a domain; that of a lane level depends on the level above. -/
def extentLimit (dom : Nat) (underTile : Bool) : Nat :=
  match dom with
  | 1 => 256
  | 2 => 4
  | 4 => 256
  | 5 => 48
  | 6 => 8
  | 7 => 16
  | 8 => if underTile then 1024 else 64
  | _ => 1

/-- Table 1.3: natural scope. -/
def naturalScope (dom : Nat) : Nat :=
  match dom with
  | 0 => 8
  | 1 => 6
  | 2 => 4
  | 3 => 5
  | 4 => 3
  | 5 => 2
  | 6 => 1
  | _ => 0

/-- R21, R22: a level after one of another domain. -/
def Level.ok (l : Level) (prev : Option Nat) : Bool :=
  let under := prev == some 4
  let packet := l.dom == 5 || l.dom == 6 || l.dom == 7 || (l.dom == 8 && (prev == some 5 || prev == some 6 || prev == some 7))
  decide (l.dom ≤ 8) && (match prev with | some q => decide (q < l.dom) | none => true) && (!under || l.dom == 8) &&
  decide (1 ≤ l.ext) && decide (l.ext ≤ extentLimit l.dom under) &&
  decide (naturalScope l.dom ≤ l.scope) && decide (l.scope ≤ 9) &&
  (!(l.dom == 4 || (l.dom == 8 && under)) || (l.scope != 1 && l.scope != 2)) && (!packet || l.scope != 3)

def levelsOk : Option Nat → List Level → Bool
  | _, [] => true
  | prev, l :: r => l.ok prev && levelsOk (some l.dom) r

/-! Shares of the logical machine (R51-R53). -/

/-- R51: Ns. -/
def Part.staticSlots (p : Part) (r : Words) : Nat := (recSlots r * p.units + 63) / 64

/-- R52: the dilation for a largest demand. -/
def dilationFor (ns demand : Nat) : Nat :=
  match (List.range 7).find? fun k => decide (demand ≤ ns * 2 ^ k) with
  | some k => 2 ^ k
  | none => 64

/-- R53: passes. -/
def Part.passCount (p : Part) (r : Words) : Nat := (recTiles r + p.tileCount - 1) / p.tileCount

/-! Geometry (R59-R62). -/

/-- Smallest c with n at most 2^c. -/
def log2Up (n : Nat) : Nat := ((List.range 12).find? fun c => decide (n ≤ 2 ^ c)).getD 12

def bitIf (b : Bool) (n : Nat) : Nat := if b then 2 ^ n else 0

/-- Table 3.2: `k.geom` of a logical tile. -/
def tileGeom (r : Words) (pkg npkg l : Nat) : Word :=
  let n := recTiles r
  let w := 2 ^ ((log2Up n + 1) / 2)
  let h := (n + w - 1) / w
  BitVec.ofNat 64 (l % w + l / w * 2 ^ 5 + w * 2 ^ 10 + h * 2 ^ 16 + l * 2 ^ 22 + bitIf (l / w == 0) 32 +
    bitIf (decide (n ≤ l + w)) 33 + bitIf (l % w == 0) 34 + bitIf (l % w == w - 1 || l == n - 1) 35 +
    recLanes r true * 2 ^ 36 + pkg * 2 ^ 47 + npkg * 2 ^ 55)

/-- Table 3.3: `k.geom` of a thread: logical cluster, rank, packet entry, follower number, leader. Where the hierarchy has no
core and no thread level the rank may reach 8 or more, and the 3-bit core field holds the rank modulo 8 (DESIGN CHOICE,
assumption 48). -/
def threadGeom (r : Words) (pkg npkg cluster rank entry foll : Nat) (lead : Bool) : Word :=
  let tt := recExtent r 7 1
  BitVec.ofNat 64 (cluster + recExtent r 5 48 * 2 ^ 6 + rank / tt % 8 * 2 ^ 12 + recExtent r 6 1 * 2 ^ 15 +
    rank % tt * 2 ^ 19 + tt * 2 ^ 23 + foll * 2 ^ 28 + bitIf lead 31 + entry * 2 ^ 32 + pkg * 2 ^ 40 + npkg * 2 ^ 48 +
    recLanes r false * 2 ^ 57)

/-! Packet entries (Table 1.6) and where their threads start (R63, R64). -/

structure Entry where
  pc      : Nat
  anch    : Bool
  leader  : Bool
  nfollow : Nat
  count   : Nat
  arg     : Word
  deriving DecidableEq, Repr

def packetEntry (e : Word × Word) : Entry :=
  ⟨field e.1 31 0, e.1.getLsbD 32, e.1.getLsbD 33, field e.1 36 34, field e.1 47 40, e.2⟩

/-- R64: the contexts one rank takes in a cluster, the leader's first, and those that stay free. -/
def placeRank (cores : List Nat) (npos : Nat) (e : Entry) (free : List Loc) : Option (List Loc × List Loc) :=
  if !e.leader then (match free with
    | [] => none
    | l :: r => some ([l], r))
  else
    let cl := (free.map (·.cluster)).headD 0
    let spots := (List.range cores.length).flatMap fun i => (List.range npos).map fun q =>
      (List.range (e.nfollow + 1)).map fun m => (⟨cl, cores.getD (i + m) 8, q⟩ : Loc)
    match spots.find? fun ls => ls.all fun l => free.contains l with
    | some ls => some (ls, free.filter fun l => !ls.contains l)
    | none => none

/-- The ranks of one entry from rank k on. -/
def placeEntry (cores : List Nat) (npos : Nat) (e : Entry) : Nat → Nat → List Loc → Option (List (Nat × List Loc) × List Loc)
  | 0, _, free => some ([], free)
  | n + 1, k, free =>
    match placeRank cores npos e free with
    | none => none
    | some (ls, free) => (placeEntry cores npos e n (k + 1) free).map fun (l, f) => ((k, ls) :: l, f)

/-- R64: entries in table order, ranks ascending: entry, its number, rank, contexts. -/
def placeAll (cores : List Nat) (npos : Nat) : List (Entry × Nat) → List Loc → Option (List (Entry × Nat × Nat × List Loc))
  | [], _ => some []
  | (e, i) :: r, free =>
    match placeEntry cores npos e e.count 0 free with
    | none => none
    | some (l, free) => (placeAll cores npos r free).map fun t => (l.map fun (k, ls) => (e, i, k, ls)) ++ t

/-- The cores a partition owns whole. -/
def Part.cores (p : Part) : List Nat := (List.range (p.units / 8)).map fun k => p.first / 8 + k

/-- R64: where the threads of a record start in a cluster; none where one finds no place. -/
def Part.placed (p : Part) (r : Words) (cluster : Nat) : Option (List (Entry × Nat × Nat × List Loc)) :=
  placeAll p.cores (modeThreads (recMode r)) ((recEntries r 1).map packetEntry).zipIdx (p.contextsIn (recMode r) cluster)

/-! Overlay blocks (Tables 1.5, 1.13-1.15). -/

/-- A block's words in an image. -/
def imageBlock (img : Words) (e : Word × Word) : Words := (img.drop (field e.1 31 0 / 8)).take (field e.1 63 32 / 8)

def blkTiles (b : Words) : Nat := field (b.w 0) 10 0
def blkClears (b : Words) : Nat := field (b.w 0) 23 16
def blkDemand (b : Words) : Nat := field (b.w 0) 30 24
def blkLead (b : Words) : Nat := field (b.w 1) 41 32
def blkTrailer (b : Words) : Word := b.w (field (b.w 1) 31 0 / 8)

/-- Logical tile of tile entry k. -/
def blkTile (b : Words) (k : Nat) : Nat := field (b.w (2 + 8 * k)) 9 0
def blkDesc (b : Words) (k n : Nat) : Word := b.w (3 + 8 * k + n)

/-- The body of stream n of tile entry k. -/
def blkBody (b : Words) (k n : Nat) : Words :=
  (b.drop (field (blkDesc b k n) 31 0 / 8)).take (field (blkDesc b k n) 55 32)

/-- The tile entry of a logical tile. -/
def blkFind (b : Words) (l : Nat) : Option Nat := (List.range (blkTiles b)).find? fun k => blkTile b k == l

/-- Clearing list entries: tile and expect mask. -/
def blkExpects (b : Words) : List (Nat × BitVec 16) :=
  (List.range (blkClears b)).map fun j =>
    let w := b.w (2 + 8 * blkTiles b + j)
    (field w 7 0, BitVec.ofNat 16 (field w 23 8))

def blkExpect (b : Words) (l : Nat) : BitVec 16 := (((blkExpects b).find? (·.1 == l)).map (·.2)).getD 0

/-- R54: whether an overlay runs only in one pass. -/
def blkSingle (b : Words) : Bool :=
  (blkExpects b).any (fun e => e.2 != 0) ||
  (List.range (blkTiles b)).any fun k => (List.range 7).any fun n => (blkBody b k n).any fun w =>
    match decodeT n w with
    | .ok ⟨_, .hold _ _⟩ => true
    | .ok ⟨_, .sendt _ _ _ _ _⟩ => true
    | .ok ⟨_, .recvt _ _ _ _ _ _⟩ => true
    | .ok ⟨_, .tldr _ _ _ _⟩ => true
    | _ => false

/-! Region seeds and policies (Tables 1.8, 1.10). -/

def seedRegion (e : Word × Word) : Region :=
  let hbm := e.1.getLsbD 46
  ⟨if hbm then none else some (field e.1 55 48 + 256 * field e.2 37 36), field e.1 45 0, 128 * field e.2 35 0, field e.1 63 56⟩

def recRegions (r : Words) : List Region := (recEntries r 3).map seedRegion

def policyEntry (e : Word × Word) : Policy := ⟨field e.1 7 0, field e.1 11 8, field e.1 13 12, field e.1 39 16, e.2⟩

def recPolicies (r : Words) : List Policy := (recEntries r 4).map policyEntry

/-- The words of the clearing policy table, as a group launch compares them (R34). -/
def recPolicyWords (r : Words) : Words := (recEntries r 4).flatMap fun e => [e.1, e.2]

/-- R31: HBM of the package, and tensor SRAM of a tile. -/
def Region.inRange (g : Region) : Bool :=
  match g.tile with
  | some _ => decide (g.base + g.len ≤ 0x600000)
  | none => decide (g.base + g.len ≤ 576 * 2 ^ 30)

/-- R31: no two regions overlap. -/
def regionsApart : List Region → Bool
  | [] => true
  | g :: r => r.all (fun h => !h.meets g.tile g.base g.len) && regionsApart r

/-! Areas at the top of the HBM share (R458). -/

/-- Size of an area of n bytes in each controller. -/
def areaPer (n : Nat) : Nat := ((n + 47) / 48 + (2 ^ 21 - 1)) / 2 ^ 21 * 2 ^ 21

def Part.backSize (p : Part) (tiles : Nat) : Nat := areaPer (6208 * 1024 * max tiles p.tileCount)
def Part.saveSize (p : Part) : Nat := areaPer (18688 * 1024 * p.units + (if p.graphSlots = 0 then 0 else 24 * 2 ^ 20))

/-- End of the partition's range in every controller (R246). -/
def Part.hbmTop (p : Part) : Nat := (p.first + p.units) * 0x0C000000

/-- The largest L among the admitted records, but that of a handle. -/
def Part.mostTiles (p : Part) (but : Nat) : Nat :=
  (p.records.toList.zipIdx.map fun (x, h) => match x with
    | some a => if h = but then 0 else recTiles a.words
    | none => 0).foldl max 0

/-- First offset in each controller that the areas take, for a largest L. -/
def Part.areaStart (p : Part) (tiles : Nat) : Nat := p.hbmTop - p.backSize tiles - p.saveSize

/-- R458: whether no valid translation entry's frame lies in the areas. -/
def Part.areasFree (p : Part) (tiles : Nat) : Bool :=
  p.clusters.all fun (_, c) => c.store.all fun e =>
    !e.w0.getLsbD 53 ||
    decide (field e.w1 21 0 * 4096 + pageSize (p.homing.toList.getD (field e.w0 39 34) 0) ≤ p.areaStart tiles)

/-- Flat address of byte i of an area that begins `below` the top in every controller, interleaved in pieces of 4 KiB. -/
def Part.areaByte (p : Part) (below i : Nat) : Nat :=
  i / 4096 % 48 * 2 ^ 34 + (p.hbmTop - below) + 4096 * (i / 4096 / 48) + i % 4096

/-- The byte of such an area, of `size` bytes in every controller, that a flat address holds. -/
def Part.areaIndex (p : Part) (below size flat : Nat) : Option Nat :=
  let o := flat % 2 ^ 34
  let b := p.hbmTop - below
  if flat < 48 * 2 ^ 34 ∧ b ≤ o ∧ o < b + size then some (((o - b) / 4096 * 48 + flat / 2 ^ 34) * 4096 + o % 4096) else none

/-! Reading memory as the proctor does. -/

/-- A word of a record or an image at a virtual address in ASID 0 (R18, R19, R47). A word that cannot be read, or is
poisoned, reads as zero, which fails the check it falls under (assumption 21). -/
def State.recordWord (s : State) (va : Nat) : Word :=
  let w : Word := BitVec.ofNat 64 va
  let off := field w 45 0
  let flat : Option Nat :=
    if 2 ^ 56 ≤ va ∨ field w 55 48 ≠ s.ownPkg then none
    else if field w 47 46 = 0 then (match s.p.translate off 0 false with | .ok f => some f | .error _ => none)
    else if field w 47 46 = 1 ∧ off + 8 ≤ s.p.hostLen.toNat then some (flatHost (s.p.hostBase.toNat + off))
    else none
  match flat with
  | none => 0
  | some f => if s.poisoned f then 0 else s.word f

def State.recordWords (s : State) (va n : Nat) : Words := (List.range n).map fun i => s.recordWord (va + 8 * i)

/-- R18: the copy of a record. -/
def State.copyRecord (s : State) (va : Nat) : Words :=
  let n := recLength (s.recordWords va 16)
  s.recordWords va (if n % 8 = 0 ∧ 128 ≤ n ∧ n ≤ 65536 then n / 8 else 16)

/-- R35: the image of a record. -/
def State.readImage (s : State) (r : Words) : Words :=
  s.recordWords (recImage r) (field ((s.recordWords (recImage r) 2).w 1) 31 0 / 8)

/-- The code section of an image. -/
def imageCode (img : Words) : Words := (img.drop (field (img.w 2) 31 0 / 8)).take (field (img.w 2) 63 32 / 8)

/-- The bytes of words, little-endian. -/
def wordBytes (l : Words) : List Nat := l.flatMap fun w => (List.range 8).map (byteOf w)

/-! Admission (R39, Table 1.16). -/

/-- R89: whether a word may stand in stream n of a logical tile: its opcode and operands, and what they name. -/
def State.wordOk (s : State) (r b : Words) (k n : Nat) (w : Word) : Bool :=
  let seeds := recRegions r
  let l := blkTile b k
  let link (kind : BitVec 2) (tile : BitVec 8) (port : BitVec 4) : Bool :=
    decide (tile.toNat < recTiles r) &&
    (kind == 0 || (decide (1 < recExtent r 1 1) && (s.links.toList.getD port.toNat ⟨0, 0⟩).used))
  match decodeT n w with
  | .error _ => false
  | .ok ⟨_, .loop _ _ target⟩ => decide (target.toNat < (blkBody b k n).length)
  | .ok ⟨_, .brp _ count base span⟩ => (List.range 7).all fun m =>
      (blkBody b k m).isEmpty || decide (base.toNat + count.toNat * span.toNat < (blkBody b k m).length)
  | .ok ⟨_, .clear _ seed _⟩ => seed == 0xFFF || (match seeds[seed.toNat]? with | some g => g.tile == some l | none => false)
  | .ok ⟨_, .region index _⟩ => (match seeds[index.toNat]? with
      | some g => (match g.tile with | some t => t == l | none => l == 0)
      | none => false)
  | .ok ⟨_, .tldr _ _ tile _⟩ => decide (tile.toNat < recTiles r)
  | .ok ⟨_, .sendt _ kind tile port _⟩ => link kind tile port
  | .ok ⟨_, .recvt _ kind tile port _ _⟩ => link kind tile port
  | .ok _ => true

/-- The slots the `clear` words of a tile open. -/
def blkMasks (b : Words) (k : Nat) : BitVec 16 :=
  (blkBody b k 0).foldl (fun (m : BitVec 16) w => match decodeT 0 w with
    | .ok ⟨_, .clear x _ _⟩ => m ||| x
    | _ => m) 0

/-- R37, R38, R93, R220-R222, Table 16.4: an overlay's block. That a set reserved bit of the image's tables, a directory offset
that is no multiple of 64 and a block size that is no multiple of 8 give code 0x09 is the model's choice (DESIGN CHOICE,
assumption 48). -/
def State.blockOk (s : State) (r img : Words) (e : Word × Word) : Bool :=
  let b := imageBlock img e
  let size := field e.1 63 32
  let hdr := 2 + 8 * blkTiles b + blkClears b
  let tr := field (b.w 1) 31 0
  let ks := List.range (blkTiles b)
  decide (field e.1 31 0 % 64 = 0 ∧ size % 8 = 0 ∧ field e.1 31 0 + size ≤ 8 * img.length) &&
  decide (field (b.w 0) 15 11 = 0 ∧ field (b.w 0) 63 31 = 0 ∧ field (b.w 1) 63 42 = 0) &&
  decide (1 ≤ blkTiles b ∧ blkTiles b ≤ 1024 ∧ blkDemand b ≤ 64 ∧ blkDemand b ≤ recSlots r ∧ 16 ≤ blkLead b) &&
  decide (8 * hdr ≤ size ∧ tr % 8 = 0 ∧ 8 * hdr ≤ tr ∧ tr + 8 ≤ size) &&
  decide (field (blkTrailer b) 31 16 = 0x7A11 ∧ field (blkTrailer b) 15 11 = 0 ∧ field (blkTrailer b) 63 32 = 0) &&
  (ks.all fun k =>
    decide ((b.w (2 + 8 * k)).toNat < recTiles r ∧ (b.w (2 + 8 * k)).toNat < 1024) && blkFind b (blkTile b k) == some k && !(blkBody b k 0).isEmpty &&
    (List.range 7).all (fun n =>
      let d := blkDesc b k n
      decide (field d 58 56 = n ∧ field d 63 59 = 0 ∧ field d 31 0 % 8 = 0 ∧ (field d 55 32 ≠ 0 ∨ field d 31 0 = 0) ∧
        field d 31 0 + 8 * field d 55 32 ≤ size) && (blkBody b k n).all (s.wordOk r b k n)) &&
    decide (((List.range 7).map fun n => (blkBody b k n).length).sum ≤ 8192) &&
    blkMasks b k == blkExpect b (blkTile b k)) &&
  ((List.range (blkClears b)).all fun j => decide (field (b.w (2 + 8 * blkTiles b + j)) 63 24 = 0)) &&
  ((blkExpects b).all fun x => (blkFind b x.1).isSome && ((blkExpects b).filter (·.1 == x.1)).length == 1)

/-- R19, R35, R90, R30: the image's address, header, sections, and blocks. That a length which is no multiple of 8 is refused,
with 0x09, is the model's choice (DESIGN CHOICE, assumption 48). -/
def State.imageOk (s : State) (r img : Words) : Bool :=
  let va := recImage r
  let len := field (img.w 1) 31 0
  let code := field (img.w 2) 63 32
  decide (va % 4096 = 0 ∧ field (r.w 7) 47 46 = 0 ∧ field (r.w 7) 55 48 = s.ownPkg) &&
  decide (field (img.w 0) 31 0 = 0x4D495251 ∧ field (img.w 0) 47 32 = 1 ∧ field (img.w 0) 63 48 = 0) &&
  decide (len % 8 = 0 ∧ 32 ≤ len) &&
  crc32 (wordBytes (img.set 1 (img.w 1 &&& 0xFFFFFFFF))) == field (img.w 1) 63 32 &&
  decide (field (img.w 2) 31 0 % 8 = 0 ∧ code % 8 = 0 ∧ field (img.w 2) 31 0 + code ≤ len) &&
  decide (field (img.w 3) 31 0 % 8 = 0 ∧ field (img.w 3) 31 0 + field (img.w 3) 63 32 ≤ len) &&
  decide (code ≤ 65536 * s.p.units) && (recEntries r 0).all (s.blockOk r img) &&
  (recEntries r 2).all fun e => decide (field e.1 31 0 + 8 * field e.1 47 32 ≤ len)

/-- A graph's configuration words in the image (Table 1.7). -/
def graphBlock (img : Words) (e : Word × Word) : Words := (img.drop (field e.1 31 0 / 8)).take (field e.1 47 32)

/-- R30: controllers of a graph entry; 0 means all. -/
def graphMask (e : Word × Word) : BitVec 48 := if field e.2 47 0 = 0 then BitVec.allOnes 48 else e.2.setWidth 48

def graphsApart : List (Word × Word) → Bool
  | [] => true
  | e :: r => r.all (fun f => field e.1 51 48 != field f.1 51 48 || (graphMask e &&& graphMask f) == 0) && graphsApart r

/-- R30, R50: the graph table. -/
def State.graphsOk (s : State) (r img : Words) : Bool :=
  let l := recEntries r 2
  decide (l.length ≤ 768) && graphsApart l && l.all fun e =>
    decide (field e.1 51 48 < s.p.graphSlots) && decide (field e.1 31 0 % 8 = 0) &&
    match graphOf (graphBlock img e) with
    | some g => g.depth == field e.2 63 48
    | none => false

/-- R33, R34: the clearing policies. -/
def policiesOk (r img : Words) : Bool :=
  let l := recPolicies r
  l.all (fun q =>
    q.policy != 3 && (q.policy == 2) == (q.limit != 0) && (q.policy != 1 || decide (q.subst.toNat < 65536)) &&
    (q.policy != 2 || q.subst == 0) && ((l.filter fun x => x.tile == q.tile && x.slot == q.slot).length == 1)) &&
  (recEntries r 0).all fun e => (blkExpects (imageBlock img e)).all fun x =>
    (List.range 16).all fun n => !x.2.getLsbD n || l.any fun q => q.tile == x.1 && q.slot == n

/-- R29, R62-R64: the packet entries. -/
def State.entriesOk (s : State) (r img : Words) : Bool :=
  let leveled := (recLevels r).any fun l => l.dom == 6 || l.dom == 7
  decide (recCount r 1 ≤ 255) &&
  ((recEntries r 1).map packetEntry).all (fun e =>
    decide (e.pc % 8 = 0 ∧ e.pc < 8 * (imageCode img).length ∧ 1 ≤ e.count) && (e.leader || e.nfollow == 0) &&
    (!leveled || e.count == recExtent r 6 1 * recExtent r 7 1) && (!e.leader || decide (s.p.lg ≤ 3))) &&
  (s.p.placed r 0).isSome

/-- R20: a section lies inside the record, after the header, aligned, and apart from the others. -/
def sectionsOk (r : Words) : Bool :=
  let span (i : Nat) : Nat × Nat := (recOffset r i, recOffset r i + 2 * recCount r i)
  (List.range 5).all (fun i =>
    if recCount r i = 0 then recOffset r i == 0
    else decide (16 ≤ (span i).1 ∧ (span i).1 % 2 = 0 ∧ (span i).2 ≤ r.length)) &&
  (List.range 5).all fun i => (List.range 5).all fun j =>
    i == j || recCount r i == 0 || recCount r j == 0 || decide ((span i).2 ≤ (span j).1 ∨ (span j).2 ≤ (span i).1)

/-- R18: the reserved fields of the record. -/
def reservedOk (r : Words) : Bool :=
  decide (field (r.w 0) 63 56 = 0 ∧ field (r.w 2) 15 10 = 0 ∧ field (r.w 2) 63 36 = 0 ∧ field (r.w 6) 63 32 = 0 ∧
    field (r.w 7) 63 56 = 0) &&
  (List.range (field (r.w 0) 55 48)).all (fun i => decide (field (r.w (8 + i)) 15 8 = 0 ∧ field (r.w (8 + i)) 63 48 = 0)) &&
  (recEntries r 0).all (fun e => decide (field e.2 63 48 = 0)) &&
  (recEntries r 1).all (fun e => decide (field e.1 39 37 = 0 ∧ field e.1 63 48 = 0)) &&
  (recEntries r 2).all (fun e => decide (field e.1 63 52 = 0)) &&
  (recEntries r 3).all (fun e => !e.1.getLsbD 47 && decide (field e.2 63 38 = 0)) &&
  (recEntries r 4).all (fun e => decide (field e.1 15 14 = 0 ∧ field e.1 63 40 = 0))

/-- R19, R21-R23, R457: the work hierarchy. -/
def hierarchyOk (r : Words) : Bool :=
  let l := recLevels r
  levelsOk none l && (List.range 8).all (fun i => decide (i < l.length) || r.w (8 + i) == 0) &&
  decide ((l.map (·.ext)).foldl (· * ·) 1 ≤ 2 ^ 40) && (recGroup r || decide (recExtent r 1 1 ≤ 1))

/-- R26, R50, R54, R251, R458: the partition is large enough for the record of a handle. -/
def State.roomOk (s : State) (r img : Words) (h : Nat) : Bool :=
  let p := s.p
  decide (p.lg ≤ recMinpart r) && (!recGroup r || p.lg == 0) &&
  (decide (p.passCount r ≤ 1) || (recEntries r 0).all fun e => !blkSingle (imageBlock img e)) &&
  (!recDet r || recCount r 1 == 0 || recSlots r == 64 || decide (p.staticSlots r < p.units)) &&
  p.areasFree (max (p.mostTiles h) (recTiles r))

/-- R27, R28: the overlay directory. The codes of entry counts outside Table 1.1's ranges are the model's: 0x08 for the overlays
here, 0x0D for packet entries and 0x0A for graphs (DESIGN CHOICE, assumption 48). -/
def directoryOk (r : Words) : Bool :=
  let l := recEntries r 0
  decide (1 ≤ l.length ∧ l.length ≤ 255) && l.all fun e =>
    decide (1 ≤ field e.2 39 0) && (field e.2 47 40 == 0xFF || decide (field e.2 47 40 < l.length))

/-- R31: the region seeds. -/
def seedsOk (r : Words) : Bool :=
  let l := recRegions r
  (recEntries r 3).all (fun e =>
    let g := seedRegion e
    decide (g.writer ≤ 9 ∧ g.base % 128 = 0 ∧ 1 ≤ g.len) && g.inRange &&
    (match g.tile with | some t => decide (t < recTiles r) | none => decide (field e.1 55 48 = 0 ∧ field e.2 37 36 = 0))) &&
  regionsApart l

/-- R457: a group record on a formed group of its extent. -/
def State.groupOk (s : State) (r : Words) : Bool := !recGroup r || (s.formed && recExtent r 1 1 == s.extent)

/-- The first code in a list whose check fails; 0 where none does. -/
def firstCode : List (Nat × Bool) → Nat
  | [] => 0
  | (c, ok) :: l => if ok then firstCode l else c

/-- R39, Table 1.16: the admission code of a copied record for a handle, its checks in ascending code order. -/
def State.admissionCode (s : State) (r : Words) (h : Nat) : Nat :=
  let img := s.readImage r
  let n := field (r.w 0) 55 48
  firstCode [
    (0x01, decide (field (r.w 0) 31 0 = 0x434C5251 ∧ field (r.w 0) 47 32 = 1 ∧ 1 ≤ n ∧ n ≤ 8)),
    (0x02, decide (recLength r = 8 * r.length) &&
      crc32 (wordBytes (r.set 1 (r.w 1 &&& 0xFFFFFFFF))) == field (r.w 1) 63 32),
    (0x03, reservedOk r),
    (0x04, hierarchyOk r),
    (0x05, decide (recSlots r ≤ 64 ∧ recRoll r ≠ 0 ∧ recMinpart r ≤ 6 ∧ (recMode r = 0 ∨ recMinpart r ≤ 3))),
    (0x06, s.roomOk r img h),
    (0x07, sectionsOk r),
    (0x08, directoryOk r),
    (0x09, s.imageOk r img),
    (0x0A, s.graphsOk r img),
    (0x0B, seedsOk r),
    (0x0C, policiesOk r img),
    (0x0D, s.entriesOk r img),
    (0x0E, s.groupOk r)]

end Sys2Proof.Machine
end

