-- ==== Sys2Proof/Machine/Overlay.lean ====
section
/-! DEFINITION. The overlay chain: loading a bank, preload, the end of a logical tick, drains, swaps, passes and the
retirement of the timetable (R27, R28, R37, R38, R53, R93, R94, R216, R223, R224, R410-R412). -/

namespace Sys2Proof.Machine

/-! Banks (R37, R87, R93). -/

/-- A stream takes a body at tick 0 of its overlay; its registers, and what its engine still does, stay. -/
def TStream.load (t : TStream) (body : Words) (plan : Nat) : TStream :=
  { t with
    body := body
    next := 0
    due := plan + idleOf (body.getD 0 0)
    done := body.isEmpty
    before := max t.before t.lands
    lands := 0
    glands := 0 }

/-- A tile's banks flip: its streams of a block, or an empty bank where the block has none for it (R93). -/
def Tile.load (t : Tile) (b : Words) (plan : Nat) : Tile :=
  { t with
    streams := Vector.ofFn fun (n : Fin 7) => t.streams[n].load (match blkFind b t.ltile with
      | some k => blkBody b k n.val
      | none => []) plan
    bells := 0
    regions := []
    uses := t.uses.filter fun u => decide (plan ≤ u.tick) }

/-- The logical tile number of a tile that holds none. -/
def noTile : Nat := 1024

/-- A logical tile as arming leaves it (R45): zero. -/
def Tile.fresh (r : Words) (pkg npkg l : Nat) : Tile :=
  if l < recTiles r then { Tile.rest with ltile := l, geom := tileGeom r pkg npkg l } else { Tile.rest with ltile := noTile }

/-- Puts every word that a tile's streams have next into the queue. -/
def State.queueTile (s : State) (n : Nat) : State := (List.range 7).foldl State.queueWord (s.focusTile n)

/-- Every tile takes the running overlay's bank at a PLAN tick. -/
def State.loadBanks (s : State) (plan : Nat) : State :=
  let b := s.p.run.block
  let s := { s with p := { s.p with tiles := s.p.tiles.map fun t => t.load b plan } }
  (List.range s.p.tiles.length).foldl State.queueTile s

/-- A time that firmware takes, in ticks (assumption 7). -/
def State.firmwareTime (s : State) : Nat × State :=
  (Config.firmwareTicks s.fresh, { s with fresh := s.fresh + 1 })

/-- The directory entry of an overlay. -/
def Run.overlay (r : Run) (k : Nat) : Word × Word := (recEntries r.rec_ 0).getD k (0, 0)

/-- R93: the block of an overlay as the image reads now; a word that is poisoned, or has no translation, is loaded as zero
(DESIGN CHOICE, assumption 48). -/
def State.loadBlock (s : State) (k : Nat) : Words := imageBlock (s.readImage s.p.run.rec_) (s.p.run.overlay k)

/-- R93, R411: ticks that the preload of an overlay takes: in deterministic mode a fixed number of logical ticks for the
block's size, so that the swap falls in the same one in every run and size (R5, assumption 7). -/
def State.preloadTime (s : State) (k : Nat) : Nat × State :=
  if s.det then (s.p.run.d * Config.preloadTicks (field (s.p.run.overlay k).1 63 32), s) else s.firmwareTime

/-- R93: the preload of an overlay starts. -/
def State.startPreload (s : State) (k : Nat) : State :=
  let (t, s) := s.preloadTime k
  let s := s.onRun fun r => { r with preload := some k, preloaded := none }
  s.dueAt (s.cycleOfTick (max s.tick s.p.run.tick0 + t)) rankStart (.ev (.preloadComplete s.p.first))

/-- R28: the budget of the running pass ends. -/
def State.startBudget (s : State) : State :=
  s.duePlan (s.p.run.ovlPlan + field (s.p.run.overlay s.p.run.ovl).2 39 0) (rankEnd + 43) (.ev (.budgetExceeded s.p.first))

/-- Whether every control stream of the overlay has issued its last word, or a `halt` (R410). -/
def Part.controlDone (p : Part) : Bool := p.tiles.all fun t => (t.streams.toList.getD 0 .rest).done

/-- R53: tick 0 of a pass at a PLAN tick: the banks flip and its budget starts. Where none of its tiles has a control word, the
end of this tick already looks for the drain (R410). -/
def State.startPass (s : State) (plan : Nat) : State :=
  let s := (s.loadBanks plan).startBudget
  if s.p.controlDone then s.watchTick plan else s

/-- R37, R93, R411: tick 0 of an overlay at a PLAN tick: the banks flip, the streams start, the successor's preload
begins. Boundary words stay on record while a member may still ask for them (R389). -/
def State.startOverlay (s : State) (k : Nat) (b : Words) (plan : Nat) : State :=
  let next := field (s.p.run.overlay k).2 47 40
  let s := s.onRun fun r => { r with
    ovl := k
    ovlPlan := plan
    block := b
    nextBlock := []
    chain := .running
    chainNext := next
    halted := none
    preload := none
    preloaded := none
    prept := none
    noisy := []
    bellAt := none
    bounds := r.bounds.filter fun x => decide (plan ≤ x.1 + 2 * s.peerLat)
    bounds0 := []
    deDone := plan
    pass := 0 }
  let s := s.startPass plan
  if next = 0xFF then s else s.startPreload next

/-! Sets of resident tiles (R53, R94, R458). -/

/-- Bytes of a tile slot, and of its tensor SRAM and accumulators (R458). The rest, for registers and the like, has no
layout given. -/
def slotBytes : Nat := 6208 * 1024
def slotLaid : Nat := 6176 * 1024

/-- The byte of the backing area for a byte of tensor SRAM or an accumulator of the tiles listed, each with its slot. -/
def tileByte (first : Nat) (l : List (Nat × Nat)) (flat : Nat) : Option Nat :=
  let at_ (tile o : Nat) : Option Nat :=
    if tile / 1024 = first then (l.find? (·.1 = tile % 1024)).map fun x => slotBytes * x.2 + o else none
  if flat < flatSramBase then none
  else if flat < flatAccBase then at_ ((flat - flatSramBase) / 2 ^ 23) ((flat - flatSramBase) % 2 ^ 23)
  else if flat < flatHostBase then at_ ((flat - flatAccBase) / 32768) (0x600000 + (flat - flatAccBase) % 32768)
  else none

/-- And the other way. -/
def tileFlat (first : Nat) (l : List (Nat × Nat)) (i : Nat) : Option Nat :=
  let o := i % slotBytes
  match l.find? (·.2 = i / slotBytes) with
  | some x => if o < 0x600000 then some (flatSram first x.1 o) else if o < slotLaid then some (flatAcc first x.1 0 0 + (o - 0x600000)) else none
  | none => none

/-- R53, R458: what the tiles listed hold goes to their slots of the backing area. -/
def State.tilesOut (s : State) (back : Nat) (l : List (Nat × Nat)) : State :=
  let p := s.p
  let hit (a : Nat) : Bool := match p.areaIndex back back a with
    | some i => l.any (·.2 == i / slotBytes)
    | none => false
  { s with
    mem := s.mem.relocate hit fun a => (tileByte p.first l a).map (p.areaByte back)
    attr := s.attr.filter fun c => !hit c.1
    fresh := s.fresh + 1
    p := { p with image := some s.fresh } }

/-- And comes back. -/
def State.tilesIn (s : State) (back : Nat) (l : List (Nat × Nat)) : State :=
  let p := s.p
  { s with mem := s.mem.relocate (fun a => (tileByte p.first l a).isSome) fun a =>
      (p.areaIndex back back a).bind (tileFlat p.first l) }

/-- Per-controller size of the backing area in force. -/
def Part.backNow (p : Part) : Nat := p.backSize (p.mostTiles 8)

/-- R53: the resident logical tiles are saved. -/
def State.saveSet (s : State) : State :=
  let back := s.p.backNow
  let l := s.p.tiles.filter fun t => t.ltile != noTile
  let s := s.tilesOut back (l.map fun (t : Tile) => (t.ltile, t.ltile))
  { s with p := { s.p with backed := l.foldl (fun b t => Tab.put t.ltile t b) s.p.backed } }

/-- R210, R53: the ta and tn registers of a tile are zero after a change of the resident set. -/
def Tile.zeroRegs (t : Tile) : Tile :=
  { t with streams := t.streams.map fun (x : TStream) => { x with ta := Vector.replicate 16 0, tn := Vector.replicate 8 0 } }

/-- R53: the tiles of a pass are loaded; one that was never resident stands as arming leaves it. What a physical tile
counts stays with it (R416). -/
def State.loadSet (s : State) (pass : Nat) : State :=
  let back := s.p.backNow
  let p := s.p
  let tiles := p.tiles.zipIdx.map fun (old, m) =>
    let l := pass * p.tileCount + m
    let t := match Tab.find l p.backed with
      | some t => t.zeroRegs
      | none => Tile.fresh p.run.rec_ p.armedIn.1 p.armedIn.2 l
    { t with tpoison := old.tpoison, tcorr := old.tcorr }
  let s := s.tilesIn back ((tiles.filter fun (t : Tile) => (Tab.find t.ltile p.backed).isSome).map fun (t : Tile) => (t.ltile, t.ltile))
  { s with p := { s.p with tiles := tiles } }

/-! Boundary words (R216, R389). -/

/-- The boundary words of tiles of this package in a PLAN tick. -/
def Run.ownBounds (r : Run) (plan : Nat) : List (Nat × Word) :=
  (r.bounds.filter fun b => b.1 == plan && decide (b.2.1 < 1024)).map (·.2)

/-- The logical tiles of the running overlay that are resident, ascending. -/
def Part.overlayTiles (p : Part) : List Nat :=
  (p.tiles.map (·.ltile)).filter fun l => l != noTile && (blkFind p.run.block l).isSome

/-- The first pass of the running overlay that has a tile of the overlay (R53). -/
def Part.firstPass (p : Part) : Nat :=
  ((List.range (p.run.passes * p.tileCount)).find? fun l => (blkFind p.run.block l).isSome).getD 0 / p.tileCount

/-- R216: every tile of the overlay issues one and the same boundary word in this tick or none does; in a later pass the
one that the first pass with such tiles issued. A pass with none issues none and is not compared. -/
def Part.boundsAgree (p : Part) (plan : Nat) : Bool :=
  let own := p.run.ownBounds plan
  let all := own.isEmpty || (own.length == p.overlayTiles.length && own.all fun b => some b.2 == own.head?.map (·.2))
  let old := (p.run.bounds0.filter fun b => b.1 == plan && decide (b.2.1 < 1024)).map fun b => b.2.2
  all && (decide (p.run.pass ≤ p.firstPass) || p.overlayTiles.isEmpty || own.head?.map (·.2) == old.head?)

/-- R389: whether every member's word of a PLAN tick has come, for each of the own bells of that tick. -/
def State.peersAgree (s : State) (plan : Nat) : Bool :=
  (s.p.run.ownBounds plan).all fun b => !isBell b.2 || (List.range s.extent).all fun k =>
    k == s.ownPkg || s.p.run.bounds.any fun x => x.1 == plan && x.2.1 == peerBound k && x.2.2 == b.2

/-- R216: a difference among boundary words, in the name of the lowest tile that issued one (assumption 26). -/
def State.boundFault (s : State) (plan : Nat) : State :=
  let l := ((s.p.run.ownBounds plan).map (·.1)).foldl min 1024
  let l := if l = 1024 then s.p.overlayTiles.headD 0 else l
  s.launchFault ⟨17, s.ltick, s.groupCycle, l, 0, 0, 0, 0, false, s.ownPkg⟩

/-- Whether a word is a `halt` (Table 9.2). -/
def isHalt (w : Word) : Bool := field w 53 46 == 0x19

/-- R216, R389: the boundary words of this tick are compared, and the members are told of a bell. -/
def State.checkBounds (s : State) : State :=
  let plan := s.plan
  let s := if s.p.boundsAgree plan then s else s.boundFault plan
  if !s.groupLaunch then s
  else
    let s := if s.det && decide (s.peerLat ≤ plan) && !s.peersAgree (plan - s.peerLat) then s.boundFault plan else s
    match (s.p.run.ownBounds plan).find? fun b => isBell b.2 with
    | some b =>
      let s := s.tellGroup (.boundary s.p.first s.ownPkg plan b.2)
      if s.det then s.watchTick (plan + s.peerLat) else s
    | none => s

/-! The end of a logical tick. -/

/-- No stream of a tile issues any more. -/
def Tile.still (t : Tile) : Tile := { t with streams := t.streams.map fun (x : TStream) => { x with done := true } }

def State.stopStreams (s : State) : State := { s with p := { s.p with tiles := s.p.tiles.map Tile.still } }

/-- R412: every bank becomes empty. -/
def Tile.unload (t : Tile) : Tile :=
  { t with streams := t.streams.map fun (x : TStream) => { x with done := true, body := [], before := max x.before x.lands } }

/-- R410: the tile streams the trailer names have drained. -/
def Tile.drained (t : Tile) (trailer : Word) (plan : Nat) : Bool :=
  (List.range 7).all fun n =>
    let x : TStream := t.streams.toList.getD n .rest
    n == 0 || !trailer.getLsbD n || (x.done && decide (x.lands ≤ plan))

/-- R307: every line of the graph-bearing words that have issued has landed. -/
def Tile.graphsLanded (t : Tile) (plan : Nat) : Bool := t.streams.toList.all fun x => decide (x.glands ≤ plan)

/-- R410: no job of an engine is left. -/
def Part.idleEngine (p : Part) (eng : Nat) : Bool := p.jobs.all fun j => j.eng != eng

/-- R410, R307: the queues that the trailer names; under passes once, after the last pass. -/
def Part.queuesDrained (p : Part) (plan : Nat) : Bool :=
  let t := blkTrailer p.run.block
  decide (p.run.pass + 1 < p.run.passes) ||
  ((!t.getLsbD 7 || p.tiles.all fun x => x.graphsLanded plan) &&
   (!t.getLsbD 8 || p.idleEngine 3) && (!t.getLsbD 9 || p.idleEngine 2) && (!t.getLsbD 10 || p.idleEngine 1))

/-- R410: whether the running overlay is drained in this tick. -/
def Part.overlayOver (p : Part) (plan : Nat) : Bool :=
  p.controlDone && (p.tiles.all fun t => t.drained (blkTrailer p.run.block) plan && t.clearings.isEmpty &&
    t.board.toList.all fun n => n.state == .idle) && p.queuesDrained plan &&
  p.run.hold != .holding && p.run.hold != .resuming

/-- R223: a quiet `prept` issued in this tick, and a pre-emption waits for one. Only the last pass has seen every tile of the
launch at this point (assumption 27). -/
def Part.stopsHere (p : Part) (plan : Nat) : Bool :=
  p.ppWant && p.run.prept == some (plan, true) && decide (p.run.passes ≤ p.run.pass + 1)

/-- R223, R406: the launch stops for its pre-emption at the end of this tick. A member of a group has the others compare
the tick (R216). -/
def State.stopAtPrept (s : State) : State :=
  if !s.p.stopsHere s.plan then s
  else
    let mark : Word := BitVec.ofNat 64 (2 ^ 63 + s.p.run.ovl)
    let plan := s.plan
    let s := if !s.groupLaunch then s
      else (s.onRun fun r => { r with bounds := r.bounds ++ [(plan, peerBound s.ownPkg, mark)] }).tellGroup (.boundary s.p.first s.ownPkg plan mark)
    s.dueAt (s.now / 2 * 2 + 1) (rankEnd + 60) (.ev (.preempt s.p.first))

/-- The end of a logical tick in which something of the chain may change: boundary words, `halt`, the drain, a
pre-emption point. -/
def State.endTick (s : State) (first : Nat) : State :=
  let s := s.focusPart first
  if s.p.first ≠ first ∨ first = 64 ∨ !s.p.run.active ∨ s.p.run.ending ∨ s.p.run.chain ≠ .running then s
  else
    let plan := s.plan
    let s := s.checkBounds
    let s := if (s.p.run.ownBounds plan).any fun b => isHalt b.2 then s.stopStreams else s
    if s.p.overlayOver plan then
      (s.onRun fun r => { r with chain := .draining }).duePlan plan (rankEnd + 41) (.ev (.overlayDrained first))
    else
      let s := s.stopAtPrept
      if s.p.controlDone then s.watchTick (plan + 1) else s

/-- R28: the pass has not drained within its budget. -/
def execBudgetExceeded (first : Nat) (s : State) : Res :=
  let s := s.focusPart first
  if s.p.first ≠ first ∨ s.p.run.chain ≠ .running ∨
      s.plan ≠ s.p.run.ovlPlan + field (s.p.run.overlay s.p.run.ovl).2 39 0 then .next s
  else .next (s.runFault 17)

/-! Drain and swap (R410-R412). -/

/-- R411: the successor's bell, once its preload is complete. -/
def State.trySwap (s : State) : State :=
  if s.p.run.preloaded = some s.p.run.chainNext then
    s.dueAt (s.cycleOfTick (s.tick + Config.swapGap)) 0 (.ev (.overlaySwapBell s.p.first))
  else s

/-- PLAN by which everything issued so far has landed. -/
def Part.landed (p : Part) (plan : Nat) : Nat :=
  p.tiles.foldl (fun m t => t.streams.toList.foldl (fun m x => max m (max x.lands x.before)) m) plan

/-- R53: the set of resident tiles changes once nothing is left to land (assumption 27), unless the launch ends in that tick
(R48, R400). -/
def State.beginChange (s : State) : State :=
  (s.onRun fun r => { r with chain := .changing }).duePlan (s.p.landed s.plan) (rankEnd + 55) (.ev (.residentSetChange s.p.first))

/-- R410, R412, R53: the overlay, or a pass of it, is drained: no stream issues any more; then the next pass, the
retirement of the timetable, or the swap. -/
def execOverlayDrained (first : Nat) (s : State) : Res :=
  let s := s.focusPart first
  if s.p.first ≠ first ∨ s.p.run.chain ≠ .draining then .next s
  else
    let plan := s.plan
    let s := s.stopStreams.onRun fun r => { r with deDone := max r.deDone plan }
    let r := s.p.run
    let s :=
      if r.pass + 1 < r.passes then s.beginChange
      else if r.halted.isSome ∨ r.chainNext = 0xFF then
        (({ s with p := { s.p with tiles := s.p.tiles.map Tile.unload } } : State).onRun fun r => { r with chain := .retired }).mayRetire
      else if 1 < r.passes then s.beginChange
      else (s.onRun fun r => { r with chain := .swapping }).trySwap
    .next s.stopAtPrept

/-- Ticks of a change of the resident set. -/
def changeTicks : Nat := Config.residentFrames * Config.frameTicks

/-- R53: after the change: the next pass from its tick 0, PLAN as in an unfolded run; after the last pass the set of pass
0, and the swap. -/
def State.changeDone (s : State) : State :=
  let r := s.p.run
  let keep := fun (i : Item) => i.what == .ev (.holdBegins s.p.first)
  if r.pass + 1 < r.passes then
    let s := s.loadSet (r.pass + 1)
    let s := s.onRun fun x => { x with
      pass := r.pass + 1
      chain := .running
      stopped := false
      plan := r.ovlPlan
      runBase := s.tick
      bounds := []
      bounds0 := if r.pass = s.p.firstPass then r.bounds else r.bounds0
      prept := none
      tq := x.tq.filter keep }
    let s := s.startPass r.ovlPlan
    s.p.run.bounds0.foldl (fun s b => s.watchTick b.1) s
  else
    let s := s.loadSet 0
    let s := s.onRun fun x => { x with
      pass := 0
      chain := .swapping
      stopped := false
      plan := r.deDone + 1
      runBase := s.tick
      tq := x.tq.filter keep }
    s.stopStreams.trySwap

/-- R53: a change of the resident set begins: PLAN stands still for 1 035 frames; and ends. -/
def execResidentSetChange (first : Nat) (s : State) : Res :=
  let s := s.focusPart first
  if s.p.first ≠ first ∨ s.p.run.chain ≠ .changing then .next s
  else if s.p.run.stopped then .next s.changeDone
  else
    let plan := s.plan
    let s := s.saveSet.onRun fun r => { r with
      stopped := true
      plan := plan
      runBase := s.tick }
    .next (s.dueAt (s.cycleOfTick (s.tick + 1 + changeTicks)) 0 (.ev (.residentSetChange first)))

/-- R93: a preload has read every word of its block, each as it then stands. -/
def execPreloadComplete (first : Nat) (s : State) : Res :=
  let s := s.focusPart first
  if s.p.first ≠ first ∨ !s.p.run.active then .next s
  else match s.p.run.preload with
  | none => .next s
  | some k =>
    let b := s.loadBlock k
    let s := s.onRun fun r => { r with preload := none, preloaded := some k, nextBlock := b }
    .next (if s.p.run.chain = .swapping ∧ s.p.run.bellAt.isNone then s.trySwap else s)

/-- PLAN of the first logical tick that begins at or after now. -/
def State.nextPlan (s : State) : Nat :=
  if s.p.run.stopped then s.p.run.plan + 1
  else s.p.run.plan + (s.tick - s.p.run.runBase + s.p.run.d - 1) / s.p.run.d

/-- R411, R37: the successor's bell, which waits for the end of a hold (R386); then its tick 0, lead ticks later. -/
def execOverlaySwapBell (first : Nat) (s : State) : Res :=
  let s := s.focusPart first
  if s.p.first ≠ first ∨ s.p.run.chain ≠ .swapping then .next s
  else match s.p.run.bellAt with
  | none =>
    if s.p.run.stopped then .next (s.dueAt (s.cycleOfTick (s.tick + 1)) 0 (.ev (.overlaySwapBell first)))
    else
      let at_ := s.tick + blkLead s.p.run.nextBlock
      .next (((s.count 15).onRun fun r => { r with bellAt := some at_ }).dueAt (s.cycleOfTick at_) 0 (.ev (.overlaySwapBell first)))
  | some at_ =>
    if at_ ≠ s.tick then .next s
    else
      let base := s.nextPlan
      let s := if s.p.run.stopped then s else s.onRun fun r => { r with plan := base, runBase := s.tick }
      let s := s.startOverlay s.p.run.chainNext s.p.run.nextBlock base
      .next (if s.p.run.mreqs.isEmpty then s else s.watchHold base)

end Sys2Proof.Machine
end

