-- ==== Sys2Proof/Machine/Arming.lean ====
section
/-! DEFINITION. Launch slots and the proctor that consumes them, status words, arming, admission and drop (R43-R45, R90,
R417). -/

namespace Sys2Proof.Machine

/-! Launch words (Table 2.3). -/

def opOf (w : Word) : Nat := field w 3 0
def handleOf (w : Word) : Nat := field w 10 8

/-- R43: op valid, reserved bits zero. -/
def launchWordOk (w : Word) : Bool :=
  (opOf w == 1 || opOf w == 2 || opOf w == 3) && field w 7 4 == 0 && !w.getLsbD 11 && !w.getLsbD 63

/-- Bits [45:0] of the operand. -/
def launchTag (w : Word) : Nat := field w 57 12

/-- Table 2.4. -/
def statusWord (adm res state tag : Nat) : Word :=
  BitVec.ofNat 64 (adm % 256 + res % 256 * 2 ^ 8 + state % 4 * 2 ^ 16 + tag % 2 ^ 46 * 2 ^ 18)

/-- R44: status word n is written; MSI-X vector 0 of the function where the action has ended and irq is set (R43). -/
def State.setStatus (s : State) (n adm res state tag : Nat) (irq : Bool) : State :=
  let s := { s with p := { s.p with
    status := if h : n < 8 then s.p.status.set n (statusWord adm res state tag) else s.p.status } }
  if irq && state != 1 then s.emit (.msix s.p.first 0) else s

/-! The proctor (R44, Table 2.6). -/

/-- Ticks from the slot turning full to its action: the proctor rejoins rotation, reads and checks. -/
def slotTicks : Nat := 24

/-- The event that acts on a launch word. -/
def actionOf (first : Nat) (w : Word) : Instr :=
  if !launchWordOk w then .invalidLaunchWord first
  else if opOf w = 1 then .admitRecord first
  else if opOf w = 2 then .launch first
  else .drop first

/-- R44, R405: whether the action of a word may start: no other is under way, and none of a launch that has not ended, but
for an admit or a drop while the partition is saved. -/
def Part.mayAct (p : Part) (w : Word) : Bool :=
  p.acting.isNone && (!p.run.active || (p.ppState == 2 && !(launchWordOk w && opOf w == 2)))

/-- R44: the proctor turns to the next slot in ring order, if it is full and the action before has ended. -/
def State.kickProctor (s : State) : State :=
  match s.p.slots.toList.getD s.p.ring none with
  | none => s
  | some (t, w) =>
    if !s.p.mayAct w then s
    else
      let s := { s with p := { s.p with acting := some (s.p.ring, w, false) } }
      s.dueAt (s.cycleOfTick (max t s.tick + slotTicks)) rankStart (.ev (actionOf s.p.first w))

/-- R44: the slot is set empty, and the ring moves on. -/
def State.emptySlot (s : State) : State :=
  match s.p.acting with
  | some (n, w, _) =>
    { s with p := { s.p with
        slots := if h : n < 8 then s.p.slots.set n none else s.p.slots
        ring := (n + 1) % 8
        acting := some (n, w, true) } }
  | none => s

/-- R44: the action has ended. -/
def State.actionDone (s : State) : State := ({ s with p := { s.p with acting := none } } : State).kickProctor

/-- R44: the action of a slot ends with its status word. -/
def State.answer (s : State) (adm res state : Nat) : State :=
  match s.p.acting with
  | some (n, w, _) => (s.setStatus n adm res state (launchTag w) (w.getLsbD 62)).actionDone
  | none => s

/-- A proctor's action has work left that takes firmware time (assumption 7). -/
def State.actLater (s : State) (i : Instr) : State :=
  let (t, s) := s.firmwareTime
  s.dueAt (s.cycleOfTick (s.tick + 1 + t)) rankStart (.ev i)

/-! Arming (R45, R90, R93, R241, R291). -/

/-- The resident graphs of a record: gslot, controllers, configuration words (R30). -/
def recGraphs (r img : Words) : List (Nat × BitVec 48 × Words) :=
  (recEntries r 2).map fun e => (field e.1 51 48, graphMask e, graphBlock img e)

/-- Flat ranges of a partition's tensor SRAM and accumulators. -/
def Part.tileRanges (p : Part) : List (Nat × Nat) :=
  [(flatSram p.first 0 0, flatSram (p.first + 1) 0 0), (flatAcc p.first 0 0 0, flatAcc (p.first + 1) 0 0 0)]

/-- Bytes of ranges become zero, full and free of errors. -/
def State.wipeRanges (s : State) (l : List (Nat × Nat)) : State :=
  l.foldl (fun (s : State) r => { s with mem := s.mem.wipe r.1 r.2, attr := s.attr.wipe r.1 r.2 }) s

/-- Every tile at zero, holding the logical tiles of pass 0. -/
def State.freshTiles (s : State) (r : Words) : List Tile :=
  (List.range s.p.tileCount).map fun m =>
    let old : Tile := s.p.tiles.getD m .rest
    { Tile.fresh r s.p.armedIn.1 s.p.armedIn.2 m with tpoison := old.tpoison, tcorr := old.tcorr }

/-- R45: a record is the one used last. -/
def Part.useRecord (p : Part) (h : Nat) : Part := { p with recent := h :: p.recent.filter (· != h) }

/-- R45, R369: the record of a handle is armed: overlay 0's block, the code and the graphs are loaded, tiles are zeroed, and
the package's place in its group is taken. -/
def State.arm (s : State) (h : Nat) : State :=
  match s.p.records.toList.getD h none with
  | none => { s with p := { s.p with armed := none, arming := none } }
  | some a =>
    let img := s.readImage a.words
    let s := s.wipeRanges s.p.tileRanges
    let s := { s with p := { s.p with armedIn := (s.ownPkg, s.extent) } }
    { s with p := { s.p with
        code := imageCode img
        graphs := recGraphs a.words img
        bank0 := imageBlock img ((recEntries a.words 0).getD 0 (0, 0))
        tiles := s.freshTiles a.words
        backed := []
        armed := some h
        arming := none } }

/-- R45, R417: a record is to be armed in the background, or none is left to arm. -/
def State.armLater (s : State) (h : Option Nat) : State :=
  let s := { s with p := { s.p with armed := none, arming := h } }
  if h.isNone then s
  else
    let (t, s) := s.firmwareTime
    s.dueAt (s.cycleOfTick (s.tick + 1 + t)) rankStart (.ev (.rearmComplete s.p.first))

/-- Whether a launch that has retired has effects left to land (R414, R417): nothing is armed before the last of them. -/
def State.unsettled (s : State) : Bool := !s.p.run.active && s.p.run.tq.any fun i => match i.what with
  | .ev (.timedEffectLands _ _ _) => true
  | .ev (.timedLineRequest _) => true
  | _ => false

/-- R45, R417: the record a launch ran, or the one used last where that was dropped, is armed in the background, once nothing of
the launch is left to land. -/
def execRearmComplete (first : Nat) (s : State) : Res :=
  let s := s.focusPart first
  if s.p.first ≠ first ∨ s.p.run.active then .next s
  else match s.p.arming with
    | none => .next s
    | some h =>
      if s.unsettled then .next (s.dueAt (s.cycleOfTick (s.tick + 1)) rankStart (.ev (.rearmComplete first)))
      else .next (s.arm h)

/-! Actions (R43-R45, Table 2.5). -/

/-- R43, Table 2.5: op invalid, or reserved bits set. -/
def execInvalidLaunchWord (first : Nat) (s : State) : Res :=
  let s := s.focusPart first
  if s.p.first ≠ first then .next s else .next (s.emptySlot.answer 0 1 3)

/-- A record takes a handle, or leaves it. -/
def State.setRecord (s : State) (h : Nat) (a : Option Admitted) : State :=
  let p := if a.isSome then s.p.useRecord h else { s.p with recent := s.p.recent.filter (· != h) }
  { s with p := { p with records := if k : h < 8 then p.records.set h a else p.records } }

/-- R39, R45: an admit consumes its slot; then the record is copied and checked, and armed. -/
def execAdmitRecord (first : Nat) (s : State) : Res :=
  let s := s.focusPart first
  if s.p.first ≠ first then .next s else
  match s.p.acting with
  | none => .next s
  | some (_, _, false) => .next (s.emptySlot.actLater (.admitRecord first))
  | some (_, w, true) =>
    if s.unsettled then .next (s.dueAt (s.cycleOfTick (s.tick + 1)) rankStart (.ev (.admitRecord first))) else
    let r := s.copyRecord (field w 61 12 * 64)
    let h := handleOf w
    let c := s.admissionCode r h
    if c ≠ 0 then .next (s.answer c 3 3)
    else .next (((s.setRecord h (some ⟨r, recGroup r⟩)).arm h).answer 0 0 2)

/-- R45: a drop forgets a record; where it was the armed one, the record used last before it is armed. While a launch runs, its
end does that (R417). -/
def execDrop (first : Nat) (s : State) : Res :=
  let s := s.focusPart first
  if s.p.first ≠ first then .next s else
  let s := s.emptySlot
  match s.p.acting with
  | none => .next s
  | some (_, w, _) =>
    let h := handleOf w
    if (s.p.records.toList.getD h none).isNone then .next (s.answer 0 2 3)
    else
      let s := s.setRecord h none
      let s := if (s.p.armed = some h ∨ s.p.arming = some h) ∧ !s.p.run.active then s.armLater s.p.recent.head? else s
      .next (s.answer 0 0 2)

/-- Table 2.7: err of an entry. -/
def State.setEntryErr (s : State) (e : Nat) : State :=
  { s with table := if h : e < 64 then s.table.set e { s.table[e] with err := true } else s.table }

/-! The control page (Table 2.2). -/

/-- R49: the partition a virtual function serves. -/
def State.focusVf (s : State) (vf : Nat) : State := s.focusPart vf

/-- R43: a host write to a launch slot. A slot counts as full from the tick of the write's last flit, and turns full 36
ticks later (Table 2.6). -/
def execLaunchSlotWrite (vf slot size : Nat) (v : Word) (s : State) : Res :=
  let s := s.focusVf vf
  if s.p.first ≠ vf ∨ vf = 64 ∨ size ≠ 8 ∨ !s.mgmt.ready ∨ !(s.table.toList.getD s.p.entry ⟨0, false, none⟩).w0.getLsbD 16 then .next s
  else if h : slot < 8 then
    if s.p.slots[slot].isSome then .next { s with p := { s.p with overrun := true } }
    else .next ({ s with p := { s.p with slots := s.p.slots.set slot (some (s.tick + 36, v)) } } : State).kickProctor
  else .next s

/-- Table 2.2: a write of 1 to bit 3 of the abort word. -/
def execClearOverrun (vf : Nat) (s : State) : Res :=
  let s := s.focusVf vf
  if s.p.first ≠ vf then .next s else .next { s with p := { s.p with overrun := false } }

end Sys2Proof.Machine
end

