-- ==== Sys2Proof/Machine/Engine.lean ====
section
/-! DEFINITION. Engine commands and the life of a job (R270-R275, R281, R284, R285, R287, R290), and what a descriptor
read brings (R204, R281, R287, R362). -/

namespace Sys2Proof.Machine

/-! Commands (R270). -/

/-- The steps a command takes and the words it sets empty at acceptance. -/
def State.planOf (s : State) (cluster : Nat) (asid : BitVec 12) (c : Command) : Nat × Dests :=
  match c with
  | .graph l _ => (1, match s.p.graphAt (graphDesc l).gslot cluster with
    | some g => s.graphDests asid l g
    | none => [])
  | c => s.commandPlan asid c

/-- A command of the acting thread is accepted. -/
def State.take (s : State) (c : Parked) : State :=
  let (steps, dests) := s.planOf s.cur.loc.cluster s.cur.asid c.cmd
  s.acceptJob c.eng c.d c.cmd c.bundle steps dests

/-- R270: a command of the acting thread that has passed its checks: accepted, parked, or, with one parked already,
waiting for that one's acceptance. -/
def State.accept (s : State) (c : Parked) : State :=
  if s.cur.parkedCmd.isSome then
    { s with cur := { s.cur with nextCmd := some c, status := .waiting .command } }
  else if s.unfinished s.cur.uid c.eng < 4 then s.take c
  else { s with cur := { s.cur with parkedCmd := some c } }

/-- R270: a command of the bundle at the pc. -/
def State.command (s : State) (eng d : Nat) (cmd : Command) : State := s.accept ⟨eng, d, cmd, s.fetch.getD 0⟩

/-- R276, R277: a matrix command with its register pairs read. -/
def State.matCommand (s : State) (gather : Bool) (d rs x : BitVec 5) (imm : BitVec 32) : State :=
  let c : BitVec 5 := imm.extractLsb' 27 5
  let cmd : Command := .mat gather (s.ra rs) (s.ra (rs + 1)) (s.ra x) (s.ra (x + 1)) (s.ra c) (s.ra (c + 1))
    (if gather then s.ra (imm.extractLsb' 22 5) else 0) imm
  match s.matFault s.cur.loc.cluster
      (matCmd gather (s.ra rs) (s.ra (rs + 1)) (s.ra x) (s.ra (x + 1)) (s.ra c) (s.ra (c + 1))
        (if gather then s.ra (imm.extractLsb' 22 5) else 0) imm) with
  | some (k, a) => s.raise k a
  | none => s.command 1 d.toNat cmd

/-- R270, R276-R278 -/
def execMjob (g : Guard) (d rs x : BitVec 5) (imm : BitVec 32) (s : State) : Res :=
  .next (if s.guard g then s.bound 1 fun s => s.matCommand false d rs x imm else s)

/-- R270, R276, R277, R279 -/
def execMjobG (g : Guard) (d rs x : BitVec 5) (imm : BitVec 32) (s : State) : Res :=
  .next (if s.guard g then s.bound 1 fun s => s.matCommand true d rs x imm else s)

/-- R281: the copy descriptor is read; the command follows (`endDesc`). -/
def execCjob (g : Guard) (d rs : BitVec 5) (s : State) : Res :=
  .next (if s.guard g then s.bound 2 fun s =>
    match s.ownWindow (s.ra rs) 192 64 with
    | .error k => s.raise k (s.ra rs)
    | .ok b => s.readDesc (s.ra rs) b (.cjob d.toNat)
  else s)

/-- R287: the graph descriptor is read; the command follows (`endDesc`). -/
def execGjob (g : Guard) (d rs : BitVec 5) (s : State) : Res :=
  .next (if s.guard g then s.bound 3 fun s =>
    match s.ownWindow (s.ra rs) 64 64 with
    | .error k => s.raise k (s.ra rs)
    | .ok b => s.readDesc (s.ra rs) b (.gjob d.toNat)
  else s)

/-- R284: of ID 0, that nothing is parked and every ID has landed; else the status of the ID. -/
def State.pollJob (s : State) (id : Word) : Word :=
  if id = 0 then (if s.cur.idsLanded then 1 else 0) else s.cur.jobStatus id

/-- R284 -/
def execJpoll (g : Guard) (d rs : BitVec 5) (s : State) : Res :=
  .next (if s.guard g then s.landA 4 d (s.pollJob (s.ra rs)) else s)

/-- R284: a `jwait` that need not wait is a `jpoll`; else the thread waits for the status. -/
def execJwait (g : Guard) (d rs : BitVec 5) (s : State) : Res :=
  .next (if !s.guard g then s else
    let id := s.ra rs
    let st := s.pollJob id
    if field st 7 0 ≠ 0 then s.landA 4 d st
    else { s with cur := { s.cur with status := .waiting (if id = 0 then .ids d.toNat else .job id d.toNat) } })

/-- R271, R285: a job ID lands; one for a context that has been freed is discarded. -/
def execJobIdReturn (uid d : Nat) (id : Word) (s : State) : Res :=
  let s := s.focusThread uid
  if s.cur.uid ≠ uid ∨ uid = 0 then .next s
  else .next { s with cur := { s.cur.setReg d id with idsDue := s.cur.idsDue - 1 } }

/-- R270: the parked command is accepted as a job of its engine completes; a command that waited behind it is then
taken as if issued now. In a pre-emption, and once the launch ends, none is (R285, R401). -/
def execParkedCommandAccepted (uid eng : Nat) (s : State) : Res :=
  let s := s.focusThread uid
  if s.cur.uid ≠ uid ∨ uid = 0 ∨ s.p.paused ∨ s.p.run.ending then .next s else
  match s.cur.parkedCmd with
  | none => .next s
  | some c =>
    if c.eng ≠ eng ∨ 4 ≤ s.unfinished uid eng then .next s else
    let s := ({ s with cur := { s.cur with parkedCmd := none } } : State).take c
    match s.cur.nextCmd with
    | none => .next s
    | some n => .next (({ s with cur := { s.cur with nextCmd := none } } : State).accept n)

/-! Descriptor reads. -/

/-- The descriptor's bundle retires: with a scalar result, if it has one (R362). -/
def State.descDone (s : State) : State :=
  let s := s.retire.releaseHeld
  match s.cur.status with
  | .access _ => s.rejoin s.now
  | .ready => s.rejoin s.now
  | _ => s.scheduleIssue s.now

/-- A command whose descriptor has been read is taken as issued in this cycle (R281). -/
def State.descCommand (s : State) (eng d : Nat) (cmd : Command) : State :=
  (({ s with cur := { s.cur with status := .ready } } : State).command eng d cmd).descDone

/-- Words a descriptor has. -/
def descWords : DescUse → Nat
  | .sbind _ _ _ => 4
  | .cjob _ => 24
  | .gjob _ => 8
  | .matchTag _ => 4

/-- A descriptor read completes (R204, R281, R287, R362): a poisoned word ends it with a data-poison fault; else it is
checked and takes effect. -/
def State.endDesc (s : State) (use : DescUse) (va : Word) : State :=
  match s.route va 1 with
  | .ok (.loc cl co b) =>
    let f := flatLocal cl co b
    let n := descWords use
    let bad := (List.range n).find? fun i => s.poisoned (f + 8 * i)
    let s := (List.range n).foldl (fun s i => s.noteErrors (f + 8 * i)) s
    let w (i : Nat) : Word := s.word (f + 8 * i)
    let l := (List.range n).map w
    (match bad with
    | some i => s.faultAccess 7 (va + BitVec.ofNat 64 (8 * i))
    | none => match use with
      | .sbind x push reg =>
        if (w 0).getLsbD 22 && s.cur.bound != 3 then s.faultAccess 3 3
        else (match descFault s.p cl co va (w 0) (w 1) (w 2) (w 3) with
        | some (k, a) => s.faultAccess k (BitVec.ofNat 64 a)
        | none => (s.bindStream x push reg (w 0) (w 1) (w 2) (w 3)).descDone)
      | .cjob d => (match s.copyFault l va with
        | some (k, a) => s.faultAccess k a
        | none => s.descCommand 2 d (.copy l va))
      | .gjob d =>
        if !s.graphOk cl l then s.faultAccess 4 va
        else match s.graphUnowned l with
          | some a => s.faultAccess 5 a
          | none => s.descCommand 3 d (.graph l va)
      | .matchTag d => (match s.installMatch va (w 0) (w 1) (w 2) (w 3) with
        | .error (k, a) => s.faultAccess k a
        | .ok (v, s) => ({ s with cur := s.cur.setReg d v } : State).descDone))
  | _ => s.faultAccess 4 va

/-! The steps of a job (R272). -/

/-- What a job does in a turn of its own: its step, or nothing. -/
def State.jobStep (s : State) (j : Job) : Bool × State × Job :=
  match j.cmd with
  | .mat g a0 a1 b0 b1 c0 c1 l imm => (true, s.matStep j (matCmd g a0 a1 b0 b1 c0 c1 l imm))
  | .graph l _ =>
    let g := graphDesc l
    (match s.p.graphAt g.gslot j.cluster with
    | some gr => s.graphTurn j g gr
    | none => (false, s, { j with step := j.steps }))
  | _ =>
    let (s, k) := s.copyStep j
    (k.step != j.step || k.code != j.code, s, k)

/-- A `gjob` with nothing left to do is at its last step. -/
def State.graphSettled (s : State) (j : Job) : Job :=
  match j.cmd with
  | .graph l _ =>
    if j.code ≠ 0 then j else
    (match s.p.graphAt (graphDesc l).gslot j.cluster with
    | some gr => if j.graphOver (graphDesc l) gr s.p.run.d then { j with step := j.steps } else j
    | none => j)
  | _ => j

/-- R272, R303: what follows a step or an access of a job: its completion, one cycle after the last of them, when none
is left. -/
def State.settleJob (s : State) (j : Job) : State :=
  let j := s.graphSettled j
  let s := s.setJob j
  let w : Task := .ev (.jobComplete s.p.first j.key)
  if j.step = j.steps ∧ j.flights.isEmpty ∧ j.graph.flight = 0 ∧ !(s.agenda.any fun i => i.what == w) then
    s.dueAt (max s.now (max j.lastStep j.lastAcc) + 1) (rankDone + j.loc.key) w
  else s

/-- R307: the jobs that a pre-emption stops where they stand. -/
def Job.stops (j : Job) : Bool :=
  match j.cmd with
  | .graph l _ => (graphDesc l).kind == 2 || (graphDesc l).kind == 3
  | _ => false

/-- R307: what is on its way for a job of the focused partition that a pre-emption stops where it stands. -/
def State.ofStopped (s : State) (i : Item) : Bool :=
  let stops (f k : Nat) : Bool := f == s.p.first && s.p.jobs.any fun j => j.key == k && j.started && j.stops
  match i.what with
  | .ev (.portQueueChunkEnters f _ _ k _ _) => stops f k
  | .ev (.accessComplete _ (.job f k _)) => stops f k
  | .ev (.jobComplete f k) => stops f k
  | _ => false

/-- R307: what falls due for such a job in a pre-emption is kept for the resumption. -/
def State.keepStopped (s : State) (i : Item) : Option State :=
  match s.p.saved with
  | some sv =>
    if s.p.paused && s.ofStopped i then some { s with p := { s.p with saved := some { sv with items := sv.items ++ [i] } } } else none
  | none => none

/-- Whether a job may take a step: its first one waits for its queue (R290); a pre-emption starts none, and stops those of
R307 (R285). -/
def State.startStep (s : State) (j : Job) : Option State :=
  if s.p.paused && (!j.started || j.stops) then none
  else if j.started then some s
  else match j.cmd with
    | .graph l _ => s.attach j (graphDesc l)
    | _ => some s

/-- R272: a job takes its step, or, where it can take none, only its turn. -/
def State.takeTurn (s : State) (j : Job) : State :=
  let (took, s, j) := s.jobStep { j with started := true }
  let j := if took then { j with lastStep := s.now } else j
  let s := s.settleJob j
  match j.cmd with
  | .graph l _ => (match s.p.graphAt (graphDesc l).gslot j.cluster with
    | some gr => let (s, j) := s.sendLines ((s.job j.key).getD j) (graphDesc l) gr; s.setJob j
    | none => s)
  | _ => s

/-- R272: whether a job may still take a lent turn that has come: the turn's owner may have started a job since. -/
def State.lentNow (s : State) (j : Job) : Bool := s.lentTurn j (s.now - 1) == some s.now

/-- R272: a turn of a job: one of its own thread, or one lent to it. -/
def execEngineStep (first job : Nat) (s : State) : Res :=
  let s := s.focusPart first
  match s.job job with
  | none => .next s
  | some j =>
    if s.p.first ≠ first ∨ j.step = j.steps then .next s else
    let own := s.ownTurn j (s.now - 1) == s.now
    if !own && (s.det || !s.lentNow j) then .next (s.relend j.cluster j.eng s.now) else
    let s := match s.startStep j with
      | none => s
      | some s => s.takeTurn j
    let s := match s.job job with
      | some j => if own && j.step != j.steps then s.dueStep j s.now else s
      | none => s
    .next (s.relend j.cluster j.eng (if own then s.now - 1 else s.now))

/-- R250: the HBM word that access k of a copy or staging job reaches. -/
def State.elementPlace (s : State) (j : Job) (k : Nat) : Option Nat :=
  match j.flights.find? (·.k == k) with
  | none => none
  | some f =>
    let (src, dst, n) := s.element j k
    let write := f.phase == .writing
    if !write && f.phase != .reading then none else
    match s.route (if write then dst else src) n with
    | .ok (.hbm _ off) => s.engineXlat j.asid off write f.xlat
    | _ => none

/-- R250: an access of a job asks its channel; one behind another of its class that waits there waits too (R302, R305). -/
def State.jobTurn (s : State) (j : Job) (k : Nat) (place : Option Nat) : Bool × State :=
  let i : Instr := .accessComplete 0 (.job s.p.first j.key k)
  let ahead := s.agenda.findSome? fun x => match x.what with
    | .ev (.accessComplete 0 (.job f key l)) =>
      if x.rank = rankPosition ∧ f = s.p.first ∧ accessClass l = accessClass k ∧ (accessClass k = 2 ∨ key = j.key) then some x.cycle
      else none
    | _ => none
  match place, ahead with
  | none, _ => (true, s)
  | some f, none => s.channelTurn f i
  | some f, some c => if c ≤ s.now then s.channelTurn f i else (false, s.dueAt c rankPosition (.ev i))

/-- An access of a job completes (R283, R302). -/
def State.jobAccess (s : State) (first key k : Nat) : State :=
  let s := s.focusPart first
  match s.job key with
  | none => s
  | some j =>
    if s.p.first ≠ first then s else
    match s.keepStopped ⟨s.now, rankEngine + j.loc.key, .ev (.accessComplete 0 (.job first key k))⟩ with
    | some s => s
    | none =>
    match j.cmd with
    | .graph l _ =>
      let g := graphDesc l
      (match s.p.graphAt g.gslot j.cluster with
      | none => s
      | some gr => match s.jobTurn j k (j.graphPlace k) with
        | (false, s) => s
        | (true, s) =>
          let (s, j) := s.graphAccess j g gr k
          let (s, j) := s.fillStopped j
          let (s, j) := if j.code = 0 then s.sendLines j g gr else (s, j)
          s.settleJob j)
    | _ =>
      if arrivalOf 0 ≤ k then (let (s, j) := s.elementArrives j (k - arrivalOf 0); s.settleJob j)
      else match s.jobTurn j k (s.elementPlace j k) with
        | (false, s) => s
        | (true, s) => let (s, j) := s.elementDone j k; s.settleJob j

/-- R304: an output line of a kind 2 job enters its queue, once there is room for both chunks; a line that waits goes before
those behind it. -/
def execPortQueueChunkEnters (first cluster q job : Nat) (line : Line) (pois : BitVec 16) (s : State) : Res :=
  let s := s.focusPart first
  match s.job job with
  | none => .next s
  | some j =>
    if s.p.first ≠ first ∨ j.code ≠ 0 then .next s else
    match s.keepStopped ⟨s.now, rankThread - 3, .ev (.portQueueChunkEnters first cluster q job line pois)⟩ with
    | some s => .next s
    | none =>
    let pq := Tab.getD ⟨[], none, 0⟩ q (s.cluster cluster).ports
    if 16 < pq.chunks.length + pq.flight + 2 then
      .next (s.dueIn 1 (rankThread - 3) (.portQueueChunkEnters first cluster q job line pois))
    else
      let a : Chunk := ⟨line.setWidth 512, pois.setWidth 8⟩
      let b : Chunk := ⟨(line >>> 512).setWidth 512, (pois >>> 8).setWidth 8⟩
      let s := s.setPort cluster q fun q => { q with chunks := q.chunks ++ [a, b] }
      .next (s.settleJob { j with lastAcc := s.now, graph := { j.graph with wrote := j.graph.wrote + 1 } })

/-! Completion. -/

/-- R75 step 3, R76: a staging copy is over: the task's thread may start, or the head is blocked and its slots are
released. -/
def State.stageOver (s : State) (j : Job) (slots : List Nat) (last : Bool) : State :=
  match (s.cluster j.cluster).queue.head with
  | .staging l all =>
    if j.code ≠ 0 then
      let s := { s with p := { s.p with jobs := s.p.jobs.filter fun k => !(k.uid == 0 && k.sameLine j) } }
      let s := s.unpin (all.map fun n => (j.cluster, l.core, n))
      let s := s.onQueue j.cluster fun q => { q with head := .blocked }
      s.report 23 (field j.addr 55 0) j.cluster
    else if last then s.placeTask l all
    else s
  | _ => s

/-- R275: the status a completed job leaves with its thread. -/
def JobStatus.note (j : Job) (x : JobStatus) : JobStatus :=
  if x.eng = j.eng ∧ x.seq = j.seq ∧ x.code = 0 then
    { x with code := (if j.code = 0 then 1 else j.code), addr := j.addr }
  else x

/-- R270, R272, R275: a job completes: its status, its place, the next of its thread on that engine, and a parked
command. -/
def execJobComplete (first job : Nat) (s : State) : Res :=
  let s := s.focusPart first
  match s.job job with
  | none => .next s
  | some j =>
    if s.p.first ≠ first then .next s else
    match s.keepStopped ⟨s.now, rankDone + j.loc.key, .ev (.jobComplete first job)⟩ with
    | some s => .next s
    | none =>
    let s := s.onThread j.uid fun t => { t with jobs := keepStatuses (t.jobs.map (JobStatus.note j)) }
    let s := (s.detach j).mayRetire
    let s := { s with p := { s.p with jobs := s.p.jobs.filter fun k => k.key != j.key } }
    let s := match j.cmd with
      | .stage _ slots last => s.stageOver j slots last
      | _ => s.dueIn 0 (rankDone + j.loc.key) (.parkedCommandAccepted j.uid j.eng)
    let s := match s.p.jobs.find? fun k => k.sameLine j with
      | some k => if k.started then s else s.dueStep k s.now
      | none => s
    .next (s.relend j.cluster j.eng (s.now - 1))

end Sys2Proof.Machine
end

