-- ==== Sys2Proof/Machine/Completion.lean ====
section
/-! DEFINITION. `post` (R381-R383), and the completion of everything a thread leaves rotation for (R116). -/

namespace Sys2Proof.Machine

/-! `post`. -/

/-- R381: a post on its way to a board: half its time there, half back. -/
def State.sendPost (s : State) (ltile slot d : Nat) (va v : Word) (sc : Nat) : State :=
  let (lat, s) := s.elapse 392
  let s := s.waitHost sc
  let s := { s with nextId := s.nextId + 1, cur := { s.cur with status := .access s.nextId } }
  s.dueIn (lat / 2) (rankEngine + s.cur.loc.key) (.postPerforms s.cur.uid ltile slot (d + 32 * sc) v va s.now)

/-- R381: imm32[3:0] is the scope. -/
def execPost (g : Guard) (d rs x : BitVec 5) (imm : BitVec 32) (s : State) : Res :=
  .next (if s.guard g then s.bound 5 fun s =>
    let va := s.ra rs
    match s.route va 8 with
    | .ok (.board t n) => s.sendPost t n d.toNat va (s.ra x) (imm.toNat % 16)
    | _ => s.raise 4 va
  else s)

/-- Whether the acting thread waits for an access of its own. -/
def State.outForAccess (s : State) : Bool :=
  match s.cur.status with
  | .access _ => true
  | _ => false

/-- R381, R383, R335: a post at the board: it waits there for its thread's earlier relaxed accesses and pushes, and for what
its scope waits for, a cycle at a time (R112); then it performs as Table 16.5 gives. `d` is the destination's code, with
32 times the scope; `born` is as much before the first attempt as the answer takes. -/
def execPostPerforms (uid tile slot d : Nat) (v : Word) (addr : Word) (born : Nat) (s : State) : Res :=
  let s := s.focusThread uid
  if s.cur.uid ≠ uid ∨ uid = 0 ∨ !s.outForAccess then .next s
  else if !s.cur.syncDrained s.now (d / 32) then
    .next (s.dueIn s.dil (rankEngine + s.cur.loc.key) (.postPerforms uid tile slot d v addr (born + s.dil)))
  else
    let (r, s) := s.boardPost tile slot v
    .next (s.dueIn (s.now - born) rankDone (.accessComplete uid (.posted (d % 32) addr r s.now)))

/-- R381: a post comes back: its outcome, or a region fault. -/
def State.endPost (s : State) (d : Nat) (addr : Word) : Option Nat → State
  | none => s.faultAccess 6 addr
  | some r => 
    let s := s.landEarlier
    ({ s with cur := s.cur.setReg d (BitVec.ofNat 64 r) } : State).retire.releaseHeld.rejoin s.now

/-! Completion. -/

/-- R116: an access, a descriptor read, a write-back or a post of a thread completes, or an access of an engine's job
(`uid` 0). What belongs to a thread that has gone on, or ended, is no longer there. -/
def execAccessComplete (uid : Nat) (c : Completion) (s : State) : Res :=
  match c with
  | .job first key k => .next (s.jobAccess first key k)
  | .acc a =>
    let s := s.focusThread uid
    .next (if s.cur.uid ≠ uid ∨ uid = 0 then s else s.arriveAccess a)
  | .desc use addr _ =>
    let s := s.focusThread uid
    .next (if s.cur.uid ≠ uid ∨ uid = 0 ∨ !s.outForAccess then s else s.endDesc use addr)
  | .writeBack pd slot inv line w back found phys =>
    let s := s.focusThread uid
    .next (if s.cur.uid ≠ uid ∨ uid = 0 ∨ !s.outForAccess then s else s.endWriteBack pd slot inv line w back found phys)
  | .posted d addr r _ =>
    let s := s.focusThread uid
    .next (if s.cur.uid ≠ uid ∨ uid = 0 ∨ !s.outForAccess then s else s.endPost d addr r)

/-! Replies of peer packages (R313, R345, R389). -/

/-- R389: a reply that comes late in deterministic mode is a link fault. -/
def State.lateReply (s : State) (due : Nat) : State :=
  if s.det && decide (due < s.now) then s.lateMessage else s

/-- A job with a request of that number without an answer. -/
def Part.asking (p : Part) (id : Nat) : Option (Job × CopyFlight) :=
  p.jobs.findSome? fun j => (j.flights.find? fun f => f.asks.any fun x => x.1 == id && x.2.isNone).map fun f => (j, f)

/-- R282, R389: a reply to a request of an engine's job. -/
def State.jobReply (s : State) (id : Nat) (v : Option Word) (bad : Nat) : State :=
  let s := if (s.p.asking id).isSome then s else match s.parts.find? fun p => (p.asking id).isSome with
    | some p => s.focusPart p.first
    | none => s
  match s.p.asking id with
  | none => s
  | some (j, f) =>
    if s.det && decide (s.now < f.due) then s.dueAt f.due (rankEngine + j.loc.key) (.ev (.peerReplyArrives 0 id v bad))
    else
      let (s, j) := (s.lateReply f.due).elementReply j f id v bad
      s.settleJob j

/-- R313, R345, R389: a reply of a peer package: the value, none where the word was poisoned, or a failure; `uid` 0 for a
job's request. In deterministic mode it is held until its access's exact completion. -/
def execPeerReplyArrives (uid id : Nat) (v : Option Word) (bad : Nat) (s : State) : Res :=
  if uid = 0 then .next (s.jobReply id v bad) else
  let s := s.focusThread uid
  if s.cur.uid ≠ uid then .next s else
  match s.cur.asked.find? (·.id == id) with
  | none => .next s
  | some a =>
    let due := s.replyDue a
    if s.det && decide (s.now < due) then
      .next (s.dueAt due (if a.op = .writeBack then rankDone - 1 else rankDone) (.ev (.peerReplyArrives uid id v bad)))
    else
      let s := if a.op == .load || a.op == .store || a.op == .writeBack then s.lateReply due else s
      let s := { s with cur := { s.cur with asked := s.cur.asked.filter (·.id != id) } }
      .next (if a.op = .writeBack then (if bad = 0 then s.wakeListed else s.failWriteBack bad) else s.takeReply a v bad)

end Sys2Proof.Machine
end

