-- ==== Sys2Proof/Machine/Ending.lean ====
section
/-! DEFINITION. How a launch ends: by a fault, by the abort word, or by retiring; the completion record, and what the
launch leaves (R48, R392, R400, R401, R412-R417). -/

namespace Sys2Proof.Machine

/-! The fault that is recorded (R392, R400). -/

/-- R392: rank of a launch fault, highest first. -/
def faultRank (kind : Nat) : Nat :=
  match kind with
  | 20 => 0
  | 19 => 1
  | 17 => 2
  | 18 => 3
  | 6 => 4
  | 16 => 5
  | 4 => 6
  | _ => 7

/-- R392: what faults of one tick are ranked by; of equal ones the lower package's (R400). -/
def LaunchFault.key (f : LaunchFault) : List Nat :=
  if f.thread then [8, f.cycle, f.kind, f.geom.toNat, f.pkg] else [faultRank f.kind, f.tile, f.stream, f.pkg]

def lexLess : List Nat → List Nat → Bool
  | [], [] => false
  | [], _ :: _ => true
  | _ :: _, [] => false
  | a :: l, b :: r => decide (a < b) || (a == b && lexLess l r)

/-- The fault to record: of the earliest tick, the highest in rank. -/
def worstFault (l : List LaunchFault) : Option LaunchFault :=
  l.foldl (fun b f => match b with
    | none => some f
    | some g => if f.ltick < g.ltick || (f.ltick == g.ltick && lexLess f.key g.key) then some f else some g) none

/-! Stopping (R48, R400, R401). -/

/-- A tile whose launch has ended: its banks are empty, nothing is on its way, no clearing is open. -/
def Tile.endTile (t : Tile) : Tile :=
  { t.unload with
    clearings := []
    arriving := []
    words := [] }

/-- R401: a cluster's queued tasks and held packets are discarded, the slots taken for a task are released. -/
def State.endQueue (s : State) (c : Nat) : State :=
  let s := match (s.cluster c).queue.head with
    | .staging l slots => s.unpin (slots.map fun n => (c, l.core, n))
    | .placed l slots => s.unpin (slots.map fun n => (c, l.core, n))
    | _ => s
  s.onCluster c fun k => { k with queue := .rest, mtab := { k.mtab with held := [] } }

/-- R400, R401: the timed plane and the hold end: no word issues and no later effect is delivered; what was queued is
discarded. -/
def State.stopLaunch (s : State) : State :=
  let held := s.p.run.hold == .holding || s.p.run.hold == .resuming
  let s := if held then s.count 17 (s.tick - s.p.run.heldAt) else s
  let plan := s.plan
  let s := { s with p := { s.p with tiles := s.p.tiles.map Tile.endTile } }
  let s := (s.p.clusters.map (·.1)).foldl State.endQueue s
  let s := { s with p := { s.p with planLag := s.tick - plan } }
  s.onRun fun r => { r with
    ending := true
    chain := .retired
    tq := []
    stopped := true
    plan := plan
    deDone := plan
    runBase := s.tick
    hold := .running
    reasons := []
    mreqs := [] }

/-- The end of this tick. -/
def State.tickLast (s : State) : Nat := s.now / 2 * 2 + 1

/-- R400: the end of the tick in which a launch fault was raised, or in which a member of the group stops for another's: the
launch stops. In a group its faults are told, and the record waits for the others'. -/
def execLaunchFaultEnd (first : Nat) (s : State) : Res :=
  let s := s.focusPart first
  if s.p.first ≠ first ∨ !s.p.run.active ∨ s.p.run.final then .next s
  else if s.p.run.ending then .next ((s.onRun fun r => { r with final := true }).mayRetire)
  else
    let base := s.p.run.ovlPlan
    let own := s.p.run.faults.filter fun f => f.pkg == s.ownPkg
    let s := s.stopLaunch
    if !s.groupLaunch then .next ((s.onRun fun r => { r with final := true }).mayRetire)
    else
      let s := own.foldl (fun s f =>
        s.tellGroup (.fault first f.pkg f.kind (base + f.ltick) f.info f.tile f.stream f.thread f.cycle f.pc f.geom)) s
      .next (s.dueAt (s.tickLast + 2 * s.holdLead) (rankEnd + 50) (.ev (.launchFaultEnd first)))

/-- R48: the launch ends with the current tick of its streams, and at the next instruction boundary of each thread. -/
def execAbortLaunch (vf : Nat) (s : State) : Res :=
  let s := s.focusVf vf
  if s.p.first ≠ vf ∨ !s.p.run.active ∨ s.p.run.ending ∨ s.p.run.aborted then .next s
  else
    let s := s.onRun fun r => { r with aborted := true }
    let w : Task := .ev (.launchRetires vf)
    .next (if s.p.run.stopped || decide (s.tick < s.p.run.tick0) then s.dueAt s.tickLast (rankEnd + 50) w
      else s.duePlan s.plan (rankEnd + 50) w)

/-! Threads of a launch that ends (R401). -/

/-- Whether something of a thread is still on its way. -/
def Item.ofThread (i : Item) (uid : Nat) : Bool :=
  match i.what with
  | .ev (.accessComplete u _) => u == uid
  | .ev (.syncAccessArrives u _) => u == uid
  | .ev (.postPerforms u _ _ _ _ _ _) => u == uid
  | .ev (.streamPushLands u _ _ _ _) => u == uid
  | .ev (.registerResultLands u _ _) => u == uid
  | .ev (.trapEntry u) => u == uid
  | .ev (.lateFault u _ _ _) => u == uid
  | _ => false

/-- R48, R401: whether a thread stands at an instruction boundary, or waits, with nothing on its way. -/
def State.threadStopped (s : State) (t : Thread) : Bool :=
  t.relaxed.isEmpty && !(s.agenda.any fun i => i.ofThread t.uid) &&
  match t.status with
  | .ready => t.recite == 2 && !(s.agenda.any fun i => i.what == .issue t.uid)
  | .held _ _ _ => false
  | .access _ => false
  | .waiting w => w != .pushes
  | .migrating => s.p.clusters.any fun c => c.2.arrived.contains t.uid
  | _ => true

/-- A stopped thread is gone: its footprint, its places in lists and its wait-list entry with it. -/
def State.dropThread (s : State) (t : Thread) : State :=
  let s := s.unpin t.pins
  let lists := s.lists.map fun (f, l) => (f, l.filter fun (w : Waiter) => w.uid != t.uid)
  { s with
    threads := s.threads.filter fun u => u.uid != t.uid
    lists := lists.filter fun e => !e.2.isEmpty
    p := { s.p with
      waits := s.p.waits.filter fun e => e.2.uid != t.uid
      unlisted := s.p.unlisted.filter fun u => u != t.uid } }

/-- The threads of the launch. -/
def State.launchThreads (s : State) : List Thread := s.partThreads.filter fun t => !t.proctor

/-- The threads that have stopped are gone. -/
def State.sweep (s : State) : State :=
  let s := s.storeThread
  (s.launchThreads.filter s.threadStopped).foldl State.dropThread s

/-! Retiring (R414, R415). -/

/-- R414: nothing of a cluster keeps the launch. -/
def ClusterPart.idle (c : ClusterPart) : Bool :=
  c.queue.items.isEmpty && c.queue.waiting.isEmpty && c.mtab.held.isEmpty && c.arrived.isEmpty

/-- R414: an enqueue is on its way to a queue of the partition. -/
def State.enqueueComes (s : State) : Bool := s.agenda.any fun i => match i.what with
  | .ev (.enqueueReachesQueue e) => e.first == s.p.first
  | _ => false

/-- R403: whether a thread is fenced; one that has an access under way stops as that ends. -/
def State.threadFenced (s : State) (t : Thread) : Bool := t.status == .fenced || s.coreFenced t.loc.cluster t.loc.core

/-- R414, R403: whether the launch retires in this tick. -/
def State.launchOver (s : State) : Bool :=
  s.p.run.chain == .retired && s.launchThreads.all s.threadFenced && s.p.clusters.all (·.2.idle) &&
  s.p.waits.isEmpty && s.p.unlisted.isEmpty && s.p.jobs.isEmpty && !s.enqueueComes

/-- Table 18.1, words 0 to 7. -/
def State.completionRecord (s : State) : List Word :=
  let r := s.p.run
  let how := if r.aborted then 3 else if r.faults.isEmpty then (if r.halted.isSome then 1 else 0) else 2
  let f := if how = 2 then worstFault r.faults else none
  let own := (r.faults.filter fun x => x.pkg == s.ownPkg).length
  let nfault := r.nfault + own - (if (f.map (·.pkg)) = some s.ownPkg then 1 else 0)
  let code := if how = 1 then (r.halted.map (·.toNat)).getD 0 else 0
  let num (g : LaunchFault → Nat) : Nat := (f.map g).getD 0
  [BitVec.ofNat 64 (how + num (·.kind) * 2 ^ 8 + code * 2 ^ 16 + nfault * 2 ^ 32),
   BitVec.ofNat 64 (num fun x => if x.kind < 16 then x.info.toNat else 0),
   BitVec.ofNat 64 ((num fun x => if x.thread then x.pc.toNat % 2 ^ 32 else 0) + num (·.stream) * 2 ^ 32 + num (·.tile) * 2 ^ 48),
   BitVec.ofNat 64 (num fun x => if x.thread then x.geom.toNat else 0),
   BitVec.ofNat 64 (match f with
     | some x => x.ltick
     | none => r.deDone - r.ovlPlan),
   BitVec.ofNat 64 s.tick,
   BitVec.ofNat 64 (r.ovl % 256),
   0]

/-- What a partition's clusters keep when a launch has ended (R417): translations, tags, notices (assumption 28). -/
def ClusterPart.after (c : ClusterPart) : ClusterPart :=
  { ClusterPart.rest with
    notice := c.notice
    store := c.store
    tags := c.tags }

/-- R405: a state change of a pre-emption, and MSI-X vector 2 of PF 0 where it is to 0 or 2. -/
def State.setPreempt (s : State) (st : Nat) : State :=
  let s := { s with p := { s.p with ppState := st, ppTick := s.tick } }
  if st = 0 ∨ st = 2 then s.emit (.msix 64 2) else s

/-- R414, R417, R44: the completion record, then the status word, then the interrupt; the record is armed again; the
proctor turns to its next slot. A pre-emption that waits has nothing left to stop. -/
def State.finishLaunch (s : State) : State :=
  let r := s.p.run
  let s := (s.launchThreads.foldl State.dropThread s.storeThread).count 8
  let rec_ := s.completionRecord
  let s : State := { s with p := { s.p with
    planLag := s.tick - s.plan
    counters := Vector.ofFn fun (i : Fin 23) => if i.val < 8 then rec_.getD i.val 0 else s.p.counters[i]
    clusters := s.p.clusters.map fun (c : Nat × ClusterPart) => (c.1, c.2.after)
    stamps := s.p.stamps.filter fun x => x.1 != s.ownPkg } }
  let res := if r.aborted then 5 else if r.faults.isEmpty then 0 else 4
  let s := s.onRun fun x => { x with active := false }
  let s := s.setStatus r.slot 0 res 2 r.tag.toNat r.irq
  let s := if s.p.ppState = 1 then ({ s with p := { s.p with ppWant := false } } : State).setPreempt 0 else s
  let again := if s.p.recent.contains r.handle then some r.handle else s.p.recent.head?
  (s.armLater again).kickProctor

/-- R414: the end of a tick in which the launch may retire; a launch that ends waits for its threads and jobs. -/
def execLaunchRetires (first : Nat) (s : State) : Res :=
  let s := s.focusPart first
  if s.p.first ≠ first ∨ !s.p.run.active ∨ s.p.paused then .next s
  else
    let s := if s.p.run.aborted && !s.p.run.ending then s.stopLaunch else s
    if s.p.run.ending then
      if !s.p.run.final && !s.p.run.aborted then .next s
      else
        let s := s.sweep
        if s.launchThreads.isEmpty && s.p.jobs.isEmpty then .next s.finishLaunch
        else .next (s.dueAt (s.tickLast + 2) (rankEnd + 9) (.ev (.launchRetires first)))
    else if s.launchOver then .next s.finishLaunch else .next s

end Sys2Proof.Machine
end

