-- ==== Sys2Proof/Machine/Fence.lean ====
section
/-! DEFINITION. The roll-call fence (R123, R124, R403). -/

namespace Sys2Proof.Machine

/-- Whether a context is fenced at once; one with an access, or a place in a list, under way stops when that ends. -/
def Thread.fencedNow (t : Thread) : Bool :=
  match t.status with
  | .access _ => false
  | .listed => false
  | .parked _ => false
  | .unlisted => false
  | _ => true

/-- R124: a fenced context issues nothing more, and its open packet is discarded. -/
def Thread.fence (t : Thread) : Thread :=
  { t with
    status := if t.fencedNow then .fenced else t.status
    openPkt := none
    parkedCmd := none
    nextCmd := none }

/-- Whether a thread stands on a core of the partition. -/
def Thread.standsOn (t : Thread) (first cluster core : Nat) : Bool :=
  t.part == first && t.loc.cluster == cluster && t.loc.core == core && !t.proctor

/-- R124, R403, R413: the count of a core has reached its interval: the partition's contexts there are fenced and count as
ended threads, and `k.notice` names the core; the queue head looks for another core (R75). -/
def execRollCallFence (first cluster core : Nat) (s : State) : Res :=
  let s := s.storeThread.focusPart first
  if s.p.first ≠ first ∨ first = 64 ∨ !s.p.run.active ∨ s.coreFenced cluster core then .next s
  else
    let n := (s.threads.filter fun t => t.standsOn first cluster core).length
    let s := { s with threads := s.threads.map fun (t : Thread) => if t.standsOn first cluster core then t.fence else t }
    let s := s.onCluster cluster fun (c : ClusterPart) =>
      let r : Roll := Tab.getD ⟨0, false, 0⟩ core c.rolls
      { c with
        notice := c.notice ||| (1#10 <<< core)
        rolls := Tab.put core { r with fenced := true } c.rolls }
    .next (((s.count 10 n).count 22).lookAtHead cluster).mayRetire

end Sys2Proof.Machine
end

