-- ==== Sys2Proof/Machine/Launch.lean ====
section
/-! DEFINITION. Launching a record: the launch action, the first bell, the threads of the entry table, and the start of a
group launch (R46, R52, R53, R62-R65, R170, R444, R451). -/

namespace Sys2Proof.Machine

/-- R46, Table 2.6: ticks from the status word to the bell word. -/
def bellTicks : Nat := 40

/-- R52: the largest demand of an overlay. -/
def largestDemand (r img : Words) : Nat := ((recEntries r 0).map fun e => blkDemand (imageBlock img e)).foldl max 0

/-- A launch that has been accepted and has not reached its first bell. -/
def State.acceptedRun (s : State) (n h : Nat) (w : Word) (a : Admitted) : Run :=
  let r := a.words
  { Run.rest with
    active := true
    handle := h
    rec_ := r
    group := a.group
    slot := n
    tag := BitVec.ofNat 64 (launchTag w)
    irq := w.getLsbD 62
    det := recDet r
    tcmode := recMode r
    d := dilationFor (s.p.staticSlots r) (largestDemand r (s.readImage r))
    ns := s.p.staticSlots r
    interval := recRoll r
    ltiles := recTiles r
    passes := s.p.passCount r
    tick0 := s.tick
    plan := s.plan
    plan0 := s.plan
    runBase := s.tick
    stopped := true }

/-- R62, R64, R65, R95, R170: the threads of one rank of an entry start in a cluster, a leader's followers with it. -/
def State.startRank (s : State) (cluster : Nat) (e : Entry) (i rank : Nat) (locs : List Loc) : State :=
  let group := if e.leader then (List.range locs.length).map fun m => s.nextUid + m else []
  locs.zipIdx.foldl (fun s (l, m) =>
    let geom := threadGeom s.p.run.rec_ s.p.armedIn.1 s.p.armedIn.2 cluster rank i m (e.leader && m == 0)
    let t := s.newThread l (BitVec.ofNat 64 e.pc) e.arg geom e.anch (if !e.leader then 0 else if m = 0 then 1 else 2)
    s.addThread { t with rkey := s.threadKey geom, group := group } (s.cycleOfTick s.p.run.tick0)) s

/-- R62, R64: the threads of a cluster. -/
def State.startCluster (s : State) (cluster : Nat) : State :=
  ((s.p.placed s.p.run.rec_ cluster).getD []).foldl (fun s (e, i, rank, locs) => s.startRank cluster e i rank locs) s

/-- R46, R368, R385: tick 0 of overlay 0 falls at a TICK, with the PLAN of that tick; the streams and the threads start in
it, and a management reason in force holds there. -/
def State.startRun (s : State) (t0 : Nat) : State :=
  let r := s.p.run.rec_
  let plan := t0 - s.p.planLag
  let s := { s with p := { s.p with regions := recRegions r, policies := recPolicies r } }
  let s := s.onRun fun x => { x with
    tick0 := t0
    plan := plan
    plan0 := plan
    runBase := t0
    stopped := false
    mreqs := (s.p.holds.filter fun m => decide (m < 256) || x.group).map fun m => (m, Tab.getD 0 m x.mreqs) }
  let s := s.startOverlay 0 s.p.bank0 plan
  let s := (List.range (recExtent r 5 48)).foldl State.startCluster s
  if s.p.run.mreqs.isEmpty then s else s.watchHold plan

/-- R46, R444: TICK of tick 0 where the status word is written in this tick: in deterministic mode a multiple of 8. -/
def State.firstTick (s : State) : Nat :=
  let t := s.tick + bellTicks + blkLead s.p.bank0
  if s.p.run.det then t / 8 * 8 else t

/-- R44, R46, R451: a launch of an armed record: status state 1; then the first bell, or, for a group record, the messages
to the members, which tell the management reasons in force too (R384). -/
def State.acceptLaunch (s : State) (n : Nat) (w : Word) (a : Admitted) : State :=
  let run := s.acceptedRun n (handleOf w) w a
  let s := s.setStatus n 0 0 1 (launchTag w) false
  let s := { s with p := { s.p.useRecord (handleOf w) with acting := none, run := run } }
  if !a.group then s.startRun s.firstTick
  else
    let pols := recPolicyWords a.words
    let s := { s with p := { s.p with stamps := (s.ownPkg, s.tick, pols, s.p.planLag) :: s.p.stamps.filter fun x => x.1 != s.ownPkg } }
    let s := (s.p.holds.filter (· < 256)).foldl (fun s r => s.tellGroup (.reason s.p.first s.ownPkg (mgmtKey r) 0 s.tick)) s
    (s.tellGroup (.launch s.p.first s.ownPkg s.tick pols s.p.planLag)).tryGroupStart

/-- R44-R46: the proctor consumes a launch word; a record that is not armed is armed first. -/
def execLaunch (first : Nat) (s : State) : Res :=
  let s := s.focusPart first
  if s.p.first ≠ first ∨ s.p.run.active then .next s else
  match s.p.acting with
  | none => .next s
  | some (n, w, emptied) =>
    let h := handleOf w
    let s := if emptied then s else s.emptySlot
    match s.p.records.toList.getD h none with
    | none => .next (s.answer 0 2 3)
    | some a =>
      if a.group && !s.groupOk a.words then .next (s.answer 0x0E 3 3)
      else if s.unsettled then .next (s.dueAt (s.cycleOfTick (s.tick + 1)) rankStart (.ev (.launch first)))
      else if s.p.armed = some h then .next (s.acceptLaunch n w a)
      else if emptied then .next ((s.arm h).acceptLaunch n w a)
      else .next (s.actLater (.launch first))

/-- R451: the smallest multiple of 1 024 at or above a TICK. -/
def groupTick (t : Nat) : Nat := (t + 1023) / 1024 * 1024

/-- R34, R368, R451: every member's message is held: tick 0 falls at the same TICK on each, and with the same PLAN: that of
the member whose PLAN is furthest behind (assumption 13). Members whose clearing policies differ refuse the launch. -/
def execGroupLaunchStart (first : Nat) (s : State) : Res :=
  let s := s.focusPart first
  if s.p.first ≠ first ∨ !s.p.run.active ∨ !s.p.run.group ∨ s.p.run.chain ≠ .none ∨ s.p.run.aborted then .next s
  else if !((List.range s.extent).all fun k => s.p.stamps.any fun x => x.1 == k) then .next s
  else
    let pols := recPolicyWords s.p.run.rec_
    let same := s.p.stamps.all fun x => x.2.2.1 == pols
    let last := (s.p.stamps.map (·.2.1)).foldl max 0
    let lag := (s.p.stamps.map (·.2.2.2)).foldl max 0
    let s := { s with p := { s.p with stamps := [], planLag := lag } }
    if !same then
      let r := s.p.run
      .next ((s.onRun fun x => { x with active := false }).setStatus r.slot 0x0E 3 3 r.tag.toNat r.irq).kickProctor
    else .next (s.startRun (groupTick (last + s.peerLat + 100 + blkLead s.p.bank0)))

end Sys2Proof.Machine
end

