-- ==== Sys2Proof/Machine/Partition.lean ====
section
/-! DEFINITION. The partition table and the release of a partition (R49, R418), and the registers a host reads and writes in
BAR 0 (R42, Tables 2.1 and 2.2). -/

namespace Sys2Proof.Machine

/-! Entries (Table 2.7). -/

def entryValid (w : Word) : Bool := w.getLsbD 0
def entryLg (w : Word) : Nat := field w 3 1
def entryFirst (w : Word) : Nat := field w 9 4

/-- The writable fields of W0. -/
def entryMask : Word := 0x103FF

/-- Whether two ranges of units, each by its first unit and lg, share one. -/
def unitsMeet (f1 l1 f2 l2 : Nat) : Bool := decide (f1 < f2 + 2 ^ (6 - l2)) && decide (f2 < f1 + 2 ^ (6 - l1))

def State.entry (s : State) (e : Nat) : TableEntry := s.table.toList.getD e ⟨0, false, none⟩

def State.setEntry (s : State) (e : Nat) (t : TableEntry) : State :=
  { s with table := if h : e < 64 then s.table.set e t else s.table }

/-- The partition an entry defines. -/
def State.partOfEntry (s : State) (e : Nat) : Option Part :=
  (insertPart s.p s.parts).find? fun p => p.first != 64 && p.entry == e

/-- R49: whether the entry's launch runs. -/
def State.entryBusy (s : State) (e : Nat) : Bool :=
  match s.partOfEntry e with
  | some p => p.run.active
  | none => false

/-- R49, R418: whether a write to W0 of entry e takes place. -/
def State.entryOk (s : State) (e : Nat) (w : Word) : Bool :=
  let lg := entryLg w
  let f := entryFirst w
  decide (lg ≠ 7) && decide (f % 2 ^ (6 - lg) = 0) && !s.entryBusy e &&
  (List.range 64).all fun k =>
    let t := s.entry k
    (k == e || !entryValid w || !entryValid t.w0 || !unitsMeet f lg (entryFirst t.w0) (entryLg t.w0)) &&
    (match t.releasing with
     | some (g, m) => !unitsMeet f lg g m
     | none => true)

/-! Release (R418). -/

/-- Flat ranges of the local-store shares of a partition's units (R68). -/
def shareRanges (first lg : Nat) : List (Nat × Nat) :=
  (List.range 48).flatMap fun cl => (List.range (2 ^ (6 - lg))).flatMap fun k =>
    let u := first + k
    let a := flatLocal cl (u / 8) (u % 8 * 0x10000)
    let b := flatLocal cl (u / 8) (0x80000 + u % 8 * 0x40000)
    [(a, a + 0x10000), (b, b + 0x40000)]

/-- R418: everything the focused partition holds goes; its HBM share stays. -/
def State.dropPart (s : State) : State :=
  let s := s.wipeRanges (s.p.tileRanges ++ shareRanges s.p.first s.p.lg)
  { s with p := .rest 64 0 64 }

/-- The event that ends a release, within its bound. -/
def State.endRelease (s : State) (e : Nat) : State :=
  let t := 1 + Config.firmwareTicks s.fresh % Config.releaseTicks
  { s with fresh := s.fresh + 1 }.dueAt (s.cycleOfTick (s.tick + t)) rankStart (.ev (.releaseComplete e))

/-- R418: the release that clearing valid starts. -/
def execPartitionRelease (e : Nat) (s : State) : Res :=
  match s.partOfEntry e with
  | none => .next s
  | some p =>
    let s := s.focusPart p.first
    if s.p.first ≠ p.first ∨ s.p.run.active then .next s
    else
      let s := s.dropPart
      .next ((s.setEntry e { s.entry e with releasing := some (p.first, p.lg) }).endRelease e)

/-- R418: from now on its units may be named again. -/
def execReleaseComplete (e : Nat) (s : State) : Res := .next (s.setEntry e { s.entry e with releasing := none })

/-- R49: a write to W0 of entry e. A valid entry that comes to name other units is released and defined anew at once
(assumption 29). -/
def State.writeEntry (s : State) (e : Nat) (w : Word) : State :=
  let t := s.entry e
  if 64 ≤ e then s
  else if !s.entryOk e w then s.setEntry e { t with err := true }
  else
    let w := w &&& entryMask
    let new (s : State) : State :=
      { s.storePart with p := { Part.rest (entryFirst w) (entryLg w) e with holds := s.mgmt.reasons } }
    let s := s.setEntry e { t with w0 := w }
    match s.partOfEntry e with
    | none => if entryValid w then new s else s
    | some p =>
      if !entryValid w then
        (s.setEntry e { t with w0 := w, releasing := some (p.first, p.lg) }).dueIn 0 rankStart (.partitionRelease e)
      else if p.first = entryFirst w ∧ p.lg = entryLg w then s
      else new (s.focusPart p.first).dropPart

def execPartitionEntryWrite (e : Nat) (w : Word) (s : State) : Res := .next (s.writeEntry e w)

/-! Registers of BAR 0 (R42). -/

/-- W1 of an entry. -/
def State.entryW1 (s : State) (e : Nat) : Word :=
  let err := if (s.entry e).err then 4 else 0
  match s.partOfEntry e with
  | none => BitVec.ofNat 64 err
  | some p =>
    let held := (List.range 8).foldl (fun n h => if (p.records.toList.getD h none).isSome then n + 2 ^ (8 + h) else n) 0
    BitVec.ofNat 64 ((if p.run.active then 1 else 0) + (if p.armed.isSome then 2 else 0) + err + held)

/-- Table 17.11 -/
def Part.preemptWord (p : Part) : Word := BitVec.ofNat 64 (p.ppState % 4 + p.ppTick % 2 ^ 48 * 2 ^ 16)

/-- The partition of a first unit. -/
def State.partOf (s : State) (first : Nat) : Option Part := (insertPart s.p s.parts).find? fun p => p.first == first && first != 64

/-- Table 2.1: a word of PF 0's BAR 0, by its offset; an offset the table does not define reads zero. -/
def State.pfWord (s : State) (off : Nat) : Word :=
  if off < 0x400 then (if off / 8 % 2 = 0 then (s.entry (off / 16)).w0 else s.entryW1 (off / 16))
  else if 0x40000 ≤ off ∧ off < 0x60000 then (Tab.getD [] ((off - 0x40000) / 32) s.ring).getD (off / 8 % 4) 0
  else if 0x7E000 ≤ off ∧ off < 0x7E100 then
    let l := s.links.toList.getD ((off - 0x7E000) / 16) ⟨0, 0⟩
    if off / 8 % 2 = 0 then l.w0 else l.w1
  else if off = 0x7E100 then s.group
  else if off = 0x7F008 then s.ringProd.setWidth 64
  else if off = 0x7F010 then s.ringCons.setWidth 64
  else if 0x7F040 ≤ off ∧ off < 0x7F240 then
    match s.partOf ((off - 0x7F040) / 8) with
    | some p => p.preemptWord
    | none => 0
  else if 0x80000 ≤ off ∧ off < 0x80080 then s.mboxReq.toList.getD ((off - 0x80000) / 8) 0
  else if 0x80100 ≤ off ∧ off < 0x80180 then s.mboxResp.toList.getD ((off - 0x80100) / 8) 0
  else if off = 0x80208 then s.mgmt.mailbox
  else 0

/-- Table 2.2: a word of the control page of virtual function n. The abort word at 0x0088, which the table gives write effects
only, reads zero (DESIGN CHOICE, assumption 48). -/
def State.vfWord (s : State) (n off : Nat) : Word :=
  match s.partOf n with
  | none => 0
  | some p =>
    if 0x40 ≤ off ∧ off < 0x80 then p.status.toList.getD ((off - 0x40) / 8) 0
    else if off = 0x80 then BitVec.ofNat 64 (p.ring % 8 + (if p.overrun then 8 else 0))
    else if off = 0x90 then (s.entry p.entry).w0
    else if 0x1000 ≤ off ∧ off < 0x2000 then p.counterWord ((off - 0x1000) / 8)
    else 0

/-- A word of BAR 0 of a function. -/
def State.barWord (s : State) (fn : HostFn) (off : Nat) : Nat :=
  match fn with
  | .pf0 => (s.pfWord off).toNat
  | .vf n => (s.vfWord n off).toNat

/-- R42: what a host read of `size` bytes in BAR 0 of a function returns: the bytes it names, of the word or the two words
they lie in. -/
def State.hostRegister (s : State) (fn : HostFn) (off size : Nat) : Nat :=
  let a := off / 8 * 8
  (s.barWord fn a + s.barWord fn (a + 8) * 2 ^ 64) / 2 ^ (8 * (off % 8)) % 2 ^ (8 * size)

/-- R425: the codes of Table 19.4. -/
def mailboxCode (w : Word) : Nat := field w 7 0

/-- R425: a doorbell runs the command of W0; one rung while the mailbox is not idle is dropped. A command of the table
comes with its operands (assumption 5); any other is unknown. -/
def State.doorbell (s : State) : State :=
  if field s.mgmt.mailbox 1 0 ≠ 1 then s
  else
    let s := { s with mgmt := { s.mgmt with mailbox := (s.mgmt.mailbox &&& 0xFF00) ||| 2 } }
    let c := mailboxCode (s.mboxReq.toList.getD 0 0)
    if 1 ≤ c ∧ c ≤ 0x0E then s else s.dueIn 1 rankStart (.unknownMailboxCommand c)

/-- Table 2.1: a write of 8 bytes to PF 0's BAR 0 that has no row of its own; any other offset drops it. -/
def State.pfWrite (s : State) (off : Nat) (v : Word) : State :=
  if off < 0x400 ∧ off / 8 % 2 = 1 then
    (if v.getLsbD 2 then s.setEntry (off / 16) { s.entry (off / 16) with err := false } else s)
  else if 0x80000 ≤ off ∧ off < 0x80080 then
    let n := (off - 0x80000) / 8
    { s with mboxReq := if h : n < 16 then s.mboxReq.set n v else s.mboxReq }
  else if off = 0x80200 ∧ v.getLsbD 0 then s.doorbell
  else s

/-- R42: a write that is not of a whole aligned word changes nothing; a control page has no word of this kind. -/
def execRegisterWrite (fn : HostFn) (off size : Nat) (v : Word) (s : State) : Res :=
  if size ≠ 8 ∨ off % 8 ≠ 0 then .next s else
  match fn with
  | .pf0 => .next (s.pfWrite off v)
  | .vf _ => .next s

end Sys2Proof.Machine
end

