-- ==== Sys2Proof/Machine/Host.lean ====
section
/-! DEFINITION. What system software does through the firmware mailbox to the tables of translation, to the host window and
to the controllers' registers (R425, Table 19.4), and the host's accesses through BAR 2 (R42, R344, Table 10.6). -/

namespace Sys2Proof.Machine

/-- A mailbox command about a partition; refused where there is none of that first unit. -/
def State.partCommand (s : State) (first : Nat) (f : State → State) : State :=
  let s := s.focusPart first
  if s.p.first ≠ first ∨ first = 64 then s.mailboxDone 1 [] else f s

/-! Homing and translation (R72, R309, R311). -/

/-- R72 -/
def execHomingEntry (first n : Nat) (v : Word) (s : State) : Res :=
  s.mailbox fun s => s.partCommand first fun s =>
    let v := v &&& homingMask
    if s.p.run.active ∨ 64 ≤ n ∨ !homingOk v then s.mailboxDone 1 []
    else ({ s with p := s.p.setHoming n v } : State).mailboxDone 0 []

/-- R309: the set of a key, out of 128 for each unit. -/
def transSet (units : Nat) (w0 : Word) : Nat :=
  let vpn := field w0 33 0
  (vpn ^^^ (vpn / 2 ^ 12) ^^^ (field w0 39 34 * 2 ^ 6) ^^^ field w0 51 40) % (128 * units)

/-- Whether a translation entry is valid and has the key of W0. -/
def TransEntry.sameKey (e : TransEntry) (w0 : Word) : Bool := e.hits (field w0 33 0) (field w0 39 34) (field w0 51 40)

/-- R246, R311, R458: the frame is aligned to its page and lies in the partition's range, below the areas. -/
def Part.frameOk (p : Part) (w0 w1 : Word) : Bool :=
  let ps := pageSize (p.homing.toList.getD (field w0 39 34) 0)
  let at_ := field w1 21 0 * 4096
  decide (at_ % ps = 0) && decide (p.first * 0x0C000000 ≤ at_) && decide (at_ + ps ≤ p.areaStart (p.mostTiles 8))

/-- R311: whether the store of a cluster takes an entry. -/
def Part.takesEntry (p : Part) (cluster : Nat) (w0 w1 : Word) : Bool :=
  let l := (Tab.getD .rest cluster p.clusters).store
  decide ((l.filter fun e => e.w0.getLsbD 53 && transSet p.units e.w0 == transSet p.units w0).length < 8) &&
  !(l.any fun e => e.sameKey w0) && p.frameOk w0 w1 &&
  (p.homing.toList.getD (field w0 39 34) 0).getLsbD 0

/-- R311: the entries of an interface change; translations that start from the next core cycle on see it. -/
def State.changeStore (s : State) (cluster : Nat) (f : List TransEntry → List TransEntry) : State :=
  let old := s.p.storeOf cluster
  let s := { s with p := { s.p with oldStores := Tab.put cluster old s.p.oldStores } }
  s.onCluster cluster fun c => { c with store := f c.store }

/-- R311: an entry is written, with its counts clear, or the entry of a key is invalidated. -/
def execTranslationEntry (first cluster : Nat) (w0 w1 : Word) (s : State) : Res :=
  s.mailbox fun s => s.partCommand first fun s =>
    if 48 ≤ cluster then s.mailboxDone 1 []
    else if !w0.getLsbD 53 then
      (s.changeStore cluster (·.map fun e => if e.sameKey w0 then e.invalid else e)).mailboxDone 0 []
    else if !s.p.takesEntry cluster w0 w1 then s.mailboxDone 1 []
    else
      let e : TransEntry := ⟨w0 &&& 0x3FFFFFFFFFFFFF, w1 &&& 0x3FFFFF, 0, 0, 0⟩
      (s.changeStore cluster fun l => l.filter (fun x => x.w0.getLsbD 53) ++ [e]).mailboxDone 0 []

/-- Table 13.1, W2. -/
def TransEntry.w2 (e : TransEntry) : Word :=
  e.hn.setWidth 64 ||| (e.hx.setWidth 64 <<< 16) ||| (e.hy.setWidth 64 <<< 32)

/-- R327: the counts of an entry are read and cleared. -/
def execReadHotness (first cluster : Nat) (w0 : Word) (s : State) : Res :=
  s.mailbox fun s => s.partCommand first fun s =>
    match (s.cluster cluster).store.find? fun e => e.sameKey w0 with
    | none => s.mailboxDone 1 []
    | some e =>
      (s.onCluster cluster fun c => { c with
        store := c.store.map fun x => if x.sameKey w0 then { x with hn := 0, hx := 0, hy := 0 } else x }).mailboxDone 0 [e.w2]

/-- R312 -/
def execHostWindow (first : Nat) (base len : Word) (s : State) : Res :=
  s.mailbox fun s => s.partCommand first fun s =>
    if field base 11 0 ≠ 0 ∨ field len 11 0 ≠ 0 then s.mailboxDone 1 []
    else ({ s with p := { s.p with hostBase := base, hostLen := len } } : State).mailboxDone 0 []

/-! Controllers, identity, firmware, and codes that are no command (R255, R261, R422, R423, R425). -/

/-- The writable fields of `mc.maint` (Table 10.5). -/
def maintMask : Word := 0xFFFFFFFFF

def State.maint (s : State) (ctl : Nat) : Word := (s.ctls.toList.getD ctl ⟨0, [], 0⟩).maint

/-- Core cycles of the retraining interval; none while it is disabled (Table 10.5). -/
def retrainCycles (maint : Word) : Option Nat :=
  if field maint 15 0 = 0 then none else some (2 * 65536 * field maint 15 0)

/-- Whether an item is the retraining of a channel of a controller. -/
def retrains (ctl : Nat) (i : Item) : Bool :=
  match i.what with
  | .ev (.retrainBurst ch _) => ch / 8 == ctl
  | _ => false

/-- R260: a channel's next retraining; whether it converges is open (assumption 5). -/
def State.nextRetrain (s : State) (chan : Nat) : State :=
  match retrainCycles (s.maint (chan / 8)) with
  | none => s
  | some n =>
    { s with fresh := s.fresh + 1 }.dueIn n rankStart (.retrainBurst chan ((Config.unstated s.fresh).getLsbD 0))

/-- R255, R260: refused while a launch runs, since every partition uses every controller; a new interval counts from now. -/
def execMcMaint (ctl : Nat) (v : Word) (s : State) : Res :=
  s.mailbox fun s =>
    if h : ctl < 48 then
      if s.launchRuns ∨ field v 27 16 < 64 then s.mailboxDone 1 []
      else
        let s := { s with
          ctls := s.ctls.set ctl { s.ctls[ctl] with maint := v &&& maintMask }
          agenda := s.agenda.filter fun i => !retrains ctl i }
        ((List.range 8).foldl (fun s ch => s.nextRetrain (8 * ctl + ch)) s).mailboxDone 0 []
    else s.mailboxDone 1 []

/-- R261: entry `index` of a controller's log, the oldest first, with the overflow count and the number of entries. -/
def execReadErrorLog (ctl index : Nat) (s : State) : Res :=
  s.mailbox fun s =>
    let c := s.ctls.toList.getD ctl ⟨0, [], 0⟩
    match c.log[index]? with
    | some e => s.mailboxDone 0 [e.w0, e.w1, e.w2, e.w3, BitVec.ofNat 64 c.overflow, BitVec.ofNat 64 c.log.length]
    | none => s.mailboxDone 1 []

/-- R8, R423: the signed identity statement: word 0 the ordering code (0: QCF-80P, 1: QCF-80M), word 1 the firmware rollback
number, and the words whose contents the spec does not give. The layout is the model's (assumption 16). -/
def State.identity (s : State) : List Word :=
  [if s.mgmt.moduleForm then 1 else 0, BitVec.ofNat 64 s.mgmt.rollback] ++
    (List.range 14).map (Config.identityWord s.mgmt.moduleForm s.mgmt.rollback)

def execReadIdentity (s : State) : Res := s.mailbox fun s => s.mailboxDone 0 s.identity

/-- R422: an image both of whose signatures verify, and whose rollback number the counter admits, is active at the next
reset; a commit raises the counter to it. -/
def execStageFirmware (number : Nat) (signed commit : Bool) (s : State) : Res :=
  s.mailbox fun s =>
    if commit then
      match s.mgmt.staged with
      | none => s.mailboxDone 1 []
      | some n => ({ s with mgmt := { s.mgmt with rollback := max s.mgmt.rollback n } } : State).mailboxDone 0 []
    else if !signed ∨ number < s.mgmt.rollback then s.mailboxDone 1 []
    else ({ s with mgmt := { s.mgmt with staged := some number } } : State).mailboxDone 0 []

/-- R425 -/
def execUnknownMailboxCommand (_code : Nat) (s : State) : Res := s.mailbox fun s => s.mailboxDone 2 []

/-! BAR 2 (R42, R308, R344). -/

/-- Table 10.2: whether a physical offset names memory. -/
def hbmExists (off : Nat) : Bool := decide (off / 2 ^ 34 < 48) && decide (off % 2 ^ 34 < 0x300000000)

/-- R246: the unit whose range a physical offset lies in. -/
def hbmUnit (flat : Nat) : Nat := flat % 2 ^ 34 / 0x0C000000

/-- Takes the partition that owns a physical offset, if there is one. -/
def State.focusOwner (s : State) (flat : Nat) : State :=
  match (insertPart s.p s.parts).find? fun p => p.first != 64 && p.owns (hbmUnit flat) with
  | some p => s.focusPart p.first
  | none => s.focusPart 64

/-- The word that byte `off` of a function's BAR 2 lies in, with the partition whose dynamic positions the access uses; none
where the offset is undefined (R42, Table 13.4). -/
def State.bar2 (s : State) (fn : HostFn) (off : Nat) (write : Bool) : State × Option Nat :=
  match fn with
  | .pf0 => if hbmExists off then (s.focusOwner off, some off) else (s, none)
  | .vf n =>
    let s := s.focusVf n
    if s.p.first ≠ n ∨ n = 64 ∨ 2 ^ 46 ≤ off then (s, none)
    else match s.p.translate off 0 write with
      | .ok f => (s, some f)
      | .error _ => (s, none)

/-- The word of free values that lies over a word of the focused partition's areas where no layout is given (R407, R458):
such a word reads as its cells under it (assumption 17). -/
def State.areaMask (s : State) (flat : Nat) : Word :=
  let p := s.p
  let back := p.backNow
  let save := p.saveSize
  match p.image with
  | none => 0
  | some d =>
    match p.areaIndex back back flat, p.areaIndex (back + save) save flat with
    | some i, _ => if i % slotBytes < slotLaid then 0 else Config.unstated (d + i / 8)
    | none, some i =>
      if i < 48 * p.units * (352 + 32) * 1024 then 0 else Config.unstated (d + back * 48 + i / 8)
    | none, none => 0

/-- The bytes of a value that an access of n bytes at a physical offset stores, or finds, under the mask. -/
def State.masked (s : State) (fn : HostFn) (f n v : Nat) : Nat :=
  match fn with
  | .pf0 => v ^^^ ((s.areaMask f).toNat / 2 ^ (8 * (f % 8)) % 2 ^ (8 * n))
  | .vf _ => v

/-- R416: a dynamic access served, where a partition owns the place. -/
def State.countServed (s : State) : State := if s.p.first = 64 then s else s.count 19

/-- R344: a host write inside one word. Of a whole word: data, full, no poison; of a part: data, unless the word is
poisoned. -/
def State.hostWriteIn (s : State) (fn : HostFn) (off n v : Nat) : State :=
  match s.bar2 fn off true with
  | (s, none) => s
  | (s, some f) =>
    let s := s.countServed
    let v := s.masked fn f n v
    if n = 8 then s.storeWord f (BitVec.ofNat 64 v) true
    else if s.poisoned f then s.noteErrors f
    else s.store f n v

/-- The bytes of an access that lie in its first word, and those in the next. -/
def inFirstWord (off size : Nat) : Nat := min size (8 - off % 8)

/-- R250: whether a request of the focused partition reaches a channel in this TICK. -/
def State.requestIn (s : State) (ch : Nat) (i : Item) : Bool :=
  let reaches (uid : Nat) (a : Acc) : Bool :=
    s.partThreads.any (fun (t : Thread) => t.uid == uid) && (match s.route a.va 8 with
      | .ok (.hbm _ off) => (match s.p.translate off a.asid.toNat false with
        | .ok f => channelOf f == ch
        | .error _ => false)
      | _ => false)
  decide (i.cycle ≤ s.now / 2 * 2 + 1) && match i.what with
  | .ev (.accessComplete 0 (.job f _ _)) => f == s.p.first
  | .ev (.accessComplete u (.acc a)) => a.stage == 0 && reaches u a
  | .ev (.syncAccessArrives u a) => reaches u a
  | _ => false

/-- R250: a host access to a word takes a dynamic position of the partition that owns its unit, or of a unit that none owns;
in deterministic mode only one that no request of the partition asks for (assumption 49). -/
def State.hostTurn (s : State) (fn : HostFn) (off : Nat) (write : Bool) : Bool × State :=
  match s.bar2 fn off write with
  | (s, none) => (true, s)
  | (s, some f) =>
    let lo := if s.p.first = 64 then hbmUnit f else s.p.first
    let hi := if s.p.first = 64 then lo + 1 else lo + s.p.units
    if s.det && s.agenda.any (s.requestIn (channelOf f)) then (false, s.waitPosition f lo hi .host)
    else s.askChannel f lo hi .host

/-- R344: a host write at its position. -/
def State.hostWrite (s : State) (fn : HostFn) (off size : Nat) (v : Word) : State :=
  let a := inFirstWord off size
  let s := if a = 0 then s else s.hostWriteIn fn off a (v.toNat % 2 ^ (8 * a))
  if a = size then s else s.hostWriteIn fn (off + a) (size - a) (v.toNat / 2 ^ (8 * a) % 2 ^ (8 * (size - a)))

/-- Table 10.6, R344: bytes of one word as a host read returns them, and whether the word is poisoned. -/
def State.hostReadIn (s : State) (fn : HostFn) (off n : Nat) : State × Nat × Bool :=
  match s.bar2 fn off false with
  | (s, none) => (s, 0, false)
  | (s, some f) =>
    let s := s.countServed
    let bad := s.poisoned f
    let s := s.noteErrors f
    if bad then (s.logWord f 3, 2 ^ (8 * n) - 1, true) else (s, s.masked fn f n (s.bytes f n), false)

/-- R344: a host read at its position; one that meets poison returns all ones. -/
def State.hostRead (s : State) (fn : HostFn) (off size : Nat) : State :=
  let a := inFirstWord off size
  let (s, x, px) := s.hostReadIn fn off a
  let (s, y, py) := if a = size then (s, 0, false) else s.hostReadIn fn (off + a) (size - a)
  let v := if px || py then 2 ^ (8 * size) - 1 else x + y * 2 ^ (8 * a)
  s.emit (.hostRead (BitVec.ofNat 64 v) (px || py))

def isHostWrite : Instr → Bool
  | .hostBar2Write .. => true
  | _ => false

/-- R250, R344: a host access through BAR 2 performs at a position of the channel of its first word, and none passes a write
received before it (assumption 49). -/
def State.hostAccess (s : State) (i : Instr) : State :=
  let waits (s : State) : State := { s with hostQueue := s.hostQueue ++ [i] }
  if s.hostQueue.any isHostWrite then waits s
  else match i with
    | .hostBar2Write fn off size v => match s.hostTurn fn off true with
      | (true, s) => s.hostWrite fn off (min size 8) v
      | (false, s) => waits s
    | .hostBar2Read fn off size => match s.hostTurn fn off false with
      | (true, s) => s.hostRead fn off (min size 8)
      | (false, s) => waits s
    | _ => s

/-- R250: the host accesses that wait ask again, in the order received. -/
def State.serveHost (s : State) : State :=
  s.hostQueue.foldl State.hostAccess { s with hostQueue := [] }

/-- R344, R424, R250: a host write of up to 8 bytes through BAR 2. -/
def execHostBar2Write (fn : HostFn) (off size : Nat) (v : Word) (s : State) : Res :=
  .next (if s.mgmt.ready then s.hostAccess (.hostBar2Write fn off size v) else s)

/-- R344, R424, R250: a host read of up to 8 bytes through BAR 2. -/
def execHostBar2Read (fn : HostFn) (off size : Nat) (s : State) : Res :=
  .next (if s.mgmt.ready then s.hostAccess (.hostBar2Read fn off size) else s.emit (.hostRead 0 false))

end Sys2Proof.Machine
end

