-- ==== Sys2Proof/Machine/Package.lean ====
section
/-! DEFINITION. Errors in memory, the maintenance of the HBM channels, power and temperature, bring-up and the loss of power
(R240, R247, R252-R260, R420-R424). -/

namespace Sys2Proof.Machine

/-! Soft errors (R240, R244). -/

/-- A bit of a word goes wrong: a first one can be corrected, a second, or one of several bits, cannot. A poisoned word
stays as it is. -/
def errorAttr (a : Byte) (uncorrectable : Bool) : Byte :=
  if a &&& 0xA != 0 then a
  else if uncorrectable || a &&& 4 != 0 then (a &&& 0xFB) ||| 8
  else a ||| 4

/-- Local store, HBM and tensor SRAM have check bits. -/
def hasCheckBits (flat : Nat) : Bool :=
  (decide (flat < flatLocalBase) && hbmExists flat) || (localOf flat).isSome ||
  (decide (flatSramBase ≤ flat) && decide (flat < flatAccBase))

def execSoftError (addr : Nat) (uncorrectable : Bool) (s : State) : Res :=
  .next (if hasCheckBits addr then (s.setAttr addr (errorAttr (s.attrOf addr) uncorrectable)).wakeTurn (wordOf addr) else s)

/-! Channels (R245, R252). -/

/-- Lines of a channel. -/
def chanLines : Nat := 12582912

/-- Flat address of line n of a channel (R245). -/
def chanLine (ch n : Nat) : Nat := ch / 8 * 2 ^ 34 + (n * 8 + ch % 8) * 128

/-- First line of a row in its channel: 8 lines a row, 32 banks (assumption 11). -/
def rowLine (bank row : Nat) : Nat := row * 256 + bank * 8

def rowKey (bank row : Nat) : Nat := 65536 * bank + row

/-! Soft repair (R258, R259). -/

/-- R258: a repair starts, unless the bank's spare is in use or about to be; the refusal is logged. -/
def State.startRepair (s : State) (ch bank row : Nat) : Bool × State :=
  let c := s.chan ch
  if (Tab.find bank c.remaps).isSome || c.repairs.any (·.bank == bank) then
    let at_ := chanLine ch (rowLine bank row)
    (false, s.logEntry (ch / 8) ⟨logW0 5 (hbmPlace at_) false, BitVec.ofNat 64 s.tick, 0, 0⟩)
  else (true, s.onChan ch fun c => { c with repairs := c.repairs ++ [⟨bank, row, 0⟩] })

/-- R258: system software asks for a repair. -/
def execRequestSoftRepair (ctl ch bank row : Nat) (s : State) : Res :=
  s.mailbox fun s =>
    if 48 ≤ ctl ∨ 8 ≤ ch ∨ 32 ≤ bank ∨ 49152 ≤ row then s.mailboxDone 1 []
    else
      let (ok, s) := s.startRepair (8 * ctl + ch) bank row
      s.mailboxDone (if ok then 0 else 1) []

/-- Table 10.5, R258: a corrected error of a row in this scrub pass; the one that reaches cthr starts a repair. -/
def State.rowError (s : State) (flat : Nat) : State :=
  let p := hbmPlace flat
  let ch := 8 * p.ctl + p.ch
  let n := Tab.getD 0 (rowKey p.bank p.row) (s.chan ch).rowErrs + 1
  let s := s.onChan ch fun c => { c with rowErrs := Tab.put (rowKey p.bank p.row) n c.rowErrs }
  let m := s.maint p.ctl
  if m.getLsbD 28 && n == field m 35 29 then (s.startRepair ch p.bank p.row).2 else s

/-- What a word is in fresh cells: a single-bit error gone, an uncorrectable one poisoned (R240, R258). -/
def State.renew (s : State) (flat : Nat) : State :=
  let a := s.attrOf flat
  if a &&& 8 != 0 then s.poison flat else if a &&& 4 != 0 then s.setAttr flat (a &&& 0xFB) else s

/-- R259, Table 10.7 -/
def repairEntry (ctl ch bank row : Nat) : Word :=
  BitVec.ofNat 64 (ctl + ch * 2 ^ 6 + bank * 2 ^ 9 + row * 2 ^ 14 + 2 ^ 63)

/-- The current copy of the repair list. -/
def Mgmt.repairs (m : Mgmt) : List Word := if m.current then m.repairs1 else m.repairs0

/-- R423: an append writes the new list into the older copy, and marks that one current. -/
def Mgmt.append (m : Mgmt) (e : Word) : Mgmt :=
  if m.current then { m with repairs0 := m.repairs ++ [e], current := false }
  else { m with repairs1 := m.repairs ++ [e], current := true }

/-- R258 step 3, R259: the remap is latched, logged and appended to the repair list. -/
def execRepairLatch (ctl ch bank row : Nat) (s : State) : Res :=
  let c := 8 * ctl + ch
  match (s.chan c).repairs with
  | [] => .next s
  | r :: l =>
    if r.bank ≠ bank ∨ r.row ≠ row ∨ r.lines < 8 then .next s
    else
      let at_ := chanLine c (rowLine bank row)
      let s := s.onChan c fun x => { x with repairs := l, remaps := Tab.put bank row x.remaps }
      let s := (List.range 128).foldl (fun s i => s.renew (chanLine c (rowLine bank row + i / 16) + 8 * (i % 16))) s
      let s := s.logEntry ctl ⟨logW0 4 (hbmPlace at_) false, BitVec.ofNat 64 s.tick, 0, 0⟩
      .next { s with mgmt := s.mgmt.append (repairEntry ctl ch bank row) }

/-! Scrubbing (R256). -/

/-- R256, R416: one word of the line that a scrub unit reads. -/
def State.scrubWord (s : State) (flat : Nat) : State :=
  let a := s.attrOf flat
  if a &&& 8 != 0 then (s.logWord flat 2).poison flat
  else if a &&& 4 != 0 then
    let s := ((s.logWord flat 1).setAttr flat (a &&& 0xFB)).focusOwner flat
    (if s.p.first = 64 then s else s.count 21).rowError flat
  else s

/-- R256: a scrub unit: first a line that a read found uncorrectable, else the line at the patrol pointer. At the channel's
end a new pass begins. -/
def State.scrub (s : State) (ch : Nat) : State :=
  let c := s.chan ch
  let words (s : State) (l : Nat) : State := (List.range 16).foldl (fun s i => s.scrubWord (l + 8 * i)) s
  match c.urgent with
  | f :: r => words (s.onChan ch fun c => { c with urgent := r }) (f / 128 * 128)
  | [] =>
    let s := words s (chanLine ch c.patrol)
    s.onChan ch fun c =>
      if c.patrol + 1 < chanLines then { c with patrol := c.patrol + 1 } else { c with patrol := 0, rowErrs := [] }

/-! Maintenance units (R252-R254, R260). -/

/-- Rows of Table 10.4: refresh, back-off, owed refreshes, retraining, repair, scrubbing. -/
def unitMax : Nat → Nat
  | 0 => 64
  | 1 => 64
  | _ => 32

def Chan.left (c : Chan) (row : Nat) : Nat := unitMax row - c.spent.toList.getD row 0

/-- A unit is given to a row of the table. -/
def Chan.spend (c : Chan) (row : Nat) : Chan :=
  { c with spent := if h : row < 6 then c.spent.set row (c.spent[row] + 1) else c.spent }

/-- The row, among those with units left in this window, that a free number picks. -/
def Chan.pickRow (c : Chan) (n : Nat) : Nat :=
  let l := (List.range 6).filter fun r => c.left r ≠ 0
  l.getD (n % l.length) 5

/-- The row that a unit out of its turn is charged to. -/
def Chan.chargeRow (c : Chan) (want : Nat) : Nat := ([want, 5, 4, 2, 1].find? fun r => c.left r ≠ 0).getD 3

/-- R253: a refresh may be postponed only where no launch runs in deterministic mode. -/
def State.mayPostpone (s : State) : Bool := !(s.p.run.active && s.p.run.det) && s.parts.all fun p => !(p.run.active && p.run.det)

/-- R252: the bank that the next refresh of this window is for: each of the 32 has two. -/
def Chan.refreshBank (c : Chan) : Nat := c.spent.toList.getD 0 0 % 32

/-- R253: whether a dynamic request for a bank waits after a TICK. -/
def Chan.waits (c : Chan) (bank tick : Nat) : Bool := c.waiting.any fun x => x.1 == bank && decide (tick < x.2)

/-- R252, R253: a unit of the refresh row: the bank's refresh, unless it is postponed, of which a bank owes at most 8. True
where the unit is left over. -/
def Chan.refresh (c : Chan) (tick : Nat) (postpone : Bool) : Bool × Chan :=
  let bank := c.refreshBank
  let n := Tab.getD 0 bank c.owed
  if postpone && c.waits bank tick && decide (n < 8) then (true, { c.spend 0 with owed := Tab.put bank (n + 1) c.owed })
  else (false, c.spend 0)

/-- R254: a bank's back-off is done: its count restarts. -/
def Chan.backOff (c : Chan) (bank : Nat) : Chan :=
  { c with backoffs := c.backoffs.filter (· != bank), acts := Tab.drop bank c.acts, bursts := c.bursts.filter (· != bank) }

/-- An owed refresh of a bank is paid. -/
def Chan.payOwed (c : Chan) (bank : Nat) : Chan :=
  let n := Tab.getD 0 bank c.owed
  { c with owed := if n ≤ 1 then Tab.drop bank c.owed else Tab.put bank (n - 1) c.owed }

/-- R254: the unit of a bank whose owed refreshes and back-off go first. -/
def Chan.burstUnit (c : Chan) (bank : Nat) : Chan :=
  if Tab.getD 0 bank c.owed ≠ 0 then (c.spend (c.chargeRow 2)).payOwed bank else (c.spend (c.chargeRow 1)).backOff bank

/-- R252: a unit goes to a row of the table; true where the row does not need it, so that it goes to scrubbing. -/
def Chan.unit (c : Chan) (row tick : Nat) (postpone : Bool) : Bool × Chan :=
  match row with
  | 0 => c.refresh tick postpone
  | 1 => match c.backoffs with
    | b :: _ => (false, (c.spend 1).backOff b)
    | [] => (true, c.spend 1)
  | 2 => match c.owed with
    | (b, _) :: _ => (false, (c.spend 2).payOwed b)
    | [] => (true, c.spend 2)
  | r => (true, c.spend r)

/-- R254: an activate of a bank. A count that has reached the threshold owes it one back-off; with 8 refreshes owed, at
once. -/
def Chan.activate (thr : Nat) (c : Chan) (bank : Nat) : Chan :=
  let n := Tab.getD 0 bank c.acts + 1
  let c := { c with acts := Tab.put bank n c.acts }
  if thr ≤ n ∧ !c.backoffs.contains bank then
    { c with backoffs := c.backoffs ++ [bank]
             bursts := if Tab.getD 0 bank c.owed = 8 then c.bursts ++ [bank] else c.bursts }
  else c

/-- The activates of the 16 positions before a slot. Which access activates a row is not given: each position activates a
bank, or none, as a free value says (assumption 11). -/
def Chan.activates (c : Chan) (thr : Nat) (v w : Word) : Chan :=
  (List.range 16).foldl (fun (c : Chan) i =>
    let x := (if i < 8 then v else w).toNat / 64 ^ (i % 8) % 64
    if x < 32 then c.activate thr x else c) c

/-- The number of a maintenance slot in its frame (Table 10.3). -/
def slotOfTick (tick : Nat) : Option Nat :=
  match tick % Config.frameTicks with
  | 16 => some 0
  | 33 => some 1
  | 50 => some 2
  | 67 => some 3
  | _ => none

/-- TICK of the next maintenance slot after a tick. -/
def slotAfter (tick : Nat) : Nat :=
  let f := tick / Config.frameTicks * Config.frameTicks
  let x := tick % Config.frameTicks
  f + (if x < 16 then 16 else if x < 33 then 33 else if x < 50 then 50 else if x < 67 then 67 else 84)

/-- A channel's next maintenance slot. -/
def State.scheduleSlot (s : State) (ch : Nat) : State :=
  s.dueAt (s.cycleOfTick (slotAfter s.tick)) rankStart (.ev (.maintenanceSlot ch))

/-- R252: the first slot of a window of 64 frames starts its units afresh. -/
def Chan.newWindow (c : Chan) : Chan := { c with spent := Vector.replicate 6 0 }

/-- R260: whether a retraining burst takes slot k: it begins in the first slot of a frame of a window in which a refresh and
four units of its row are left, and then takes all four. -/
def Chan.retrains (c : Chan) (k : Nat) : Bool :=
  c.retrain != 0 && (decide (c.retrain < 4) || (k == 0 && c.bursts.isEmpty && decide (c.left 0 ≠ 0) && decide (4 ≤ c.left 3)))

/-- R260: a slot of a retraining burst: the first performs a refresh, which counts as paid. -/
def Chan.retrainUnit (c : Chan) : Chan :=
  let c := if c.retrain = 4 then c.spend 0 else c
  { c.spend 3 with retrain := c.retrain - 1 }

/-- W0 of a log entry of kind 6: of its place only the channel is given. -/
def retrainLog (chan : Nat) (free : Word) : Word :=
  (BitVec.ofNat 64 (6 + chan % 8 * 2 ^ 4)) ||| (free &&& 0x7FFFFF80)

/-- R260: a burst that has not converged is logged at its end. -/
def State.retrained (s : State) (ch : Nat) : State :=
  if (s.chan ch).retrain ≠ 0 ∨ !(s.chan ch).failing then s
  else
    let free := Config.unstated s.fresh
    let s := { s.onChan ch fun c => { c with failing := false } with fresh := s.fresh + 1 }
    s.logEntry (ch / 8) ⟨retrainLog ch free, BitVec.ofNat 64 s.tick, 0, 0⟩

/-- R252-R260: the unit of a slot: a retraining burst; the bursts of owed refreshes; else the row that its place in the
window is given to, which the spec leaves open. -/
def State.spendUnit (s : State) (ch k : Nat) : State :=
  let c := s.chan ch
  if c.retrains k then (s.onChan ch Chan.retrainUnit).retrained ch
  else match c.bursts with
  | b :: _ => s.onChan ch fun c => c.burstUnit b
  | [] =>
    let v := Config.unstated s.fresh
    let s := { s with fresh := s.fresh + 1 }
    let row := c.pickRow (v.toNat / 2)
    let (spare, c) := c.unit row s.tick (v.getLsbD 0 && s.mayPostpone)
    let s := s.onChan ch fun _ => c
    if row = 4 ∧ (c.repairs.head?.any fun r => decide (r.lines < 8)) then s.repairUnit ch
    else if spare then s.scrub ch else s

/-- R252: a maintenance slot of a channel. -/
def execMaintenanceSlot (chan : Nat) (s : State) : Res :=
  if 384 ≤ chan then .next s
  else
    let s := s.scheduleSlot chan
    match slotOfTick s.tick with
    | none => .next s
    | some k =>
      let s := if k = 0 ∧ s.tick / Config.frameTicks % 64 = 0 then s.onChan chan Chan.newWindow else s
      let f := s.fresh
      let s := { s with fresh := f + 2 }.onChan chan fun c =>
        c.activates (field (s.maint (chan / 8)) 27 16) (Config.unstated f) (Config.unstated (f + 1))
      .next (s.spendUnit chan k)

/-- R260: a channel's interval is over: a burst takes the four slots of a frame to come (`Chan.retrains`). -/
def execRetrainBurst (chan : Nat) (converged : Bool) (s : State) : Res :=
  if 384 ≤ chan then .next s
  else .next ((s.onChan chan fun c => { c with retrain := 4, failing := !converged }).nextRetrain chan)

/-! Power and temperature (R421). -/

/-- The partitions whose launches run get a reason, or lose one. -/
def State.limitReason (s : State) (r : Nat) (add remove : Bool) : State :=
  if add && !s.mgmt.reasons.contains r then
    ({ s with mgmt := { s.mgmt with reasons := s.mgmt.reasons ++ [r] } } : State).eachPart fun s => s.addHold r
  else if remove && s.mgmt.reasons.contains r then
    ({ s with mgmt := { s.mgmt with reasons := s.mgmt.reasons.filter (· != r) } } : State).eachPart fun s => s.dropHold r
  else s

/-- R421: an emergency trip begins: a thermal fault in every running launch; the power is cut after a time that is open. -/
def State.trip (s : State) : State :=
  if s.mgmt.tripped then s
  else
    let s := { s with mgmt := { s.mgmt with tripped := true } }.eachPart fun s => if s.p.run.active then s.runFault 20 else s
    let t := 1 + Config.firmwareTicks s.fresh
    { s with fresh := s.fresh + 1 }.dueAt (s.cycleOfTick (s.tick + t)) rankStart (.ev .emergencyTrip)

/-- Table 19.2: the end of a window: its power in watts, and the hottest temperature in °C. -/
def execPowerWindow (watts celsius : Nat) (s : State) : Res :=
  if 115 ≤ celsius then .next s.trip
  else
    let s := s.limitReason 1 (decide (s.mgmt.limit < watts)) (decide (100 * watts < 95 * s.mgmt.limit))
    .next (s.limitReason 2 (decide (100 ≤ celsius)) (decide (celsius < 95)))

/-- R421: the trip, then the cut of the dies' power. -/
def execEmergencyTrip (s : State) : Res :=
  if s.mgmt.tripped then .next { s with mgmt := { s.mgmt with powered := false } } else .next s.trip

/-- R423: the supply is lost: the copy of the repair list that an append was writing is no list any more; the other one is
current. -/
def execPowerLoss (duringAppend : Bool) (s : State) : Res :=
  let m := s.mgmt
  let m := if !duringAppend then m else if m.current then { m with repairs0 := [] } else { m with repairs1 := [] }
  .next { s with mgmt := { m with powered := false } }

/-! Bring-up (R424). -/

/-- Table 19.3 step 3, R426: the power limit. -/
def powerLimit (configOk moduleForm : Bool) (limit : Nat) : Nat :=
  if moduleForm then 3200 else if configOk then min limit 3200 else 1600

/-- Table 19.3 step 5: the remaps of the repair list. -/
def replayRepair (s : State) (e : Word) : State :=
  if e.getLsbD 63 then
    s.onChan (8 * field e 5 0 + field e 8 6) fun c => { c with remaps := Tab.put (field e 13 9) (field e 29 14) c.remaps }
  else s

/-- Table 19.3: bring-up as a whole. A report 1 says that no firmware verifies, 2 that the repair list is ignored. The time
it takes is outside the count of core cycles (assumption 5). -/
def execBringUp (firmwareOk configOk listOk : Bool) (limit : Nat) (s : State) : Res :=
  if !firmwareOk || (match s.mgmt.staged with | some n => decide (n < s.mgmt.rollback) | none => false) then
    .next (s.emit (.report 1))
  else
    let s := { s with
      mem := s.mem.wipe 0 flatHostBase
      attr := []
      lists := []
      threads := []
      cur := .rest
      parts := []
      p := .rest 64 0 64
      table := Vector.replicate 64 ⟨0, false, none⟩
      chans := []
      mgmt := { s.mgmt with
        ready := true
        limit := powerLimit configOk s.mgmt.moduleForm limit
        mailbox := 1 } }
    let s := if listOk then s.mgmt.repairs.foldl replayRepair s else s.emit (.report 2)
    .next ((List.range 384).foldl (fun s ch => (s.scheduleSlot ch).nextRetrain ch) s)

end Sys2Proof.Machine
end

