-- ==== Sys2Proof/Machine/Preempt.lean ====
section
/-! DEFINITION. Pre-emption, the save area, restore and resumption (R99, R223, R285, R307, R321, R325, R405-R409). -/

namespace Sys2Proof.Machine

/-! The stop (R406). -/

/-- What is to happen to a partition's overlay chain or hold at a TICK. -/
def Item.ofChain (i : Item) (first : Nat) : Bool :=
  match i.what with
  | .ev (.overlaySwapBell f) => f == first
  | .ev (.residentSetChange f) => f == first
  | .ev (.preloadComplete f) => f == first
  | .ev (.holdResume f) => f == first
  | .ev (.holdLimitExpires f _ _) => f == first
  | _ => false

/-- R406, R53: ticks from the stop to the end of the save: 1 035 frames for the tiles, and up to as many for the rest. -/
def saveTicks (fresh : Nat) : Nat := changeTicks + Config.firmwareTicks fresh % (changeTicks + 1)

/-- R406, R223, R307: the partition stops after this tick, Ts: PLAN stands still, and nothing of the chain goes on, nor of
the jobs that stop where they stand. -/
def State.stopPart (s : State) : State :=
  let f := s.p.first
  let r := s.p.run
  let sv : Saved := {
    ts := s.tick
    held := r.stopped
    plan := r.plan
    base := r.runBase
    items := s.agenda.filter fun i => i.ofChain f || s.ofStopped i
    back := s.p.backNow
    save := s.p.saveSize
    tiles := []
    backed := []
    code := []
    graphs := []
    area := [] }
  let plan := s.plan
  let s := { s with
    agenda := s.agenda.filter fun i => !(i.ofChain f || s.ofStopped i)
    p := { s.p with ppWant := false, saved := some sv } }
  let s := s.onRun fun x => { x with plan := plan, stopped := true }
  { s with fresh := s.fresh + 1 }.dueAt (s.cycleOfTick (s.tick + 1 + saveTicks s.fresh)) rankEnd (.ev (.saveComplete f))

/-- Whether an overlay runs (R406). -/
def State.overlayRuns (s : State) : Bool :=
  (s.p.run.chain == .running || s.p.run.chain == .draining) && decide (s.p.run.tick0 ≤ s.tick)

/-- R405, R406: a request: the stop comes at the first quiet `prept`, or at once where no overlay runs; and that stop. -/
def execPreempt (first : Nat) (s : State) : Res :=
  let s := s.focusPart first
  if s.p.first ≠ first ∨ !s.p.run.active then .next s
  else if s.p.ppState = 1 ∧ s.p.stopsHere s.plan ∧ !s.p.run.ending then .next s.stopPart
  else if s.p.ppState ≠ 0 then .next s
  else
    let s := s.setPreempt 1
    if s.overlayRuns || s.p.run.ending then .next { s with p := { s.p with ppWant := true } } else .next s.stopPart

/-! The save (R406, R407). -/

/-- Table 17.12, R321: whether a thread has stopped. One that migrates has not, until it holds a context or an entry. -/
def State.threadSaved (s : State) (t : Thread) : Bool :=
  t.relaxed.isEmpty && !(s.agenda.any fun i => i.ofThread t.uid) &&
  match t.status with
  | .saved _ => true
  | .listed => true
  | .napping => true
  | .parked _ => true
  | .unlisted => true
  | .fenced => true
  | .ready => t.recite == 2 && !(s.agenda.any fun i => i.what == .issue t.uid)
  | .waiting (.job _ _) => t.recite != 0
  | .waiting (.ids _) => t.recite != 0
  | .waiting (.bind _) => t.recite != 0
  | .waiting .enqueue => true
  | .waiting .command => true
  | _ => false

/-- R285, R307: a job that has started has been drained, or stands still. -/
def Job.saved (j : Job) : Bool := !j.started || j.stops

/-- A packet or an enqueue of the partition is on its way. -/
def State.inTransit (s : State) : Bool := s.enqueueComes || s.agenda.any fun i => match i.what with
  | .ev (.packetArrives p) => p.first == s.p.first
  | _ => false

/-- Words of the save area, from a byte of it; a word of zero is what a fresh area holds. -/
def State.putWords (s : State) (below off : Nat) (l : Words) : State :=
  l.zipIdx.foldl (fun (s : State) (w, i) =>
    if w = 0 then s else { s with mem := s.mem.writeN (s.p.areaByte below (off + 8 * i)) 8 w.toNat }) s

/-- R407: bytes of a unit's local-store image in one cluster. -/
def imageBytes : Nat := 352 * 1024

/-- R407: the byte of the save area for a byte of the partition's local-store shares. -/
def Part.shareByte (p : Part) (flat : Nat) : Option Nat :=
  match localOf flat with
  | none => none
  | some (cl, co, b) =>
    let u := shareUnit co b
    if p.owns u then
      some ((48 * (u - p.first) + cl) * imageBytes + (if b < 0x80000 then b % 0x10000 else 0x10000 + (b - 0x80000) % 0x40000))
    else none

/-- And the other way. -/
def Part.shareFlat (p : Part) (i : Nat) : Option Nat :=
  let n := i / imageBytes
  let u := p.first + n / 48
  let o := i % imageBytes
  if 48 * p.units ≤ n ∨ 0x50000 ≤ o then none
  else some (flatLocal (n % 48) (u / 8) (if o < 0x10000 then u % 8 * 0x10000 + o else 0x80000 + u % 8 * 0x40000 + (o - 0x10000)))

/-- Table 10.1. -/
def TagEntry.words (e : TagEntry) : Words :=
  [e.tag.setWidth 64 ||| (if e.valid then 1#64 <<< 49 else 0) ||| (if e.pin then 1#64 <<< 50 else 0), e.dirty.setWidth 64]

/-- R407: the tag entries of the partition's shares in a cluster that differ from the reset entry, whose words are zero. -/
def State.saveTags (s : State) (below cluster : Nat) : State :=
  (s.cluster cluster).tags.foldl (fun s (k, e) =>
    let u := 8 * (k / 16384) + k % 16384 / 2048
    if s.p.owns u then
      s.putWords below ((48 * (u - s.p.first) + cluster) * imageBytes + 0x50000 + 16 * (k % 2048)) e.words
    else s) s

/-- R407: the save area made of the local-store shares, with nothing else in it; and back. -/
def State.saveShares (s : State) (below size : Nat) : State :=
  let p := s.p
  let hit (a : Nat) : Bool := (p.areaIndex below size a).isSome
  let place (a : Nat) : Option Nat := (p.shareByte a).map (p.areaByte below)
  { s with mem := s.mem.relocate hit place, attr := s.attr.relocate hit place }

def State.loadShares (s : State) (below size : Nat) : State :=
  let p := s.p
  let hit (a : Nat) : Bool := (p.shareByte a).isSome
  let place (a : Nat) : Option Nat := (p.areaIndex below size a).bind p.shareFlat
  { s with mem := s.mem.relocate hit place, attr := s.attr.relocate hit place }

/-- Table 17.13: the state word of a context. -/
def State.contextState (s : State) (t : Thread) : Nat :=
  let (code, place) := match t.status with
    | .saved again => (if again then 7 else 1, 0)
    | .listed => (2, (match s.lists.find? fun e => e.2.any fun (w : Waiter) => w.uid == t.uid with
        | some (_, l) => (l.findIdx? fun (w : Waiter) => w.uid == t.uid).getD 0
        | none => 0))
    | .parked n => (3, n)
    | .waiting .enqueue => (4, ((s.cluster t.loc.cluster).queue.waiting.findIdx? fun e => e.2 == some t.uid).getD 0)
    | .napping => (5, 0)
    | .fenced => (6, 0)
    | .waiting _ => (7, 0)
    | _ => (1, 0)
  code + t.done.toNat * 2 ^ 8 + place % 2 ^ 12 * 2 ^ 16

/-- Table 17.13: the word a list member waits for. -/
def State.waitedWord (s : State) (t : Thread) : Word :=
  match s.lists.find? fun e => e.2.any fun (w : Waiter) => w.uid == t.uid with
  | some (_, l) => ((l.find? fun (w : Waiter) => w.uid == t.uid).map (·.acc.va)).getD 0
  | none => 0

/-- Table 17.13: monitor word. -/
def Monitor.word (m : Monitor) : Word :=
  (m.addr &&& 0x00FFFFFFFFFFFFFF) ||| (if m.seen then 1#64 <<< 62 else 0) ||| (if m.armed then 1#64 <<< 63 else 0)

/-- The 64-bit words of a vector register. -/
def vecWords (v : Vec) : Words := (List.range 8).map fun i => v.extractLsb' (64 * i) 64

/-- R285: the register values a command read at issue, in operand order. -/
def Command.operands : Command → Words
  | .mat _ a0 a1 b0 b1 c0 c1 l _ => [a0, a1, b0, b1, c0, c1, l]
  | .copy _ a => [a]
  | .graph _ a => [a]
  | .stage _ _ _ => []

/-- Table 17.13: the 112 bytes of a command: its bundle, its job ID (none for a parked one) and its operands. -/
def commandWords (bundle id : Word) (c : Command) : Words :=
  ([bundle, id] ++ c.operands ++ List.replicate 14 0).take 14

/-- R285: the commands of a thread that a pre-emption cancels: the jobs that have not started, in acceptance order, and what
is parked. -/
def State.cancelled (s : State) (t : Thread) : Words :=
  let jobs := (s.p.jobs.filter fun j => j.uid == t.uid && !j.started).flatMap fun j =>
    commandWords j.bundle (BitVec.ofNat 64 (j.eng + 256 * j.seq)) j.cmd
  let parked := (t.parkedCmd.toList ++ t.nextCmd.toList).flatMap fun c => commandWords c.bundle 0 c.cmd
  (jobs ++ parked ++ List.replicate 210 0).take 210

/-- Table 17.13: a stream: its descriptor; register code, direction and kind; position and exhausted bit (assumption 17). -/
def StreamReg.words (x : StreamReg) : Words :=
  let exh : Word := if x.exh then 1#64 <<< 63 else 0
  if x.bound then
    [x.w0, x.w1, x.w2, x.w3,
     BitVec.ofNat 64 (x.reg + (if x.push then 2 ^ 8 else 0) + (if x.port then 2 ^ 9 else 0)),
     BitVec.ofNat 64 x.k ||| exh]
  else [0, 0, 0, 0, 0, exh]

/-- Table 17.12: the core cycles of `nap` timeout a thread has left at the stop, counted on from the resumption. -/
def State.napLeft (s : State) (t : Thread) : Word :=
  match s.p.saved with
  | some sv => if t.napAt = 0 then 0 else BitVec.ofNat 64 (max 1 (t.napAt - s.cycleOfTick (sv.ts + 1)))
  | none => 0

/-- Table 17.13: the record of a context's thread. -/
def State.contextWords (s : State) (t : Thread) : Words :=
  [BitVec.ofNat 64 (s.contextState t), t.pc, t.pw.setWidth 64, t.retired] ++ t.a.toList ++
  [t.rkey, t.rctr.setWidth 64, t.amax.setWidth 64, t.srnd, t.asid.setWidth 64, s.kmode t, t.geom, t.tvec.setWidth 64,
   t.epc.setWidth 64, t.epw.setWidth 64, t.fault.setWidth 64, t.finfo, t.tscr0, t.tscr1] ++
  [t.monitor.word, s.waitedWord t, s.napLeft t] ++
  t.streams.toList.flatMap StreamReg.words ++ s.cancelled t ++ [0] ++
  t.vm.toList.drop 1 ++ List.replicate 225 0 ++
  ((t.v.toList.take (modeVectors s.p.run.tcmode)).flatMap vecWords ++ List.replicate (8 * (128 - modeVectors s.p.run.tcmode)) 0) ++
  List.replicate 512 0

/-- R407, R325: the threads whose records stand at the places of a cluster's contexts, in context order; those parked in
the fault-service store take the places of free contexts of the cluster they came from (assumption 17). -/
def State.recordsOf (s : State) (cluster : Nat) : List (Nat × Thread) :=
  let places := (s.p.contexts cluster).zipIdx.map fun (l, i) => (i, s.launchThreads.find? fun (t : Thread) => t.loc == l)
  let free := (places.filter (·.2.isNone)).map (·.1)
  let parked := s.launchThreads.filter fun (t : Thread) => t.loc == noContext cluster
  places.filterMap (fun (i, t) => t.map fun t => (i, t)) ++ free.zip parked

/-- R407: the context records of a cluster; a free context's is zero. -/
def State.saveContexts (s : State) (below cluster : Nat) : State :=
  (s.recordsOf cluster).foldl (fun s (i, t) =>
    s.putWords below (48 * s.p.units * imageBytes + (cluster * 2 * s.p.units + i) * 16384) (s.contextWords t)) s

/-- The slots of the backing area that the tiles take (R458). -/
def Part.tileSlots (p : Part) (tiles : List Tile) : List (Nat × Nat) :=
  (tiles.zipIdx.filter fun (t, _) => t.ltile != noTile).map fun (t, m) => (t.ltile, if 1 < p.run.passes then t.ltile else m)

/-- The listed bytes of the save area, by their place in it. -/
def State.areaCells (s : State) (below size : Nat) : List Host.Cell :=
  s.mem.filterMap fun c => (s.p.areaIndex below size c.1).map fun i => (i, c.2)

/-- R406 steps 1 and 2: the tiles, local store and contexts; the rest has no layout given (assumption 17). -/
def State.writeSave (s : State) (sv : Saved) : State :=
  let below := sv.back + sv.save
  let s := s.tilesOut sv.back (s.p.tileSlots s.p.tiles)
  let s := s.saveShares below sv.save
  let s := (List.range 48).foldl (fun s c => s.saveTags below c) s
  let s := (List.range 48).foldl (fun s c => s.saveContexts below c) s
  let sv := { sv with
    tiles := s.p.tiles
    backed := s.p.backed
    code := s.p.code
    graphs := s.p.graphs
    area := s.areaCells below sv.save }
  { s with p := { s.p with saved := some sv } }

/-- R406 step 3: the save is complete once every thread has stopped and the engines are still. -/
def execSaveComplete (first : Nat) (s : State) : Res :=
  let s := s.storeThread.focusPart first
  if s.p.first ≠ first ∨ s.p.ppState ≠ 1 ∨ s.p.ppWant then .next s else
  match s.p.saved with
  | none => .next s
  | some sv =>
    if s.launchThreads.all s.threadSaved && s.p.jobs.all Job.saved && !s.inTransit then
      .next ((s.writeSave sv).setPreempt 2).kickProctor
    else .next (s.dueAt (s.cycleOfTick (s.tick + 1)) rankEnd (.ev (.saveComplete first)))

/-! Restore (R408, R409). -/

/-- R409: the first tick at or after t with the phase of the tick after the stop. -/
def resumeTick (ts d t : Nat) : Nat :=
  let n := 21760 * d
  ts + 1 + (t - (ts + 1) + n - 1) / n * n

/-- R408 step 2: tiles, local store, code and graphs as they were saved. -/
def State.readSave (s : State) (sv : Saved) : State :=
  let s := { s.wipeRanges s.p.tileRanges with p := { s.p with
    tiles := sv.tiles
    backed := sv.backed
    code := sv.code
    graphs := sv.graphs } }
  (s.tilesIn sv.back (s.p.tileSlots sv.tiles)).loadShares (sv.back + sv.save) sv.save

/-- The CRC register (R19) after bytes of zero, as a linear map: the images of its bits. -/
def zeroByte : List Nat := (List.range 32).map fun i => crcBits 8 (2 ^ i)

def crcMap (m : List Nat) (r : Nat) : Nat :=
  m.zipIdx.foldl (fun x (y, i) => if r / 2 ^ i % 2 = 1 then x ^^^ y else x) 0

/-- The register after n bytes of zero; k bits of n are looked at. -/
def crcZeros : Nat → Nat → List Nat → Nat → Nat
  | 0, _, _, r => r
  | k + 1, n, m, r => crcZeros k (n / 2) (m.map (crcMap m)) (if n % 2 = 1 then crcMap m r else r)

/-- What two lists of bytes by place differ in, by place. -/
def cellDiff (a b : List Host.Cell) : List (Nat × Nat) :=
  let of (l : List Host.Cell) (i : Nat) : Nat := match l.find? (·.1 = i) with
    | some c => c.2.toNat
    | none => 0
  (((a.filter fun c => !b.contains c) ++ b.filter fun c => !a.contains c).map (·.1)).mergeSort.eraseDups.map fun i => (i, of a i ^^^ of b i)

/-- R408 step 1: whether the area's CRC is that of the bytes saved: the CRCs of two contents agree where that of their
difference is zero. -/
def sameCrc (a b : List Host.Cell) : Bool :=
  ((cellDiff a b).foldl (fun (x : Nat × Nat) (i, d) =>
    (crcMap zeroByte (crcZeros 48 (i - x.2) zeroByte x.1 ^^^ d), i + 1)) (0, 0)).1 == 0

/-- R408: a restore: the CRC first; then everything is loaded, and the resumption tick is set. -/
def execRestore (first : Nat) (s : State) : Res :=
  let s := s.focusPart first
  if s.p.first ≠ first ∨ s.p.ppState ≠ 2 then .next s else
  match s.p.saved with
  | none => .next s
  | some sv =>
    if !sameCrc (s.areaCells (sv.back + sv.save) sv.save) sv.area then .next (s.setEntryErr s.p.entry)
    else
      let s := (s.readSave sv).setPreempt 3
      let (t, s) := s.firmwareTime
      .next (s.dueAt (s.cycleOfTick (resumeTick sv.ts s.p.run.d (s.tick + 1 + t))) 0 (.ev (.resume first)))

/-- A thread's times, `by_` core cycles later. -/
def Thread.shift (t : Thread) (by_ : Nat) : Thread :=
  { t with
    slotAt := t.slotAt + by_
    lastIssue := t.lastIssue + by_
    napAt := if t.napAt = 0 then 0 else t.napAt + by_ }

/-- R307: a job that was stopped where it stood goes on as it stood: its times, `by_` core cycles later. -/
def Job.shift (j : Job) (by_ : Nat) : Job :=
  let later (l : Tab Token) : Tab Token := l.map fun (k, t) => (k, { t with at_ := t.at_ + by_ })
  if !j.started then j
  else { j with
    lastStep := j.lastStep + by_
    lastAcc := j.lastAcc + by_
    graph := { j.graph with inputs := later j.graph.inputs, agen := later j.graph.agen } }

/-- R208: a stream after a restore: its ready times are rebuilt from the resumption cycle and its position, which is all
that Table 17.13 keeps (assumption 23). -/
def StreamReg.rebuilt (st : StreamReg) (now : Nat) : StreamReg :=
  if st.push || st.port then st else { st with base := now, pops := List.replicate (min 4 st.k) 0, buf := [] }

/-- R208: the acting thread's streams are rebuilt; the elements from each position on are expected. -/
def State.rebuildStreams (s : State) : State :=
  let again (st : StreamReg) : StreamReg := st.rebuilt s.now
  let s := { s with cur := { s.cur with streams := s.cur.streams.map again, back := s.cur.back.map again } }
  (List.range 4).foldl (fun s x => match s.cur.streams.toList[x]? with
    | some st => if st.bound && !st.push && !st.port then
        (List.range 4).foldl (fun s i => s.expectElem x (st.k + i)) s else s
    | none => s) s

/-- R408 step 4: the acting thread issues again, at the slot it would have had. -/
def State.reissue (s : State) : State :=
  let s := { s with cur := { s.cur with status := .ready } }
  if s.cur.recite = 2 then s
  else if s.cur.slotAt < s.now then s.scheduleIssue s.now
  else (s.dueAt s.cur.slotAt (rankIssue + s.cur.loc.key) (.issue s.cur.uid)).lendFrom s.cur.loc s.now

/-- R408 step 4: a thread goes on: at the slot it would have had. A `nap` issues again and counts the rest of its time; in
a recitation group it waits on, since the bundle is not forwarded again. -/
def State.resumeThread (s : State) (by_ : Nat) (uid : Nat) : State :=
  let s := s.focusThread uid
  if s.cur.uid ≠ uid then s
  else
    let s := ({ s with cur := s.cur.shift by_ } : State).rebuildStreams
    let s := if s.cur.parkedCmd.isSome then
        (List.range 3).foldl (fun s e => s.dueIn 0 rankDone (.parkedCommandAccepted uid (e + 1))) s else s
    match s.cur.status with
    | .saved _ => s.reissue
    | .waiting _ => s.scheduleIssue s.now
    | .napping =>
      if s.cur.recite = 0 then (s.giveUp .drain).reissue
      else if s.cur.monitor.seen then s.dueAt s.now rankDone (.ev (.napWake uid))
      else if s.cur.napAt = 0 then s
      else s.dueAt s.cur.napAt rankNap (.ev (.napTimeout uid s.cur.napAt))
    | _ => s

/-- R321: a thread that had arrived at its home and not issued there: the restore gives it the first free context of its
cluster. -/
def State.replace (s : State) (l : Loc) : State :=
  match s.launchThreads.find? fun (t : Thread) => t.loc == l && t.fromCluster != l.cluster with
  | none => s
  | some t =>
    match s.freeContexts l.cluster with
    | m :: _ =>
      if (s.p.contexts l.cluster).idxOf m < (s.p.contexts l.cluster).idxOf l then
        s.onThread t.uid fun t => { t with loc := m, slotAt := 0 }
      else s
    | [] => s

/-- R365: a cluster's governor counts on. -/
def State.resumeGov (s : State) (by_ cluster : Nat) : State :=
  let w : Task := .ev (.governorBoundary s.p.first cluster)
  let g := (s.cluster cluster).gov
  if g.word = 0 then s
  else
    let s := { s with agenda := s.agenda.filter fun i => i.what != w }
    let s := s.onCluster cluster fun c => { c with gov := { c.gov with start := c.gov.start + by_ } }
    let per := s.govPeriod g.table
    s.dueIn (if g.pend.isEmpty then per - (s.now - (g.start + by_)) % per else 1) rankEngine (.governorBoundary s.p.first cluster)

/-- R408 steps 3 and 4, R325, R409: everything goes on as in the tick after the stop; entries that were resolved meanwhile
are served. -/
def execResume (first : Nat) (s : State) : Res :=
  let s := s.storeThread.focusPart first
  if s.p.first ≠ first ∨ s.p.ppState ≠ 3 then .next s else
  match s.p.saved with
  | none => .next s
  | some sv =>
    let n := s.tick - sv.ts - 1
    let s := { s with p := { s.p with saved := none } }.setPreempt 0
    let s := s.onRun fun r => { r with
      stopped := sv.held
      plan := sv.plan
      runBase := if sv.held then r.runBase else sv.base + n
      tick0 := if sv.ts < r.tick0 then r.tick0 + n else r.tick0
      heldAt := r.heldAt + n
      resumeAt := r.resumeAt + n
      bellAt := r.bellAt.map fun t => t + n }
    let s := sv.items.foldl (fun s i => s.dueAt (i.cycle + 2 * n) i.rank i.what) s
    let s := { s with p := { s.p with jobs := s.p.jobs.map fun (j : Job) => j.shift (2 * n) } }
    let s := ((s.p.clusters.map (·.1)).flatMap s.p.contexts).foldl State.replace s
    let uids := s.launchThreads.map (·.uid)
    let s := uids.foldl (fun s u => s.resumeThread (2 * n) u) s
    let s := s.storeThread.focusPart first
    let s := (s.lists.filter fun e => e.2.any fun (w : Waiter) => uids.contains w.uid).foldl (fun s e => s.wakeList e.1 s.now) s
    let s := (s.p.clusters.map (·.1)).foldl (fun s c => (s.resumeGov (2 * n) c).lookAtHead c) s
    let s := (s.p.waits.filter fun e => e.2.act != 0).foldl (fun s e =>
      ((s.focusPart first).resolve e.1 (e.2.act == 1)).storeThread) s
    .next ((s.focusPart first).mayRetire).kickProctor

end Sys2Proof.Machine
end

