-- ==== Sys2Proof/Machine/Proctor.lean ====
section
/-! DEFINITION. The proctor instructions (R84, R379, R387, Table 16.6). -/

namespace Sys2Proof.Machine

/-- R84: row 0x060 is legal only in a proctor context. -/
def State.asProctor (s : State) (g : Guard) (f : State → State) : Res :=
  if !s.cur.proctor then .next (s.raise 2 s.cur.pc) else if s.guard g then .next (f s) else .next s

/-- Whether an item is the pending swap bell of a partition. -/
def isSwapBell (first : Nat) (i : Item) : Bool := i.what == .ev (.overlaySwapBell first)

/-- R387, R411: the bell of the overlay that the other banks hold, with tick 0 at a TICK. -/
def State.ringSwap (s : State) (k at_ : Nat) : State :=
  let s := if s.p.run.bellAt.isNone then s.count 15 else s
  let first := s.p.first
  let s := { s with agenda := s.agenda.filter fun i => !isSwapBell first i }
  (s.onRun fun r => { r with bellAt := some at_, chainNext := k }).dueAt (s.cycleOfTick at_) 0 (.ev (.overlaySwapBell first))

/-- Table 16.6, `pbell`: overlay 0 of a launch that waits for its first bell, or the preloaded overlay at a swap; else, or
with a target too near, a deadline fault. A target of 0 means lead ticks after this one. -/
def State.ringBell (s : State) (k target : Nat) : State :=
  let run := s.p.run
  let first : Bool := run.active && run.chain == .none && k == 0
  let at_ := if target ≠ 0 then target else s.tick + blkLead (if first then s.p.bank0 else run.nextBlock)
  if at_ < s.tick + 16 then s.runFault 17
  else if first then s.startRun at_
  else if run.active && run.chain == .swapping && run.preloaded == some k then s.ringSwap k at_
  else s.runFault 17

def execPbell (g : Guard) (rs x : BitVec 5) (s : State) : Res :=
  s.asProctor g fun s => s.ringBell (field (s.ra rs) 7 0) (s.ra x).toNat

/-- R387, R93. Without a running launch there is no overlay to load. -/
def execPload (g : Guard) (d rs : BitVec 5) (s : State) : Res :=
  s.asProctor g fun s =>
    if s.p.run.preload.isSome then s.landA 4 d 1
    else
      let k := field (s.ra rs) 7 0
      (if s.p.run.active then s.startPreload k else s).landA 4 d 0

/-- R387, R385 -/
def execPhold (g : Guard) (rs x : BitVec 5) (s : State) : Res :=
  s.asProctor g fun s =>
    let r := field (s.ra x) 7 0
    if s.ra rs = 1 then s.addHold r else if s.ra rs = 2 then s.dropHold r else s

/-- The die of the acting proctor. -/
def State.ownDie (s : State) : Nat := s.cur.loc.cluster - 48

/-- R379, R387: a phase of largest magnitude among the die's four ports, sign-extended; where two have it, which one is
open. -/
def State.largestPhase (s : State) (free : Nat) : Word :=
  let l := (List.range 4).map fun i => (s.links.toList.getD (4 * s.ownDie + i) ⟨0, 0⟩).phase
  let m := (l.map Int.natAbs).foldl max 0
  let c := l.filter fun x => x.natAbs = m
  BitVec.ofInt 64 (c.getD (free % c.length) 0)

/-- R387, R379: a trim changes the length of ticks and no tick: the model keeps its value. -/
def execPdrift (g : Guard) (d rs : BitVec 5) (s : State) : Res :=
  s.asProctor g fun s =>
    let v := s.ra rs
    if field v 63 13 ≠ 0 then s.raise 4 v
    else
      let die := s.ownDie
      let p := s.largestPhase (Config.unstated s.fresh).toNat
      let s := { s with
        fresh := s.fresh + 1
        mgmt := { s.mgmt with
          trimmed := if h : die < 4 then s.mgmt.trimmed.set die (v.setWidth 13) else s.mgmt.trimmed } }
      s.landA 4 d p

end Sys2Proof.Machine
end

