-- ==== Sys2Proof/Machine/Dispatch.lean ====
section
/-! DEFINITION. Each constructor's meaning. -/

namespace Sys2Proof.Machine

def exec (i : Instr) (s : State) : Host.Outcome State Fault Refusal :=
  match i with
  | .launchSlotWrite vf slot size v => Sys2Proof.Machine.execLaunchSlotWrite vf slot size v s
  | .admitRecord first => Sys2Proof.Machine.execAdmitRecord first s
  | .launch first => Sys2Proof.Machine.execLaunch first s
  | .drop first => Sys2Proof.Machine.execDrop first s
  | .abortLaunch vf => Sys2Proof.Machine.execAbortLaunch vf s
  | .clearOverrun vf => Sys2Proof.Machine.execClearOverrun vf s
  | .partitionEntryWrite e w => Sys2Proof.Machine.execPartitionEntryWrite e w s
  | .partitionRelease e => Sys2Proof.Machine.execPartitionRelease e s
  | .releaseComplete e => Sys2Proof.Machine.execReleaseComplete e s
  | .registerWrite fn off size v => Sys2Proof.Machine.execRegisterWrite fn off size v s
  | .faultRingConsumerWrite v => Sys2Proof.Machine.execFaultRingConsumerWrite v s
  | .resolveRetry slot first => Sys2Proof.Machine.execResolveRetry slot first s
  | .resolveFault slot first => Sys2Proof.Machine.execResolveFault slot first s
  | .stagingRetry cluster first => Sys2Proof.Machine.execStagingRetry cluster first s
  | .stagingDiscard cluster first => Sys2Proof.Machine.execStagingDiscard cluster first s
  | .preempt first => Sys2Proof.Machine.execPreempt first s
  | .restore first => Sys2Proof.Machine.execRestore first s
  | .saveComplete first => Sys2Proof.Machine.execSaveComplete first s
  | .resume first => Sys2Proof.Machine.execResume first s
  | .formGroup measured members => Sys2Proof.Machine.execFormGroup measured members s
  | .dissolveGroup => Sys2Proof.Machine.execDissolveGroup s
  | .linkTableEntry port w0 => Sys2Proof.Machine.execLinkTableEntry port w0 s
  | .groupWord w => Sys2Proof.Machine.execGroupWord w s
  | .homingEntry first n v => Sys2Proof.Machine.execHomingEntry first n v s
  | .translationEntry first cluster w0 w1 => Sys2Proof.Machine.execTranslationEntry first cluster w0 w1 s
  | .hostWindow first base len => Sys2Proof.Machine.execHostWindow first base len s
  | .peerAddress index v => Sys2Proof.Machine.execPeerAddress index v s
  | .mcMaint ctl v => Sys2Proof.Machine.execMcMaint ctl v s
  | .requestSoftRepair ctl ch bank row => Sys2Proof.Machine.execRequestSoftRepair ctl ch bank row s
  | .readErrorLog ctl index => Sys2Proof.Machine.execReadErrorLog ctl index s
  | .readHotness first cluster w0 => Sys2Proof.Machine.execReadHotness first cluster w0 s
  | .readIdentity => Sys2Proof.Machine.execReadIdentity s
  | .stageFirmware number signed commit => Sys2Proof.Machine.execStageFirmware number signed commit s
  | .unknownMailboxCommand code => Sys2Proof.Machine.execUnknownMailboxCommand code s
  | .hostBar2Write fn off size v => Sys2Proof.Machine.execHostBar2Write fn off size v s
  | .hostBar2Read fn off size => Sys2Proof.Machine.execHostBar2Read fn off size s
  | .bringUp firmwareOk configOk listOk limit => Sys2Proof.Machine.execBringUp firmwareOk configOk listOk limit s
  | .powerWindow watts celsius => Sys2Proof.Machine.execPowerWindow watts celsius s
  | .emergencyTrip => Sys2Proof.Machine.execEmergencyTrip s
  | .linkFaultEvent port lockLost phase => Sys2Proof.Machine.execLinkFaultEvent port lockLost phase s
  | .linkLineArrives first tile stile port data pois flits ltick => Sys2Proof.Machine.execLinkLineArrives first tile stile port data pois flits ltick s
  | .groupControlMessage m => Sys2Proof.Machine.execGroupControlMessage m s
  | .groupLaunchStart first => Sys2Proof.Machine.execGroupLaunchStart first s
  | .peerRequestArrives r => Sys2Proof.Machine.execPeerRequestArrives r s
  | .peerReplyArrives uid id v bad => Sys2Proof.Machine.execPeerReplyArrives uid id v bad s
  | .rollCallFence first cluster core => Sys2Proof.Machine.execRollCallFence first cluster core s
  | .budgetExceeded first => Sys2Proof.Machine.execBudgetExceeded first s
  | .clearingClose first tile mask limit => Sys2Proof.Machine.execClearingClose first tile mask limit s
  | .holdBegins first => Sys2Proof.Machine.execHoldBegins first s
  | .holdResume first => Sys2Proof.Machine.execHoldResume first s
  | .holdLimitExpires first tile slot => Sys2Proof.Machine.execHoldLimitExpires first tile slot s
  | .governorBoundary first cluster => Sys2Proof.Machine.execGovernorBoundary first cluster s
  | .retrainBurst chan converged => Sys2Proof.Machine.execRetrainBurst chan converged s
  | .maintenanceSlot chan => Sys2Proof.Machine.execMaintenanceSlot chan s
  | .repairLatch ctl ch bank row => Sys2Proof.Machine.execRepairLatch ctl ch bank row s
  | .timedLineRequest req => Sys2Proof.Machine.execTimedLineRequest req s
  | .timedEffectLands first tile e => Sys2Proof.Machine.execTimedEffectLands first tile e s
  | .preloadComplete first => Sys2Proof.Machine.execPreloadComplete first s
  | .overlayDrained first => Sys2Proof.Machine.execOverlayDrained first s
  | .overlaySwapBell first => Sys2Proof.Machine.execOverlaySwapBell first s
  | .residentSetChange first => Sys2Proof.Machine.execResidentSetChange first s
  | .launchFaultEnd first => Sys2Proof.Machine.execLaunchFaultEnd first s
  | .launchRetires first => Sys2Proof.Machine.execLaunchRetires first s
  | .rearmComplete first => Sys2Proof.Machine.execRearmComplete first s
  | .registerResultLands uid born w => Sys2Proof.Machine.execRegisterResultLands uid born w s
  | .jobIdReturn uid d id => Sys2Proof.Machine.execJobIdReturn uid d id s
  | .accessComplete uid c => Sys2Proof.Machine.execAccessComplete uid c s
  | .lateFault uid kind info miss => Sys2Proof.Machine.execLateFault uid kind info miss s
  | .syncAccessArrives uid a => Sys2Proof.Machine.execSyncAccessArrives uid a s
  | .waiterPerforms addr => Sys2Proof.Machine.execWaiterPerforms addr s
  | .napWake uid => Sys2Proof.Machine.execNapWake uid s
  | .napTimeout uid due => Sys2Proof.Machine.execNapTimeout uid due s
  | .migrationSend uid => Sys2Proof.Machine.execMigrationSend uid s
  | .migrationArrival uid corrupt => Sys2Proof.Machine.execMigrationArrival uid corrupt s
  | .trapEntry uid => Sys2Proof.Machine.execTrapEntry uid s
  | .taskDispatch first cluster => Sys2Proof.Machine.execTaskDispatch first cluster s
  | .taskStaged first cluster => Sys2Proof.Machine.execTaskStaged first cluster s
  | .enqueueAccepted first cluster => Sys2Proof.Machine.execEnqueueAccepted first cluster s
  | .parkedCommandAccepted uid eng => Sys2Proof.Machine.execParkedCommandAccepted uid eng s
  | .engineStep first job => Sys2Proof.Machine.execEngineStep first job s
  | .jobComplete first job => Sys2Proof.Machine.execJobComplete first job s
  | .streamPushLands uid sq pos val mask => Sys2Proof.Machine.execStreamPushLands uid sq pos val mask s
  | .packetArrives p => Sys2Proof.Machine.execPacketArrives p s
  | .postPerforms uid tile slot d v addr born => Sys2Proof.Machine.execPostPerforms uid tile slot d v addr born s
  | .asidClear first asid => Sys2Proof.Machine.execAsidClear first asid s
  | .asidDropAck first asid uid d started => Sys2Proof.Machine.execAsidDropAck first asid uid d started s
  | .hostTimeout uid id => Sys2Proof.Machine.execHostTimeout uid id s
  | .resSlotNop k bits => Sys2Proof.Machine.execResSlotNop k bits s
  | .invalidLaunchWord first => Sys2Proof.Machine.execInvalidLaunchWord first s
  | .illegalInstruction k => Sys2Proof.Machine.execIllegalInstruction k s
  | .fetchFault => Sys2Proof.Machine.execFetchFault s
  | .illegalStreamWord => Sys2Proof.Machine.execIllegalStreamWord s
  | .enqueueReachesQueue e => Sys2Proof.Machine.execEnqueueReachesQueue e s
  | .portQueueChunkEnters first cluster q job line pois => Sys2Proof.Machine.execPortQueueChunkEnters first cluster q job line pois s
  | .softError addr uncorrectable => Sys2Proof.Machine.execSoftError addr uncorrectable s
  | .powerLoss duringAppend => Sys2Proof.Machine.execPowerLoss duringAppend s
  | .nop g => Sys2Proof.Machine.execNop g s
  | .add g d rs t fn => Sys2Proof.Machine.execAdd g d rs t fn s
  | .sub g d rs t fn => Sys2Proof.Machine.execSub g d rs t fn s
  | .and g d rs t => Sys2Proof.Machine.execAnd g d rs t s
  | .or g d rs t => Sys2Proof.Machine.execOr g d rs t s
  | .xor g d rs t => Sys2Proof.Machine.execXor g d rs t s
  | .andn g d rs t => Sys2Proof.Machine.execAndn g d rs t s
  | .shl g d rs t => Sys2Proof.Machine.execShl g d rs t s
  | .shr g d rs t => Sys2Proof.Machine.execShr g d rs t s
  | .sar g d rs t => Sys2Proof.Machine.execSar g d rs t s
  | .mul g d rs t => Sys2Proof.Machine.execMul g d rs t s
  | .mulh g d rs t => Sys2Proof.Machine.execMulh g d rs t s
  | .mulhw g d rs t => Sys2Proof.Machine.execMulhw g d rs t s
  | .min g d rs t => Sys2Proof.Machine.execMin g d rs t s
  | .max g d rs t => Sys2Proof.Machine.execMax g d rs t s
  | .minw g d rs t => Sys2Proof.Machine.execMinw g d rs t s
  | .maxw g d rs t => Sys2Proof.Machine.execMaxw g d rs t s
  | .div g d rs t => Sys2Proof.Machine.execDiv g d rs t s
  | .divw g d rs t => Sys2Proof.Machine.execDivw g d rs t s
  | .rem g d rs t => Sys2Proof.Machine.execRem g d rs t s
  | .remw g d rs t => Sys2Proof.Machine.execRemw g d rs t s
  | .mov g d rs => Sys2Proof.Machine.execMov g d rs s
  | .clz g d rs => Sys2Proof.Machine.execClz g d rs s
  | .popc g d rs => Sys2Proof.Machine.execPopc g d rs s
  | .ext g d rs t => Sys2Proof.Machine.execExt g d rs t s
  | .extw g d rs t => Sys2Proof.Machine.execExtw g d rs t s
  | .rol g d rs t => Sys2Proof.Machine.execRol g d rs t s
  | .ror g d rs t => Sys2Proof.Machine.execRor g d rs t s
  | .bswap g d rs => Sys2Proof.Machine.execBswap g d rs s
  | .sel g d rs t fn => Sys2Proof.Machine.execSel g d rs t fn s
  | .addi g d rs imm => Sys2Proof.Machine.execAddi g d rs imm s
  | .andi g d rs imm => Sys2Proof.Machine.execAndi g d rs imm s
  | .ori g d rs imm => Sys2Proof.Machine.execOri g d rs imm s
  | .xori g d rs imm => Sys2Proof.Machine.execXori g d rs imm s
  | .shli g d rs imm => Sys2Proof.Machine.execShli g d rs imm s
  | .shri g d rs imm => Sys2Proof.Machine.execShri g d rs imm s
  | .sari g d rs imm => Sys2Proof.Machine.execSari g d rs imm s
  | .muli g d rs imm => Sys2Proof.Machine.execMuli g d rs imm s
  | .movi g d imm => Sys2Proof.Machine.execMovi g d imm s
  | .mini g d rs imm => Sys2Proof.Machine.execMini g d rs imm s
  | .maxi g d rs imm => Sys2Proof.Machine.execMaxi g d rs imm s
  | .rori g d rs imm => Sys2Proof.Machine.execRori g d rs imm s
  | .cmp g d rs t fn => Sys2Proof.Machine.execCmp g d rs t fn s
  | .cmpiEq g d rs imm => Sys2Proof.Machine.execCmpiEq g d rs imm s
  | .cmpiNe g d rs imm => Sys2Proof.Machine.execCmpiNe g d rs imm s
  | .cmpiLt g d rs imm => Sys2Proof.Machine.execCmpiLt g d rs imm s
  | .cmpiGe g d rs imm => Sys2Proof.Machine.execCmpiGe g d rs imm s
  | .cmpiLtw g d rs imm => Sys2Proof.Machine.execCmpiLtw g d rs imm s
  | .cmpiGew g d rs imm => Sys2Proof.Machine.execCmpiGew g d rs imm s
  | .pand g d rs t => Sys2Proof.Machine.execPand g d rs t s
  | .por g d rs t => Sys2Proof.Machine.execPor g d rs t s
  | .pxor g d rs t => Sys2Proof.Machine.execPxor g d rs t s
  | .pandn g d rs t => Sys2Proof.Machine.execPandn g d rs t s
  | .prd g d => Sys2Proof.Machine.execPrd g d s
  | .pwr g rs => Sys2Proof.Machine.execPwr g rs s
  | .ld g d rs t fn => Sys2Proof.Machine.execLd g d rs t fn s
  | .st g d rs t fn => Sys2Proof.Machine.execSt g d rs t fn s
  | .ldf g d rs t fn => Sys2Proof.Machine.execLdf g d rs t fn s
  | .ldfe g d rs t fn => Sys2Proof.Machine.execLdfe g d rs t fn s
  | .stf g d rs t fn => Sys2Proof.Machine.execStf g d rs t fn s
  | .ste g d rs t fn => Sys2Proof.Machine.execSte g d rs t fn s
  | .fill g rs t fn => Sys2Proof.Machine.execFill g rs t fn s
  | .empty g rs t fn => Sys2Proof.Machine.execEmpty g rs t fn s
  | .watch g d rs t => Sys2Proof.Machine.execWatch g d rs t s
  | .nap g d rs => Sys2Proof.Machine.execNap g d rs s
  | .fence g fn => Sys2Proof.Machine.execFence g fn s
  | .semTake g d rs t fn => Sys2Proof.Machine.execSemTake g d rs t fn s
  | .semGive g d rs t fn => Sys2Proof.Machine.execSemGive g d rs t fn s
  | .jr g rs => Sys2Proof.Machine.execJr g rs s
  | .jrl g d rs => Sys2Proof.Machine.execJrl g d rs s
  | .yield g => Sys2Proof.Machine.execYield g s
  | .roll g => Sys2Proof.Machine.execRoll g s
  | .texit g => Sys2Proof.Machine.execTexit g s
  | .anchor g fn => Sys2Proof.Machine.execAnchor g fn s
  | .tick g d => Sys2Proof.Machine.execTick g d s
  | .cycl g d => Sys2Proof.Machine.execCycl g d s
  | .jwait g d rs => Sys2Proof.Machine.execJwait g d rs s
  | .jpoll g d rs => Sys2Proof.Machine.execJpoll g d rs s
  | .rnd g d rs => Sys2Proof.Machine.execRnd g d rs s
  | .li g d imm => Sys2Proof.Machine.execLi g d imm s
  | .lih g d imm => Sys2Proof.Machine.execLih g d imm s
  | .addl g d rs imm => Sys2Proof.Machine.execAddl g d rs imm s
  | .andl g d rs imm => Sys2Proof.Machine.execAndl g d rs imm s
  | .orl g d rs imm => Sys2Proof.Machine.execOrl g d rs imm s
  | .xorl g d rs imm => Sys2Proof.Machine.execXorl g d rs imm s
  | .mull g d rs imm => Sys2Proof.Machine.execMull g d rs imm s
  | .ldl g d rs x f imm => Sys2Proof.Machine.execLdl g d rs x f imm s
  | .stl g d rs x f imm => Sys2Proof.Machine.execStl g d rs x f imm s
  | .br g imm => Sys2Proof.Machine.execBr g imm s
  | .call g d imm => Sys2Proof.Machine.execCall g d imm s
  | .rsv g d rs x f imm => Sys2Proof.Machine.execRsv g d rs x f imm s
  | .rls g d rs x f imm => Sys2Proof.Machine.execRls g d rs x f imm s
  | .dctr g d rs imm => Sys2Proof.Machine.execDctr g d rs imm s
  | .tlook g d rs x imm => Sys2Proof.Machine.execTlook g d rs x imm s
  | .tset g d rs x => Sys2Proof.Machine.execTset g d rs x s
  | .tdrop g d x f => Sys2Proof.Machine.execTdrop g d x f s
  | .mjob g d rs x imm => Sys2Proof.Machine.execMjob g d rs x imm s
  | .mjobG g d rs x imm => Sys2Proof.Machine.execMjobG g d rs x imm s
  | .cjob g d rs => Sys2Proof.Machine.execCjob g d rs s
  | .gjob g d rs => Sys2Proof.Machine.execGjob g d rs s
  | .pktOpen g rs imm => Sys2Proof.Machine.execPktOpen g rs imm s
  | .pktAdd g rs x f => Sys2Proof.Machine.execPktAdd g rs x f s
  | .pktEnd g rs x f => Sys2Proof.Machine.execPktEnd g rs x f s
  | .matchTag g d rs => Sys2Proof.Machine.execMatchTag g d rs s
  | .post g d rs x imm => Sys2Proof.Machine.execPost g d rs x imm s
  | .sbind g rs x f imm => Sys2Proof.Machine.execSbind g rs x f imm s
  | .ebind g x => Sys2Proof.Machine.execEbind g x s
  | .spawn g rs x f imm => Sys2Proof.Machine.execSpawn g rs x f imm s
  | .trap g imm => Sys2Proof.Machine.execTrap g imm s
  | .rtt g => Sys2Proof.Machine.execRtt g s
  | .crd g d imm => Sys2Proof.Machine.execCrd g d imm s
  | .cwr g rs imm => Sys2Proof.Machine.execCwr g rs imm s
  | .asidBind g rs => Sys2Proof.Machine.execAsidBind g rs s
  | .asidDrop g d rs => Sys2Proof.Machine.execAsidDrop g d rs s
  | .pbell g rs x => Sys2Proof.Machine.execPbell g rs x s
  | .pload g d rs => Sys2Proof.Machine.execPload g d rs s
  | .phold g rs x => Sys2Proof.Machine.execPhold g rs x s
  | .pdrift g d rs => Sys2Proof.Machine.execPdrift g d rs s
  | .nopStream => Sys2Proof.Machine.execNopStream s
  | .wait n => Sys2Proof.Machine.execWait n s
  | .loop c always target => Sys2Proof.Machine.execLoop c always target s
  | .setta imm hi reg cls => Sys2Proof.Machine.execSetta imm hi reg cls s
  | .addta imm reg cls => Sys2Proof.Machine.execAddta imm reg cls s
  | .bell n => Sys2Proof.Machine.execBell n s
  | .brp slot count base span => Sys2Proof.Machine.execBrp slot count base span s
  | .clear mask seed span => Sys2Proof.Machine.execClear mask seed span s
  | .chkp slot stream cls reg => Sys2Proof.Machine.execChkp slot stream cls reg s
  | .prept n => Sys2Proof.Machine.execPrept n s
  | .region index writer => Sys2Proof.Machine.execRegion index writer s
  | .hold slot limit => Sys2Proof.Machine.execHold slot limit s
  | .drift mask => Sys2Proof.Machine.execDrift mask s
  | .rgeom reg stream => Sys2Proof.Machine.execRgeom reg stream s
  | .halt code => Sys2Proof.Machine.execHalt code s
  | .tld h m x gslot g pol form n => Sys2Proof.Machine.execTld h m x gslot g pol form n s
  | .tldg h m x gslot g pol rows rl => Sys2Proof.Machine.execTldg h m x gslot g pol rows rl s
  | .tldr rs m tile n => Sys2Proof.Machine.execTldr rs m tile n s
  | .tst h m x gslot g form n => Sys2Proof.Machine.execTst h m x gslot g form n s
  | .mma m ta tb fa fb kk z blk sa sb => Sys2Proof.Machine.execMma m ta tb fa fb kk z blk sa sb s
  | .mmag m ta tb fa fb kk lst dec z k dd => Sys2Proof.Machine.execMmag m ta tb fa fb kk lst dec z k dd s
  | .mspill m ta fmt zr => Sys2Proof.Machine.execMspill m ta fmt zr s
  | .mfill m ta => Sys2Proof.Machine.execMfill m ta s
  | .madd md ma mb => Sys2Proof.Machine.execMadd md ma mb s
  | .mmov md ma z => Sys2Proof.Machine.execMmov md ma z s
  | .eadd d a b fmt n => Sys2Proof.Machine.execEadd d a b fmt n s
  | .esub d a b fmt n => Sys2Proof.Machine.execEsub d a b fmt n s
  | .emul d a b fmt n => Sys2Proof.Machine.execEmul d a b fmt n s
  | .ema d a b c fmt n => Sys2Proof.Machine.execEma d a b c fmt n s
  | .emax d a b fmt n => Sys2Proof.Machine.execEmax d a b fmt n s
  | .emin d a b fmt n => Sys2Proof.Machine.execEmin d a b fmt n s
  | .ecvt d a src dst n rmode sat site => Sys2Proof.Machine.execEcvt d a src dst n rmode sat site s
  | .eexp d a fmt n => Sys2Proof.Machine.execEexp d a fmt n s
  | .ercp d a fmt n => Sys2Proof.Machine.execErcp d a fmt n s
  | .ersq d a fmt n => Sys2Proof.Machine.execErsq d a fmt n s
  | .etanh d a fmt n => Sys2Proof.Machine.execEtanh d a fmt n s
  | .esel d a b c fmt n => Sys2Proof.Machine.execEsel d a b c fmt n s
  | .ecmp d a b fmt n cond => Sys2Proof.Machine.execEcmp d a b fmt n cond s
  | .escale d a b fmt n => Sys2Proof.Machine.execEscale d a b fmt n s
  | .elog2 d a fmt n => Sys2Proof.Machine.execElog2 d a fmt n s
  | .sred d a fmt n op => Sys2Proof.Machine.execSred d a fmt n op s
  | .strn d a fmt n => Sys2Proof.Machine.execStrn d a fmt n s
  | .sperm d a b fmt n => Sys2Proof.Machine.execSperm d a b fmt n s
  | .sbc d a fmt n => Sys2Proof.Machine.execSbc d a fmt n s
  | .sslice d a fmt n stride => Sys2Proof.Machine.execSslice d a fmt n stride s
  | .sscan d a fmt n => Sys2Proof.Machine.execSscan d a fmt n s
  | .sroll d a fmt n r => Sys2Proof.Machine.execSroll d a fmt n r s
  | .sendt src kind tile port n => Sys2Proof.Machine.execSendt src kind tile port n s
  | .recvt dst kind tile port n pol => Sys2Proof.Machine.execRecvt dst kind tile port n pol s
  | .vnop => Sys2Proof.Machine.execVnop s
  | .fadd alt vm vd va vb => Sys2Proof.Machine.execFadd alt vm vd va vb s
  | .fsub alt vm vd va vb => Sys2Proof.Machine.execFsub alt vm vd va vb s
  | .fmul alt vm vd va vb => Sys2Proof.Machine.execFmul alt vm vd va vb s
  | .fma alt vm vd va vb => Sys2Proof.Machine.execFma alt vm vd va vb s
  | .fms alt vm vd va vb => Sys2Proof.Machine.execFms alt vm vd va vb s
  | .fnma alt vm vd va vb => Sys2Proof.Machine.execFnma alt vm vd va vb s
  | .fnms alt vm vd va vb => Sys2Proof.Machine.execFnms alt vm vd va vb s
  | .fmin alt vm vd va vb => Sys2Proof.Machine.execFmin alt vm vd va vb s
  | .fmax alt vm vd va vb => Sys2Proof.Machine.execFmax alt vm vd va vb s
  | .fabs alt vm vd va => Sys2Proof.Machine.execFabs alt vm vd va s
  | .fneg alt vm vd va => Sys2Proof.Machine.execFneg alt vm vd va s
  | .fsgn alt vm vd va vb => Sys2Proof.Machine.execFsgn alt vm vd va vb s
  | .fdiv alt vm vd va vb => Sys2Proof.Machine.execFdiv alt vm vd va vb s
  | .fsqrt alt vm vd va => Sys2Proof.Machine.execFsqrt alt vm vd va s
  | .hadd alt vm vd va vb => Sys2Proof.Machine.execHadd alt vm vd va vb s
  | .hsub alt vm vd va vb => Sys2Proof.Machine.execHsub alt vm vd va vb s
  | .hmul alt vm vd va vb => Sys2Proof.Machine.execHmul alt vm vd va vb s
  | .hma alt vm vd va vb => Sys2Proof.Machine.execHma alt vm vd va vb s
  | .hmin alt vm vd va vb => Sys2Proof.Machine.execHmin alt vm vd va vb s
  | .hmax alt vm vd va vb => Sys2Proof.Machine.execHmax alt vm vd va vb s
  | .hdot alt vm vd va vb => Sys2Proof.Machine.execHdot alt vm vd va vb s
  | .hcmpEq alt vm vd va vb => Sys2Proof.Machine.execHcmpEq alt vm vd va vb s
  | .hcmpLt alt vm vd va vb => Sys2Proof.Machine.execHcmpLt alt vm vd va vb s
  | .hcmpLe alt vm vd va vb => Sys2Proof.Machine.execHcmpLe alt vm vd va vb s
  | .fcmpEq alt vm vd va vb => Sys2Proof.Machine.execFcmpEq alt vm vd va vb s
  | .fcmpLt alt vm vd va vb => Sys2Proof.Machine.execFcmpLt alt vm vd va vb s
  | .fcmpLe alt vm vd va vb => Sys2Proof.Machine.execFcmpLe alt vm vd va vb s
  | .fcmpUn alt vm vd va vb => Sys2Proof.Machine.execFcmpUn alt vm vd va vb s
  | .fclass alt vm vd va => Sys2Proof.Machine.execFclass alt vm vd va s
  | .vsel alt vm vd va vb => Sys2Proof.Machine.execVsel alt vm vd va vb s
  | .fsum alt vm vd va => Sys2Proof.Machine.execFsum alt vm vd va s
  | .fmaxr alt vm vd va => Sys2Proof.Machine.execFmaxr alt vm vd va s
  | .fminr alt vm vd va => Sys2Proof.Machine.execFminr alt vm vd va s
  | .fscan alt vm vd va => Sys2Proof.Machine.execFscan alt vm vd va s
  | .famaxr alt vm vd va => Sys2Proof.Machine.execFamaxr alt vm vd va s
  | .vaddW3216 alt vm vd va vb => Sys2Proof.Machine.execVaddW3216 alt vm vd va vb s
  | .vsubW3216 alt vm vd va vb => Sys2Proof.Machine.execVsubW3216 alt vm vd va vb s
  | .vmulW3216 alt vm vd va vb => Sys2Proof.Machine.execVmulW3216 alt vm vd va vb s
  | .vmulhW3216 alt vm vd va vb => Sys2Proof.Machine.execVmulhW3216 alt vm vd va vb s
  | .vminW3216 alt vm vd va vb => Sys2Proof.Machine.execVminW3216 alt vm vd va vb s
  | .vmaxW3216 alt vm vd va vb => Sys2Proof.Machine.execVmaxW3216 alt vm vd va vb s
  | .vminwW3216 alt vm vd va vb => Sys2Proof.Machine.execVminwW3216 alt vm vd va vb s
  | .vmaxwW3216 alt vm vd va vb => Sys2Proof.Machine.execVmaxwW3216 alt vm vd va vb s
  | .vandW3216 alt vm vd va vb => Sys2Proof.Machine.execVandW3216 alt vm vd va vb s
  | .vorW3216 alt vm vd va vb => Sys2Proof.Machine.execVorW3216 alt vm vd va vb s
  | .vxorW3216 alt vm vd va vb => Sys2Proof.Machine.execVxorW3216 alt vm vd va vb s
  | .vandnW3216 alt vm vd va vb => Sys2Proof.Machine.execVandnW3216 alt vm vd va vb s
  | .vshlW3216 alt vm vd va vb => Sys2Proof.Machine.execVshlW3216 alt vm vd va vb s
  | .vshrW3216 alt vm vd va vb => Sys2Proof.Machine.execVshrW3216 alt vm vd va vb s
  | .vsarW3216 alt vm vd va vb => Sys2Proof.Machine.execVsarW3216 alt vm vd va vb s
  | .vaddsW3216 alt vm vd va vb => Sys2Proof.Machine.execVaddsW3216 alt vm vd va vb s
  | .vaddW864 alt vm vd va vb => Sys2Proof.Machine.execVaddW864 alt vm vd va vb s
  | .vsubW864 alt vm vd va vb => Sys2Proof.Machine.execVsubW864 alt vm vd va vb s
  | .vmulW864 alt vm vd va vb => Sys2Proof.Machine.execVmulW864 alt vm vd va vb s
  | .vmulhW864 alt vm vd va vb => Sys2Proof.Machine.execVmulhW864 alt vm vd va vb s
  | .vminW864 alt vm vd va vb => Sys2Proof.Machine.execVminW864 alt vm vd va vb s
  | .vmaxW864 alt vm vd va vb => Sys2Proof.Machine.execVmaxW864 alt vm vd va vb s
  | .vminwW864 alt vm vd va vb => Sys2Proof.Machine.execVminwW864 alt vm vd va vb s
  | .vmaxwW864 alt vm vd va vb => Sys2Proof.Machine.execVmaxwW864 alt vm vd va vb s
  | .vandW864 alt vm vd va vb => Sys2Proof.Machine.execVandW864 alt vm vd va vb s
  | .vorW864 alt vm vd va vb => Sys2Proof.Machine.execVorW864 alt vm vd va vb s
  | .vxorW864 alt vm vd va vb => Sys2Proof.Machine.execVxorW864 alt vm vd va vb s
  | .vandnW864 alt vm vd va vb => Sys2Proof.Machine.execVandnW864 alt vm vd va vb s
  | .vshlW864 alt vm vd va vb => Sys2Proof.Machine.execVshlW864 alt vm vd va vb s
  | .vshrW864 alt vm vd va vb => Sys2Proof.Machine.execVshrW864 alt vm vd va vb s
  | .vsarW864 alt vm vd va vb => Sys2Proof.Machine.execVsarW864 alt vm vd va vb s
  | .vaddsW864 alt vm vd va vb => Sys2Proof.Machine.execVaddsW864 alt vm vd va vb s
  | .vcmpEq alt vm vd va vb => Sys2Proof.Machine.execVcmpEq alt vm vd va vb s
  | .vcmpNe alt vm vd va vb => Sys2Proof.Machine.execVcmpNe alt vm vd va vb s
  | .vcmpLt alt vm vd va vb => Sys2Proof.Machine.execVcmpLt alt vm vd va vb s
  | .vcmpGe alt vm vd va vb => Sys2Proof.Machine.execVcmpGe alt vm vd va vb s
  | .vcmpLtw alt vm vd va vb => Sys2Proof.Machine.execVcmpLtw alt vm vd va vb s
  | .vcmpGew alt vm vd va vb => Sys2Proof.Machine.execVcmpGew alt vm vd va vb s
  | .isum alt vm vd va => Sys2Proof.Machine.execIsum alt vm vd va s
  | .imaxr alt vm vd va => Sys2Proof.Machine.execImaxr alt vm vd va s
  | .iminr alt vm vd va => Sys2Proof.Machine.execIminr alt vm vd va s
  | .iscan alt vm vd va => Sys2Proof.Machine.execIscan alt vm vd va s
  | .vabs alt vm vd va => Sys2Proof.Machine.execVabs alt vm vd va s
  | .vneg alt vm vd va => Sys2Proof.Machine.execVneg alt vm vd va s
  | .cvtRn alt vm vd va vb => Sys2Proof.Machine.execCvtRn alt vm vd va vb s
  | .cvtRz alt vm vd va vb => Sys2Proof.Machine.execCvtRz alt vm vd va vb s
  | .cvtRu alt vm vd va vb => Sys2Proof.Machine.execCvtRu alt vm vd va vb s
  | .cvtRd alt vm vd va vb => Sys2Proof.Machine.execCvtRd alt vm vd va vb s
  | .cvtRs alt vm vd va vb => Sys2Proof.Machine.execCvtRs alt vm vd va vb s
  | .vperm alt vm vd va vb => Sys2Proof.Machine.execVperm alt vm vd va vb s
  | .vshuf alt vm vd va vb => Sys2Proof.Machine.execVshuf alt vm vd va vb s
  | .vbcast alt vm vd va => Sys2Proof.Machine.execVbcast alt vm vd va s
  | .vins alt vd va vb => Sys2Proof.Machine.execVins alt vd va vb s
  | .vext alt vd va vb => Sys2Proof.Machine.execVext alt vd va vb s
  | .vmov alt vm vd va => Sys2Proof.Machine.execVmov alt vm vd va s
  | .mand vd va vb => Sys2Proof.Machine.execMand vd va vb s
  | .mor vd va vb => Sys2Proof.Machine.execMor vd va vb s
  | .mxor vd va vb => Sys2Proof.Machine.execMxor vd va vb s
  | .mandn vd va vb => Sys2Proof.Machine.execMandn vd va vb s
  | .fexp2 vm vd va => Sys2Proof.Machine.execFexp2 vm vd va s
  | .flog2 vm vd va => Sys2Proof.Machine.execFlog2 vm vd va s
  | .frcp vm vd va => Sys2Proof.Machine.execFrcp vm vd va s
  | .frsq vm vd va => Sys2Proof.Machine.execFrsq vm vd va s
  | .fsin vm vd va => Sys2Proof.Machine.execFsin vm vd va s
  | .fcos vm vd va => Sys2Proof.Machine.execFcos vm vd va s
  | .ftanh vm vd va => Sys2Proof.Machine.execFtanh vm vd va s
  | .fsigm vm vd va => Sys2Proof.Machine.execFsigm vm vd va s
  | .ferf vm vd va => Sys2Proof.Machine.execFerf vm vd va s

end Sys2Proof.Machine
end

