-- ==== Sys2Proof/Machine/Step.lean ====
section
/-! DEFINITION. One step of the machine: the earliest thing that is due happens. -/

namespace Sys2Proof.Machine

/-- An issue slot: the thread that owns it issues its bundle, if it can. -/
noncomputable def issueStep (uid : Nat) (lent : Bool) (s : State) : Res :=
  match s.takeSlot uid lent with
  | (false, s) => .next s
  | (true, s) => runBundle exec (bundleOf (s.fetch.map (decodeBundle s.vectors s.cur.proctor))) s

/-- A stream word issues (R87). -/
noncomputable def wordStep (first tile stream : Nat) (s : State) : Res :=
  match s.takeWord first tile stream with
  | (none, s) => .next s
  | (some w, s) =>
    match exec (wordOfDecoded (decodeT stream w)) { s.advanceStream with bundle := w } with
    | .next s => .next s.settleWord
    | r => r

/-- One thing that is due happens. -/
noncomputable def runTask (t : Task) (s : State) : Res :=
  match t with
  | .ev i => exec i s
  | .issue uid => issueStep uid false s
  | .lend first cluster core =>
    let s := s.focusPart first
    match (if s.lendable cluster core then s.borrower cluster core else none) with
    | some uid =>
      match issueStep uid true s with
      | .next s => .next (s.lendNext first cluster core)
      | r => r
    | none => .next (s.lendNext first cluster core)
  | .word first tile stream => wordStep first tile stream s
  | .tickEnd first => .next (s.endTick first)
  | .wake => .next s
  | .sample uid sq k => .next (s.sampleElem uid sq k)
  | .freed first loc pins => .next (s.freeContext first loc pins)
  | .frame port => .next (s.endFrame port)
  | .host => .next s.serveHost

/-- One step: the earliest item, at its instant; where nothing is due, one core cycle passes. -/
noncomputable def step (s : State) : Host.Outcome State Fault Refusal :=
  if !s.mgmt.powered then .fault .powerIsOff
  else
    let s := s.settleWaits
    let (t, s) := s.takePick s.pick
    runTask t s

/-- R46, R90: what a running launch leaves for a thread's bundle to issue: a whole-package partition in deterministic mode
and mode 2 (Table 5.1: all 128 vector registers), whose one thread, anchored at position 0 of core 0 of cluster 0, has its
slot now, with the word as its code (assumption 6). -/
def State.withFetchWord (s : State) (nbits w : Nat) : State :=
  let t := { Thread.rest with
    uid := s.nextUid, part := 0, status := .ready, slotAt := s.now, pw := 0x00010001 }
  let p := { Part.rest 0 0 0 with
    code := [BitVec.ofNat 64 (w % 2 ^ nbits)],
    armed := some 0,
    run := { Run.rest with active := true, tcmode := 3, tick0 := s.tick, chain := .retired } }
  { s with
    agenda := ⟨s.now, 0, .issue s.nextUid⟩ :: s.agenda,
    nextUid := s.nextUid + 1,
    threads := insertThread t (s.threads.filter (·.uid ≠ s.nextUid)),
    parts := insertPart p s.parts,
    mgmt := { s.mgmt with ready := true, powered := true } }

end Sys2Proof.Machine
end

