-- ==== Sys2Proof/Safety.lean ====
section
/-! DEFINITION. What a safe run is: a run in which every step answers a next state. -/

namespace Sys2Proof

/-- A run of k steps ends in a next state: no fault, no refusal. -/
def Safe (k : Nat) (s : Machine.State) : Prop := ∃ t, core.run k s = .next t

end Sys2Proof
end

