-- ==== Sys2Proof/Certificates/Slice0/Obligations.lean ====
section
/-! DEFINITION. The statements for the provers, and the few words they are written in. -/

namespace Sys2Proof.Claims

open Sys2Proof.Machine

/-- R181: whether a mask register includes lane i; vm0 reads as all ones. -/
def included (s : State) (vm : BitVec 3) (i : Nat) : Bool := vm == 0 || (s.cur.vm.toList.getD vm.toNat 0).getLsbD i

/-- The value of a vector register. -/
def vreg (s : State) (r : BitVec 7) : Vec := s.cur.v.toList.getD r.toNat 0

/-- R180: lane i of w bits. -/
def laneOf (v : Vec) (w i : Nat) : Nat := (v.extractLsb' (w * i) w).toNat

/-- R206: no stream is bound to any of these registers. -/
def unbound (s : State) (l : List (BitVec 7)) : Prop := ∀ r ∈ l, s.streamOf r.toNat = none

/-- R180, R184: `t` is `s` with one vector result on its way: of the lanes of w bits exactly those that `inc` names are
written, lane i with the code of `f i`, and the flags of those lanes are ORed into `pw` as it lands. -/
def LaneResult (s t : State) (lat w : Nat) (vd : BitVec 7) (inc : Nat → Bool) (f : Nat → Nat × FS) : Prop :=
  ∃ (val mask : Vec) (fs : FS),
    t = (s.land lat (.v vd.toNat val mask)).landFlags lat fs ∧
    (∀ i, i < 512 → mask.getLsbD i = inc (i / w)) ∧
    (∀ i, i < 512 / w → inc i = true → laneOf val w i = (f i).1 % 2 ^ w) ∧
    (∀ b, b < 32 → fs.getLsbD b = (List.range (512 / w)).any fun i => inc i && (f i).2.getLsbD b)

/-- R191: `t` is `s` with one reduced value on its way: lane 0 takes it, every other lane of vd becomes zero. -/
def Reduced (s t : State) (lat w : Nat) (vd : BitVec 7) (r : Nat × FS) : Prop :=
  t = (s.land lat (.v vd.toNat (BitVec.ofNat 512 (r.1 % 2 ^ w)) (BitVec.allOnes 512))).landFlags lat r.2

/-- R187: `t` is `s` with a mask on its way: included lanes take the condition, excluded lanes keep their bit, bits at and
above n become zero. -/
def MaskResult (s t : State) (lat n : Nat) (vd : BitVec 7) (inc cond : Nat → Bool) : Prop :=
  ∃ val mask : Word, t = s.land lat (.vm vd.toNat val mask) ∧
    ∀ i, i < 64 → (mask.getLsbD i = (decide (n ≤ i) || inc i)) ∧
      (i < n → inc i = true → val.getLsbD i = cond i) ∧ (n ≤ i → val.getLsbD i = false)

/-- R205, R206, R209: how an instruction treats the streams bound to its vector operands: an operand of the wrong kind is an
illegal instruction; the bundle is held while one is not ready; poison is a data-poison fault; else each popped stream pops
once and the destination's push claims the next element. -/
def StreamOperands (s : State) (i : Instr) (srcs : List (BitVec 7)) (dst : Option (BitVec 7)) (rd : Bool) : Prop :=
  let bound (r : BitVec 7) (f : StreamReg → Prop) : Prop := ∃ x st, s.streamOf r.toNat = some x ∧ s.cur.streams.toList[x]? = some st ∧ f st
  let bad : Prop := (∃ r ∈ srcs, bound r fun st => st.push = true) ∨ (∃ r ∈ dst, bound r fun st => st.push = false ∨ rd = true)
  let codes : List Nat := srcs.map (·.toNat)
  let ready : Bool := s.streamsReady codes (dst.map (·.toNat))
  (bad → exec i s = .next (s.raise 2 s.cur.pc)) ∧
  (¬bad → ready = false →
    exec i s = .next { s with cur := { s.cur with status := .held codes.eraseDups (dst.map (·.toNat)) false } }) ∧
  (¬bad → ready = true → (∃ r ∈ srcs, ∃ a, s.operand r.toNat = .poisoned a) → ∃ t q, exec i s = .next t ∧
    t.cur.raised = some q ∧ q.kind = 7 ∧ t.mem = s.mem ∧ t.cur.streams = s.cur.streams ∧ t.agenda = s.agenda) ∧
  (¬bad → ready = true → (∀ r ∈ srcs, ∃ v, s.operand r.toNat = .value v) → ∃ t, exec i s = .next t ∧
    t.mem = s.mem ∧ t.cur.a = s.cur.a ∧ t.cur.v = s.cur.v ∧ t.cur.pw = s.cur.pw ∧
    (∀ r ∈ srcs, ∀ (x : Nat) (h : x < 4), s.streamOf r.toNat = some x → let st := s.cur.streams[x]
      (st.k < st.total → t.cur.streams[x].k = st.k + 1 ∧ t.cur.streams[x].exh = st.exh) ∧
      (st.total ≤ st.k → t.cur.streams[x].k = st.k ∧ t.cur.streams[x].exh = true)) ∧
    (∀ r ∈ dst, ∀ (x : Nat) (h : x < 4), s.streamOf r.toNat = some x → let st := s.cur.streams[x]
      (st.k < st.total → t.cur.streams[x].k = st.k + 1 ∧ t.cur.streams[x].flight = st.flight + 1 ∧
        ∃ y : Push, t.cur.pushes = s.cur.pushes ++ [y] ∧ y.sq = x ∧ y.pos = st.k ∧ y.born = s.now) ∧
      (st.total ≤ st.k → t.cur.streams[x].k = st.k ∧ t.cur.streams[x].exh = true ∧ t.cur.pushes = s.cur.pushes)))

/-- No flags. -/
def plain (n : Nat) : Nat × FS := (n, 0)

/-- R87, R213: in `t` an effect of the acting tile is due in a logical tick. -/
def DueEffect (t : State) (tick : Nat) (e : TEff) : Prop :=
  ∃ r, (⟨tick, r, .ev (.timedEffectLands t.p.first t.tix e)⟩ : Item) ∈ t.p.run.tq

/-- R214: the engine of the acting stream, or the receive half of the link engine, is free in this tick. -/
def EngineFree (s : State) (recv : Bool) : Prop :=
  s.tstream < 7 ∧ (if recv then s.stream.busy2 else s.stream.busy) ≤ s.plan

/-- R211: an operand of n bytes lies in tensor SRAM, aligned. -/
def InSram (v : Word) (n align : Nat) : Prop := v.toNat % align = 0 ∧ v.toNat + n ≤ 0x600000

/-- R211: an operand names a line of HBM space of the own package. -/
def InHbm (s : State) (v : Word) : Prop :=
  v.toNat < 2 ^ 56 ∧ (v.extractLsb' 46 2).toNat = 0 ∧ (v.extractLsb' 48 8).toNat = s.ownPkg ∧ v.toNat % 128 = 0

/-- R214: `t` is `s` after a data word has issued: its engine is occupied for n ticks, its operands are kept under `key`,
no fault is raised, and no register, notice-board slot or byte of memory changes. -/
def WordIssued (s t : State) (key n : Nat) (recv : Bool) (what : TimedWord) (r0 r1 r2 r3 : Word) : Prop :=
  (if recv then t.stream.busy2 else t.stream.busy) = s.plan + n ∧
  (∃ w, t.wordRun key = some w ∧ w.stream = s.tstream ∧ w.issued = s.plan ∧ w.what = what ∧
    w.r0 = r0 ∧ w.r1 = r1 ∧ w.r2 = r2 ∧ w.r3 = r3 ∧ w.dead = false) ∧
  t.p.run.faults = s.p.run.faults ∧ t.mem = s.mem ∧ t.attr = s.attr ∧ t.cur = s.cur ∧ t.threads = s.threads ∧
  t.tl.board = s.tl.board ∧ t.stream.ta = s.stream.ta ∧ t.stream.tn = s.stream.tn ∧ t.stream.next = s.stream.next ∧
  t.tix = s.tix ∧ t.tstream = s.tstream ∧ t.p.first = s.p.first ∧ t.p.run.plan = s.p.run.plan

/-- The acting stream replaced. -/
def withStream (s : State) (x : TStream) : State :=
  let l := if h : s.tstream < 7 then s.tl.streams.set s.tstream x else s.tl.streams
  { s with tl := { s.tl with streams := l } }

/-- The state in which an effect of a tile lands: its partition and tile act. -/
def atTile (s : State) (first tile : Nat) : State := (s.focusPart first).focusTile tile

/-- R244: no word of the acting tile's tensor SRAM holds an error. -/
def CleanSram (s : State) : Prop := ∀ x, x < 0x600000 → s.attrOf (s.sramFlat x) = 0

/-- R230, R231: element k of row r of an operand, as the lines a product has read hold it, times its scale where it is
blocked. -/
def blockVal (w : WordRun) (b : Bool) (f : Nat) (scales : Option Nat) (r k : Nat) : FVal :=
  let kt := matKt f
  let g := matFmt f
  let line := (w.lineAt (16 * (k / kt) + (if b then 8 else 0) + r / 4)).toNat
  let code := line / 2 ^ (256 * (r % 4) + g.width * (k % kt)) % 2 ^ g.width
  match scales with
  | none => g.value code
  | some at_ =>
    let byte := at_ + 32 * (kt / 32) * (k / kt) + kt / 32 * r + k % kt / 32
    blockValue g code (lineLane (w.lineAt (scalePlace byte)) 8 (byte % 128))

/-- R236, R238: group j of a word's result is due, with these elements of a width. -/
def GroupDue (t : State) (tick : Nat) (w : WordRun) (j width writer : Nat) (elem : Nat → Nat) : Prop :=
  ∃ v, DueEffect t tick (.bytes w.stream (w.r3.toNat + 4 * width * j) (4 * width) v writer) ∧
    ∀ e, e < 32 → elemOf v width e = elem e % 2 ^ width

/-- Table 9.13: one element of the result, from format f to g. -/
def vecValue (op : VecOp) (f g : Fmt) (rand : Nat) (scalar : FVal) (x y z : Nat) : Nat :=
  let near (v : FVal × FS) : Nat := (f.round .rn v.1).1
  let special (h : Special) : Nat := (f.round .rn (f32.value (f32.round .rn (h.value (f.value x)).1).1)).1
  let truth (b : Bool) : Nat := if b then (f.round .rn (.fin false 1 0)).1 else 0
  match op with
  | .add => near (FVal.sum [f.value x, f.value y])
  | .sub => near (FVal.sum [f.value x, (f.value y).neg])
  | .mul => near ((f.value x).mul (f.value y))
  | .ma => near (FVal.fma (f.value x) (f.value y) (f.value z))
  | .max => f.max x y
  | .min => f.min x y
  | .cvt mode _ sat =>
    let r : Rm := if mode = 0 then .rn else if mode = 1 then .rz else if mode = 2 then .ru else if mode = 3 then .rd else .rs rand
    ((NumFmt.fl g).convert r sat (f.value x)).1
  | .exp => special .exp2
  | .rcp => special .rcp
  | .rsq => special .rsq
  | .tanh => special .tanh
  | .log2 => special .log2
  | .sel => if (f.value z).isZero then y else x
  | .cmp c => truth (if c = 0 then (f.value x).eq (f.value y) else if c = 1 then (f.value x).lt (f.value y) else (f.value x).le (f.value y))
  | .scale => near ((f.value x).mul scalar)

/-- Table 5.3: the completion figure of a target for an access of the acting thread; none where another agent sets the time,
or where the thread moves to the target instead (R316). -/
def tripOf (s : State) : Target → Option Nat
  | .loc cl co b => some (if cl = s.cur.loc.cluster then (if co = s.cur.loc.core then (if b < 0x80000 then 8 else 10) else 24) else 392)
  | .hbm home _ => if home = s.cur.loc.cluster then some 200 else if s.roams then none else some 392
  | _ => none

/-- R110: `t` is `s` with the acting thread out of rotation for an access; no register or byte of memory has changed. -/
def Left (s t : State) : Prop :=
  t.cur.status = .access s.nextId ∧ t.cur.a = s.cur.a ∧ t.cur.v = s.cur.v ∧ t.cur.vm = s.cur.vm ∧ t.cur.pw = s.cur.pw ∧
  t.cur.pc = s.cur.pc ∧ t.cur.uid = s.cur.uid ∧ t.cur.raised = s.cur.raised ∧ t.mem = s.mem ∧ t.attr = s.attr ∧
  t.lists = s.lists ∧ { t.p with draws := s.p.draws } = s.p ∧ t.threads = s.threads

/-- An event of the agenda. -/
def Due (t : State) (cycle : Nat) (i : Instr) : Prop := ∃ r, (⟨cycle, r, .ev i⟩ : Item) ∈ t.agenda

/-- Whether an access carries these operands. -/
def Carries (a : Acc) (op : AccOp) (va : Word) (n : Nat) (sx : Bool) (d : Nat) (data : Word) (scope lat id : Nat) : Prop :=
  a.op = op ∧ a.va = va ∧ a.bytes = n ∧ a.sx = sx ∧ a.d = d ∧ a.data = data ∧ a.scope = scope ∧ a.lat = lat ∧ a.id = id ∧ a.stage = 0

/-- R112, R116: what a figure of Table 5.3 takes: its cycles times the dilation in deterministic mode, in throughput mode no
less and at most 64 times as much (R404). -/
def Takes (s : State) (figure lat : Nat) : Prop :=
  figure * s.dil ≤ lat ∧ lat ≤ 64 * (figure * s.dil) ∧ (s.p.run.det = true → lat = figure * s.dil)

/-- R116, R263, R264, R332: `t` is `s` with a plain access of n bytes on its way: it performs lat - lat / 2 cycles before its
completion, which is no earlier than that of an earlier access of the thread to the word. -/
def PlainSent (s t : State) (target : Target) (op : AccOp) (va : Word) (n : Nat) (sx : Bool) (d : Nat) (data : Word) (lat : Nat) : Prop :=
  Left s t ∧ ∃ a : Acc, Carries a op va n sx d data 0 lat s.nextId ∧ a.rlx = false ∧ a.due = s.dueAfter s.cur va target lat ∧
    Due t (a.due - (lat - lat / 2)) (.accessComplete s.cur.uid (.acc a))

/-- R347: `t` is `s` with a synchronising access on its way: it arrives at its word after half its time. -/
def SyncSent (s t : State) (op : AccOp) (va : Word) (d : Nat) (data : Word) (scope lat : Nat) : Prop :=
  Left s t ∧ ∃ a : Acc, Carries a op va 8 false d data scope lat s.nextId ∧
    Due t (s.now + lat / 2) (.syncAccessArrives s.cur.uid a)

/-- R313, R388, R389: `t` is `s` with an access that has left as a request to a peer package, whose reply is awaited. -/
def PeerAsked (s t : State) (pkg : Nat) (op : AccOp) (va : Word) (n : Nat) (sx : Bool) (d : Nat) (data : Word) (scope : Nat) : Prop :=
  Left s t ∧ ∃ lat, Takes s (4 * s.peerLat + 392) lat ∧ ∃ a : Acc, Carries a op va n sx d data scope lat s.nextId ∧ a.rlx = false ∧
    t.out = .request (s.peerAddr pkg) pkg (s.sendStamp 0) a :: s.out ∧ t.cur.asked = s.cur.asked ++ [a]

/-- R316, R317: `t` is `s` with the thread out of rotation for another cluster, where its bundle issues again. -/
def Migrates (s t : State) (home : Nat) : Prop :=
  t.cur.status = .migrating ∧ t.cur.goal = home ∧ t.cur.a = s.cur.a ∧ t.cur.pc = s.cur.pc ∧ t.mem = s.mem ∧ t.attr = s.attr ∧
  ∃ c, s.now ≤ c ∧ Due t c (.migrationSend s.cur.uid)

/-- R250, R254, R258: an HBM word is served at once: in deterministic mode, and in throughput mode in a position of its
channel that serves the partition, with no burst and no repair of its bank under way. -/
def servedNow (s : State) (flat : Nat) : Bool :=
  s.p.run.det || (s.positionServes (channelOf flat) s.p.first (s.p.first + s.p.units) &&
    (s.chan (channelOf flat)).bursts.isEmpty && !(s.chan (channelOf flat)).copying (hbmPlace flat).bank)

/-- R263, R308: the flat address at which an access to local store or HBM performs; none where it faults or misses. -/
def placed (s : State) (a : Acc) : Option Nat :=
  match s.route a.va a.bytes with
  | .ok (.loc cl co b) => some (flatLocal cl co b)
  | .ok (.hbm _ off) => match s.translated a off with
    | .ok f => if accWrites a.op && !s.p.hbmOpen off a.bytes 7 then none else some f
    | .error _ => none
  | _ => none

/-- And where it performs in this cycle, HBM in a position of its channel. -/
def placeOf (s : State) (a : Acc) : Option Nat :=
  (placed s a).filter fun f => match s.route a.va a.bytes with
    | .ok (.hbm _ _) => servedNow s f
    | _ => true

/-- R3, R212, R263: and for a load or store, which reaches host memory and tensor SRAM too: SRAM inside an open clearing, with
its port free and no earlier access of the thread to the word waiting for it. -/
def memPlace (s : State) (a : Acc) : Option Nat :=
  match s.route a.va a.bytes with
  | .ok (.host off) => some (flatHost (s.p.hostBase.toNat + off))
  | .ok (.sram l b) =>
    if s.waitsBehind a = none ∧ s.clearingCovers l b a.bytes (if a.op = .store then some 7 else none) ∧ s.portBusy l b = false then
      some (flatSram s.p.first l b) else none
  | _ => placeOf s a

/-- R330: the access that has performed comes back with what it found, not before its own time. -/
def BackWith (s t : State) (uid : Nat) (a b : Acc) : Prop :=
  Due t (s.now + max (a.lat - a.lat / 2) (a.due - s.now)) (.accessComplete uid (.acc b))

/-- R110, R113: the bundle of the acting thread has retired and the thread is in rotation. -/
def Retired (f t : State) : Prop :=
  t.cur.uid = f.cur.uid ∧ t.cur.status = .ready ∧ t.cur.retired = f.cur.retired + 1 ∧ t.cur.pc = f.cur.pc + 8

/-- R240: a word that is neither poisoned nor in error. -/
def Clean (s : State) (flat : Nat) : Prop := s.attrOf flat = 0 ∨ s.attrOf flat = 1

/-- R110, R17: how a plain access ends that comes back with a value: its register takes it and the bundle retires; with a
fault: nothing is written, and the thread leaves rotation for its trap. -/
def EndsAs (s : State) (uid : Nat) (a : Acc) : Prop :=
  let f := s.focusThread uid
  (a.bad = 0 → f.cur.heldV = [] → s.goto = none → (a.op = .dctr → f.enqueuing uid = false) →
    ∃ t, exec (.accessComplete uid (.acc a)) s = .next t ∧ Retired f t ∧ t.mem = s.mem ∧ t.attr = s.attr ∧
      t.cur.a = (if accReads a.op then f.cur.setReg a.d a.res else f.cur).a ∧
      t.cur.pw = (if a.op = .semGive ∧ a.res.toNat % 2 ^ 32 = 0xFFFFFFFF then f.cur.pw ||| 0x04000000 else f.cur.pw)) ∧
  (0 < a.bad → a.bad < 32 → ∃ t r, exec (.accessComplete uid (.acc a)) s = .next t ∧ t.cur.status = .trapping ∧
    t.cur.raised = some r ∧ r.kind = a.bad ∧ r.info = a.va ∧ r.pc = f.cur.pc ∧ t.cur.a = f.cur.a ∧ t.cur.heldV = [] ∧
    t.cur.retired = f.cur.retired ∧ t.mem = s.mem)

/-- Every byte outside n bytes keeps its value. -/
def OnlyBytes (s t : State) (flat n : Nat) : Prop := ∀ b, (b < flat ∨ flat + n ≤ b) → t.mem.read b = s.mem.read b

/-- Tables 15.2 and 15.3: the condition under which a synchronising access performs on a word without poison. -/
def syncMay (op : AccOp) (full : Bool) (w : Word) : Bool :=
  match op with
  | .ldf | .ldfe | .semGive | .rsv _ | .dctr => full
  | .ste => !full
  | .semTake => full && decide (w.toNat % 2 ^ 32 ≠ 0)
  | _ => true

/-- Tables 15.2 and 15.3: the word and its full/empty bit as a synchronising access leaves them. -/
def syncLeaves (op : AccOp) (old data : Word) (full : Bool) : Word × Bool :=
  let n : BitVec 32 := old.extractLsb' 0 32
  let count (k : BitVec 32) : Word := old.extractLsb' 32 32 ++ k
  let atomic (f : Nat) : Word :=
    if f = 0 then data else if f = 1 then old + data else if f = 2 then old ||| data else if old.toInt < data.toInt then data else old
  match op with
  | .ldfe => (old, false)
  | .stf => (data, true)
  | .ste => (data, true)
  | .fill => (old, true)
  | .empty => (old, false)
  | .semTake => (count (n - 1), true)
  | .semGive => (if n = 0xFFFFFFFF#32 then old else count (n + 1), true)
  | .rsv f => (atomic f, false)
  | .rls f => (atomic f, true)
  | .dctr => if n = 0 then (old, full) else (count (n - 1), n != 1)
  | _ => (old, full)

/-- R250, R254, R258: a host access to an HBM word is served in this TICK: in a position of its channel that belongs to the
focused partition, or to the word's unit where none owns it (assumption 49). -/
def hostServed (u : State) (flat : Nat) : Prop :=
  let c := channelOf flat
  let lo := if u.p.first = 64 then hbmUnit flat else u.p.first
  let hi := if u.p.first = 64 then lo + 1 else lo + u.p.units
  u.positionServes c lo hi = true ∧ (u.chan c).bursts = [] ∧
    (if u.p.run.det then ∀ i ∈ u.agenda, u.requestIn c i = false else (u.chan c).copying (hbmPlace flat).bank = false)

/-- R425: a mailbox command runs to its end: the response words and the status word hold its outcome, and no memory changes. -/
def Commanded (i : Instr) (s : State) (result : Nat) (words : List Word) (after : State → Prop) : Prop :=
  ∃ t, exec i s = .next t ∧ t.mgmt.mailbox = BitVec.ofNat 64 (1 + 256 * result) ∧
    (∀ (k : Nat) (h : k < 16), t.mboxResp[k] = words.getD k 0) ∧ t.mem = s.mem ∧ t.attr = s.attr ∧ after t

/-- Table 2.4: status word n of the focused partition. -/
def StatusIs (t : State) (n adm res state : Nat) (w : Word) : Prop :=
  t.p.status.toList[n]? = some (BitVec.ofNat 64 (adm + res * 2 ^ 8 + state * 2 ^ 16 + w.toNat / 2 ^ 12 % 2 ^ 46 * 2 ^ 18))

/-- R44: the acting slot has been set empty, and the ring stands at the next one. -/
def Emptied (f t : State) (n : Nat) : Prop :=
  t.p.ring = (n + 1) % 8 ∧ ∀ k, k < 8 → t.p.slots.toList[k]? = if k = n then some none else f.p.slots.toList[k]?

/-- R43: a slot holds a word, and the proctor acts on it. -/
def Acting (f : State) (first n : Nat) (w : Word) (emptied : Bool) : Prop :=
  f.p.first = first ∧ n < 8 ∧ f.p.acting = some (n, w, emptied)

/-- R49: two ranges of units, each a first unit and an lg, share none. -/
def Apart (f l f' l' : Nat) : Prop := f + 2 ^ (6 - l) ≤ f' ∨ f' + 2 ^ (6 - l') ≤ f

end Sys2Proof.Claims

open Sys2Proof Sys2Proof.Machine Sys2Proof.Claims


/-- R80: a guarded S-slot or long instruction whose guard is false answers the state it began in: no register, flag,
memory byte or agenda entry changes. Transfers, texit and rtt are decided by the leader's guard in a recitation
follower (R96, R397), so they assume no such guard is in force. ste, fill and the other memory instructions are
included. (From R80, R96, spec/04_fetching_encodings_and_assembler.md.) -/
def Obligations.GuardOffHasNoEffect : Prop :=
  ∀ (g : Guard) (s : State), s.guard g = false →
    (∀ d rs t : BitVec 5,
      exec (.and g d rs t) s = .next s ∧ exec (.or g d rs t) s = .next s ∧ exec (.xor g d rs t) s = .next s ∧
      exec (.andn g d rs t) s = .next s ∧ exec (.shl g d rs t) s = .next s ∧ exec (.mul g d rs t) s = .next s ∧
      exec (.div g d rs t) s = .next s ∧ exec (.mov g d rs) s = .next s ∧ exec (.pwr g rs) s = .next s ∧
      exec (.pand g d rs t) s = .next s ∧ exec (.rnd g d rs) s = .next s ∧
      exec (.yield g) s = .next s ∧ exec (.roll g) s = .next s) ∧
    (∀ (d rs t : BitVec 5) (fn : BitVec 4),
      exec (.add g d rs t fn) s = .next s ∧ exec (.cmp g d rs t fn) s = .next s ∧ exec (.ld g d rs t fn) s = .next s ∧
      exec (.st g d rs t fn) s = .next s ∧ exec (.ldfe g d rs t fn) s = .next s ∧ exec (.ste g d rs t fn) s = .next s ∧
      exec (.fill g rs t fn) s = .next s ∧ exec (.semTake g d rs t fn) s = .next s ∧ exec (.anchor g fn) s = .next s) ∧
    (∀ (d rs x : BitVec 5) (f : BitVec 2) (imm : BitVec 32),
      exec (.li g d imm) s = .next s ∧ exec (.ldl g d rs x f imm) s = .next s ∧ exec (.stl g d rs x f imm) s = .next s ∧
      exec (.spawn g rs x f imm) s = .next s ∧ exec (.trap g imm) s = .next s ∧
      exec (.sbind g rs x f imm) s = .next s ∧ exec (.asidBind g rs) s = .next s ∧
      ((s.creg (imm.toNat % 4096)).isSome = true → exec (.crd g d imm) s = .next s ∧ exec (.cwr g rs imm) s = .next s)) ∧
    (s.force = none → ∀ (d rs : BitVec 5) (imm : BitVec 32),
      exec (.br g imm) s = .next s ∧ exec (.rtt g) s = .next s ∧ exec (.call g d imm) s = .next s ∧ exec (.jr g rs) s = .next s ∧
      exec (.jrl g d rs) s = .next s ∧ exec (.texit g) s = .next s)

/-- R153, R155: with its guard true, each register-form operation sends to its destination, with the latency of Table 5.2
(2 core cycles, 4 for a product), the value Table 7.4 gives: sums and differences with the scale 2^fn, logic, products
and their high halves (signed and unsigned), the smaller and larger, leading zeros, population count, byte reversal,
the field extractions, and sel. nop changes nothing. The next state is the start state with that one result on its way
and nothing else changed. (From R153, R155, Table 7.4, spec/07_scalar_control_random_instructions.md.) -/
def Obligations.ScalarArithmeticResults : Prop :=
  ∀ (g : Guard) (d rs t : BitVec 5) (fn : BitVec 4) (s : State), s.guard g = true →
    let a := s.ra rs
    let b := s.ra t
    let pos := (b.extractLsb' 0 6).toNat
    let len := (b.extractLsb' 8 6).toNat + 1
    exec (.nop g) s = .next s ∧
    exec (.add g d rs t fn) s = .next (s.landA 2 d (BitVec.ofNat 64 (a.toNat + b.toNat * 2 ^ fn.toNat))) ∧
    exec (.sub g d rs t fn) s = .next (s.landA 2 d (BitVec.ofInt 64 ((a.toNat : Int) - b.toNat * 2 ^ fn.toNat))) ∧
    exec (.and g d rs t) s = .next (s.landA 2 d (a &&& b)) ∧
    exec (.or g d rs t) s = .next (s.landA 2 d (a ||| b)) ∧
    exec (.xor g d rs t) s = .next (s.landA 2 d (a ^^^ b)) ∧
    exec (.andn g d rs t) s = .next (s.landA 2 d (a &&& ~~~b)) ∧
    exec (.mul g d rs t) s = .next (s.landA 4 d (BitVec.ofInt 64 (a.toInt * b.toInt))) ∧
    exec (.mulh g d rs t) s = .next (s.landA 4 d ((a.signExtend 128 * b.signExtend 128).extractLsb' 64 64)) ∧
    exec (.mulhw g d rs t) s = .next (s.landA 4 d ((a.setWidth 128 * b.setWidth 128).extractLsb' 64 64)) ∧
    exec (.min g d rs t) s = .next (s.landA 2 d (BitVec.ofInt 64 (min a.toInt b.toInt))) ∧
    exec (.max g d rs t) s = .next (s.landA 2 d (BitVec.ofInt 64 (max a.toInt b.toInt))) ∧
    exec (.minw g d rs t) s = .next (s.landA 2 d (BitVec.ofNat 64 (min a.toNat b.toNat))) ∧
    exec (.maxw g d rs t) s = .next (s.landA 2 d (BitVec.ofNat 64 (max a.toNat b.toNat))) ∧
    exec (.mov g d rs) s = .next (s.landA 2 d a) ∧
    exec (.clz g d rs) s = .next (s.landA 2 d (BitVec.ofNat 64 (64 - (if a = 0 then 0 else a.toNat.log2 + 1)))) ∧
    exec (.popc g d rs) s = .next (s.landA 2 d (BitVec.ofNat 64 ((List.range 64).countP fun i => a.getLsbD i))) ∧
    exec (.ext g d rs t) s = .next (s.landA 2 d (BitVec.ofInt 64 ((BitVec.ofInt len (a.toInt / 2 ^ pos)).toInt))) ∧
    exec (.extw g d rs t) s = .next (s.landA 2 d (BitVec.ofNat 64 ((BitVec.ofNat len (a.toNat / 2 ^ pos)).toNat))) ∧
    exec (.bswap g d rs) s = .next (s.landA 2 d (a.extractLsb' 0 8 ++ a.extractLsb' 8 8 ++ a.extractLsb' 16 8 ++
      a.extractLsb' 24 8 ++ a.extractLsb' 32 8 ++ a.extractLsb' 40 8 ++ a.extractLsb' 48 8 ++ a.extractLsb' 56 8)) ∧
    exec (.sel g d rs t fn) s = .next (s.landA 2 d (if s.cur.pred fn.toNat then a else b))

/-- R154: with the guard true, shl and shr by 64 or more give 0, sar shifts by at most 63, rol and ror rotate by the count
modulo 64; the result lands 2 core cycles after issue and nothing else changes. (States R154.) -/
def Obligations.ShiftAndRotateResults : Prop :=
  ∀ (g : Guard) (d rs t : BitVec 5) (s : State), s.guard g = true →
    let a := s.ra rs
    let n := (s.ra t).toNat
    let r := n % 64
    exec (.shl g d rs t) s = .next (s.landA 2 d (if 64 ≤ n then 0 else BitVec.ofNat 64 (a.toNat * 2 ^ n))) ∧
    exec (.shr g d rs t) s = .next (s.landA 2 d (if 64 ≤ n then 0 else BitVec.ofNat 64 (a.toNat / 2 ^ n))) ∧
    exec (.sar g d rs t) s = .next (s.landA 2 d (BitVec.ofInt 64 (a.toInt / 2 ^ min n 63))) ∧
    exec (.rol g d rs t) s = .next (s.landA 2 d ((a <<< r) ||| (a >>> (64 - r)))) ∧
    exec (.ror g d rs t) s = .next (s.landA 2 d ((a >>> r) ||| (a <<< (64 - r))))

/-- R156, Table 7.5: with the guard true, div, divw, rem and remw answer a next state for every pair of operands, the
result landing 36 core cycles after issue. A zero divisor gives all ones and the dividend; the quotient of -2^63 by -1
is -2^63 with remainder 0; otherwise the quotient truncates toward zero and the remainder has the dividend's sign. In
every case the dividend is divisor times quotient plus remainder modulo 2^64. No flag changes. (States R156.) -/
def Obligations.DivisionResults : Prop :=
  ∀ (g : Guard) (d rs t : BitVec 5) (s : State), s.guard g = true →
    let a := s.ra rs
    let b := s.ra t
    ∃ q qw r rw : Word,
      exec (.div g d rs t) s = .next (s.landA 36 d q) ∧ exec (.divw g d rs t) s = .next (s.landA 36 d qw) ∧
      exec (.rem g d rs t) s = .next (s.landA 36 d r) ∧ exec (.remw g d rs t) s = .next (s.landA 36 d rw) ∧
      a = b * q + r ∧ a = b * qw + rw ∧
      (b = 0 → q = BitVec.allOnes 64 ∧ qw = BitVec.allOnes 64 ∧ r = a ∧ rw = a) ∧
      (a.toInt = -2 ^ 63 → b.toInt = -1 → q.toInt = -2 ^ 63 ∧ r = 0) ∧
      (b ≠ 0 → qw.toNat = a.toNat / b.toNat ∧ rw.toNat = a.toNat % b.toNat) ∧
      (b ≠ 0 → ¬(a.toInt = -2 ^ 63 ∧ b.toInt = -1) →
        q.toInt = a.toInt.tdiv b.toInt ∧ r.toInt = a.toInt.tmod b.toInt)

/-- R157, R158: with the guard true, each immediate form gives the value of Table 7.6 with its sign-extended imm9 (shifts
and rori for the immediates their ranges admit), each long immediate that of Table 7.7; lih combines the immediate
with the low half of its own destination as it stands. The result lands after 2 core cycles, a product after 4, and
nothing else changes. (From R157, R158, Table 7.6, Table 7.7.) -/
def Obligations.ImmediateFormResults : Prop :=
  ∀ (g : Guard) (d rs : BitVec 5) (i9 : BitVec 9) (i32 : BitVec 32) (s : State), s.guard g = true →
    let a := s.ra rs
    let i := i9.toInt
    exec (.addi g d rs i9) s = .next (s.landA 2 d (BitVec.ofInt 64 (a.toInt + i))) ∧
    exec (.andi g d rs i9) s = .next (s.landA 2 d (a &&& BitVec.ofInt 64 i)) ∧
    exec (.ori g d rs i9) s = .next (s.landA 2 d (a ||| BitVec.ofInt 64 i)) ∧
    exec (.xori g d rs i9) s = .next (s.landA 2 d (a ^^^ BitVec.ofInt 64 i)) ∧
    (0 ≤ i → i ≤ 63 →
      exec (.shli g d rs i9) s = .next (s.landA 2 d (a <<< i.toNat)) ∧
      exec (.shri g d rs i9) s = .next (s.landA 2 d (a >>> i.toNat)) ∧
      exec (.sari g d rs i9) s = .next (s.landA 2 d (BitVec.ofInt 64 (a.toInt / 2 ^ i.toNat)))) ∧
    (0 ≤ i → i ≤ 64 → exec (.rori g d rs i9) s = .next (s.landA 2 d (a.rotateRight (i.toNat % 64)))) ∧
    exec (.muli g d rs i9) s = .next (s.landA 4 d (BitVec.ofInt 64 (a.toInt * i))) ∧
    exec (.movi g d i9) s = .next (s.landA 2 d (BitVec.ofInt 64 i)) ∧
    exec (.mini g d rs i9) s = .next (s.landA 2 d (BitVec.ofInt 64 (min a.toInt i))) ∧
    exec (.maxi g d rs i9) s = .next (s.landA 2 d (BitVec.ofInt 64 (max a.toInt i))) ∧
    exec (.li g d i32) s = .next (s.landA 2 d (BitVec.ofInt 64 i32.toInt)) ∧
    exec (.lih g d i32) s = .next (s.landA 2 d ((i32.setWidth 64 <<< 32) ||| (s.ra d &&& 0xFFFFFFFF))) ∧
    exec (.addl g d rs i32) s = .next (s.landA 2 d (BitVec.ofInt 64 (a.toInt + i32.toInt))) ∧
    exec (.andl g d rs i32) s = .next (s.landA 2 d (a &&& i32.setWidth 64)) ∧
    exec (.orl g d rs i32) s = .next (s.landA 2 d (a ||| i32.setWidth 64)) ∧
    exec (.xorl g d rs i32) s = .next (s.landA 2 d (a ^^^ i32.setWidth 64)) ∧
    exec (.mull g d rs i32) s = .next (s.landA 4 d (BitVec.ofInt 64 (a.toInt * i32.toInt)))

/-- R159, R160, R162, R163: with the guard true, cmp writes the condition fn selects of Table 7.8 (fn 0 to 7), cmpi those
of fn 0 to 5 against the sign-extended immediate, pand, por, pxor and pandn their combination of two predicates, prd
the zero-extended pw and pwr the word of A by the rules of R118; each lands after 2 core cycles and nothing else
changes. A predicate destination of p0 leaves the state as it was. (From R159, R160, R162, R163, Table 7.8.) -/
def Obligations.CompareAndPredicateResults : Prop :=
  ∀ (g : Guard) (d rs t : BitVec 5) (i9 : BitVec 9) (s : State), s.guard g = true →
    let a := s.ra rs
    let b := s.ra t
    let i : Word := BitVec.ofInt 64 i9.toInt
    let give (v : Bool) : State := if d = 0 then s else s.land 2 (.pred d.toNat v)
    exec (.cmp g d rs t 0) s = .next (give (a == b)) ∧
    exec (.cmp g d rs t 1) s = .next (give (a != b)) ∧
    exec (.cmp g d rs t 2) s = .next (give (a.slt b)) ∧
    exec (.cmp g d rs t 3) s = .next (give !(a.slt b)) ∧
    exec (.cmp g d rs t 4) s = .next (give (a.ult b)) ∧
    exec (.cmp g d rs t 5) s = .next (give !(a.ult b)) ∧
    exec (.cmp g d rs t 6) s = .next (give (a &&& b != 0)) ∧
    exec (.cmp g d rs t 7) s = .next (give (a &&& b == 0)) ∧
    exec (.cmpiEq g d rs i9) s = .next (give (a == i)) ∧
    exec (.cmpiNe g d rs i9) s = .next (give (a != i)) ∧
    exec (.cmpiLt g d rs i9) s = .next (give (a.slt i)) ∧
    exec (.cmpiGe g d rs i9) s = .next (give !(a.slt i)) ∧
    exec (.cmpiLtw g d rs i9) s = .next (give (a.ult i)) ∧
    exec (.cmpiGew g d rs i9) s = .next (give !(a.ult i)) ∧
    exec (.pand g d rs t) s = .next (give (s.cur.pred rs.toNat && s.cur.pred t.toNat)) ∧
    exec (.por g d rs t) s = .next (give (s.cur.pred rs.toNat || s.cur.pred t.toNat)) ∧
    exec (.pxor g d rs t) s = .next (give (s.cur.pred rs.toNat ^^ s.cur.pred t.toNat)) ∧
    exec (.pandn g d rs t) s = .next (give (s.cur.pred rs.toNat && !s.cur.pred t.toNat)) ∧
    exec (.prd g d) s = .next (s.landA 2 d (s.cur.pw.setWidth 64)) ∧
    exec (.pwr g rs) s = .next (s.land 2 (.pwr a))

/-- R114, R118, R139, R204: when a result of a thread lands, a scalar result sets that register and no other, a predicate
result that bit of pw (setting it or clearing it), sticky flags are ORed into pw, pwr changes only RW fields and
clears RS fields where it writes 0, a vector or mask result replaces exactly the bits under its mask (a vector
register that a stream is bound to keeps its value), a conversion's maximum keeps the larger of two magnitudes and
marks a NaN in pw bit 18, and the advance of k.rctr becomes visible. Everything else of the thread and all other state
stays, but for the model's own list of what has landed (assumption 1). A push on its way lands in memory in the cycle
that was fixed as it was claimed. A result for a thread that has ended changes no thread. State.focusThread only
brings the named thread and its partition to the front. (From R114, R118, R139, R204, Table 5.4.) -/
def Obligations.LandingWritesOneRegister : Prop :=
  ∀ (uid born : Nat) (s : State), let f := s.focusThread uid
    let lands (w : RegWrite) (c : Thread) : Prop :=
      exec (.registerResultLands uid born w) s = .next { f with cur := c.noteLanded f.now born w }
    (∀ (c : Thread) (w : RegWrite), ({ c.noteLanded f.now born w with landed := c.landed } : Thread) = c) ∧
    (f.cur.uid = uid →
      (∀ n (h : n < 24) v, lands (.a n v) { f.cur with a := f.cur.a.set n v }) ∧
      (∀ n v, 24 ≤ n → lands (.a n v) f.cur) ∧
      (∀ n, n < 32 → ∀ v, ∃ pw : BitVec 32, lands (.pred n v) { f.cur with pw := pw } ∧
        ∀ i, i < 32 → pw.getLsbD i = if i = n then v else f.cur.pw.getLsbD i) ∧
      (∀ b, lands (.flags b) { f.cur with pw := f.cur.pw ||| b }) ∧
      (∀ v : Word, ∃ pw : BitVec 32, lands (.pwr v) { f.cur with pw := pw } ∧
        ∀ i, i < 32 → pw.getLsbD i =
          if (1 ≤ i ∧ i ≤ 15) ∨ i = 20 then v.getLsbD i
          else if (17 ≤ i ∧ i ≤ 19) ∨ (21 ≤ i ∧ i ≤ 26) then f.cur.pw.getLsbD i && v.getLsbD i
          else f.cur.pw.getLsbD i) ∧
      (∀ n (h : n < 128) val mask, (∀ q ∈ f.cur.streams.toList, q.bound = true → q.reg ≠ n) → ∃ r : Vec,
        lands (.v n val mask) { f.cur with v := f.cur.v.set n r } ∧
        ∀ i, i < 512 → r.getLsbD i = if mask.getLsbD i then val.getLsbD i else f.cur.v[n].getLsbD i) ∧
      (∀ n val mask, (∃ q ∈ f.cur.streams.toList, q.bound = true ∧ q.reg = n) → lands (.v n val mask) f.cur) ∧
      (∀ n (h : n < 8) val mask, ∃ r : Word,
        lands (.vm n val mask) { f.cur with vm := f.cur.vm.set n r } ∧
        ∀ i, i < 64 → r.getLsbD i = if mask.getLsbD i then val.getLsbD i else f.cur.vm[n].getLsbD i) ∧
      (∀ code nan, ∃ pw : BitVec 32,
        lands (.amax code nan) { f.cur with amax := BitVec.ofNat 32 (max f.cur.amax.toNat code.toNat), pw := pw } ∧
        ∀ i, i < 32 → pw.getLsbD i = (f.cur.pw.getLsbD i || (i == 18 && nan))) ∧
      (∀ v, lands (.rctr v) { f.cur with rctrSeen := v }) ∧
      (∀ sq pos val mask y, f.cur.pushes.find? (fun z => z.sq == sq && z.pos == pos) = some y →
        exec (.registerResultLands uid born (.push sq pos val mask)) s =
          .next (f.dueAt (max f.now y.due) (rankThread - 3) (.ev (.streamPushLands f.cur.uid sq pos val mask))))) ∧
    (f.cur.uid ≠ uid → ∀ w, exec (.registerResultLands uid born w) s = .next f)

/-- R112, R114: sending a result on its way adds one landing event to the agenda, at the issue cycle plus the latency
times the dilation of the launch, keeps every other item of the agenda in its order (of results that land in one cycle
the one of the later-issued bundle, whose delay is shorter, comes last), and changes no register, flag, memory byte or
other state; a scalar result for the register zr is discarded. The case is that of an S slot or long bundle, or a V
slot whose S slot does not wait (the V slot's results of a bundle that waits on an access are kept until it retires).
(From R112, R114, R15.) -/
def Obligations.ResultIsScheduledAtItsLatency : Prop :=
  ∀ (s : State) (lat : Nat) (w : RegWrite), s.slotV = false ∨ s.cur.status = .ready →
    (∃ front back, s.agenda = front ++ back ∧
      s.land lat w = { s with agenda := front ++
        ⟨s.now + lat * s.dil, landRank (lat * s.dil), .ev (.registerResultLands s.cur.uid s.now w)⟩ :: back } ∧
      (∀ i ∈ back.head?, s.now + lat * s.dil < i.cycle ∨ (s.now + lat * s.dil = i.cycle ∧ landRank (lat * s.dil) < i.rank)) ∧
      ∀ m, m < lat * s.dil → lat * s.dil < 100000 → landRank (lat * s.dil) < landRank m) ∧
    (∀ d v, d.toNat < 24 → s.landA lat d v = s.land lat (.a d.toNat v)) ∧
    (∀ d v, 24 ≤ d.toNat → s.landA lat d v = s)

/-- R165, R166: a taken br or call goes to the low 32 bits of pc + 8 x imm, jr and jrl to the low 32 bits of their
register; call and jrl write pc + 8 to the link register with latency 2. No memory and no other register changes
(R168). Guards follow R96. (From R165, R166, R168, R96.) -/
def Obligations.TransferResults : Prop :=
  ∀ (g : Guard) (d rs : BitVec 5) (imm : BitVec 32) (s : State), s.transferGuard g = true →
    let direct : Word := BitVec.ofInt 64 ((s.cur.pc.toNat + 8 * imm.toInt) % 2 ^ 32)
    let indirect : Word := BitVec.ofNat 64 ((s.ra rs).toNat % 2 ^ 32)
    let linked := s.landA 2 d (s.cur.pc + 8)
    exec (.br g imm) s = .next { s with goto := some direct } ∧
    exec (.call g d imm) s = .next { linked with goto := some direct } ∧
    exec (.jr g rs) s = .next { s with goto := some indirect } ∧
    exec (.jrl g d rs) s = .next { linked with goto := some indirect } ∧
    linked.mem = s.mem ∧ linked.cur.pc = s.cur.pc ∧ linked.cur.a = s.cur.a

/-- R121, R125, R171-R178 with the guard true. texit without an open packet unbinds the thread and waits for its pushes
and relaxed accesses; yield waits for the slot after next; roll zeroes its own core's count and leaves every other
core's; anchor sets or clears pw.anch only; spawn to a cluster below 48 leaves rotation and, in deterministic mode,
sends the descriptor to that cluster's queue in 24 core cycles, 392 to another, times the dilation; ebind without an
open packet binds, or waits where a command to the bound engine is parked; tick and cycl give logical ticks and
retired bundles in deterministic mode (tick counts from tick 0 of overlay 0 there, a choice of the model, assumption
18), TICK and core cycles otherwise; rnd draws RandBits of the key and the counter, advances the count by one and
raises the wrap fault only when it wraps with pw.rndtrap set. sbind frees a bound stream with no push under way, waits
for one, faults on a stream or register that is bound, and else reads its descriptor, which binds the stream at
position 0. (From R121, R125, R171, R172, R173, R175, R176, R177, R178, R202, R204.) -/
def Obligations.ThreadInstructionResults : Prop :=
  ∀ (g : Guard) (d rs x : BitVec 5) (s : State),
    (s.transferGuard g = true → s.cur.openPkt = none →
      exec (.texit g) s = .next { s with cur := { s.cur with bound := 0, status := .waiting .pushes } }) ∧
    (s.guard g = true →
      exec (.yield g) s = .next { s with cur := { s.cur with status := .waiting .skip } } ∧
      (∃ t, exec (.roll g) s = .next t ∧ { t with p := s.p } = s ∧ { t.p with clusters := s.p.clusters } = s.p ∧
        (∀ cl, ({ t.cluster cl with rolls := [] } : ClusterPart) = { s.cluster cl with rolls := [] }) ∧
        (∀ cl co, Tab.getD ⟨0, false, 0⟩ co (t.cluster cl).rolls =
          if cl = s.cur.loc.cluster ∧ co = s.cur.loc.core then { Tab.getD ⟨0, false, 0⟩ co (s.cluster cl).rolls with count := 0 }
          else Tab.getD ⟨0, false, 0⟩ co (s.cluster cl).rolls)) ∧
      (∀ fn : BitVec 4, ∃ pw : BitVec 32, exec (.anchor g fn) s = .next { s with cur := { s.cur with pw := pw } } ∧
        ∀ i, i < 32 → pw.getLsbD i = if i = 16 then fn.getLsbD 0 else s.cur.pw.getLsbD i) ∧
      (∀ (f : BitVec 2) (imm : BitVec 32), s.p.run.det = true →
        let c := if f.getLsbD 0 then (s.ra x).toNat else s.cur.loc.cluster
        c < 48 → s.cur.loc.cluster < 48 → ∃ w0 : Word,
          w0.extractLsb' 0 32 = BitVec.ofInt 32 (s.cur.pc.toNat + 8 * imm.toInt) ∧ w0.getLsbD 32 = f.getLsbD 1 ∧
          w0.extractLsb' 33 31 = 0 ∧
          exec (.spawn g rs x f imm) s = .next (({ s with cur := { s.cur with status := .waiting .enqueue } } : State).dueIn
            ((if c = s.cur.loc.cluster then 24 else 392) * s.dil) (rankEnqueue + s.cur.loc.key)
            (.enqueueReachesQueue ⟨s.p.first, c, ⟨w0, s.ra rs, 0, 0⟩, .thread s.cur.uid⟩))) ∧
      (s.cur.openPkt = none → (∀ c ∈ s.cur.parkedCmd, c.eng ≠ s.cur.bound.toNat) →
        exec (.ebind g x) s = .next { s with cur := { s.cur with bound := x.setWidth 3 } }) ∧
      (s.cur.openPkt = none → (∃ c ∈ s.cur.parkedCmd, c.eng = s.cur.bound.toNat) →
        exec (.ebind g x) s = .next { s with cur := { s.cur with status := .waiting (.bind x.toNat) } }) ∧
      exec (.tick g d) s = .next (s.landA 2 d (BitVec.ofNat 64 (if s.p.run.det then s.plan - s.p.run.plan0 else s.now / 2 + s.tickOff))) ∧
      exec (.cycl g d) s = .next (s.landA 2 d
        (if s.p.run.det then s.cur.retired else BitVec.ofNat 64 (s.now + 2 * s.tickOff))) ∧
      (∃ t, exec (.rnd g d rs) s = .next t ∧ t.cur.rctr = s.cur.rctr + 1 ∧ t.mem = s.mem ∧ t.cur.a = s.cur.a ∧
        (s.slotV = false → ⟨s.now + 6 * s.dil, landRank (6 * s.dil), .ev (.registerResultLands s.cur.uid s.now
          (.a d.toNat (randBits s.cur.rkey ((s.ra rs).setWidth 32 ++ s.cur.rctr))))⟩ ∈ t.agenda ∨ 24 ≤ d.toNat) ∧
        (t.cur.raised ≠ s.cur.raised → s.cur.rctr = BitVec.allOnes 32 ∧ s.cur.pw.getLsbD 20 = true) ∧
        (s.cur.rctr = BitVec.allOnes 32 → t.cur.pw.getLsbD 19 = true) ∧
        (∀ i, i < 32 → i ≠ 19 → t.cur.pw.getLsbD i = s.cur.pw.getLsbD i)) ∧
      (∀ (f : BitVec 2) (imm : BitVec 32) (h : x.toNat % 4 < 4), let st := s.cur.streams[x.toNat % 4]
        let taken := st.bound = true ∨ ∃ q ∈ s.cur.streams.toList, q.bound = true ∧ q.reg = imm.toNat
        (f.getLsbD 1 = true →
          (st.bound = false → exec (.sbind g rs x f imm) s = .next s) ∧
          (st.bound = true → st.flight = 0 → exec (.sbind g rs x f imm) s = .next { s with cur := { s.cur with
            streams := s.cur.streams.set (x.toNat % 4) { StreamReg.rest with exh := st.exh } } }) ∧
          (st.bound = true → st.flight ≠ 0 →
            exec (.sbind g rs x f imm) s = .next { s with cur := { s.cur with status := .waiting (.freed (x.toNat % 4)) } })) ∧
        (f.getLsbD 1 = false → taken → exec (.sbind g rs x f imm) s = .next (s.raise 2 s.cur.pc)) ∧
        (∀ b, f.getLsbD 1 = false → ¬ taken → s.p.run.det = true → (s.ra rs).toNat % 32 = 0 →
          s.route (s.ra rs) 32 = .ok (.loc s.cur.loc.cluster s.cur.loc.core b) → ∃ t, exec (.sbind g rs x f imm) s = .next t ∧
          t.cur.status = .access s.nextId ∧ t.cur.streams = s.cur.streams ∧ t.cur.v = s.cur.v ∧ t.mem = s.mem ∧
          Due t (s.now + (if b < 0x80000 then 8 else 10) * s.dil)
            (.accessComplete s.cur.uid (.desc (.sbind (x.toNat % 4) (f.getLsbD 0) imm.toNat) (s.ra rs) s.now))))) ∧
    (∀ (uid sq reg id cl co b born : Nat) (push : Bool) (va : Word) (h : sq < 4), let u := s.focusThread uid
      let w (i : Nat) : Word := u.word (flatLocal cl co b + 8 * i)
      u.cur.uid = uid → uid ≠ 0 → u.cur.status = .access id → u.route va 1 = .ok (.loc cl co b) →
      (∀ i, i < 4 → Clean u (flatLocal cl co b + 8 * i)) → descFault u.p cl co va (w 0) (w 1) (w 2) (w 3) = none →
      ((w 0).getLsbD 22 = true → u.cur.bound = 3) → s.goto = none →
      ∃ t, exec (.accessComplete uid (.desc (.sbind sq push reg) va born)) s = .next t ∧ Retired u t ∧
        (u.cur.heldV = [] → t.cur.v = u.cur.v) ∧ t.mem = s.mem ∧
        t.cur.streams[sq].bound = true ∧ t.cur.streams[sq].push = push ∧ t.cur.streams[sq].reg = reg ∧ t.cur.streams[sq].k = 0 ∧
        t.cur.streams[sq].exh = u.cur.streams[sq].exh ∧ t.cur.streams[sq].port = (w 0).getLsbD 22 ∧
        t.cur.streams[sq].w0 = w 0 ∧ t.cur.streams[sq].w1 = w 1 ∧ t.cur.streams[sq].w2 = w 2 ∧ t.cur.streams[sq].w3 = w 3 ∧
        (u.p.run.det = true → t.cur.streams[sq].base = s.now) ∧
        ∀ (y : Nat) (hy : y < 4), y ≠ sq → t.cur.streams[y] = u.cur.streams[y])

/-- R394: entry puts bits [31:3] of the saved pc into k.epc, pw into k.epw, kind, slot, active 1 and the late bits into
k.fault, the info word into k.finfo, and the pc at k.tvec.base x 8; pw keeps its value and no memory changes. It
happens once every result on its way has landed and no relaxed access is outstanding or has missed; the thread is to
issue at its first own slot. The case is a thread outside a recitation group. (From R394, Table 17.5.) -/
def Obligations.TrapEntrySavesAndRedirects : Prop :=
  ∀ (uid : Nat) (s : State) (r : Raised), let f := s.focusThread uid
    f.cur.uid = uid → f.cur.status = .trapping → f.cur.raised = some r → r.handled = true → r.kind < 256 → r.slot < 2 →
    f.landsBy uid ≤ f.now → f.cur.relaxed = [] → f.cur.lateMiss = none → f.cur.recite = 0 →
    ∃ t, exec (.trapEntry uid) s = .next t ∧
      t.cur.epc = (r.pc.setWidth 32) &&& 0xFFFFFFF8 ∧ t.cur.epw = f.cur.pw ∧ t.cur.pw = f.cur.pw ∧ t.cur.finfo = r.info ∧
      t.cur.fault.extractLsb' 0 8 = BitVec.ofNat 8 r.kind ∧ t.cur.fault.getLsbD 8 = decide (r.slot = 1) ∧
      t.cur.fault.getLsbD 9 = true ∧ t.cur.fault.getLsbD 10 = r.late ∧ t.cur.fault.getLsbD 11 = r.more ∧
      t.cur.fault.extractLsb' 12 12 = 0 ∧
      t.cur.pc = (r.tvec.setWidth 64) &&& 0xFFFFFFF8 ∧ t.cur.status = .ready ∧
      t.cur.a = f.cur.a ∧ t.cur.v = f.cur.v ∧ t.cur.vm = f.cur.vm ∧ t.cur.tscr0 = f.cur.tscr0 ∧ t.cur.tscr1 = f.cur.tscr1 ∧
      t.mem = s.mem ∧ t.attr = s.attr ∧ t.p = f.p

/-- R395: where k.tvec.en is 0 or k.fault.active is 1 (as they stood when the bundle issued, or, for a late fault, stand
now) the fault is delivered unhandled: the thread leaves rotation with its registers and pc as they stand, no trap
register changes, and when the entry comes up the running launch keeps a fault record with the kind, the info word,
the saved pc and k.geom (kinds 1 to 7 here). (From R395.) -/
def Obligations.UnhandledFaultEndsTheLaunch : Prop :=
  ∀ (s : State) (r : Raised), s.cur.uid ≠ 0 → s.cur.part = s.p.first → s.cur.recite = 0 → r.told = false →
    (if r.late then s.trapTvec else s.cur.issueTvec).getLsbD 0 = false → 1 ≤ r.kind → r.kind ≤ 7 →
    s.p.run.active = true → s.p.run.ending = false →
    let u := s.startTrap r
    ((s.cur.trapEnabled = false ∨ s.cur.trapActive = true) → s.trapTvec.getLsbD 0 = false) ∧
    u.cur.status = .trapping ∧ (∃ q, u.cur.raised = some q ∧ q.handled = false ∧ q.kind = r.kind) ∧
    u.cur.a = s.cur.a ∧ u.cur.pw = s.cur.pw ∧ u.cur.pc = s.cur.pc ∧ u.cur.epc = s.cur.epc ∧ u.mem = s.mem ∧
    ∃ t, exec (.trapEntry s.cur.uid) u = .next t ∧ t.mem = s.mem ∧ t.cur.epc = s.cur.epc ∧ t.cur.fault = s.cur.fault ∧
      ∃ e, t.p.run.faults = s.p.run.faults ++ [e] ∧ e.kind = r.kind ∧ e.info = r.info ∧ e.pc = r.pc ∧ e.geom = s.cur.geom

/-- R397, R394: a bundle trap with a true guard, outside a recitation group, adds one to the retired count and leaves the
thread on its way to trap entry with kind 9, the code as info word and the next bundle's address as saved pc;
registers and memory keep their values. (From R397, R394.) -/
def Obligations.TrapInstructionRetiresThenTraps : Prop :=
  ∀ (s : State) (g : Guard) (imm : BitVec 32), s.cur.recite = 0 → s.cur.status = .ready → s.guard g = true → s.cur.fwd = none →
    exec (.trap g imm) s = .next (s.raise 9 (BitVec.ofNat 64 (imm.toNat % 65536))) ∧
    ∃ t r, runBundle exec (.long (.trap g imm)) s = .next t ∧ t.cur.raised = some r ∧ t.cur.status = .trapping ∧
      r.kind = 9 ∧ r.info = BitVec.ofNat 64 (imm.toNat % 65536) ∧ r.pc = s.cur.pc + 8 ∧
      t.cur.retired = s.cur.retired + 1 ∧ t.cur.a = s.cur.a ∧ t.cur.v = s.cur.v ∧ t.cur.pw = s.cur.pw ∧ t.mem = s.mem

/-- R397: with k.fault.active 1, rtt sets pw to k.epw with p0 set and bits [31:27] clear, clears k.fault.active (and the
done mask), goes to k.epc and leaves k.epc, k.epw, k.finfo, k.fault.kind and every general register; with active 0 it
raises an illegal-instruction fault with the pc. The guard is the leader's in a recitation follower. Without a true
guard nothing happens. (From R397.) -/
def Obligations.ReturnFromTrap : Prop :=
  ∀ (g : Guard) (s : State), s.transferGuard g = true →
    (s.cur.trapActive = true → ∃ t, exec (.rtt g) s = .next t ∧
      t.cur.pw = ((s.cur.epw &&& 0x07FFFFFF) ||| 1) ∧ t.cur.fault.getLsbD 9 = false ∧
      (∀ i, i < 16 → i ≠ 9 → t.cur.fault.getLsbD i = s.cur.fault.getLsbD i) ∧
      t.goto = some ((s.cur.epc.setWidth 64) &&& 0xFFFFFFF8) ∧
      t.cur.epc = s.cur.epc ∧ t.cur.epw = s.cur.epw ∧ t.cur.finfo = s.cur.finfo ∧ t.cur.a = s.cur.a ∧ t.cur.v = s.cur.v ∧
      t.mem = s.mem ∧ t.agenda = s.agenda) ∧
    (s.cur.trapActive = false → exec (.rtt g) s = .next (s.raise 2 s.cur.pc))

/-- R398: crd gives the named register's value after 4 core cycles and cwr sends its operand there with the same latency;
a number that the table does not list raises an illegal-instruction fault whether or not the guard holds. When a write
lands it changes that register only, within its RW bits; a write of a read-only register (k.mode, k.geom, k.asid)
changes nothing, and one of the L fields of k.roll and k.home0-63 acts only before the first bell of a launch of the
partition. A write of k.gov whose low 56 bits are not 0 has conditions of its own. (From R398, Table 17.8, R13.) -/
def Obligations.ControlRegisterAccess : Prop :=
  ∀ (g : Guard) (d rs : BitVec 5) (imm : BitVec 32) (s : State),
    (cregListed (imm.toNat % 4096) = false →
      exec (.crd g d imm) s = .next (s.raise 2 s.cur.pc) ∧ exec (.cwr g rs imm) s = .next (s.raise 2 s.cur.pc)) ∧
    (s.guard g = true →
      exec (.crd g d 0x001) s = .next (s.landA 4 d s.cur.geom) ∧
      exec (.crd g d 0x003) s = .next (s.landA 4 d s.cur.rkey) ∧
      exec (.crd g d 0x004) s = .next (s.landA 4 d (s.cur.rctrSeen.setWidth 64)) ∧
      exec (.crd g d 0x005) s = .next (s.landA 4 d (s.cur.amax.setWidth 64)) ∧
      exec (.crd g d 0x006) s = .next (s.landA 4 d s.cur.srnd) ∧
      exec (.crd g d 0x008) s = .next (s.landA 4 d (s.cur.asid.setWidth 64)) ∧
      exec (.crd g d 0x010) s = .next (s.landA 4 d (s.cur.tvec.setWidth 64)) ∧
      exec (.crd g d 0x011) s = .next (s.landA 4 d (s.cur.epc.setWidth 64)) ∧
      exec (.crd g d 0x012) s = .next (s.landA 4 d (s.cur.epw.setWidth 64)) ∧
      exec (.crd g d 0x013) s = .next (s.landA 4 d (s.cur.fault.setWidth 64)) ∧
      exec (.crd g d 0x014) s = .next (s.landA 4 d s.cur.finfo) ∧
      exec (.crd g d 0x015) s = .next (s.landA 4 d s.cur.tscr0) ∧
      exec (.crd g d 0x016) s = .next (s.landA 4 d s.cur.tscr1) ∧
      (∀ n, n < 64 → exec (.crd g d (BitVec.ofNat 32 (0x40 + n))) s = .next (s.landA 4 d (s.p.homing.toList.getD n 0))) ∧
      (cregListed (imm.toNat % 4096) = true → (imm.toNat % 4096 = 9 → (s.ra rs).extractLsb' 0 56 = 0) →
        exec (.cwr g rs imm) s = .next (s.land 4 (.creg (imm.toNat % 4096) (s.ra rs))))) ∧
    (∀ uid born (v : Word), let f := s.focusThread uid
      f.cur.uid = uid →
      (∀ n, n = 0 ∨ n = 1 ∨ n = 8 ∨ 0x80 ≤ n ∨ (f.beforeBell = false ∧ (n = 2 ∨ 0x40 ≤ n)) →
        exec (.registerResultLands uid born (.creg n v)) s = .next f) ∧
      (f.beforeBell = true → v.extractLsb' 0 16 ≠ 0 → exec (.registerResultLands uid born (.creg 0x002 v)) s =
        .next (f.onRun fun r => { r with interval := (v.extractLsb' 0 16).toNat })) ∧
      (∀ n (h : n < 64), f.beforeBell = true → homingOk (v &&& homingMask) = true →
        ∃ t, exec (.registerResultLands uid born (.creg (0x40 + n) v)) s = .next t ∧ t.p.homing[n] = v &&& homingMask ∧
          (∀ m (hm : m < 64), m ≠ n → t.p.homing[m] = f.p.homing[m]) ∧ t.cur = f.cur ∧ t.mem = f.mem) ∧
      exec (.registerResultLands uid born (.creg 0x004 v)) s =
        .next { f with cur := { f.cur with rctr := v.setWidth 32, rctrSeen := v.setWidth 32 } } ∧
      exec (.registerResultLands uid born (.creg 0x005 v)) s = .next { f with cur := { f.cur with amax := v.setWidth 32 } } ∧
      exec (.registerResultLands uid born (.creg 0x012 v)) s = .next { f with cur := { f.cur with epw := v.setWidth 32 } } ∧
      exec (.registerResultLands uid born (.creg 0x013 v)) s =
        .next { f with cur := { f.cur with fault := v.setWidth 24 &&& 0xFF0FFF } } ∧
      exec (.registerResultLands uid born (.creg 0x016 v)) s = .next { f with cur := { f.cur with tscr1 := v } } ∧
      exec (.registerResultLands uid born (.creg 0x003 v)) s = .next { f with cur := { f.cur with rkey := v } } ∧
      exec (.registerResultLands uid born (.creg 0x006 v)) s = .next { f with cur := { f.cur with srnd := v } } ∧
      exec (.registerResultLands uid born (.creg 0x010 v)) s =
        .next { f with cur := { f.cur with tvec := v.setWidth 32 &&& 0xFFFFFFF9 } } ∧
      exec (.registerResultLands uid born (.creg 0x011 v)) s =
        .next { f with cur := { f.cur with epc := v.setWidth 32 &&& 0xFFFFFFF8 } } ∧
      exec (.registerResultLands uid born (.creg 0x014 v)) s = .next { f with cur := { f.cur with finfo := v } } ∧
      exec (.registerResultLands uid born (.creg 0x015 v)) s = .next { f with cur := { f.cur with tscr0 := v } })

/-- R399, R315 with the guard true: an operand above 4095 is an address fault with the operand; binding a retiring ASID is
a bind fault 0x1000 + ASID; otherwise the thread is bound and nothing else changes. In deterministic mode a drop that
starts a retirement takes the thread out of rotation, marks the ASID retiring until 400 d cycles from now and
schedules the clearing and the acknowledgement; the clearing takes v from exactly the entries of that ASID; the
acknowledgement ends the retirement and gives the starter 1. (From R399, R315.) -/
def Obligations.AddressSpaceInstructions : Prop :=
  ∀ (g : Guard) (d rs : BitVec 5) (s : State), s.guard g = true →
    let a := s.ra rs
    (4096 ≤ a.toNat → exec (.asidBind g rs) s = .next (s.raise 4 a) ∧ exec (.asidDrop g d rs) s = .next (s.raise 4 a)) ∧
    (a.toNat < 4096 → (∃ r ∈ s.p.retiring, r.1 = a.toNat) → exec (.asidBind g rs) s = .next (s.raise 3 (0x1000 + a))) ∧
    (a.toNat < 4096 → (∀ r ∈ s.p.retiring, r.1 ≠ a.toNat) →
      exec (.asidBind g rs) s = .next { s with cur := { s.cur with asid := a.setWidth 12 } } ∧
      (s.p.run.det = true → ∃ t, exec (.asidDrop g d rs) s = .next t ∧ t.cur.status = .waiting .asidDrop ∧
        t.p.retiring = (a.toNat, s.now + 400 * s.dil) :: s.p.retiring ∧ t.mem = s.mem ∧ t.cur.a = s.cur.a ∧
        ⟨s.now + 200 * s.dil, rankLand, .ev (.asidClear s.p.first a.toNat)⟩ ∈ t.agenda ∧
        ⟨s.now + 400 * s.dil, rankDone, .ev (.asidDropAck s.p.first a.toNat s.cur.uid d.toNat true)⟩ ∈ t.agenda)) ∧
    (∀ first asid, let f := s.focusPart first
      f.p.first = first → ∃ t, exec (.asidClear first asid) s = .next t ∧ { t with p := f.p } = f ∧
        ∀ cl c, (cl, c) ∈ f.p.clusters → ∃ c', (cl, c') ∈ t.p.clusters ∧ c'.store = c.store.map fun e =>
          if (e.w0.extractLsb' 40 12).toNat = asid then { e with w0 := e.w0 &&& ~~~(1#64 <<< 53) } else e) ∧
    (∀ first asid uid n, let f := ((s.focusPart first).focusThread uid)
      (s.focusPart first).p.first = first → f.cur.uid = uid → f.cur.status = .waiting .asidDrop → f.cur.part = first → uid ≠ 0 →
      n < 24 → ∃ t, exec (.asidDropAck first asid uid n true) s = .next t ∧ t.cur.reg n = 1 ∧ t.cur.status = .ready ∧
        (∀ r ∈ t.p.retiring, r.1 ≠ asid) ∧ t.mem = s.mem)

/-- R81, R83, R89, R91: a reserved cell executes as a no-op; an illegal instruction raises kind 2 with the pc in its slot,
and a fetch fault kind 1 with the pc; an illegal stream word is a launch fault of its tile and stream of kind 2. No
register or memory byte changes. (From R81, R83, R89, R91.) -/
def Obligations.FaultingEncodings : Prop :=
  ∀ (s : State) (k : SlotKind) (bits : BitVec 64),
    exec (.resSlotNop k bits) s = .next s ∧
    exec .nopStream s = .next s ∧
    exec .vnop s = .next s ∧
    (∃ t r, exec (.illegalInstruction k) s = .next t ∧ t.cur.raised = some r ∧ r.kind = 2 ∧ r.info = s.cur.pc ∧
      r.slot = (if k = .v then 1 else 0) ∧ t.mem = s.mem ∧ t.cur.a = s.cur.a) ∧
    (∃ t r, exec .fetchFault s = .next t ∧ t.cur.raised = some r ∧ r.kind = 1 ∧ r.info = s.cur.pc ∧ t.mem = s.mem) ∧
    (s.p.run.active = true → s.p.run.ending = false → ∃ t e, exec .illegalStreamWord s = .next t ∧
      t.p.run.faults = s.p.run.faults ++ [e] ∧ e.kind = 2 ∧ e.tile = s.tl.ltile ∧ e.stream = s.tstream ∧ t.mem = s.mem)

/-- R184, R180: for f32 (alt 0) and f64 (alt 1), with no operand bound to a stream, fadd, fsub, fmul, the four fused
forms, fdiv and fsqrt write to each included lane of vd the exact value of Table 8.2 rounded once to nearest even,
with the flags of the included lanes, after the latency of Table 5.2; excluded lanes keep their value and nothing else
changes. (From R184, R180, R134, Table 8.2.) -/
def Obligations.VectorFloatArithmetic : Prop :=
  ∀ (alt : BitVec 1) (vm : BitVec 3) (vd va vb : BitVec 7) (s : State), unbound s [va, vb, vd] →
    let f : Fmt := if alt = 0 then f32 else f64
    let w := f.width
    let a (i : Nat) : FVal := f.value (laneOf (vreg s va) w i)
    let b (i : Nat) : FVal := f.value (laneOf (vreg s vb) w i)
    let d (i : Nat) : FVal := f.value (laneOf (vreg s vd) w i)
    let res (i : Instr) (lat : Nat) (r : Nat → FVal × FS) : Prop :=
      ∃ t, exec i s = .next t ∧ LaneResult s t lat w vd (included s vm) fun i => f.op (r i)
    res (.fadd alt vm vd va vb) 8 (fun i => FVal.sum [a i, b i]) ∧
    res (.fsub alt vm vd va vb) 8 (fun i => FVal.sum [a i, (b i).neg]) ∧
    res (.fmul alt vm vd va vb) 8 (fun i => (a i).mul (b i)) ∧
    res (.fma alt vm vd va vb) 8 (fun i => FVal.fma (a i) (b i) (d i)) ∧
    res (.fms alt vm vd va vb) 8 (fun i => FVal.fma (a i) (b i) (d i).neg) ∧
    res (.fnma alt vm vd va vb) 8 (fun i => FVal.fma (a i).neg (b i) (d i)) ∧
    res (.fnms alt vm vd va vb) 8 (fun i => FVal.fma (a i).neg (b i) (d i).neg) ∧
    res (.fdiv alt vm vd va vb) (if alt = 0 then 28 else 44) (fun i => (a i).div (b i)) ∧
    res (.fsqrt alt vm vd va) (if alt = 0 then 28 else 44) (fun i => (a i).sqrt)

/-- R185, R188, R189, R198: fmin and fmax give one operand's own code (the smaller or larger, -0 below +0) and the
canonical NaN where either is NaN; fabs, fneg and fsgn act on the sign bit alone, a NaN giving the canonical NaN;
fclass sets exactly the one bit of the class; vsel selects by mask bit and writes every lane; vmov, vbcast, vins and
vext copy patterns. None adds a flag. No operand is bound to a stream. (From R185, R188, R189, R198.) -/
def Obligations.VectorFloatSelection : Prop :=
  ∀ (alt : BitVec 1) (vm : BitVec 3) (vd va vb : BitVec 7) (s : State), unbound s [va, vb, vd] →
    let f : Fmt := if alt = 0 then f32 else f64
    let w := f.width
    let a (i : Nat) : Nat := laneOf (vreg s va) w i
    let b (i : Nat) : Nat := laneOf (vreg s vb) w i
    let nan (i : Nat) : Bool := (f.value (a i)).isNan
    let res (i : Instr) (r : Nat → Nat) : Prop := ∃ t, exec i s = .next t ∧ LaneResult s t 4 w vd (included s vm) fun i => plain (r i)
    (∃ mn mx cls : Nat → Nat,
      res (.fmin alt vm vd va vb) mn ∧ res (.fmax alt vm vd va vb) mx ∧
      (∃ t, exec (.fclass alt vm vd va) s = .next t ∧ LaneResult s t 8 w vd (included s vm) fun i => plain (cls i)) ∧
      ∀ i, i < 512 / w →
        ((nan i || (f.value (b i)).isNan) = true → mn i = f.nanCode ∧ mx i = f.nanCode) ∧
        ((nan i || (f.value (b i)).isNan) = false → (mn i = a i ∨ mn i = b i) ∧ (mx i = a i ∨ mx i = b i) ∧
          (f.value (mn i)).le (f.value (a i)) = true ∧ (f.value (mn i)).le (f.value (b i)) = true ∧
          (f.value (a i)).le (f.value (mx i)) = true ∧ (f.value (b i)).le (f.value (mx i)) = true ∧
          ((f.value (a i)).isZero = true → (f.value (b i)).isZero = true →
            (f.value (mn i)).isNeg = ((f.value (a i)).isNeg || (f.value (b i)).isNeg) ∧
            (f.value (mx i)).isNeg = ((f.value (a i)).isNeg && (f.value (b i)).isNeg))) ∧
        (∃ k, k ≤ 8 ∧ cls i = 2 ^ k) ∧ (cls i = 256 ↔ nan i = true) ∧ (cls i = 8 ∨ cls i = 16 ↔ (f.value (a i)).isZero = true) ∧
        (cls i = 1 ∨ cls i = 128 ↔ (f.value (a i)).isInf = true) ∧ (cls i ≤ 8 ↔ (f.value (a i)).isNeg = true)) ∧
    res (.fabs alt vm vd va) (fun i => if nan i then f.nanCode else a i % 2 ^ (w - 1)) ∧
    res (.fneg alt vm vd va) (fun i => if nan i then f.nanCode else (a i + 2 ^ (w - 1)) % 2 ^ w) ∧
    res (.fsgn alt vm vd va vb) (fun i => if nan i then f.nanCode else a i % 2 ^ (w - 1) + b i / 2 ^ (w - 1) * 2 ^ (w - 1)) ∧
    (∃ t, exec (.vsel alt vm vd va vb) s = .next t ∧
      LaneResult s t 4 w vd (fun i => decide (i < 512 / w)) fun i => plain (if included s vm i then a i else b i)) ∧
    res (.vmov alt vm vd va) a ∧
    (unbound s [vd] → res (.vbcast alt vm vd va) (fun _ => (s.cur.reg va.toNat).toNat % 2 ^ w)) ∧
    (vb.toNat < 512 / w → ∃ t, exec (.vins alt vd va vb) s = .next t ∧
      LaneResult s t 4 w vd (fun i => i == vb.toNat) fun _ => plain ((s.cur.reg va.toNat).toNat % 2 ^ w)) ∧
    (vb.toNat < 512 / w → vd.toNat < 32 → exec (.vext alt vd va vb) s =
      .next (s.landA 6 (BitVec.ofNat 5 vd.toNat) (BitVec.ofNat 64 (laneOf (vreg s va) w vb.toNat))))

/-- R186: in bf16 (alt 0) or f16 (alt 1), with no operand bound to a stream, hadd, hsub, hmul, hma, hmin and hmax act in
32 lanes as their f forms do; hdot adds the exact products of the lane pairs 2i and 2i + 1 to f32 lane i and rounds
the exact three-term sum once. (From R186.) -/
def Obligations.VectorHalfArithmetic : Prop :=
  ∀ (alt : BitVec 1) (vm : BitVec 3) (vd va vb : BitVec 7) (s : State), unbound s [va, vb, vd] →
    let f : Fmt := if alt = 0 then bf16 else f16
    let ca (i : Nat) : Nat := laneOf (vreg s va) 16 i
    let cb (i : Nat) : Nat := laneOf (vreg s vb) 16 i
    let a (i : Nat) : FVal := f.value (ca i)
    let b (i : Nat) : FVal := f.value (cb i)
    let d (i : Nat) : FVal := f.value (laneOf (vreg s vd) 16 i)
    let res (i : Instr) (r : Nat → Nat × FS) : Prop := ∃ t, exec i s = .next t ∧ LaneResult s t 8 16 vd (included s vm) r
    res (.hadd alt vm vd va vb) (fun i => f.op (FVal.sum [a i, b i])) ∧
    res (.hsub alt vm vd va vb) (fun i => f.op (FVal.sum [a i, (b i).neg])) ∧
    res (.hmul alt vm vd va vb) (fun i => f.op ((a i).mul (b i))) ∧
    res (.hma alt vm vd va vb) (fun i => f.op (FVal.fma (a i) (b i) (d i))) ∧
    res (.hmin alt vm vd va vb) (fun i => plain (if (a i).isNan || (b i).isNan then f.nanCode
      else if (b i).lt (a i) || ((b i).eq (a i) && (b i).isNeg && !(a i).isNeg) then cb i else ca i)) ∧
    res (.hmax alt vm vd va vb) (fun i => plain (if (a i).isNan || (b i).isNan then f.nanCode
      else if (a i).lt (b i) || ((a i).eq (b i) && (a i).isNeg && !(b i).isNeg) then cb i else ca i)) ∧
    (∃ t r, exec (.hdot alt vm vd va vb) s = .next t ∧ LaneResult s t 10 32 vd (included s vm) r ∧
      ∀ i, i < 16 → ∀ n0 m0 e0 n1 m1 e1 n2 m2 e2,
        (a (2 * i)).mul (b (2 * i)) = (FVal.fin n0 m0 e0, 0) →
        (a (2 * i + 1)).mul (b (2 * i + 1)) = (FVal.fin n1 m1 e1, 0) →
        f32.value (laneOf (vreg s vd) 32 i) = FVal.fin n2 m2 e2 → m0 ≠ 0 → m1 ≠ 0 → m2 ≠ 0 →
        let u := min (min e0 e1) e2
        let x := scaled n0 m0 e0 u + scaled n1 m1 e1 u + scaled n2 m2 e2 u
        x ≠ 0 → (r i).1 = (f32.round .rn (.fin (decide (x < 0)) x.natAbs u)).1)

/-- R187, Table 8.3: with no operand bound to a stream, every compare puts its condition into the included lanes' bits of
the mask register, keeps the bits of excluded lanes and zeroes the bits at and above the lane count; float compares
are false with a NaN (fcmp.un true) and add no flag, integer compares are signed or unsigned within the lane. (States
R187.) -/
def Obligations.VectorCompares : Prop :=
  ∀ (alt : BitVec 1) (vm : BitVec 3) (vd va vb : BitVec 7) (s : State), unbound s [va, vb] →
    let f : Fmt := if alt = 0 then f32 else f64
    let h : Fmt := if alt = 0 then bf16 else f16
    let w := f.width
    let a (i : Nat) : FVal := f.value (laneOf (vreg s va) w i)
    let b (i : Nat) : FVal := f.value (laneOf (vreg s vb) w i)
    let ha (i : Nat) : FVal := h.value (laneOf (vreg s va) 16 i)
    let hb (i : Nat) : FVal := h.value (laneOf (vreg s vb) 16 i)
    let ia (i : Nat) : BitVec w := BitVec.ofNat w (laneOf (vreg s va) w i)
    let ib (i : Nat) : BitVec w := BitVec.ofNat w (laneOf (vreg s vb) w i)
    let num (x y : FVal) : Bool := !x.isNan && !y.isNan
    let res (i : Instr) (lat n : Nat) (c : Nat → Bool) : Prop := ∃ t, exec i s = .next t ∧ MaskResult s t lat n vd (included s vm) c
    res (.fcmpEq alt vm vd va vb) 8 (512 / w) (fun i => num (a i) (b i) && !(a i).lt (b i) && !(b i).lt (a i)) ∧
    res (.fcmpLt alt vm vd va vb) 8 (512 / w) (fun i => num (a i) (b i) && (a i).lt (b i)) ∧
    res (.fcmpLe alt vm vd va vb) 8 (512 / w) (fun i => num (a i) (b i) && !(b i).lt (a i)) ∧
    res (.fcmpUn alt vm vd va vb) 8 (512 / w) (fun i => !num (a i) (b i)) ∧
    res (.hcmpEq alt vm vd va vb) 8 32 (fun i => num (ha i) (hb i) && !(ha i).lt (hb i) && !(hb i).lt (ha i)) ∧
    res (.hcmpLt alt vm vd va vb) 8 32 (fun i => num (ha i) (hb i) && (ha i).lt (hb i)) ∧
    res (.hcmpLe alt vm vd va vb) 8 32 (fun i => num (ha i) (hb i) && !(hb i).lt (ha i)) ∧
    res (.vcmpEq alt vm vd va vb) 4 (512 / w) (fun i => ia i == ib i) ∧
    res (.vcmpNe alt vm vd va vb) 4 (512 / w) (fun i => ia i != ib i) ∧
    res (.vcmpLt alt vm vd va vb) 4 (512 / w) (fun i => (ia i).slt (ib i)) ∧
    res (.vcmpGe alt vm vd va vb) 4 (512 / w) (fun i => !(ia i).slt (ib i)) ∧
    res (.vcmpLtw alt vm vd va vb) 4 (512 / w) (fun i => (ia i).ult (ib i)) ∧
    res (.vcmpGew alt vm vd va vb) 4 (512 / w) (fun i => !(ia i).ult (ib i))

/-- R190, Table 8.4: at the lane width of the row and alt (32 or 16; 8 or 64), with no operand bound to a stream, each
included lane takes the wrapping sum, difference or product, the signed high product, the signed or unsigned minimum
or maximum, the bitwise result, the shift (0 for counts of w or more; vsar by at most w - 1), or for vadds the sum
clamped to the signed range, with isat exactly when it clamps. For each of the 32 constructors exec answers a next
state, on every state and operands with no stream bound to them. (From R190, Table 8.4.) -/
def Obligations.VectorIntegerLanes : Prop :=
  ∀ (alt : BitVec 1) (vm : BitVec 3) (vd va vb : BitVec 7) (s : State), unbound s [va, vb, vd] →
    (let w : Nat := if alt = 0 then 32 else 16
     let x (i : Nat) : BitVec w := BitVec.ofNat w (laneOf (vreg s va) w i)
     let y (i : Nat) : BitVec w := BitVec.ofNat w (laneOf (vreg s vb) w i)
     let res (i : Instr) (lat : Nat) (f : BitVec w → BitVec w → BitVec w) : Prop :=
       ∃ t, exec i s = .next t ∧ LaneResult s t lat w vd (included s vm) fun i => plain (f (x i) (y i)).toNat
     let sat (i : Instr) : Prop := ∃ t r, exec i s = .next t ∧ LaneResult s t 4 w vd (included s vm) r ∧
       ∀ i, i < 512 / w → (BitVec.ofNat w (r i).1).toInt = max (-2 ^ (w - 1)) (min (2 ^ (w - 1) - 1) ((x i).toInt + (y i).toInt)) ∧
         (r i).2 = if (x i).toInt + (y i).toInt = (BitVec.ofNat w (r i).1).toInt then 0 else isat
     res (.vaddW3216 alt vm vd va vb) 4 (fun x y => x + y) ∧
     res (.vsubW3216 alt vm vd va vb) 4 (fun x y => x - y) ∧
     res (.vmulW3216 alt vm vd va vb) 6 (fun x y => x * y) ∧
     res (.vmulhW3216 alt vm vd va vb) 6 (fun x y => BitVec.ofInt w (x.toInt * y.toInt / 2 ^ w)) ∧
     res (.vminW3216 alt vm vd va vb) 4 (fun x y => if x.slt y then x else y) ∧
     res (.vmaxW3216 alt vm vd va vb) 4 (fun x y => if x.slt y then y else x) ∧
     res (.vminwW3216 alt vm vd va vb) 4 (fun x y => if x.ult y then x else y) ∧
     res (.vmaxwW3216 alt vm vd va vb) 4 (fun x y => if x.ult y then y else x) ∧
     res (.vandW3216 alt vm vd va vb) 4 (fun x y => x &&& y) ∧
     res (.vorW3216 alt vm vd va vb) 4 (fun x y => x ||| y) ∧
     res (.vxorW3216 alt vm vd va vb) 4 (fun x y => x ^^^ y) ∧
     res (.vandnW3216 alt vm vd va vb) 4 (fun x y => x &&& ~~~y) ∧
     res (.vshlW3216 alt vm vd va vb) 4 (fun x y => x <<< y.toNat) ∧
     res (.vshrW3216 alt vm vd va vb) 4 (fun x y => x >>> y.toNat) ∧
     res (.vsarW3216 alt vm vd va vb) 4 (fun x y => x.sshiftRight (min y.toNat (w - 1))) ∧
     sat (.vaddsW3216 alt vm vd va vb)) ∧
    (let w : Nat := if alt = 0 then 8 else 64
     let x (i : Nat) : BitVec w := BitVec.ofNat w (laneOf (vreg s va) w i)
     let y (i : Nat) : BitVec w := BitVec.ofNat w (laneOf (vreg s vb) w i)
     let res (i : Instr) (lat : Nat) (f : BitVec w → BitVec w → BitVec w) : Prop :=
       ∃ t, exec i s = .next t ∧ LaneResult s t lat w vd (included s vm) fun i => plain (f (x i) (y i)).toNat
     let sat (i : Instr) : Prop := ∃ t r, exec i s = .next t ∧ LaneResult s t 4 w vd (included s vm) r ∧
       ∀ i, i < 512 / w → (BitVec.ofNat w (r i).1).toInt = max (-2 ^ (w - 1)) (min (2 ^ (w - 1) - 1) ((x i).toInt + (y i).toInt)) ∧
         (r i).2 = if (x i).toInt + (y i).toInt = (BitVec.ofNat w (r i).1).toInt then 0 else isat
     res (.vaddW864 alt vm vd va vb) 4 (fun x y => x + y) ∧
     res (.vsubW864 alt vm vd va vb) 4 (fun x y => x - y) ∧
     res (.vmulW864 alt vm vd va vb) 6 (fun x y => x * y) ∧
     res (.vmulhW864 alt vm vd va vb) 6 (fun x y => BitVec.ofInt w (x.toInt * y.toInt / 2 ^ w)) ∧
     res (.vminW864 alt vm vd va vb) 4 (fun x y => if x.slt y then x else y) ∧
     res (.vmaxW864 alt vm vd va vb) 4 (fun x y => if x.slt y then y else x) ∧
     res (.vminwW864 alt vm vd va vb) 4 (fun x y => if x.ult y then x else y) ∧
     res (.vmaxwW864 alt vm vd va vb) 4 (fun x y => if x.ult y then y else x) ∧
     res (.vandW864 alt vm vd va vb) 4 (fun x y => x &&& y) ∧
     res (.vorW864 alt vm vd va vb) 4 (fun x y => x ||| y) ∧
     res (.vxorW864 alt vm vd va vb) 4 (fun x y => x ^^^ y) ∧
     res (.vandnW864 alt vm vd va vb) 4 (fun x y => x &&& ~~~y) ∧
     res (.vshlW864 alt vm vd va vb) 4 (fun x y => x <<< y.toNat) ∧
     res (.vshrW864 alt vm vd va vb) 4 (fun x y => x >>> y.toNat) ∧
     res (.vsarW864 alt vm vd va vb) 4 (fun x y => x.sshiftRight (min y.toNat (w - 1))) ∧
     sat (.vaddsW864 alt vm vd va vb))

/-- R191, R192: with no operand bound to a stream, isum gives the wrapping sum of the included lanes, imaxr and iminr
their signed largest and smallest (the lowest or highest value where none is included), fsum the tree of R148 over all
lanes with excluded lanes entering as -0, fmaxr, fminr and famaxr the fold of R149 over the included lanes; each goes
to lane 0 and every other lane becomes zero. iscan writes to each included lane the wrapping sum of the included lanes
up to it, fscan the running float sum of R149; vabs and vneg wrap. (From R190, R191, R192, R148, R149.) -/
def Obligations.VectorReductionsAndScans : Prop :=
  ∀ (alt : BitVec 1) (vm : BitVec 3) (vd va : BitVec 7) (s : State), unbound s [va, vd] →
    let f : Fmt := if alt = 0 then f32 else f64
    let w := f.width
    let n := 512 / w
    let inc := included s vm
    let c (i : Nat) : Nat := laneOf (vreg s va) w i
    let x (i : Nat) : BitVec w := BitVec.ofNat w (c i)
    let ins : List Nat := (List.range n).map fun i => if inc i then c i else 2 ^ (w - 1)
    let some_ : List Nat := ((List.range n).filter inc).map c
    let red (i : Instr) (r : Nat × FS) : Prop := ∃ t, exec i s = .next t ∧ Reduced s t 12 w vd r
    let lanes (i : Instr) (lat : Nat) (r : Nat → Nat) : Prop :=
      ∃ t, exec i s = .next t ∧ LaneResult s t lat w vd inc fun i => plain (r i)
    red (.isum alt vm vd va) (plain (some_.sum % 2 ^ w)) ∧
    (∃ m, red (.imaxr alt vm vd va) (plain m) ∧ m < 2 ^ w ∧ (∀ i, i < n → inc i = true → (x i).sle (BitVec.ofNat w m) = true) ∧
      ((∃ i, i < n ∧ inc i = true ∧ c i = m) ∨ m = 2 ^ (w - 1))) ∧
    (∃ m, red (.iminr alt vm vd va) (plain m) ∧ m < 2 ^ w ∧ (∀ i, i < n → inc i = true → (BitVec.ofNat w m).sle (x i) = true) ∧
      ((∃ i, i < n ∧ inc i = true ∧ c i = m) ∨ m = 2 ^ (w - 1) - 1)) ∧
    red (.fsum alt vm vd va) (f.sumTree ins) ∧
    red (.fmaxr alt vm vd va) (plain (some_.foldl f.max (f.infCode true))) ∧
    red (.fminr alt vm vd va) (plain (some_.foldl f.min (f.infCode false))) ∧
    red (.famaxr alt vm vd va) (plain ((some_.map f.abs).foldl f.max 0)) ∧
    lanes (.iscan alt vm vd va) 14 (fun k => (((List.range (k + 1)).filter inc).map c).sum % 2 ^ w) ∧
    (∃ t, exec (.fscan alt vm vd va) s = .next t ∧ ∃ val mask fs,
      t = (s.land 14 (.v vd.toNat val mask)).landFlags 14 fs ∧ (∀ i, i < 512 → mask.getLsbD i = inc (i / w)) ∧
      ∀ i, i < n → inc i = true → laneOf val w i =
        ((ins.drop 1).take i).foldl (fun r y => (f.op (FVal.sum [f.value r, f.value y])).1) (f.canon (ins.headD 0)) % 2 ^ w) ∧
    lanes (.vabs alt vm vd va) 4 (fun i => if (x i).toInt < 0 then (-(x i)).toNat else (x i).toNat) ∧
    lanes (.vneg alt vm vd va) 4 (fun i => (-(x i)).toNat)

/-- R193-R197: for a selector that names a code and a part of Table 8.6, with no operand bound to a stream, cvt.rn, .rz,
.ru and .rd convert each included element of the source part to the destination part, saturating first where alt is 1,
rounding once in the named mode; cvt.rs rounds with the random bits of element i. A selector with no such code or part
is an illegal instruction. (From R193, R195, R197, Table 8.6.) -/
def Obligations.VectorConversions : Prop :=
  ∀ (alt : BitVec 1) (vm : BitVec 3) (vd va vb : BitVec 7) (s : State),
    ((cvtRow (vb.toNat % 32) = none ∨ ∃ a b n k, cvtRow (vb.toNat % 32) = some (a, b, n, k) ∧ k ≤ vb.toNat / 32) →
      exec (.cvtRn alt vm vd va vb) s = .next (s.raise 2 s.cur.pc) ∧ exec (.cvtRz alt vm vd va vb) s = .next (s.raise 2 s.cur.pc) ∧
      exec (.cvtRu alt vm vd va vb) s = .next (s.raise 2 s.cur.pc) ∧ exec (.cvtRd alt vm vd va vb) s = .next (s.raise 2 s.cur.pc) ∧
      exec (.cvtRs alt vm vd va vb) s = .next (s.raise 2 s.cur.pc)) ∧
    (unbound s [va, vd] → ∀ src dst n parts, cvtRow (vb.toNat % 32) = some (src, dst, n, parts) → vb.toNat / 32 < parts →
      let p := vb.toNat / 32
      let from_ (i : Nat) : Nat := if src.slot < dst.slot then n * p + i else i
      let dest (i : Nat) : Nat := if dst.slot < src.slot then n * p + i else i
      let el (i : Nat) : FVal := src.value (laneOf (vreg s va) src.slot (from_ i))
      let res (ins : Instr) (mode : Nat → Rm) : Prop := ∃ t val mask, exec ins s = .next t ∧
        (s.slotV = false ∨ s.cur.status = .ready → ⟨s.now + 8 * s.dil, landRank (8 * s.dil), .ev (.registerResultLands s.cur.uid s.now (.v vd.toNat val mask))⟩ ∈ t.agenda) ∧
        t.mem = s.mem ∧ t.cur.a = s.cur.a ∧ t.cur.v = s.cur.v ∧
        (∀ i, i < n → included s vm i = true → laneOf val dst.slot (dest i) =
          (dst.round (mode i) (if alt = 1 then (dst.sat (el i)).1 else el i)).1 % 2 ^ dst.slot) ∧
        (∀ k, k < 512 → (mask.getLsbD k = true ↔ ∃ i, i < n ∧ included s vm i = true ∧ k / dst.slot = dest i))
      res (.cvtRn alt vm vd va vb) (fun _ => .rn) ∧ res (.cvtRz alt vm vd va vb) (fun _ => .rz) ∧
      res (.cvtRu alt vm vd va vb) (fun _ => .ru) ∧ res (.cvtRd alt vm vd va vb) (fun _ => .rd) ∧
      res (.cvtRs alt vm vd va vb) (fun i => .rs (s.cvtRand i)))

/-- R198, R199: with no operand bound to a stream, vperm gives lane idx of va or 0, vshuf lane idx of va, lane idx - n of
vb, or 0, with the index the old lane of vd; mand, mor, mxor and mandn combine the 64-bit masks, vm0 reading as all
ones, after 2 core cycles. For every instruction of the V slot with vector operands: a source bound to a push stream,
or a destination bound to a pop stream or read as well, is an illegal instruction; a bundle whose streams are not
ready is held and pops nothing; a poisoned element is a data-poison fault; else each popped stream moves on by one
element (past its end the exhausted bit is set) and a push claims the next element. So each of these instructions
completes, with streams bound or not, whenever its streams are ready and unpoisoned. (From R198, R199, R205, R206,
R209.) -/
def Obligations.VectorPermutesAndMasks : Prop :=
  ∀ (alt : BitVec 1) (vm : BitVec 3) (vd va vb : BitVec 7) (s : State),
    (unbound s [va, vb, vd] →
      let w : Nat := if alt = 0 then 32 else 64
      let n := 512 / w
      let a := laneOf (vreg s va) w
      let b := laneOf (vreg s vb) w
      let d := laneOf (vreg s vd) w
      (∃ t, exec (.vperm alt vm vd va vb) s = .next t ∧
        LaneResult s t 6 w vd (included s vm) fun i => plain (if b i < n then a (b i) else 0)) ∧
      (∃ t, exec (.vshuf alt vm vd va vb) s = .next t ∧
        LaneResult s t 6 w vd (included s vm) fun i => plain (if d i < n then a (d i) else if d i < 2 * n then b (d i - n) else 0))) ∧
    (va.toNat < 8 → vb.toNat < 8 →
      let x : Word := if va = 0 then BitVec.allOnes 64 else s.cur.vm.toList.getD va.toNat 0
      let y : Word := if vb = 0 then BitVec.allOnes 64 else s.cur.vm.toList.getD vb.toNat 0
      let res (i : Instr) (v : Word) : Prop := exec i s = .next (s.land 2 (.vm vd.toNat v (BitVec.allOnes 64)))
      res (.mand vd va vb) (x &&& y) ∧ res (.mor vd va vb) (x ||| y) ∧ res (.mxor vd va vb) (x ^^^ y) ∧
      res (.mandn vd va vb) (x &&& ~~~y)) ∧
    (∀ i, i ∈ ([
        .fadd alt vm vd va vb, .fsub alt vm vd va vb, .fmul alt vm vd va vb, .fmin alt vm vd va vb,
        .fmax alt vm vd va vb, .fdiv alt vm vd va vb, .fsgn alt vm vd va vb, .hadd alt vm vd va vb,
        .hsub alt vm vd va vb, .hmul alt vm vd va vb, .hmin alt vm vd va vb, .hmax alt vm vd va vb,
        .vsel alt vm vd va vb, .vperm alt vm vd va vb, .vaddW3216 alt vm vd va vb, .vsubW3216 alt vm vd va vb,
        .vmulW3216 alt vm vd va vb, .vmulhW3216 alt vm vd va vb, .vminW3216 alt vm vd va vb,
        .vmaxW3216 alt vm vd va vb, .vminwW3216 alt vm vd va vb, .vmaxwW3216 alt vm vd va vb,
        .vandW3216 alt vm vd va vb, .vorW3216 alt vm vd va vb, .vxorW3216 alt vm vd va vb, .vandnW3216 alt vm vd va vb,
        .vshlW3216 alt vm vd va vb, .vshrW3216 alt vm vd va vb, .vsarW3216 alt vm vd va vb,
        .vaddsW3216 alt vm vd va vb, .vaddW864 alt vm vd va vb, .vsubW864 alt vm vd va vb, .vmulW864 alt vm vd va vb,
        .vmulhW864 alt vm vd va vb, .vminW864 alt vm vd va vb, .vmaxW864 alt vm vd va vb, .vminwW864 alt vm vd va vb,
        .vmaxwW864 alt vm vd va vb, .vandW864 alt vm vd va vb, .vorW864 alt vm vd va vb, .vxorW864 alt vm vd va vb,
        .vandnW864 alt vm vd va vb, .vshlW864 alt vm vd va vb, .vshrW864 alt vm vd va vb, .vsarW864 alt vm vd va vb,
        .vaddsW864 alt vm vd va vb] : List Instr) → StreamOperands s i [va, vb] (some vd) false) ∧
    (∀ i, i ∈ ([
        .fma alt vm vd va vb, .fms alt vm vd va vb, .fnma alt vm vd va vb, .fnms alt vm vd va vb, .hma alt vm vd va vb,
        .hdot alt vm vd va vb, .vshuf alt vm vd va vb] : List Instr) → StreamOperands s i [va, vb] (some vd) true) ∧
    (∀ i, i ∈ ([
        .fcmpEq alt vm vd va vb, .fcmpLt alt vm vd va vb, .fcmpLe alt vm vd va vb, .fcmpUn alt vm vd va vb,
        .hcmpEq alt vm vd va vb, .hcmpLt alt vm vd va vb, .hcmpLe alt vm vd va vb, .vcmpEq alt vm vd va vb,
        .vcmpNe alt vm vd va vb, .vcmpLt alt vm vd va vb, .vcmpGe alt vm vd va vb, .vcmpLtw alt vm vd va vb,
        .vcmpGew alt vm vd va vb] : List Instr) → StreamOperands s i [va, vb] none false) ∧
    (∀ i, i ∈ ([
        .fabs alt vm vd va, .fneg alt vm vd va, .fsqrt alt vm vd va, .fclass alt vm vd va, .vmov alt vm vd va,
        .vabs alt vm vd va, .vneg alt vm vd va, .fsum alt vm vd va, .fmaxr alt vm vd va, .fminr alt vm vd va,
        .famaxr alt vm vd va, .fscan alt vm vd va, .isum alt vm vd va, .imaxr alt vm vd va, .iminr alt vm vd va,
        .iscan alt vm vd va] : List Instr) → StreamOperands s i [va] (some vd) false) ∧
    (∀ i, i ∈ ([
        .fexp2 vm vd va, .flog2 vm vd va, .frcp vm vd va, .frsq vm vd va, .fsin vm vd va, .fcos vm vd va,
        .ftanh vm vd va, .fsigm vm vd va, .ferf vm vd va] : List Instr) → StreamOperands s i [va] (some vd) false) ∧
    StreamOperands s (.vbcast alt vm vd va) [] (some vd) false ∧ StreamOperands s (.vins alt vd va vb) [] (some vd) false ∧
    StreamOperands s (.vext alt vd va vb) [va] none false ∧
    (∀ a b n k, cvtRow (vb.toNat % 32) = some (a, b, n, k) → vb.toNat / 32 < k → ∀ i, i ∈ ([
        .cvtRn alt vm vd va vb, .cvtRz alt vm vd va vb, .cvtRu alt vm vd va vb, .cvtRd alt vm vd va vb, .cvtRs alt vm vd va vb] : List Instr) →
      StreamOperands s i [va] (some vd) false)

/-- R200, R201: with no operand bound to a stream, each of the nine functions writes to each included f32 lane a result
after 18 core cycles, a NaN giving the canonical NaN with no flag and the listed inputs their listed results and
flags; frcp is the exact quotient 1/x rounded once and frsq of an even power of two, flog2 of a power of two and fexp2
of an integer are exact. (That the other values are correctly rounded rests on the 768-bit evaluation of assumption 8;
nothing here states it.) (From R200, R201, Table 8.10.) -/
def Obligations.SpecialFunctions : Prop :=
  ∀ (vm : BitVec 3) (vd va : BitVec 7) (s : State), unbound s [va, vd] →
    ∃ g : Special → Nat → Nat × FS,
      (∀ fn ins, (fn, ins) ∈ [(Special.exp2, Instr.fexp2 vm vd va), (.log2, .flog2 vm vd va), (.rcp, .frcp vm vd va),
          (.rsq, .frsq vm vd va), (.sin, .fsin vm vd va), (.cos, .fcos vm vd va), (.tanh, .ftanh vm vd va),
          (.sigm, .fsigm vm vd va), (.erf, .ferf vm vd va)] →
        ∃ t, exec ins s = .next t ∧ LaneResult s t 18 32 vd (included s vm) fun i => g fn (laneOf (vreg s va) 32 i)) ∧
      (∀ fn c, (f32.value c).isNan = true → g fn c = (0x7FC00000, 0)) ∧
      (∀ sg : Bool, let b : Nat := if sg then 2 ^ 31 else 0
        g .exp2 b = (0x3F800000, 0) ∧ g .log2 b = (0xFF800000, fdz) ∧ g .rcp b = (b + 0x7F800000, fdz) ∧
        g .rsq b = (b + 0x7F800000, fdz) ∧ g .sin b = (b, 0) ∧ g .cos b = (0x3F800000, 0) ∧ g .tanh b = (b, 0) ∧
        g .sigm b = (0x3F000000, 0) ∧ g .erf b = (b, 0) ∧
        g .rcp (b + 0x7F800000) = (b, 0) ∧ g .sin (b + 0x7F800000) = (0x7FC00000, fnv) ∧ g .cos (b + 0x7F800000) = (0x7FC00000, fnv) ∧
        g .tanh (b + 0x7F800000) = (b + 0x3F800000, 0) ∧ g .erf (b + 0x7F800000) = (b + 0x3F800000, 0)) ∧
      g .exp2 0x7F800000 = (0x7F800000, 0) ∧ g .exp2 0xFF800000 = (0, 0) ∧ g .log2 0x7F800000 = (0x7F800000, 0) ∧
      g .log2 0xFF800000 = (0x7FC00000, fnv) ∧ g .rsq 0x7F800000 = (0, 0) ∧ g .rsq 0xFF800000 = (0x7FC00000, fnv) ∧
      g .sigm 0x7F800000 = (0x3F800000, 0) ∧ g .sigm 0xFF800000 = (0, 0) ∧
      (∀ c n m e, f32.value c = .fin n m e → m ≠ 0 → g .rcp c = f32.op ((FVal.fin false 1 0).div (f32.value c))) ∧
      (∀ k : Nat, k < 254 → g .log2 ((k + 1) * 2 ^ 23) = ((f32.round .rn (FVal.ofInt ((k : Int) - 126))).1, 0))

/-- R218-R222, R224, R379: nop changes nothing; wait delays the stream's next word by n ticks more; loop jumps while its
counter is not zero, counting down, or always; setta and addta change one register of their stream; bell n with n one
more than the tile's bells counts it, puts the period's region words into effect, the last of an index winning, and
records a boundary, any other n is a deadline fault; brp sends the control stream to base + min(v, count) x span and
the others at the end of the tick; chkp and rgeom write the named stream's register in the next tick; region waits for
the bell; halt keeps the first code; prept and halt record a boundary; drift with every named port in phase does
nothing. No memory byte changes. (From R218, R219, R220, R221, R222, R223, R224, R379.) -/
def Obligations.TimedControlWords : Prop :=
  ∀ s : State, s.tstream < 7 →
    let st := s.stream
    (∀ n : BitVec 40, exec (.wait n) s = .next (withStream s
      (if st.done then st else { st with due := s.plan + 1 + n.toNat + (st.body.getD st.next 0).toNat / 2 ^ 54 }))) ∧
    (∀ (c : BitVec 3) (always : BitVec 1) (target : BitVec 13),
      let jumped : TStream := { st with next := target.toNat, done := decide (st.body.length ≤ target.toNat) }
      let v := st.tn[c.toNat]'(by have := c.isLt; omega)
      exec (.loop c always target) s = .next (withStream s
        (if always = 1 then jumped
        else if v ≠ 0 then { jumped with tn := st.tn.set c.toNat (v - 1) (by have := c.isLt; omega) } else st))) ∧
    (∀ (imm : BitVec 32) (hi : BitVec 1) (reg : BitVec 4),
      let v : Word := if hi = 1 then (imm.setWidth 64 <<< 32) ||| (st.ta[reg.toNat] &&& 0xFFFFFFFF) else imm.setWidth 64
      let u : Word := BitVec.ofInt 64 (st.ta[reg.toNat].toInt + imm.toInt)
      exec (.setta imm hi reg 0) s = .next (withStream s { st with ta := st.ta.set reg.toNat v reg.isLt }) ∧
      exec (.addta imm reg 0) s = .next (withStream s { st with ta := st.ta.set reg.toNat u reg.isLt })) ∧
    (∀ (imm : BitVec 32) (hi : BitVec 1) (reg : BitVec 4) (h : reg.toNat < 8),
      exec (.setta imm hi reg 1) s = .next (withStream s { st with tn := st.tn.set reg.toNat imm h }) ∧
      exec (.addta imm reg 1) s = .next (withStream s { st with tn := st.tn.set reg.toNat (st.tn[reg.toNat] + imm) h })) ∧
    (∀ n : BitVec 16, (n.toNat = (s.tl.bells + 1) % 65536 → ∃ t, exec (.bell n) s = .next t ∧
        t.tl.bells = s.tl.bells + 1 ∧ t.tl.regions = [] ∧ t.mem = s.mem ∧
        t.p.run.bounds = s.p.run.bounds ++ [(s.plan, s.tl.ltile, s.bundle &&& 0x003FFFFFFFFFFFFF)] ∧
        ∀ (i : Nat) (r : Region), s.p.regions[i]? = some r → t.p.regions[i]? =
          some { r with writer := ((s.tl.regions.filter (·.1 = i)).getLast?.map (·.2)).getD r.writer }) ∧
      (n.toNat ≠ (s.tl.bells + 1) % 65536 → exec (.bell n) s = .next (s.tileFault 17 0))) ∧
    (∀ (slot count : BitVec 4) (base span : BitVec 13), s.tl.board[slot.toNat].quiet ≤ s.plan →
      let k := base.toNat + min s.tl.board[slot.toNat].value.toNat count.toNat * span.toNat
      ∃ t, exec (.brp slot count base span) s = .next t ∧ t.stream.next = k ∧ DueEffect t s.plan (.redirect k) ∧ t.mem = s.mem) ∧
    (∀ (slot : BitVec 4) (stream : BitVec 3) (reg : BitVec 4), s.tl.board[slot.toNat].quiet ≤ s.plan →
      let v := s.tl.board[slot.toNat].value
      (∃ t, exec (.chkp slot stream 0 reg) s = .next t ∧ DueEffect t (s.plan + 1) (.setReg stream.toNat false reg.toNat v) ∧
        t.tl = s.tl ∧ t.mem = s.mem) ∧
      (∃ t, exec (.chkp slot stream 1 reg) s = .next t ∧ DueEffect t (s.plan + 1) (.setReg stream.toNat true reg.toNat v) ∧
        t.tl = s.tl ∧ t.mem = s.mem)) ∧
    (∀ (reg : BitVec 4) (stream : BitVec 3), ∃ t, exec (.rgeom reg stream) s = .next t ∧
      DueEffect t (s.plan + 1) (.setReg stream.toNat false reg.toNat s.tl.geom) ∧ t.tl = s.tl ∧ t.mem = s.mem) ∧
    (∀ (i : BitVec 12) (w : BitVec 8), exec (.region i w) s =
      .next { s with tl := { s.tl with regions := s.tl.regions ++ [(i.toNat, w.toNat)] } }) ∧
    (∀ code : BitVec 16, ∃ t, exec (.halt code) s = .next t ∧ t.p.run.halted = some (s.p.run.halted.getD code) ∧
      t.p.run.bounds = s.p.run.bounds ++ [(s.plan, s.tl.ltile, s.bundle &&& 0x003FFFFFFFFFFFFF)] ∧ t.tl = s.tl ∧ t.mem = s.mem) ∧
    (∀ n : BitVec 16, ∃ t, exec (.prept n) s = .next t ∧ t.p.run.prept.map (·.1) = some s.plan ∧
      t.p.run.bounds = s.p.run.bounds ++ [(s.plan, s.tl.ltile, s.bundle &&& 0x003FFFFFFFFFFFFF)] ∧ t.tl = s.tl ∧ t.mem = s.mem) ∧
    (∀ mask : BitVec 16, (∀ (i : Nat) (h : i < 16), mask.getLsbD i = true →
        s.links[i].w0.getLsbD 12 = true ∧ s.links[i].w0.getLsbD 13 = true ∧
        2 * ((s.links[i].w0.extractLsb' 32 16).toInt).natAbs ≤ (s.links[i].w0.extractLsb' 48 16).toNat) →
      exec (.drift mask) s = .next s) ∧
    (∀ (mask : BitVec 16) (i : Nat) (h : i < 16), mask.getLsbD i = true → s.links[i].w0.getLsbD 13 = false →
      s.p.run.active = true → s.p.run.ending = false → ∃ t e, exec (.drift mask) s = .next t ∧
      t.p.run.faults = s.p.run.faults ++ [e] ∧ e.kind = 19 ∧ t.group.getLsbD 17 = false ∧ t.mem = s.mem)

/-- R380, R383, Tables 16.5 and 16.7: clear with every named slot idle opens them and its window from the next tick to the
tick before T + span + 1, where the close is due; hold opens one slot for one tick; a slot that is not idle makes it a
schedule fault that opens nothing. At the close a posted slot takes its pending value, an open one its substitute
under policy 0 or its low 16 bits under policy 1, and under a hold it awaits with a reason whose H0 is the close plus
Hd. When H0 is due with reasons left the hold begins and PLAN keeps H0 - 1; at the resume tick PLAN goes on at H0; a
limit that expires is a deadline fault. No memory byte changes. (From R380, R383, R384, R385, Table 16.5, Table 16.7.) -/
def Obligations.ClearingsAndTheirClose : Prop :=
  (∀ (mask : BitVec 16) (seed : BitVec 12) (span : BitVec 18) (s : State),
    ((∀ (i : Nat) (h : i < 16), mask.getLsbD i = true → s.tl.board[i].state = .idle) →
      ∃ t, exec (.clear mask seed span) s = .next t ∧ t.mem = s.mem ∧ t.p.run.faults = s.p.run.faults ∧
        t.tl.clearings = ⟨mask, if seed = 0xFFF then none else some seed.toNat, s.plan + 1, s.plan + span.toNat + 1⟩ :: s.tl.clearings ∧
        (∃ r, (⟨s.plan + span.toNat + 1, r, .ev (.clearingClose s.p.first s.tix mask none)⟩ : Item) ∈ t.p.run.tq) ∧
        ∀ (i : Nat) (h : i < 16), t.tl.board[i].value = s.tl.board[i].value ∧
          t.tl.board[i].state = if mask.getLsbD i then .opened else s.tl.board[i].state) ∧
    (∀ (i : Nat) (h : i < 16), mask.getLsbD i = true → s.tl.board[i].state ≠ .idle →
      exec (.clear mask seed span) s = .next (s.tileFault 16 0))) ∧
  (∀ (slot : BitVec 4) (limit : BitVec 24) (s : State), s.tl.board[slot.toNat].state = .idle →
    ∃ t, exec (.hold slot limit) s = .next t ∧ t.mem = s.mem ∧ t.tl.board[slot.toNat].state = .opened ∧
      (∃ r, (⟨s.plan + 2, r, .ev (.clearingClose s.p.first s.tix (1#16 <<< slot.toNat) (some limit.toNat))⟩ : Item) ∈ t.p.run.tq)) ∧
  (∀ (first tile slot : Nat) (hs : slot < 16) (s : State), let f := atTile s first tile
    f.p.first = first →
    let n := f.tl.board[slot]
    (∀ q, (q = none ∨ ∃ y : Policy, f.p.policies.find? (fun y => y.tile == f.tl.ltile && y.slot == slot) = some y ∧ q = some y) →
      ∃ t, exec (.clearingClose first tile (1#16 <<< slot) none) s = .next t ∧ t.mem = s.mem ∧
        (n.state = .posted → t.tl.board[slot].state = .idle ∧ t.tl.board[slot].value = n.pending) ∧
        (∀ y, q = some y → n.state = .opened → y.policy = 0 → t.tl.board[slot].state = .idle ∧ t.tl.board[slot].value = y.subst) ∧
        (∀ y, q = some y → n.state = .opened → y.policy = 1 →
          t.tl.board[slot].state = .idle ∧ t.tl.board[slot].value = y.subst &&& 0xFFFF)) ∧
    (∀ l, n.state = .opened → ∃ t, exec (.clearingClose first tile (1#16 <<< slot) (some l)) s = .next t ∧ t.mem = s.mem ∧
      t.tl.board[slot].state = .awaiting ∧ t.tl.board[slot].limit = some l ∧
      ⟨f.ownPkg, f.tl.ltile * 16 + slot, f.plan + (f.group.extractLsb' 32 16).toNat⟩ ∈ t.p.run.reasons) ∧
    (∀ l, n.limit = some l → (n.state = .awaiting ∨ n.state = .holding) → f.p.run.hold = .holding → f.p.run.active = true →
      f.p.run.ending = false → f.tick = f.p.run.heldAt + l * f.p.run.d → ∃ t e,
      exec (.holdLimitExpires first tile slot) s = .next t ∧ t.p.run.faults = f.p.run.faults ++ [e] ∧ e.kind = 17 ∧ t.mem = s.mem)) ∧
  (∀ (first : Nat) (s : State), let f := s.focusPart first
    f.p.first = first → f.p.run.active = true → f.p.run.ending = false → f.p.run.chain ≠ .none →
    (f.p.run.stopped = false → f.p.run.mreqs = [] → f.p.run.hold = .pending → f.p.run.h0 ≤ f.plan →
      ∃ t, exec (.holdBegins first) s = .next t ∧ t.p.run.hold = .holding ∧ t.p.run.stopped = true ∧ t.plan = f.p.run.h0 - 1 ∧
        t.p.run.heldAt = f.tick ∧ t.mem = s.mem ∧ t.threads = f.threads) ∧
    (f.p.run.hold = .resuming → f.p.run.resumeAt = f.tick →
      ∃ t, exec (.holdResume first) s = .next t ∧ t.p.run.hold = .running ∧ t.p.run.stopped = false ∧ t.plan = f.p.run.h0 ∧
        t.mem = s.mem))

/-- R225-R229: with its engine free and its operands in range, a tld or tst of N lines (contiguous, or from its
descriptor) occupies its engine for N ticks and requests line j in tick T + 1 + j with its landing due in T + 160 + j
and its tensor SRAM place m + 128 j; a tldg of rows x RL lines does the same and reads index line u in tick T + 32 u
RL; a tldr reads line j at the source tile in tick T + 1 + j; through a graph of ratio a : b the lines are whole units
and the output lines of a load, or of a store whose input lines are read one a tick, are due D ticks later. Issue
changes no register and no byte of memory and raises no fault. Port conflicts are another statement's matter. (From
R225, R226, R228, R229, R301, Table 9.5.) -/
def Obligations.MoveWordsIssue : Prop :=
  ∀ (h m x gslot : BitVec 4) (pol : BitVec 1) (s : State), EngineFree s false → InHbm s (s.ta h) →
    let off : Word := (s.ta h).extractLsb' 0 46 |>.setWidth 64
    let req (j sram : Nat) (write halt graph : Bool) : Item := ⟨s.plan + 1 + j, rankRead, .ev (.timedLineRequest
      ⟨s.p.first, s.tix, s.tstream, s.nextId, j, s.plan + 160 + j, sram, write, halt, graph, 0, 0⟩)⟩
    let shaped (form : BitVec 1) (n : BitVec 12) (lines : Nat) : Prop :=
      form = 0 ∧ lines = n.toNat + 1 ∨ form = 1 ∧ InSram (s.ta x) 64 64 ∧ CleanSram s ∧ ∃ sh,
        shapeOf ((List.range 8).map fun i => s.word (flatSram s.p.first s.tl.ltile ((s.ta x).toNat + 8 * i))) = some sh ∧ lines = sh.lines
    let outAt (gr : Graph) (k : Nat) : Nat := s.plan + 160 + gr.depth + max k (((k + 1) * gr.a + gr.b - 1) / gr.b - 1)
    (∀ (form : BitVec 1) (n : BitVec 12) (lines : Nat), shaped form n lines →
      (InSram (s.ta m) (128 * lines) 128 →
        (∃ t, exec (.tld h m x gslot 0 pol form n) s = .next t ∧
          WordIssued s t s.nextId lines false (.plain (.tld h m x gslot 0 pol form n)) off (s.ta m) (s.ta x) 0 ∧
          ∀ j, j < lines → req j ((s.ta m).toNat + 128 * j) false (pol == 1) false ∈ t.p.run.tq) ∧
        (∃ t, exec (.tst h m x gslot 0 form n) s = .next t ∧
          WordIssued s t s.nextId lines false (.plain (.tst h m x gslot 0 form n)) off (s.ta m) (s.ta x) 0 ∧
          ∀ j, j < lines → req j ((s.ta m).toNat + 128 * j) true false false ∈ t.p.run.tq)) ∧
      (∀ gr : Graph, s.p.graphAt gslot.toNat (s.ctlOf off.toNat) = some gr →
        (lines % gr.a = 0 → InSram (s.ta m) (128 * (lines * gr.b / gr.a)) 128 →
          ∃ t, exec (.tld h m x gslot 1 pol form n) s = .next t ∧
            WordIssued s t s.nextId lines false (.plain (.tld h m x gslot 1 pol form n)) off (s.ta m) (s.ta x) 0 ∧
            (∀ j, j < lines → req j ((s.ta m).toNat + 128 * j) false (pol == 1) true ∈ t.p.run.tq) ∧
            (∀ k, k < lines * gr.b / gr.a → DueEffect t (outAt gr k) (.graphOut s.nextId k))) ∧
        (gr.b ≠ 0 → lines % gr.b = 0 → InSram (s.ta m) (128 * (lines * gr.a / gr.b)) 128 →
          ∃ t, exec (.tst h m x gslot 1 form n) s = .next t ∧
            WordIssued s t s.nextId (max (lines * gr.a / gr.b) lines) false (.plain (.tst h m x gslot 1 form n)) off (s.ta m) (s.ta x) 0 ∧
            (∀ j, j < lines → req j ((s.ta m).toNat + 128 * j) true false true ∈ t.p.run.tq) ∧
            (∀ i, i < lines * gr.a / gr.b → DueEffect t (s.plan + 1 + i) (.graphIn s.nextId i)) ∧
            (∀ k, k < lines → DueEffect t (outAt gr k) (.graphOut s.nextId k))))) ∧
    (∀ (rows : BitVec 10) (rl : BitVec 4), let k := rl.toNat + 1
      let r := rows.toNat + 1
      InSram (s.ta x) (128 * ((r + 31) / 32)) 128 → InSram (s.ta m) (128 * (r * k)) 128 →
      ∃ t, exec (.tldg h m x gslot 0 pol rows rl) s = .next t ∧
        WordIssued s t s.nextId (r * k) false (.plain (.tldg h m x gslot 0 pol rows rl)) off (s.ta m) (s.ta x) 0 ∧
        (∀ u, u < (r + 31) / 32 → DueEffect t (s.plan + 32 * u * k) (.listRead s.nextId u)) ∧
        (∀ j, j < r * k → req j ((s.ta m).toNat + 128 * j) false (pol == 1) false ∈ t.p.run.tq)) ∧
    (∀ (rows : BitVec 10) (rl : BitVec 4) (gr : Graph), let k := rl.toNat + 1
      let r := rows.toNat + 1
      InSram (s.ta x) (128 * ((r + 31) / 32)) 128 →
      s.p.graphAt gslot.toNat (s.ctlOf (off.toNat + 128 * (s.bytes (s.sramFlat (s.ta x).toNat) 4 * k) : Nat)) = some gr →
      r * k % gr.a = 0 → InSram (s.ta m) (128 * (r * k * gr.b / gr.a)) 128 →
      ∃ t, exec (.tldg h m x gslot 1 pol rows rl) s = .next t ∧
        WordIssued s t s.nextId (r * k) false (.plain (.tldg h m x gslot 1 pol rows rl)) off (s.ta m) (s.ta x) 0 ∧
        (∀ u, u < (r + 31) / 32 → DueEffect t (s.plan + 32 * u * k) (.listRead s.nextId u)) ∧
        (∀ j, j < r * k → req j ((s.ta m).toNat + 128 * j) false (pol == 1) true ∈ t.p.run.tq) ∧
        (∀ i, i < r * k * gr.b / gr.a → DueEffect t (outAt gr i) (.graphOut s.nextId i))) ∧
    (∀ (src : BitVec 4) (tile : BitVec 8) (n : BitVec 12) (t0 : Nat), s.p.tileOf tile.toNat = some t0 → t0 < s.p.tiles.length →
      s.tix < s.p.tiles.length →
      InSram (s.ta src) (128 * (n.toNat + 1)) 128 → InSram (s.ta m) (128 * (n.toNat + 1)) 128 →
      ∃ t, exec (.tldr src m tile n) s = .next t ∧
        WordIssued s t s.nextId (n.toNat + 1) false (.plain (.tldr src m tile n)) (s.ta src) (s.ta m) (BitVec.ofNat 64 t0) 0 ∧
        ∀ j, j < n.toNat + 1 → DueEffect t (s.plan + 1 + j) (.tldrRead s.nextId j))

/-- R215, R226, R227, R249, R330: a load's request within HBM and within its channel's budget takes the line at the end of
its tick; a line taken lands in its landing tick; landing writes exactly its 128 bytes of the tile's tensor SRAM
unless a region names another writer, which is a region fault that writes nothing; a store's request reads its 128
bytes of tensor SRAM and is due in HBM; there each word is written and set full where the region table names the store
engine. Requests over budget are a schedule fault. Registers of another stream change as chkp and rgeom ask. (From
R213, R215, R221, R226, R227, R249.) -/
def Obligations.LineRequestsAndLanding : Prop :=
  (∀ (q : LineReq) (s : State) (w : WordRun) (fl : Nat), let f := atTile s q.first q.tile
    f.p.first = q.first → f.wordRun q.word = some w → w.dead = false → w.rowLines = 1 → q.graph = false →
    0 ≤ f.lineOff w q.idx → f.lineOff w q.idx < 2 ^ 46 → f.lineFlat (f.lineOff w q.idx) q.write = some fl → f.inBudget fl = true →
    let q' : LineReq := { q with va := BitVec.ofNat 64 (f.ownPkg * 2 ^ 48 + (f.lineOff w q.idx).toNat), flat := fl }
    (q.write = false → ∃ t, exec (.timedLineRequest q) s = .next t ∧ t.mem = s.mem ∧ t.attr = s.attr ∧
      t.p.run.faults = f.p.run.faults ∧ DueEffect t f.plan (.capture q')) ∧
    (q.write = true → f.portOk false q.sram = true → q.sram % 8 = 0 →
      (∀ i, i < 16 → f.attrOf (flatSram q.first f.tl.ltile (q.sram + 8 * i)) = 0) →
      ∃ t, exec (.timedLineRequest q) s = .next t ∧ t.mem = s.mem ∧
        DueEffect t q.land (.hbm q.stream q'.va fl (BitVec.ofNat 1024 (s.mem.readN (flatSram q.first f.tl.ltile q.sram) 128)) 0))) ∧
  (∀ (q : LineReq) (s : State) (w : WordRun) (fl : Nat), let f := atTile s q.first q.tile
    f.p.first = q.first → f.wordRun q.word = some w → w.dead = false → w.rowLines = 1 → q.graph = false → q.write = false →
    f.lineFlat (f.lineOff w q.idx) false = some fl → f.inBudget fl = false → f.p.run.active = true → f.p.run.ending = false →
    ∃ t e, exec (.timedLineRequest q) s = .next t ∧ t.p.run.faults = f.p.run.faults ++ [e] ∧ e.kind = 16 ∧ t.mem = s.mem) ∧
  (∀ (first tile : Nat) (q : LineReq) (s : State), let f := atTile s first tile
    f.p.first = first → q.graph = false → (∀ i, i < 16 → f.attrOf (q.flat + 8 * i) = 0) →
    ∃ t, exec (.timedEffectLands first tile (.capture q)) s = .next t ∧ t.mem = s.mem ∧
      DueEffect t q.land (.land q.stream q.sram (BitVec.ofNat 1024 (s.mem.readN q.flat 128)) 0 q.halt 1 q.va q.flat none)) ∧
  (∀ (first tile stream off writer fl : Nat) (data : Line) (halt : Bool) (va : Word) (s : State), let f := atTile s first tile
    f.p.first = first → s.mem.wf = true → f.portOk false off = true → off + 128 ≤ 0x600000 → first < 64 → f.tl.ltile < 1024 →
    let at_ := flatSram first f.tl.ltile off
    (f.p.sramEngine f.tl.ltile off 128 writer = true →
      ∃ t, exec (.timedEffectLands first tile (.land stream off data 0 halt writer va fl none)) s = .next t ∧
        t.p.run.faults = f.p.run.faults ∧ ∀ b, t.mem.read b =
          if at_ ≤ b ∧ b < at_ + 128 then data.extractLsb' (8 * (b - at_)) 8 else s.mem.read b) ∧
    (f.p.sramEngine f.tl.ltile off 128 writer = false → f.p.run.active = true → f.p.run.ending = false →
      ∃ t e, exec (.timedEffectLands first tile (.land stream off data 0 halt writer va fl none)) s = .next t ∧
        t.p.run.faults = f.p.run.faults ++ [e] ∧ e.kind = 6 ∧ t.mem = s.mem)) ∧
  (∀ (first tile stream fl : Nat) (data : Line) (va : Word) (s : State), let f := atTile s first tile
    f.p.first = first → s.mem.wf = true → fl + 128 ≤ flatLocalBase → fl % 128 = 0 → f.p.hbmNamed (va.extractLsb' 0 46).toNat 128 6 = true →
    ∃ t, exec (.timedEffectLands first tile (.hbm stream va fl data 0)) s = .next t ∧
      (∀ b, t.mem.read b = if fl ≤ b ∧ b < fl + 128 then data.extractLsb' (8 * (b - fl)) 8 else s.mem.read b) ∧
      ∀ i, i < 16 → t.isFull (fl + 8 * i) = true) ∧
  (∀ (first tile stream reg : Nat) (v : Word) (s : State), let f := atTile s first tile
    f.p.first = first → ∀ (hs : stream < 7),
    let st := f.tl.streams[stream]
    (∀ h : reg < 16, ∃ t, exec (.timedEffectLands first tile (.setReg stream false reg v)) s = .next t ∧ t.mem = s.mem ∧
      let x : TStream := { st with ta := st.ta.set reg v }
      t.tl = { f.tl with streams := f.tl.streams.set stream x }) ∧
    (∀ h : reg < 8, ∃ t, exec (.timedEffectLands first tile (.setReg stream true reg v)) s = .next t ∧ t.mem = s.mem ∧
      let x : TStream := { st with tn := st.tn.set reg (v.setWidth 32) }
      t.tl = { f.tl with streams := f.tl.streams.set stream x }))

/-- R230-R235: with its engine free, its operands in range and aligned and the first lines of A and B eight banks apart,
mma occupies the matrix engine for kk ticks, reads one block of A and of B in each of the next kk ticks, its scale
lines no later than the tick that first uses them, and writes its final values in tick T + kk + 5; mmag also reads its
lists in tick T. Operands that are not eight banks apart are a schedule fault. mspill occupies it for lines / 4 ticks
and reads in T + 1, with .zr clearing then; mfill for 8, reading line j in T + 1 + j / 4 and writing in T + 9; madd
for 2, reading in T + 1 and writing in T + 2; mmov for 1, reading and writing in T + 1. One of these words that names
an accumulator a product is still at work on is a schedule fault. Issue itself changes no register and no memory byte.
(From R212, R214, R230, R231, R232, R233, R234, R235, Table 9.11.) -/
def Obligations.MatrixWordsIssue : Prop :=
  ∀ s : State, EngineFree s false →
    let key := s.nextId
    (∀ (m : BitVec 3) (ta tb : BitVec 4) (fa fb : BitVec 3) (kk : BitVec 9) (z : BitVec 1), let k := kk.toNat
      InSram (s.ta ta) (1024 * k) 128 → InSram (s.ta tb) (1024 * k) 128 →
      let apart : Prop := ((s.ta ta).toNat / 128 + 8) % 16 = (s.ta tb).toNat / 128 % 16
      let reads (t : State) : Prop := (∀ u, u < k → DueEffect t (s.plan + 1 + u) (.mmaRead key u)) ∧
        DueEffect t (s.plan + k + 5) (.mmaDone key)
      (∀ sa sb : BitVec 4, (apart → ∃ t, exec (.mma m ta tb fa fb kk z 0 sa sb) s = .next t ∧
          WordIssued s t key k false (.plain (.mma m ta tb fa fb kk z 0 sa sb)) (s.ta ta) (s.ta tb) 0 0 ∧ reads t) ∧
        (¬ apart → ∀ blk, exec (.mma m ta tb fa fb kk z blk sa sb) s = .next (s.tileFault 16 0)) ∧
        let na := 32 * matScales fa.toNat
        let nb := 32 * matScales fb.toNat
        (apart → 0 < na → 0 < nb → InSram (s.ta sa) (na * k) 128 → InSram (s.ta sb) (nb * k) 128 →
          ∃ t, exec (.mma m ta tb fa fb kk z 1 sa sb) s = .next t ∧
          WordIssued s t key k false (.plain (.mma m ta tb fa fb kk z 1 sa sb)) (s.ta ta) (s.ta tb) (s.ta sa) (s.ta sb) ∧
          reads t ∧
          (∀ i, 128 * i < na * k → ∃ u, u ≤ 128 * i / na ∧ DueEffect t (s.plan + 1 + u) (.scaleRead key ((s.ta sa).toNat + 128 * i))) ∧
          (∀ i, 128 * i < nb * k → ∃ u, u ≤ 128 * i / nb ∧ DueEffect t (s.plan + 1 + u) (.scaleRead key ((s.ta sb).toNat + 128 * i))))) ∧
      (∀ (lst dec : BitVec 4) (kp : BitVec 1), apart → InSram (s.ta lst) 64 64 →
        (∃ t, exec (.mmag m ta tb fa fb kk lst dec z kp 0) s = .next t ∧
          WordIssued s t key k false (.plain (.mmag m ta tb fa fb kk lst dec z kp 0)) (s.ta ta) (s.ta tb) (s.ta lst) 0 ∧
          reads t ∧ DueEffect t s.plan (.mmaLists key)) ∧
        (InSram (s.ta dec) 128 128 → ∃ t, exec (.mmag m ta tb fa fb kk lst dec z kp 1) s = .next t ∧
          WordIssued s t key k false (.plain (.mmag m ta tb fa fb kk lst dec z kp 1)) (s.ta ta) (s.ta tb) (s.ta lst) (s.ta dec) ∧
          reads t ∧ DueEffect t s.plan (.mmaLists key)))) ∧
    (∀ (m : BitVec 3) (ta : BitVec 4) (fmt : BitVec 2) (zr : BitVec 1), let n := if fmt = 0 then 32 else 16
      InSram (s.ta ta) (128 * n) 128 →
      (s.accBusy [m.toNat] = true → exec (.mspill m ta fmt zr) s = .next (s.tileFault 16 0)) ∧
      (s.accBusy [m.toNat] = false → ∃ t, exec (.mspill m ta fmt zr) s = .next t ∧
        WordIssued s t key (n / 4) false (.plain (.mspill m ta fmt zr)) (s.ta ta) 0 0 0 ∧
        DueEffect t (s.plan + 1) (.spillRead key) ∧ (zr = 1 → DueEffect t (s.plan + 1) (.accWrite key)))) ∧
    (∀ (m : BitVec 3) (ta : BitVec 4), InSram (s.ta ta) 4096 128 → s.accBusy [m.toNat] = false →
      ∃ t, exec (.mfill m ta) s = .next t ∧ WordIssued s t key 8 false (.plain (.mfill m ta)) (s.ta ta) 0 0 0 ∧
        (∀ j, j < 32 → DueEffect t (s.plan + 1 + j / 4) (.fillRead key j)) ∧ DueEffect t (s.plan + 9) (.accWrite key)) ∧
    (∀ md ma mb : BitVec 3, s.accBusy [md.toNat, ma.toNat, mb.toNat] = false →
      ∃ t, exec (.madd md ma mb) s = .next t ∧ WordIssued s t key 2 false (.plain (.madd md ma mb)) 0 0 0 0 ∧
        DueEffect t (s.plan + 1) (.accRead key) ∧ DueEffect t (s.plan + 2) (.accWrite key)) ∧
    (∀ (md ma : BitVec 3) (z : BitVec 1), s.accBusy (if z = 1 then [md.toNat] else [md.toNat, ma.toNat]) = false →
      ∃ t, exec (.mmov md ma z) s = .next t ∧ WordIssued s t key 1 false (.plain (.mmov md ma z)) 0 0 0 0 ∧
        DueEffect t (s.plan + 1) (.accRead key) ∧ DueEffect t (s.plan + 1) (.accWrite key))

/-- R145-R147, R230-R233, R235: in its tick a product reads block u of A and of B, eight lines each; mmag's lists are read
once. At its end every element (i, j) of m takes the chunked product of row i of A and row j of B, from zero or from
what m held; under BLK each value carries its row's scale for its 32 elements. With lists, row q takes the products of
the source rows that the list sends to it, multiplied into what it held by its decay; a row with none keeps, decays or
becomes zero. The other accumulators and every other byte of memory keep their values. (From R145, R146, R147, R230,
R231, R232, R233, R235, Table 9.10.) -/
def Obligations.MatrixProducts : Prop :=
  (∀ (first tile key u : Nat) (w : WordRun) (s : State), let f := atTile s first tile
    f.p.first = first → f.wordRun key = some w → (∀ x ∈ w.lines, x.1 / 16 ≠ u) → CleanSram f →
    (∀ i, i < 8 → f.portOk true (w.r0.toNat + 1024 * u + 128 * i) = true ∧ f.portOk true (w.r1.toNat + 1024 * u + 128 * i) = true) →
    w.r0.toNat % 128 = 0 → w.r1.toNat % 128 = 0 → w.r0.toNat + 1024 * u + 1024 ≤ 0x600000 → w.r1.toNat + 1024 * u + 1024 ≤ 0x600000 →
    ∃ t x, exec (.timedEffectLands first tile (.mmaRead key u)) s = .next t ∧ t.mem = s.mem ∧ t.wordRun key = some x ∧
      t.p.run.faults = f.p.run.faults ∧ ∀ i, i < 8 →
        x.lineAt (16 * u + i) = f.line (f.sramFlat (w.r0.toNat + 1024 * u + 128 * i)) ∧
        x.lineAt (16 * u + 8 + i) = f.line (f.sramFlat (w.r1.toNat + 1024 * u + 128 * i))) ∧
  (∀ (first tile key : Nat) (w : WordRun) (s : State), let f := atTile s first tile
    f.p.first = first → f.wordRun key = some w → s.mem.wf = true → first < 64 → f.tl.ltile < 1024 →
    let acc (n : Nat) : Nat := first * 1024 + f.tl.ltile |>.mul 8 |>.add n
    let kept (t : State) (m : BitVec 3) : Prop := ∀ b, (b < flatAccBase + acc m.toNat * 4096 ∨ flatAccBase + (acc m.toNat + 1) * 4096 ≤ b) →
      t.mem.read b = s.mem.read b
    (∀ m ta tb fa fb kk z blk sa sb, w.what = .plain (.mma m ta tb fa fb kk z blk sa sb) →
      let scale (b : Bool) (r : Word) : Option Nat := if blk = 1 then some r.toNat else none
      fa.toNat ≤ 5 → fb.toNat ≤ 5 → matKt fa.toNat = matKt fb.toNat →
      ∃ t, exec (.timedEffectLands first tile (.mmaDone key)) s = .next t ∧ kept t m ∧ t.wordRun key = none ∧
        ∀ i j, i < 32 → j < 32 → t.accElem m.toNat (32 * i + j) =
          chunks ((List.range (matKt fa.toNat * kk.toNat)).map fun k =>
              (blockVal w false fa.toNat (scale false w.r2) i k, blockVal w true fb.toNat (scale true w.r3) j k))
            (if z = 1 then 0 else f.accElem m.toNat (32 * i + j)) (.fin false 1 0) % 2 ^ 32) ∧
    (∀ m ta tb fa fb kk lst dec z kp dd, w.what = .plain (.mmag m ta tb fa fb kk lst dec z kp dd) →
      fa.toNat ≤ 5 → fb.toNat ≤ 5 → matKt fa.toNat = matKt fb.toNat →
      ∃ t, exec (.timedEffectLands first tile (.mmaDone key)) s = .next t ∧ kept t m ∧ t.wordRun key = none ∧
        ∀ q j, q < 32 → j < 32 →
          let l := (List.range 32).filterMap fun i =>
            if lineLane (w.lineAt listPlace) 8 i < 128 ∧ lineLane (w.lineAt listPlace) 8 (32 + i) < 128 ∧
              lineLane (w.lineAt listPlace) 8 (32 + i) % 32 = q then some (lineLane (w.lineAt listPlace) 8 i % 32) else none
          let row (b : Bool) (ft i : Nat) : List FVal := (List.range (matKt fa.toNat * kk.toNat)).map (blockVal w b ft none i)
          let delta : FVal := if dd = 1 then f32.value (lineLane (w.lineAt decayPlace) 32 q) else .fin false 1 0
          let old := f.accElem m.toNat (32 * q + j)
          let got := t.accElem m.toNat (32 * q + j)
          (l = [] → kp = 0 → got = 0) ∧ (l = [] → kp = 1 → dd = 0 → got = old) ∧
          (l = [] → kp = 1 → dd = 1 → got = (f32.round .rn (delta.mul (f32.value old)).1).1 % 2 ^ 32) ∧
          (l ≠ [] → z = 1 → got = rowChunks (l.map (row false fa.toNat)) (row true fb.toNat j) 0 (.fin false 1 0) % 2 ^ 32) ∧
          (l ≠ [] → z = 0 → got = rowChunks (l.map (row false fa.toNat)) (row true fb.toNat j) old delta % 2 ^ 32)))

/-- R234, R236: mspill rounds every element of its accumulator to its format, nearest even, line by line, four lines a
tick, which land from the next tick on; .zr then clears the accumulator; mfill keeps each line it reads and writes
element (i, j) from lane j of line i; madd writes the rounded sums of two accumulators, and mmov a copy or zero, both
from what they read in tick T + 1. A group of bytes that lands writes exactly its bytes of its own tile where every
line's port is free of conflicts and its regions allow the engine. The other accumulators and every other byte keep
their values. (From R213, R215, R234, Table 9.11.) -/
def Obligations.AccumulatorWords : Prop :=
  (∀ (first tile key : Nat) (w : WordRun) (s : State), let f := atTile s first tile
    f.p.first = first → f.wordRun key = some w → w.stream < 7 →
    (∀ m ta fmt zr, w.what = .plain (.mspill m ta fmt zr) → let g : Fmt := if fmt = 0 then f32 else if fmt = 1 then bf16 else f16
      let per := 1024 / g.width
      ∃ t, exec (.timedEffectLands first tile (.spillRead key)) s = .next t ∧ t.mem = s.mem ∧
        ∀ j, j < 1024 / per → ∃ v, DueEffect t (f.plan + 1 + j / 4) (.bytes w.stream (w.r0.toNat + 128 * j) 128 v 2) ∧
          ∀ e, e < per → elemOf v g.width e = (g.round .rn (f32.value (f.accElem m.toNat (per * j + e)))).1 % 2 ^ g.width) ∧
    (∀ m ta j, w.what = .plain (.mfill m ta) → CleanSram f → f.portOk false (w.r0.toNat + 128 * j) = true →
      w.r0.toNat % 128 = 0 → w.r0.toNat + 128 * j + 128 ≤ 0x600000 → (∀ x ∈ w.lines, x.1 ≠ j) →
      ∃ t x, exec (.timedEffectLands first tile (.fillRead key j)) s = .next t ∧ t.mem = s.mem ∧ t.wordRun key = some x ∧
        x.lineAt j = f.line (f.sramFlat (w.r0.toNat + 128 * j))) ∧
    (∀ md ma mb, w.what = .plain (.madd md ma mb) →
      ∃ t x, exec (.timedEffectLands first tile (.accRead key)) s = .next t ∧ t.mem = s.mem ∧ t.wordRun key = some x ∧
        x.what = w.what ∧ x.acc.length = 1024 ∧ ∀ n, n < 1024 →
          (x.acc.getD n 0).toNat = (f32.add (f.accElem ma.toNat n) (f.accElem mb.toNat n)).1 % 2 ^ 64) ∧
    (∀ md ma z, w.what = .plain (.mmov md ma z) →
      ∃ t x, exec (.timedEffectLands first tile (.accRead key)) s = .next t ∧ t.mem = s.mem ∧ t.wordRun key = some x ∧
        x.what = w.what ∧ x.acc.length = 1024 ∧ ∀ n, n < 1024 →
          (x.acc.getD n 0).toNat = if z = 1 then 0 else f.accElem ma.toNat n % 2 ^ 64) ∧
    (s.mem.wf = true → first < 64 → f.tl.ltile < 1024 →
      ∀ (m : BitVec 3) (v : Nat → Nat),
        (∃ ta fmt zr, w.what = .plain (.mspill m ta fmt zr) ∧ ∀ n, n < 1024 → v n = 0) ∨
        (∃ ta, w.what = .plain (.mfill m ta) ∧ ∀ n, n < 1024 → v n = lineLane (w.lineAt (n / 32)) 32 (n % 32)) ∨
        (w.acc.length = 1024 ∧ (∀ n, n < 1024 → v n = (w.acc.getD n 0).toNat) ∧
          ((∃ ma mb, w.what = .plain (.madd m ma mb)) ∨ ∃ ma z, w.what = .plain (.mmov m ma z))) →
        ∃ t, exec (.timedEffectLands first tile (.accWrite key)) s = .next t ∧
          (∀ n, n < 1024 → t.accElem m.toNat n = v n % 2 ^ 32) ∧
          let at_ := flatAccBase + ((first * 1024 + f.tl.ltile) * 8 + m.toNat) * 4096
          ∀ b, (b < at_ ∨ at_ + 4096 ≤ b) → t.mem.read b = s.mem.read b)) ∧
  (∀ (first tile stream off n data writer : Nat) (s : State), let f := atTile s first tile
    f.p.first = first → s.mem.wf = true → first < 64 → f.tl.ltile < 1024 → off + n ≤ 0x600000 →
    (∀ a, a % 128 = 0 → a < off + n → off < a + 128 → f.portOk false a = true ∧
      f.p.sramEngine f.tl.ltile (max a off) (min (a + 128) (off + n) - max a off) writer = true) →
    ∃ t, exec (.timedEffectLands first tile (.bytes stream off n data writer)) s = .next t ∧
      t.p.run.faults = f.p.run.faults ∧ ∀ b, t.mem.read b =
        if f.sramFlat off ≤ b ∧ b < f.sramFlat off + n then BitVec.ofNat 8 (data / 2 ^ (8 * (b - f.sramFlat off))) else s.mem.read b)

/-- R214, R236, R237: with its engine free and its operands in tensor SRAM, aligned, an elementwise word of n groups
occupies the vector engine for n ticks and reads group j of each source in tick T + 1 + j; escale reads its scalar in
tick T; a conversion keeps tn6 and tn7. Issue changes no register and no memory byte. A word that issues while its
engine is occupied is a schedule fault, and an operand outside tensor SRAM or misaligned an address fault. (From R211,
R214, R236, R237, Table 9.13.) -/
def Obligations.ElementwiseWordsIssue : Prop :=
  ∀ (d a b c : BitVec 4) (n : BitVec 12) (s : State), 1 ≤ n.toNat →
    let key := s.nextId
    let ok (ws wd : Nat) (l : List (BitVec 4)) : Prop := InSram (s.ta d) (4 * wd * n.toNat) (groupAlign wd) ∧
      ∀ r ∈ l, InSram (s.ta r) (4 * ws * n.toNat) (groupAlign ws)
    let issues (i : Instr) (op : VecOp) (sf df : Nat) (r1 r2 : Word) : Prop := ∃ t, exec i s = .next t ∧
      WordIssued s t key n.toNat false (.vec op sf df n.toNat) (s.ta a) r1 r2 (s.ta d) ∧
      (∀ j, j < n.toNat → DueEffect t (s.plan + 1 + j) (.group key j)) ∧ (op = .scale → DueEffect t s.plan (.scalarRead key))
    (∀ (fmt : BitVec 2) (cond : BitVec 2), let f := fmt.toNat
      let w := (elemFmt f).width
      EngineFree s false →
      (ok w w [a, b] → issues (.eadd d a b fmt n) .add f f (s.ta b) 0 ∧ issues (.esub d a b fmt n) .sub f f (s.ta b) 0 ∧
        issues (.emul d a b fmt n) .mul f f (s.ta b) 0 ∧ issues (.emax d a b fmt n) .max f f (s.ta b) 0 ∧
        issues (.emin d a b fmt n) .min f f (s.ta b) 0 ∧ issues (.ecmp d a b fmt n cond) (.cmp cond.toNat) f f (s.ta b) 0) ∧
      (ok w w [a, b, c] → issues (.ema d a b c fmt n) .ma f f (s.ta b) (s.ta c) ∧
        issues (.esel d a b c fmt n) .sel f f (s.ta b) (s.ta c)) ∧
      (ok w w [a] → issues (.eexp d a fmt n) .exp f f 0 0 ∧ issues (.ercp d a fmt n) .rcp f f 0 0 ∧
        issues (.ersq d a fmt n) .rsq f f 0 0 ∧ issues (.etanh d a fmt n) .tanh f f 0 0 ∧ issues (.elog2 d a fmt n) .log2 f f 0 0) ∧
      (ok w w [a] → InSram (s.ta b) 4 4 → issues (.escale d a b fmt n) .scale f f (s.ta b) 0)) ∧
    (∀ (src dst : BitVec 4) (rmode : BitVec 3) (sat : BitVec 1) (site : BitVec 8), EngineFree s false →
      ok (elemFmt src.toNat).width (elemFmt dst.toNat).width [a] →
      issues (.ecvt d a src dst n rmode sat site) (.cvt rmode.toNat site.toNat (sat == 1)) src.toNat dst.toNat
        ((s.stream.tn[6]).setWidth 64) ((s.stream.tn[7]).setWidth 64)) ∧
    (∀ fmt : BitVec 2, s.plan < s.stream.busy → exec (.eadd d a b fmt n) s = .next (s.tileFault 16 0)) ∧
    (∀ fmt : BitVec 2, EngineFree s false → ¬ InSram (s.ta d) (4 * (elemFmt fmt.toNat).width * n.toNat) (groupAlign (elemFmt fmt.toNat).width) →
      exec (.eadd d a b fmt n) s = .next (s.tileFault 4 (s.ta d)))

/-- R236, R237, Table 9.13: in its tick group j of an elementwise word is read from tensor SRAM and the 32 results are due
Lv ticks later at the result operand, each rounded once to the format: sum, difference, product, fused product and
sum, the larger, the smaller, a conversion under its rounding mode with the random bits of its element where the mode
takes them, the five special functions rounded through f32, a choice, a comparison giving 1.0 or +0, a product with
the scalar. Reading changes no memory byte. The scalar is kept when it is read. (From R134, R136, R138, R236, R237,
Table 9.13.) -/
def Obligations.ElementwiseResults : Prop :=
  (∀ (first tile key j n sf df : Nat) (op : VecOp) (w : WordRun) (s : State), let f := atTile s first tile
    f.p.first = first → f.wordRun key = some w → w.stream < 7 → w.what = .vec op sf df n → CleanSram f →
    let ws := (elemFmt sf).width
    let off (i : Nat) : Nat := (if i = 0 then w.r0 else if i = 1 then w.r1 else w.r2).toNat + 4 * ws * j
    (∀ i a, i < op.arity → a < off i + 4 * ws → off i < a + 128 → a % 128 = 0 → f.portOk false a = true) →
    (∀ i, i < op.arity → off i % 8 = 0 ∧ off i + 4 * ws ≤ 0x600000) →
    ∃ t, exec (.timedEffectLands first tile (.group key j)) s = .next t ∧ t.mem = s.mem ∧ t.p.run.faults = f.p.run.faults ∧
      GroupDue t (f.plan + (match op with | .cvt _ _ _ => 4 | .exp => 8 | .rcp => 8 | .rsq => 8 | .tanh => 8 | .log2 => 8 | _ => 3))
        w j (elemFmt df).width 3 fun e =>
          let x (i : Nat) : Nat := elemOf (f.bytes (f.sramFlat (off i)) (4 * ws)) ws e
          let ctr := w.r1.toNat % 2 ^ 16 * 2 ^ 48 + (match op with | .cvt _ site _ => site | _ => 0) * 2 ^ 40 + (w.r2.toNat + (32 * j + e)) % 2 ^ 40
          vecValue op (elemFmt sf) (elemFmt df) ((randBits f.p.launchKey (BitVec.ofNat 64 ctr)).toNat % 65536)
            (f32.value (lineLane (w.lineAt listPlace) 32 0)) (x 0) (x 1) (x 2)) ∧
  (∀ (first tile key sf df n : Nat) (w : WordRun) (s : State), let f := atTile s first tile
    f.p.first = first → f.wordRun key = some w → w.what = .vec .scale sf df n → CleanSram f → f.portOk false w.r1.toNat = true →
    w.r1.toNat % 4 = 0 → w.r1.toNat + 4 ≤ 0x600000 →
    ∃ t x, exec (.timedEffectLands first tile (.scalarRead key)) s = .next t ∧ t.mem = s.mem ∧ t.wordRun key = some x ∧
      lineLane (x.lineAt listPlace) 32 0 = f.bytes (f.sramFlat w.r1.toNat) 4)

/-- R214, R238, Table 9.16: with its engine free and its operands in tensor SRAM, aligned, a shape word occupies the shape
engine for as many ticks as it reads or writes groups, whichever is more, and reads source group j in tick T + 1 + j:
sred and strn read n and 32 n groups, sbc one, sslice groups its stride apart, sperm also its list in tick T. Issue
changes no register and no memory byte. A group of sslice outside tensor SRAM is an address fault. (From R211, R214,
R238, Table 9.16.) -/
def Obligations.ShapeWordsIssue : Prop :=
  ∀ (d a b : BitVec 4) (fmt : BitVec 2) (n : BitVec 12) (s : State), EngineFree s false → 1 ≤ n.toNat →
    let key := s.nextId
    let w := if fmt = 3 then 8 else (elemFmt fmt.toNat).width
    let ok (r : BitVec 4) (groups : Nat) : Prop := InSram (s.ta r) (4 * w * groups) (groupAlign w)
    let issues (i : Instr) (op : ShapeOp) (busy reads : Nat) (r1 : Word) : Prop := ∃ t, exec i s = .next t ∧
      WordIssued s t key busy false (.shape op fmt.toNat n.toNat) (s.ta a) r1 0 (s.ta d) ∧
      ∀ j, j < reads → DueEffect t (s.plan + 1 + j) (.group key j)
    (∀ op : BitVec 2, ok a n.toNat → ok d 1 → issues (.sred d a fmt n op) (.red op.toNat) n.toNat n.toNat 0) ∧
    (ok a (32 * n.toNat) → ok d (32 * n.toNat) → issues (.strn d a fmt n) .trn (32 * n.toNat) (32 * n.toNat) 0) ∧
    (ok a n.toNat → ok d n.toNat → InSram (s.ta b) 32 1 → issues (.sperm d a b fmt n) .perm n.toNat n.toNat (s.ta b) ∧
      ∃ t, exec (.sperm d a b fmt n) s = .next t ∧ DueEffect t s.plan (.scalarRead key)) ∧
    (ok a 1 → ok d n.toNat → issues (.sbc d a fmt n) .bc n.toNat 1 0) ∧
    (∀ stride : BitVec 12, ok a 1 → ok d n.toNat →
      let at_ (j : Nat) : Int := (s.ta a).toNat + 4 * w * (j * stride.toInt)
      ((∀ j, j < n.toNat → 0 ≤ at_ j ∧ at_ j + 4 * w ≤ 0x600000) →
        issues (.sslice d a fmt n stride) (.slice stride.toInt) n.toNat n.toNat 0) ∧
      (∀ j, j < n.toNat → (at_ j < 0 ∨ 0x600000 < at_ j + 4 * w) →
        exec (.sslice d a fmt n stride) s = .next (s.tileFault 4 (s.ta a)))) ∧
    (ok a n.toNat → ok d n.toNat → issues (.sscan d a fmt n) .scan n.toNat n.toNat 0) ∧
    (∀ r : BitVec 5, ok a n.toNat → ok d n.toNat → issues (.sroll d a fmt n r) (.roll r.toNat) n.toNat n.toNat 0)

/-- R148, R238, Table 9.16: reading group j, sperm, sslice and sroll have group j of the result due in T + 3 + j, permuted
by the list, as read, or rotated; sbc every group k in T + 3 + k; sscan the running sum in T + 5 + j, one rounded
addition a group; sred, with its last group, the tree sum, the maximum or the minimum over its groups in T + n + 5;
strn, with the last group of a panel of 32, the 32 transposed groups from T + 33 + j on. Other groups of sred and strn
are kept. Reading changes no memory byte. (From R148, R238, Table 9.16.) -/
def Obligations.ShapeResults : Prop :=
  ∀ (first tile key j n fmt : Nat) (op : ShapeOp) (w : WordRun) (s : State), let f := atTile s first tile
    f.p.first = first → f.wordRun key = some w → w.stream < 7 → w.what = .shape op fmt n → fmt ≤ 3 → j < 32 * n → CleanSram f →
    let wd := if fmt = 3 then 8 else (elemFmt fmt).width
    let g := elemFmt fmt
    let o : Int := w.r0.toNat + 4 * wd * (match op with | .slice d => j * d | _ => (j : Int))
    let off := o.toNat
    0 ≤ o → off % (4 * wd) = 0 → off + 4 * wd ≤ 0x600000 → f.portOk false off = true →
    let src (e : Nat) : Nat := elemOf (f.bytes (f.sramFlat off) (4 * wd)) wd e
    let kept (k e : Nat) : Nat := elemOf (w.lineAt k).toNat wd e
    ∃ t, exec (.timedEffectLands first tile (.group key j)) s = .next t ∧ t.mem = s.mem ∧ t.p.run.faults = f.p.run.faults ∧
      (op = .perm → GroupDue t (w.issued + 3 + j) w j wd 4 fun e => src (lineLane (w.lineAt listPlace) 8 e % 32)) ∧
      (∀ d, op = .slice d → GroupDue t (w.issued + 3 + j) w j wd 4 src) ∧
      (∀ r, op = .roll r → GroupDue t (w.issued + 3 + j) w j wd 4 fun e => src ((e + r) % 32)) ∧
      (op = .bc → ∀ k, k < n → GroupDue t (w.issued + 3 + k) w k wd 4 src) ∧
      (op = .scan → ∃ x, t.wordRun key = some x ∧
        let sum (e : Nat) : Nat := if j = 0 then g.canon (src e) else (g.add (kept 0 e) (src e)).1
        GroupDue t (w.issued + 5 + j) w j wd 4 sum ∧ ∀ e, e < 32 → elemOf (x.lineAt 0).toNat wd e = sum e % 2 ^ wd) ∧
      (∀ o, op = .red o → (∃ x, t.wordRun key = some x ∧ ∀ e, e < 32 → elemOf (x.lineAt j).toNat wd e = src e) ∧
        (j + 1 = n → GroupDue t (w.issued + n + 5) w 0 wd 4 fun e =>
          let l := (List.range n).map fun k => if k = j then src e else kept k e
          if o = 0 then (g.sumTree l).1 else l.foldl (if o = 1 then g.max else g.min) (g.canon (l.headD 0)))) ∧
      (op = .trn → (∃ x, t.wordRun key = some x ∧ ∀ e, e < 32 → elemOf (x.lineAt j).toNat wd e = src e) ∧
        (j % 32 = 31 → ∀ c, c < 32 → GroupDue t (w.issued + 33 + (j - 31 + c)) w (j - 31 + c) wd 4 fun e =>
          if e = 31 then src c else kept (j - 31 + e) c))

/-- R214, R376-R378: sendt occupies the send half of the link engine for its lines and reads line j in T + 1 + j; recvt
the receive half, claiming line k in T + 1 + k. A line read for a tile of the partition is on its way there, with its
source, due after the tile latency; for a port it leaves with the destination, the source and its arrival tick, and
the control flit of the port's frame names the two tiles; two senders of one port are a schedule fault. A claim takes
the line of its source and lands it in the operand's place; a claim that finds nothing is a schedule fault, or takes a
poisoned line where the frame's control flit was lost; a line nothing claims is a schedule fault. (From R214, R372,
R374, R376, R377, R378.) -/
def Obligations.LinesSentAndReceived : Prop :=
  (∀ (src dst : BitVec 4) (kind : BitVec 2) (tile : BitVec 8) (port : BitVec 4) (n : BitVec 12) (pol : BitVec 1) (s : State),
    let k := n.toNat + 1
    let p : Option Nat := if kind = 0 then none else some port.toNat
    (EngineFree s false → InSram (s.ta src) (128 * k) 128 → s.tix < s.p.tiles.length → ∃ t, exec (.sendt src kind tile port n) s = .next t ∧
      WordIssued s t s.nextId k false (.send tile.toNat p) (s.ta src) (BitVec.ofNat 64 k) 0 0 ∧
      ∀ j, j < k → DueEffect t (s.plan + 1 + j) (.sendRead s.nextId j)) ∧
    (EngineFree s true → InSram (s.ta dst) (128 * k) 128 → ∃ t, exec (.recvt dst kind tile port n pol) s = .next t ∧
      WordIssued s t s.nextId k true (.recv tile.toNat p (pol == 1)) (s.ta dst) 0 0 0 ∧
      ∀ j, j < k → DueEffect t (s.plan + 1 + j) (.claim s.nextId j))) ∧
  (∀ (first tile key j dtile : Nat) (w : WordRun) (s : State), let f := atTile s first tile
    let off := w.r0.toNat + 128 * j
    f.p.first = first → f.wordRun key = some w → CleanSram f → f.portOk false off = true → off % 128 = 0 → off + 128 ≤ 0x600000 →
    (∀ (t0 : Nat) (x : Tile), w.what = .send dtile none → f.bankOk false fabricOut = true → f.p.tileOf dtile = some t0 → f.p.tiles[t0]? = some x → f.tix < f.p.tiles.length →
      ∃ t y, exec (.timedEffectLands first tile (.sendRead key j)) s = .next t ∧ t.mem = s.mem ∧ t.p.tiles[t0]? = some y ∧
        y.arriving = x.arriving ++ [⟨f.plan + Config.tileLatency, f.tl.ltile, none, f.line (f.sramFlat off), 0, some true⟩] ∧
        ∃ r, (⟨f.plan + Config.tileLatency, r, .ev (.timedEffectLands first t0 .unclaimed)⟩ : Item) ∈ t.p.run.tq) ∧
    (∀ (p : Nat) (hp : p < 16), w.what = .send dtile (some p) → f.sendersOn p ≤ 1 →
      ∃ t, exec (.timedEffectLands first tile (.sendRead key j)) s = .next t ∧ t.mem = s.mem ∧
        t.out = .line p dtile f.tl.ltile (f.line (f.sramFlat off)) 0 (f.plan + (f.links[p].w0.extractLsb' 16 12).toNat) :: f.out ∧
        ∃ c, Tab.find p t.frames = some c ∧ c.tick = f.tick / 5 * 5 ∧ c.lines.toList[f.tick % 5]? = some (some (f.tl.ltile, dtile))) ∧
    (∀ (p : Nat), w.what = .send dtile (some p) → 1 < f.sendersOn p → f.p.run.active = true → f.p.run.ending = false →
      ∃ t e, exec (.timedEffectLands first tile (.sendRead key j)) s = .next t ∧ t.mem = s.mem ∧ t.out = f.out ∧
        t.p.run.faults = f.p.run.faults ++ [e] ∧ e.kind = 16)) ∧
  (∀ (first tile key k stile : Nat) (p : Option Nat) (halt : Bool) (w : WordRun) (s : State), let f := atTile s first tile
    let off := w.r0.toNat + 128 * k
    f.p.first = first → f.wordRun key = some w → w.what = .recv stile p halt → first < 64 → f.tl.ltile < 1024 →
    let mine (a : Arrival) : Prop := a.ltick = f.plan ∧ a.port = p ∧ a.stile = stile
    (∀ (a : Arrival) (l r : List Arrival), f.tl.arriving = l ++ a :: r → (∀ x ∈ l, ¬ mine x) → mine a → a.header = some true → a.pois = 0 →
      s.mem.wf = true → off + 128 ≤ 0x600000 → f.portOk false off = true → f.p.sramEngine f.tl.ltile off 128 5 = true →
      ∃ t, exec (.timedEffectLands first tile (.claim key k)) s = .next t ∧ t.tl.arriving = l ++ r ∧
        t.p.run.faults = f.p.run.faults ∧ ∀ b, t.mem.read b =
          if f.sramFlat off ≤ b ∧ b < f.sramFlat off + 128 then a.data.extractLsb' (8 * (b - f.sramFlat off)) 8 else s.mem.read b) ∧
    ((∀ x ∈ f.tl.arriving, ¬ (x.ltick = f.plan ∧ x.port = p)) → f.p.run.active = true → f.p.run.ending = false →
      ((∀ n, p = some n → f.frameLost n f.plan = false) →
        ∃ t e, exec (.timedEffectLands first tile (.claim key k)) s = .next t ∧ t.mem = s.mem ∧
          t.p.run.faults = f.p.run.faults ++ [e] ∧ e.kind = 16) ∧
      ((∃ n, p = some n ∧ f.frameLost n f.plan = true) → halt = true → f.portOk false off = true →
        ∃ t e, exec (.timedEffectLands first tile (.claim key k)) s = .next t ∧ t.mem = s.mem ∧
          t.p.run.faults = f.p.run.faults ++ [e] ∧ e.kind = 18))) ∧
  (∀ (first tile : Nat) (s : State), let f := atTile s first tile
    f.p.first = first →
    ∃ t, exec (.timedEffectLands first tile .unclaimed) s = .next t ∧ t.mem = s.mem ∧
      t.tl.arriving = f.tl.arriving.filter (fun a => decide (f.plan < a.ltick)) ∧
      ((∃ a ∈ f.tl.arriving, a.ltick ≤ f.plan ∧ a.header.isSome = true) → f.p.run.active = true → f.p.run.ending = false →
        ∃ e, t.p.run.faults = f.p.run.faults ++ [e] ∧ e.kind = 16))

/-- R347, R351, R353, R354 with a true guard: ldf, ldfe, stf, ste, fill, empty, sem.take and sem.give with the address
a[rs] + a[t], rsv and rls with a[rs] + 8 x imm[31:4], and dctr likewise: where the address leads to local store, or to
HBM homed where the thread stands or that it does not move to, and is aligned to 8 bytes (64 for dctr), the thread
leaves rotation and the access arrives at its word L / 2 core cycles later, L being Table 5.3's figure times the
dilation, in throughput mode no less. HBM homed elsewhere makes a thread that roams migrate; an address of a peer
sends a request there once the thread's earlier accesses are over. A misaligned one is an address fault with the
address, as is one to host memory, tensor SRAM, a board or a counter. With a false guard nothing happens. No register
and no memory byte changes at issue. (From R347, R351, R353, R354, R116, R112, R313, R316, R391, Table 5.3.) -/
def Obligations.SynchronisingAccessesIssue : Prop :=
  ∀ (g : Guard) (d rs x : BitVec 5) (fn : BitVec 4) (f : BitVec 2) (imm : BitVec 32) (s : State),
    let va := s.ra rs + s.ra x
    let vw : Word := BitVec.ofInt 64 ((s.ra rs).toNat + 8 * (imm.toInt / 16))
    let b := s.ra x
    let forms : List (Instr × AccOp × Word × Nat × Nat × Word × Nat) := [
      (.ldf g d rs x fn, .ldf, va, 8, d.toNat, 0, fn.toNat), (.ldfe g d rs x fn, .ldfe, va, 8, d.toNat, 0, fn.toNat),
      (.stf g d rs x fn, .stf, va, 8, 24, s.ra d, fn.toNat), (.ste g d rs x fn, .ste, va, 8, 24, s.ra d, fn.toNat),
      (.fill g rs x fn, .fill, va, 8, 24, 0, fn.toNat), (.empty g rs x fn, .empty, va, 8, 24, 0, fn.toNat),
      (.semTake g d rs x fn, .semTake, va, 8, d.toNat, 0, fn.toNat), (.semGive g d rs x fn, .semGive, va, 8, d.toNat, 0, fn.toNat),
      (.rsv g d rs x f imm, .rsv f.toNat, vw, 8, d.toNat, b, imm.toNat % 16),
      (.rls g d rs x f imm, .rls f.toNat, vw, 8, d.toNat, b, imm.toNat % 16),
      (.dctr g d rs imm, .dctr, vw, 64, d.toNat, 0, imm.toNat % 16)]
    ∀ i op a al dest data scope, (i, op, a, al, dest, data, scope) ∈ forms →
      (s.guard g = false → exec i s = .next s) ∧
      (s.guard g = true → a.toNat % al ≠ 0 → exec i s = .next (s.raise 4 a)) ∧
      (s.guard g = true → a.toNat % al = 0 →
        (∀ target n, s.route a 8 = .ok target → tripOf s target = some n →
          ∃ t lat, exec i s = .next t ∧ Takes s n lat ∧ SyncSent s t op a dest data scope lat) ∧
        (∀ home off, s.route a 8 = .ok (.hbm home off) → home ≠ s.cur.loc.cluster → s.roams = true →
          ∃ t, exec i s = .next t ∧ Migrates s t home) ∧
        (∀ pkg, s.route a 8 = .ok (.peer pkg) → scope ≠ 7 → scope ≠ 9 → s.cur.syncDrained s.now scope = true →
          ∃ t, exec i s = .next t ∧ PeerAsked s t pkg op a 8 false dest data scope) ∧
        (∀ k, s.route a 8 = .error k → exec i s = .next (s.raise k a)) ∧
        (∀ target, s.route a 8 = .ok target →
          ((∃ o, target = .host o) ∨ (∃ l o, target = .sram l o) ∨ (∃ o, target = .counters o) ∨ ∃ l n, target = .board l n) →
          exec i s = .next (s.raise 4 a)))

/-- R348, R349, R351, R353, R354: an arriving access, in HBM in a position of its channel, joins the back of its word's
list, which is tested in that cycle; of the members of a list the oldest whose condition holds is chosen; performing,
it leaves the list, the word and its full/empty bit become what Tables 15.2 and 15.3 say, no other byte and no other
bit changes, and its completion is due L - L/2 later; then its register takes the word as it stood, pw.isat is set by
a sem.give of a full count, and the bundle retires. On a poisoned word it completes with a data-poison fault. A
dependence counter that reaches zero also enqueues its successor. (From R240, R331, R335, R348, R349, R351, R353,
R354.) -/
def Obligations.SynchronisingAccessesPerform : Prop :=
  (∀ (uid : Nat) (a : Acc) (s : State) (flat : Nat), let f := s.focusThread uid
    f.cur.uid = uid → uid ≠ 0 → f.cur.status = .access a.id → a.bytes = 8 → placeOf f a = some flat →
    ∃ t w, exec (.syncAccessArrives uid a) s = .next t ∧ t.cur.status = .listed ∧ t.mem = s.mem ∧ t.attr = s.attr ∧
      w.uid = uid ∧ (w.acc = a ∨ w.acc = { a with phys := some flat, remote := false }) ∧ w.chosen = false ∧ Tab.getD [] flat t.lists = Tab.getD [] flat s.lists ++ [w] ∧
      Due t s.now (.waiterPerforms flat)) ∧
  (∀ (flat : Nat) (w : Waiter) (l r : List Waiter) (s : State), Tab.getD [] flat s.lists = l ++ w :: r →
    (∀ x ∈ l ++ w :: r, x.chosen = false) → w.uid ≠ 0 → (∀ x ∈ l ++ r, x.uid ≠ w.uid) →
    (∀ x ∈ l, s.memberReady flat x = false) →
    ∀ t0, s.findThread w.uid = some t0 → t0.status = .listed → s.standsStill t0.part = false →
      t0.relaxed = [] → t0.pushed = true → t0.waitTo ≤ s.now → t0.asked = [] →
      (s.poisoned flat || syncMay w.acc.op (s.isFull flat) (s.word flat)) = true →
      ∃ t, exec (.waiterPerforms flat) s = .next t ∧ t.mem = s.mem ∧ t.attr = s.attr ∧ Due t s.now (.waiterPerforms flat) ∧
        Tab.getD [] flat t.lists = l ++ { w with chosen := true } :: r) ∧
  (∀ (flat : Nat) (s : State), (∀ x ∈ Tab.getD [] flat s.lists, x.chosen = false ∧ s.memberReady flat x = false) →
    exec (.waiterPerforms flat) s = .next s) ∧
  (∀ (flat : Nat) (w : Waiter) (l r : List Waiter) (s : State), Tab.getD [] flat s.lists = l ++ w :: r →
    s.lists.Pairwise (fun x y => x.1 < y.1) → (∀ x ∈ l, x.chosen = false) → w.chosen = true → w.uid ≠ 0 →
    (∀ x ∈ l ++ r, x.uid ≠ w.uid) → (s.focusThread w.uid).cur.uid = w.uid → s.mem.wf = true → s.attr.wf = true →
    flat % 8 = 0 → flat + 8 ≤ flatHostBase → Clean s flat →
    let a := w.acc
    let old := s.word flat
    let left := syncLeaves a.op old a.data (s.isFull flat)
    ∃ t, exec (.waiterPerforms flat) s = .next t ∧ t.cur.uid = w.uid ∧ t.cur.status = .access a.id ∧
      Tab.getD [] flat t.lists = l ++ r ∧ OnlyBytes s t flat 8 ∧ t.word flat = left.1 ∧ t.isFull flat = left.2 ∧
      (∀ o, o ≠ flat → t.attr.read o = s.attr.read o) ∧
      Due t (s.now + (a.lat - a.lat / 2)) (.accessComplete w.uid (.acc { a with stage := 1, res := old })) ∧
      (a.op = .dctr → old.toNat % 2 ^ 32 = 1 → (old.extractLsb' 32 6).toNat < 48 →
        ∃ c, Due t c (.enqueueReachesQueue ⟨(s.focusThread w.uid).p.first, (old.extractLsb' 32 6).toNat,
          ⟨s.word (flat + 8), s.word (flat + 16), s.word (flat + 24), s.word (flat + 32)⟩, .thread w.uid⟩))) ∧
  (∀ (uid : Nat) (a : Acc) (s : State), let f := s.focusThread uid
    f.cur.uid = uid → uid ≠ 0 → f.cur.status = .access a.id → a.stage = 1 → a.rlx = false → EndsAs s uid a)

/-- R263, R264, R110, R116, R308, R330, R332: ld and st at a[rs] + a[t], ldl and stl at a[rs] + imm, of 1, 2, 4 or 8
bytes: plain ones leave rotation and complete after L = Table 5.3's figure times the dilation (in throughput mode no
less; to host memory a time of the host), never before an earlier access of the thread to the word; relaxed ones join
the thread's outstanding accesses and the thread goes on, waiting with a ninth; HBM homed elsewhere makes a thread
that roams migrate; a peer's address sends a request. Each performs half its time before it completes: a load reads
its bytes, sign-extended or not, a store replaces exactly its bytes, where HBM translates, its channel serves it and
no region refuses it; it comes back with the value, a missing translation, or fault 6 or, for a word with poison, 7.
Then the register is written and the bundle retires, or it traps. A misaligned access is an address fault with the
address; a store to a counter a protection fault, an access to a board an address fault. (From R110, R116, R263, R264,
R308, R310, R313, R316, R32, R330, R332, Table 5.3.) -/
def Obligations.LoadsAndStores : Prop :=
  (∀ (g : Guard) (d rs x : BitVec 5) (fn : BitVec 4) (f : BitVec 2) (imm : BitVec 32) (s : State),
    let va := s.ra rs + s.ra x
    let vl : Word := BitVec.ofInt 64 ((s.ra rs).toNat + imm.toInt)
    let n3 := 2 ^ (fn.toNat / 2 % 4)
    let nl := 2 ^ f.toNat
    let forms : List (Instr × AccOp × Word × Nat × Bool × Nat × Word × Bool) := [
      (.ld g d rs x fn, .load, va, n3, fn.getLsbD 0, d.toNat, 0, fn.getLsbD 3),
      (.st g d rs x fn, .store, va, n3, false, 24, s.ra d, fn.getLsbD 3),
      (.ldl g d rs x f imm, .load, vl, nl, x.getLsbD 3, d.toNat, 0, x.getLsbD 4),
      (.stl g d rs x f imm, .store, vl, nl, false, 24, s.ra d, x.getLsbD 4)]
    ∀ i op a n sx dest data asked, (i, op, a, n, sx, dest, data, asked) ∈ forms →
      let rlx := asked && s.cur.fromCluster == s.cur.loc.cluster
      let figure (target : Target) : Option Nat := match target with
        | .sram _ _ => some 392
        | .counters _ => if op = .load then some 392 else none
        | t => tripOf s t
      (s.guard g = false → exec i s = .next s) ∧
      (s.guard g = true → a.toNat % n ≠ 0 → exec i s = .next (s.raise 4 a)) ∧
      (s.guard g = true → a.toNat % n = 0 →
        (∀ k, s.route a n = .error k → exec i s = .next (s.raise k a)) ∧
        (∀ l m, s.route a n = .ok (.board l m) → exec i s = .next (s.raise 4 a)) ∧
        (∀ o, s.route a n = .ok (.counters o) → op = .store → exec i s = .next (s.raise 5 a)) ∧
        (∀ home off, s.route a n = .ok (.hbm home off) → home ≠ s.cur.loc.cluster → s.roams = true →
          ∃ t, exec i s = .next t ∧ Migrates s t home) ∧
        (rlx = false →
          (∀ target k, s.route a n = .ok target → figure target = some k →
            ∃ t lat, exec i s = .next t ∧ Takes s k lat ∧ PlainSent s t target op a n sx dest data lat) ∧
          (∀ o, s.route a n = .ok (.host o) → ∃ t lat, exec i s = .next t ∧ 0 < lat ∧ PlainSent s t (.host o) op a n sx dest data lat) ∧
          (∀ pkg, s.route a n = .ok (.peer pkg) → ∃ t, exec i s = .next t ∧ PeerAsked s t pkg op a n sx dest data 0)) ∧
        (rlx = true → s.cur.relaxed.length < 8 →
          (∀ target k, s.route a n = .ok target → figure target = some k → ∃ t c lat, exec i s = .next t ∧ Takes s k lat ∧
            Carries c op a n sx dest data 0 lat s.nextId ∧ c.rlx = true ∧ c.due = s.dueAfter s.cur a target lat ∧ t.mem = s.mem ∧
            t.cur = { s.cur with relaxed := s.cur.relaxed ++ [c] } ∧ Due t (c.due - (lat - lat / 2)) (.accessComplete s.cur.uid (.acc c))) ∧
          (∀ pkg, s.route a n = .ok (.peer pkg) → ∃ t c, exec i s = .next t ∧ c.op = op ∧ c.va = a ∧ c.data = data ∧ c.rlx = true ∧
            t.out = .request (s.peerAddr pkg) pkg (s.sendStamp 0) c :: s.out ∧ t.mem = s.mem ∧
            t.cur = { s.cur with relaxed := s.cur.relaxed ++ [c], asked := s.cur.asked ++ [c] } ∧
            (op = .store → Due t c.due (.accessComplete s.cur.uid (.acc c))))) ∧
        (rlx = true → 8 ≤ s.cur.relaxed.length → ∀ target k, s.route a n = .ok target → figure target = some k →
          ∃ t c, exec i s = .next t ∧ c.op = op ∧ c.va = a ∧ c.stage = 2 ∧ t.mem = s.mem ∧
            t.cur = { s.cur with relaxed := s.cur.relaxed ++ [c], status := .waiting .relaxed }))) ∧
  (∀ (uid : Nat) (a : Acc) (s : State), let f := s.focusThread uid
    f.cur.uid = uid → uid ≠ 0 → f.liveAccess a = true → a.stage = 0 → a.op ∈ [.load, .store] →
    let i : Instr := .accessComplete uid (.acc a)
    (∀ flat, memPlace f a = some flat → a.bytes ∈ [1, 2, 4, 8] → flat % a.bytes = 0 → Clean s flat →
      (a.op = .load → ∃ t v, exec i s = .next t ∧ t.cur = f.cur ∧ t.mem = s.mem ∧ t.attr = s.attr ∧
        BackWith s t uid a { a with stage := 1, res := v } ∧
        (a.sx = false → v.toNat = s.mem.readN flat a.bytes) ∧
        (a.sx = true → v.toInt = (BitVec.ofNat (8 * a.bytes) (s.mem.readN flat a.bytes)).toInt)) ∧
      (a.op = .store → s.mem.wf = true → ∃ t, exec i s = .next t ∧ t.cur.a = f.cur.a ∧ t.cur.pw = f.cur.pw ∧
        t.cur.status = f.cur.status ∧ OnlyBytes s t flat a.bytes ∧ BackWith s t uid a { a with stage := 1, res := 0 } ∧
        (∀ k, k < a.bytes → t.mem.read (flat + k) = a.data.extractLsb' (8 * k) 8))) ∧
    (∀ flat, memPlace f a = some flat → s.poisoned flat = true → (a.op = .load ∨ a.bytes < 8) →
      ∃ t, exec i s = .next t ∧ t.cur = f.cur ∧ t.mem = s.mem ∧ BackWith s t uid a { a with stage := 1, bad := 7 }) ∧
    (∀ o, f.route a.va a.bytes = .ok (.counters o) → a.op = .load → ∃ t, exec i s = .next t ∧ t.cur = f.cur ∧ t.mem = s.mem ∧
      BackWith s t uid a { a with stage := 1, res := loadValue a.sx a.bytes (f.p.counterBytes o a.bytes) }) ∧
    (∀ home off, f.route a.va a.bytes = .ok (.hbm home off) →
      (∀ why, f.translated a off = .error why → ∃ t, exec i s = .next t ∧ t.cur = f.cur ∧ t.mem = s.mem ∧
        BackWith s t uid a { a with stage := 1, bad := 32 + why }) ∧
      (∀ flat, f.translated a off = .ok flat → a.op = .store → f.p.hbmOpen off a.bytes 7 = false →
        ∃ t, exec i s = .next t ∧ t.cur = f.cur ∧ t.mem = s.mem ∧ BackWith s t uid a { a with stage := 1, bad := 6 }) ∧
      (∀ flat, placed f a = some flat → servedNow f flat = false → ∃ t c, exec i s = .next t ∧ t.cur = f.cur ∧ t.mem = s.mem ∧
        s.now < c ∧ Due t c (.accessComplete uid (.acc { a with phys := some flat, remote := false }))))) ∧
  (∀ (uid : Nat) (a : Acc) (s : State), let f := s.focusThread uid
    f.cur.uid = uid → uid ≠ 0 → f.liveAccess a = true → a.stage = 1 → a.op ∈ [.load, .store] →
    (a.rlx = false → f.cur.status = .access a.id → EndsAs s uid a) ∧
    (a.rlx = true → a.bad = 0 → f.cur.landed = [] → f.cur.unsent = none → ∃ t, exec (.accessComplete uid (.acc a)) s = .next t ∧
      t.cur.a = (if a.op = .load then f.cur.setReg a.d a.res else f.cur).a ∧ t.cur.status = f.cur.status ∧ t.mem = s.mem ∧
      t.cur.retired = f.cur.retired ∧ (∀ y ∈ t.cur.relaxed, y.id ≠ a.id)))

/-- R334, R335, R356, R357 with a true guard: watch is a plain load of a word that arms the monitor as it performs, half
its time before it completes; nap with no monitor armed gives 0, with the write already seen gives 1 and disarms, else
the thread waits, with its time-out due operand x d cycles on where the operand is not 0; an operand of 2^32 or more
is an address fault; a write through to a waiting nap ends it with 1, the time-out with 2, and both disarm; fence goes
on where nothing of the thread's earlier bundles is outstanding, and waits where something is. (From R334, R335, R356,
R357.) -/
def Obligations.MonitorsNapsAndFences : Prop :=
  (∀ (g : Guard) (d rs x : BitVec 5) (fn : BitVec 4) (s : State), s.guard g = true →
    let va := s.ra rs + s.ra x
    let v := s.ra rs
    (∀ target k, s.route va 8 = .ok target → tripOf s target = some k → va.toNat % 8 = 0 →
      ∃ t lat, exec (.watch g d rs x) s = .next t ∧ Takes s k lat ∧ PlainSent s t target .watch va 8 false d.toNat 0 lat) ∧
    (∀ home off, s.route va 8 = .ok (.hbm home off) → home ≠ s.cur.loc.cluster → s.roams = true → va.toNat % 8 = 0 →
      ∃ t, exec (.watch g d rs x) s = .next t ∧ Migrates s t home) ∧
    (va.toNat % 8 ≠ 0 → exec (.watch g d rs x) s = .next (s.raise 4 va)) ∧
    (∀ k, va.toNat % 8 = 0 → s.route va 8 = .error k → exec (.watch g d rs x) s = .next (s.raise k va)) ∧
    (2 ^ 32 ≤ v.toNat → exec (.nap g d rs) s = .next (s.raise 4 v)) ∧
    (v.toNat < 2 ^ 32 →
      let off : Monitor := ⟨false, false, 0, 0⟩
      (s.cur.monitor.armed = false → exec (.nap g d rs) s = .next (s.landA 2 d 0)) ∧
      (s.cur.monitor.armed = true → s.cur.monitor.seen = true → exec (.nap g d rs) s =
        .next (({ s with cur := { s.cur with monitor := off, napAt := 0 } } : State).landA 2 d 1)) ∧
      (s.cur.monitor.armed = true → s.cur.monitor.seen = false → s.cur.napAt = 0 →
        ∃ t, exec (.nap g d rs) s = .next t ∧ t.cur.status = .napping ∧ t.cur.napDest = d.toNat ∧ t.cur.a = s.cur.a ∧
          t.cur.monitor = s.cur.monitor ∧ t.mem = s.mem ∧
          (v = 0 → t.cur.napAt = 0 ∧ t.agenda = s.agenda) ∧
          (v ≠ 0 → t.cur.napAt = s.now + s.dil * v.toNat ∧
            Due t (s.now + s.dil * v.toNat) (.napTimeout s.cur.uid (s.now + s.dil * v.toNat))))) ∧
    (fn ≠ 7 → fn ≠ 9 →
      let done := s.cur.relaxed = [] ∧ s.cur.pushed = true ∧ s.cur.waitTo ≤ s.now ∧ (fn = 8 → s.cur.asked = [])
      (done → exec (.fence g fn) s = .next s) ∧
      (¬ done → exec (.fence g fn) s = .next { s with cur := { s.cur with status := .waiting (.fence fn.toNat) } })) ∧
    ((fn = 7 ∨ fn = 9) → ∃ t, exec (.fence g fn) s = .next t ∧ t.cur.status = .waiting (.fence fn.toNat) ∧
      s.now < t.cur.waitTo ∧ t.cur.a = s.cur.a ∧ t.mem = s.mem)) ∧
  (∀ (uid : Nat) (a : Acc) (s : State) (flat : Nat), let f := s.focusThread uid
    f.cur.uid = uid → uid ≠ 0 → f.cur.status = .access a.id → a.rlx = false → a.op = .watch → a.bytes = 8 → a.sx = false →
    (a.stage = 0 → placeOf f a = some flat → Clean s flat →
      ∃ t, exec (.accessComplete uid (.acc a)) s = .next t ∧ t.mem = s.mem ∧ t.attr = s.attr ∧
        t.cur = { f.cur with monitor := ⟨true, false, a.va, flat⟩ } ∧ BackWith s t uid a { a with stage := 1, res := s.word flat }) ∧
    (a.stage = 1 → EndsAs s uid a)) ∧
  (∀ (uid due : Nat) (s : State), let f := s.focusThread uid
    f.cur.uid = uid → f.cur.status = .napping → f.p.ppState = 0 → f.cur.heldV = [] →
    (f.cur.monitor.seen = true → ∃ t, exec (.napWake uid) s = .next t ∧ t.cur.status = .ready ∧ t.mem = s.mem ∧
      t.cur.a = (f.cur.setReg f.cur.napDest 1).a ∧ t.cur.monitor.armed = false) ∧
    (f.cur.monitor.seen = false → exec (.napWake uid) s = .next f) ∧
    (f.cur.napAt = due → ∃ t, exec (.napTimeout uid due) s = .next t ∧ t.cur.status = .ready ∧ t.mem = s.mem ∧
      t.cur.a = (f.cur.setReg f.cur.napDest 2).a ∧ t.cur.monitor.armed = false) ∧
    (f.cur.napAt ≠ due → exec (.napTimeout uid due) s = .next f))

/-- R243, R266-R269 with a true guard: tlook gives the slot address of the line plus the byte, or 0, and the predicate,
for a share the partition owns; tset tags a slot of the own core whose entry is neither pinned nor dirty, where no
other slot of its share holds the line, sets valid and clears dirty, and gives 1, else 0 with nothing changed;
tdrop.cl of a clean entry changes nothing and gives 1; .wb and .inv clear valid and keep the tag; of a pinned entry
(but .cl) it gives 0. Dirty words leave for their home and the thread leaves rotation. A tag address beyond 56 bits is
an address fault. No memory byte changes. A slot register that names no slot of the own core is an address fault.
(From R243, R266, R267, R268, R269, Table 10.1.) -/
def Obligations.TagTable : Prop :=
  ∀ (g : Guard) (d rs x : BitVec 5) (imm : BitVec 32) (s : State), s.guard g = true →
    let a := s.ra rs
    let cl := s.cur.loc.cluster
    let co := s.cur.loc.core
    let tag : BitVec 49 := a.extractLsb' 7 49
    let entry (n : Nat) : TagEntry := s.tagOf cl co n
    let share := imm.toNat % 8
    (s.cluster cl).tags.Pairwise (fun x y => x.1 < y.1) →
    (2 ^ 56 ≤ a.toNat → exec (.tlook g d rs x imm) s = .next (s.raise 4 a) ∧ exec (.tset g d rs x) s = .next (s.raise 4 a)) ∧
    (a.toNat < 2 ^ 56 → s.p.owns (8 * co + share) = false →
      exec (.tlook g d rs x imm) s = .next (s.raise 5 (BitVec.ofNat 64 share))) ∧
    (a.toNat < 2 ^ 56 → s.p.owns (8 * co + share) = true →
      (∀ n, 2048 * share ≤ n → n < 2048 * share + 2048 → (entry n).valid = true → (entry n).tag = tag →
        (∀ m, 2048 * share ≤ m → m < n → ¬ ((entry m).valid = true ∧ (entry m).tag = tag)) →
        exec (.tlook g d rs x imm) s = .next ((s.landA 6 d (BitVec.ofNat 64
          (s.ownPkg * 2 ^ 48 + 2 ^ 47 + cl * 2 ^ 40 + co * 2 ^ 37 + 0x80000 + 128 * n + a.toNat % 128))).landP 6 x.toNat true)) ∧
      ((∀ n, 2048 * share ≤ n → n < 2048 * share + 2048 → ¬ ((entry n).valid = true ∧ (entry n).tag = tag)) →
        exec (.tlook g d rs x imm) s = .next ((s.landA 6 d 0).landP 6 x.toNat false))) ∧
    (∀ b, a.toNat < 2 ^ 56 → s.route (s.ra x) 1 = .ok (.loc cl co b) → 0x80000 ≤ b → b < 0x280000 →
      let n := (b - 0x80000) / 128
      let held (m : Nat) : Prop := m / 2048 = n / 2048 ∧ (entry m).valid = true ∧ (entry m).tag = tag
      ((entry n).pin = false → ((entry n).valid = false ∨ (entry n).dirty = 0) → (∀ m, held m → m = n) →
        ∃ u : State, exec (.tset g d rs x) s = .next (u.landP 6 d.toNat true) ∧ u.mem = s.mem ∧ u.cur = s.cur ∧
        u.tagOf cl co n = ⟨tag, true, (entry n).pin, 0⟩ ∧
        ∀ m, m < 16384 → m ≠ n → u.tagOf cl co m = entry m) ∧
      (((entry n).pin = true ∨ ((entry n).valid = true ∧ (entry n).dirty ≠ 0) ∨ (¬ held n ∧ ∃ m, held m)) →
        exec (.tset g d rs x) s = .next (s.landP 6 d.toNat false))) ∧
    (∀ (f : BitVec 2) b, s.route (s.ra x) 1 = .ok (.loc cl co b) → 0x80000 ≤ b → b < 0x280000 →
      let n := (b - 0x80000) / 128
      let e := entry n
      (e.pin = true → f ≠ 1 → exec (.tdrop g d x f) s = .next (s.landP 6 d.toNat false)) ∧
      ((e.pin = false ∨ f = 1) → e.valid = false → exec (.tdrop g d x f) s = .next (s.landP 6 d.toNat true)) ∧
      (e.valid = true → e.dirty = 0 → f = 1 → exec (.tdrop g d x f) s = .next (s.landP 6 d.toNat true)) ∧
      (e.pin = false → e.valid = true → (e.dirty = 0 ∨ f = 2) → f ≠ 1 → ∃ u : State, exec (.tdrop g d x f) s =
        .next (u.landP 6 d.toNat true) ∧ u.mem = s.mem ∧ u.cur = s.cur ∧ u.tagOf cl co n = { e with valid := false }) ∧
      ((e.pin = false ∨ f = 1) → e.valid = true → e.dirty ≠ 0 → f ≠ 2 →
        let line : Word := e.tag.setWidth 64 <<< 7
        ∀ home off, s.route line 128 = .ok (.hbm home off) →
        ∃ t w lat, exec (.tdrop g d x f) s = .next t ∧ t.mem = s.mem ∧ t.cur.status = .access s.nextId ∧
          (t.tagOf cl co n).dirty = 0 ∧ Takes s (if home = cl then 200 else 392) lat ∧
          Due t (s.now + lat / 2) (.accessComplete s.cur.uid (.writeBack d.toNat n (f != 1) line w (lat - lat / 2) none none)) ∧
          ∀ i v p, (i, v, p) ∈ w ↔ i < 16 ∧ e.dirty.getLsbD i = true ∧ v = s.word (flatLocal cl co (0x80000 + 128 * n) + 8 * i) ∧
            p = s.poisoned (flatLocal cl co (0x80000 + 128 * n) + 8 * i))) ∧
    ((∀ b, s.route (s.ra x) 1 = .ok (.loc cl co b) → b < 0x80000) → (∀ k, s.route (s.ra x) 1 ≠ .error k) →
      (∀ f, exec (.tdrop g d x f) s = .next (s.raise 4 (s.ra x))) ∧
      (a.toNat < 2 ^ 56 → exec (.tset g d rs x) s = .next (s.raise 4 (s.ra x))))

/-- R120, R270-R272, R276, R277, R281, R284, R287 with a true guard: without the binding of its engine a command is a bind
fault with the engine's code. cjob and gjob of a descriptor in the own core's local store, aligned, leave rotation and
read it for 8 or 10 d cycles (in throughput mode no less). A matrix command that breaks no rule of R277 is accepted
while the thread has fewer than four unfinished jobs on the engine: one job joins the queue, its sequence number is
one more than the last, its ID is due 4 d + 1 cycles on; a fifth is parked and nothing else happens. jpoll gives the
status of an ID, or for ID 0 whether nothing is parked and every ID has landed; jwait gives the same where it is not 0
and waits where it is. No data byte of memory changes at issue. (From R120, R270, R271, R276, R277, R281, R284, R287,
Table 11.5.) -/
def Obligations.EngineCommandsIssue : Prop :=
  ∀ (g : Guard) (d rs x : BitVec 5) (imm : BitVec 32) (s : State), s.guard g = true →
    let c : BitVec 5 := imm.extractLsb' 27 5
    let cmd (gather : Bool) : Command := .mat gather (s.ra rs) (s.ra (rs + 1)) (s.ra x) (s.ra (x + 1)) (s.ra c) (s.ra (c + 1))
      (if gather then s.ra (imm.extractLsb' 22 5) else 0) imm
    let cmdOf (gather : Bool) : MatCmd := matCmd gather (s.ra rs) (s.ra (rs + 1)) (s.ra x) (s.ra (x + 1)) (s.ra c) (s.ra (c + 1))
      (if gather then s.ra (imm.extractLsb' 22 5) else 0) imm
    (s.cur.bound ≠ 1 → exec (.mjob g d rs x imm) s = .next (s.raise 3 1) ∧ exec (.mjobG g d rs x imm) s = .next (s.raise 3 1)) ∧
    (s.cur.bound ≠ 2 → exec (.cjob g d rs) s = .next (s.raise 3 2)) ∧
    (s.cur.bound ≠ 3 → exec (.gjob g d rs) s = .next (s.raise 3 3)) ∧
    (∀ b, (s.cur.bound = 2 → s.route (s.ra rs) 192 = .ok (.loc s.cur.loc.cluster s.cur.loc.core b) → (s.ra rs).toNat % 64 = 0 →
        ∃ t lat, exec (.cjob g d rs) s = .next t ∧ Left s t ∧ Takes s (if b < 0x80000 then 8 else 10) lat ∧
          Due t (s.now + lat) (.accessComplete s.cur.uid (.desc (.cjob d.toNat) (s.ra rs) s.now))) ∧
      (s.cur.bound = 3 → s.route (s.ra rs) 64 = .ok (.loc s.cur.loc.cluster s.cur.loc.core b) → (s.ra rs).toNat % 64 = 0 →
        ∃ t lat, exec (.gjob g d rs) s = .next t ∧ Left s t ∧ Takes s (if b < 0x80000 then 8 else 10) lat ∧
          Due t (s.now + lat) (.accessComplete s.cur.uid (.desc (.gjob d.toNat) (s.ra rs) s.now)))) ∧
    (∀ gather i, (i, gather) ∈ [(Instr.mjob g d rs x imm, false), (Instr.mjobG g d rs x imm, true)] → s.cur.bound = 1 →
      (∀ k a, s.matFault s.cur.loc.cluster (cmdOf gather) = some (k, a) → exec i s = .next (s.raise k a)) ∧
      (s.matFault s.cur.loc.cluster (cmdOf gather) = none → s.cur.parkedCmd = none →
        let mine := s.p.jobs.filter fun j => j.uid == s.cur.uid && j.eng == 1
        (4 ≤ mine.length → exec i s = .next { s with cur := { s.cur with parkedCmd := some ⟨1, d.toNat, cmd gather, s.fetch.getD 0⟩ } }) ∧
        (mine.length < 4 → ∃ t j, exec i s = .next t ∧ t.p.jobs = s.p.jobs ++ [j] ∧ j.uid = s.cur.uid ∧ j.eng = 1 ∧
          j.cmd = cmd gather ∧ j.key = s.nextId ∧ j.started = false ∧ t.mem = s.mem ∧ t.cur.a = s.cur.a ∧
          j.bundle = s.fetch.getD 0 ∧ j.seq = s.cur.seqs[0] % 0xFFFFFFFF + 1 ∧ t.cur.seqs[0] = s.cur.seqs[0] + 1 ∧
          t.cur.seqs[1] = s.cur.seqs[1] ∧ t.cur.seqs[2] = s.cur.seqs[2] ∧ t.cur.status = s.cur.status ∧
          Due t (s.now + 4 * s.dil + 1) (.jobIdReturn s.cur.uid d.toNat (BitVec.ofNat 64 (1 + 256 * j.seq)))))) ∧
    (∀ id v : Word, id = s.ra rs → v = (if id = 0 then (if s.cur.parkedCmd = none ∧ s.cur.idsDue = 0 then 1 else 0) else s.cur.jobStatus id) →
      exec (.jpoll g d rs) s = .next (s.landA 4 d v) ∧
      (v.toNat % 256 ≠ 0 → exec (.jwait g d rs) s = .next (s.landA 4 d v)) ∧
      (v.toNat % 256 = 0 → exec (.jwait g d rs) s = .next { s with cur := { s.cur with
        status := .waiting (if id = 0 then .ids d.toNat else .job id d.toNat) } }))

/-- R270, R271, R272, R275, R278, R280, R282, R283, R285: an ID lands in its register; a turn of its thread, or a lent
one, of a matrix job before its last one advances its step count; its last turn, where no operand is poisoned, writes
every row of C with the chunked products of its rows of A and B, from zero or from C, and sets its words full; a turn
of a copy of an element that lies at both ends in the cluster's local store copies its words and sets them full; an
element's access that completes lets it be written. When a job completes its thread holds status 1, or its stop code
with the address, the job is gone, and a parked command of its engine is taken. The matrix job's operands are read and
its results written in its last step, a choice of the model (assumption 9). (From R270, R271, R272, R275, R278, R280,
R282, R283.) -/
def Obligations.EngineJobsRun : Prop :=
  (∀ (uid d : Nat) (id : Word) (s : State), let f := s.focusThread uid
    f.cur.uid = uid → uid ≠ 0 → ∃ t, exec (.jobIdReturn uid d id) s = .next t ∧ t.cur.a = (f.cur.setReg d id).a ∧
      t.cur.idsDue = f.cur.idsDue - 1 ∧ t.mem = s.mem ∧ t.p = f.p ∧ t.agenda = s.agenda) ∧
  (∀ (first key : Nat) (j : Job) (s : State) (a0 a1 b0 b1 c0 c1 : Word) (imm : BitVec 32), let f := s.focusPart first
    f.p.first = first → f.job key = some j → j.key = key → j.started = true → j.code = 0 → f.p.ppState = 0 →
    (f.ownTurn j (s.now - 1) = s.now ∨ (f.p.run.det = false ∧ f.lentNow j = true)) →
    j.cmd = .mat false a0 a1 b0 b1 c0 c1 0 imm →
    let m := matCmd false a0 a1 b0 b1 c0 c1 0 imm
    (j.step + 1 < j.steps → ∃ t k, exec (.engineStep first key) s = .next t ∧ t.mem = s.mem ∧ t.attr = s.attr ∧ t.job key = some k ∧
      k.step = j.step + 1 ∧ k.steps = j.steps ∧ k.code = 0) ∧
    (j.step + 1 = j.steps → f.matPoison m j.rowList = none → s.mem.wf = true →
      let row (t r : Nat) : Nat := f.flatOf (m.c.crow t r)
      (∀ t r, t < m.mt * m.nt → r < 32 → row t r % 8 = 0 ∧ row t r + 128 ≤ flatHostBase) →
      (∀ t r t' r', t < m.mt * m.nt → r < 32 → t' < m.mt * m.nt → r' < 32 → (t, r) ≠ (t', r') →
        row t r + 128 ≤ row t' r' ∨ row t' r' + 128 ≤ row t r) →
      ∃ u, exec (.engineStep first key) s = .next u ∧
        (∀ t r n, t < m.mt * m.nt → r < 32 → n < 32 → u.mem.readN (row t r + 4 * n) 4 =
          f.product m [m.a.row (32 * (t / m.nt) + r)] (m.b.row (32 * (t % m.nt) + n))
            (if m.z then 0 else s.mem.readN (row t r + 4 * n) 4) % 2 ^ 32) ∧
        (∀ b, (∀ t r, t < m.mt * m.nt → r < 32 → b < row t r ∨ row t r + 128 ≤ b) → u.mem.read b = s.mem.read b))) ∧
  (∀ (first key : Nat) (j : Job) (s : State) (l : List Word) (at_ : Word), let f := s.focusPart first
    f.p.first = first → f.job key = some j → j.key = key → j.started = true → j.code = 0 → f.p.ppState = 0 → j.cmd = .copy l at_ →
    (f.ownTurn j (s.now - 1) = s.now ∨ (f.p.run.det = false ∧ f.lentNow j = true)) →
    j.steps = 16 + copyCount l →
    (j.step < 16 → ∃ t k, exec (.engineStep first key) s = .next t ∧ t.mem = s.mem ∧ t.job key = some k ∧ k.step = j.step + 1) ∧
    (16 ≤ j.step → j.step < j.steps → j.flights = [] → s.mem.wf = true → s.attr.wf = true →
      let k := j.step - 16
      let n := copySize l
      ∀ co co' b b', f.route (copySrc l k) n = .ok (.loc j.cluster co b) → f.route (copyDst l k) n = .ok (.loc j.cluster co' b') →
        let src := flatLocal j.cluster co b
        let dst := flatLocal j.cluster co' b'
        dst % 8 = 0 → src % 8 = 0 → b' + n ≤ 0x280000 → b + n ≤ 0x280000 → (src + n ≤ dst ∨ dst + n ≤ src) →
        (∀ i, i < n / 8 → Clean s (src + 8 * i) ∧ Clean s (dst + 8 * i)) →
        ∃ t q, exec (.engineStep first key) s = .next t ∧ OnlyBytes s t dst n ∧
          (∀ i, i < n / 8 → t.word (dst + 8 * i) = s.word (src + 8 * i) ∧ t.isFull (dst + 8 * i) = true) ∧
          t.job key = some q ∧ q.step = j.step + 1 ∧ q.flights = [])) ∧
  (∀ (first key : Nat) (j : Job) (s : State), let f := s.focusPart first
    f.p.first = first → f.job key = some j → j.key = key → (∀ a b c, j.cmd ≠ .stage a b c) →
    f.p.jobs.Pairwise (fun x y => x.key ≠ y.key) → f.cur.uid = j.uid → j.uid ≠ 0 → f.p.ppState = 0 →
    (∀ p ∈ f.cur.jobs, p.eng = j.eng → p.seq = j.seq → p.code = 0) →
    ∃ t, exec (.jobComplete first key) s = .next t ∧ t.job key = none ∧ t.mem = s.mem ∧ t.attr = s.attr ∧ t.cur.a = f.cur.a ∧
      (∀ k y, f.job k = some y → k ≠ key → t.job k = some y) ∧ Due t s.now (.parkedCommandAccepted j.uid j.eng) ∧
      ∀ p ∈ t.cur.jobs, p.eng = j.eng → p.seq = j.seq → p.code = (if j.code = 0 then 1 else j.code) ∧ p.addr = j.addr) ∧
  (∀ (uid eng : Nat) (q : Parked) (s : State), let f := s.focusThread uid
    f.cur.uid = uid → uid ≠ 0 → f.cur.parkedCmd = some q → q.eng = eng → f.cur.nextCmd = none →
    f.p.ppState = 0 → f.p.run.ending = false →
    let mine := f.p.jobs.filter fun j => j.uid == uid && j.eng == eng
    (mine.length < 4 → ∃ t j, exec (.parkedCommandAccepted uid eng) s = .next t ∧ t.cur.parkedCmd = none ∧
      t.p.jobs = f.p.jobs ++ [j] ∧ j.eng = eng ∧ j.uid = uid ∧ j.cmd = q.cmd ∧ j.bundle = q.bundle ∧ t.mem = s.mem ∧ t.cur.a = f.cur.a) ∧
    (4 ≤ mine.length → exec (.parkedCommandAccepted uid eng) s = .next f))

/-- R120, R360-R362, R381 with a true guard: without the binding pkt.open, pkt.add, pkt.end and match.tag are bind faults
with 4, post with 5. pkt.open of a destination that exists, with none open and the last one gone, opens an empty
packet; a field that is wrong is an address fault; a second open a bind fault. pkt.add and pkt.end append the words of
their form, up to 32; pkt.end of a packet with words closes it and, with nothing of earlier bundles outstanding, it
arrives 12 d or 196 d cycles later in its cluster, or leaves for its package; with something outstanding it waits for
that; adding without an open packet or past 32 words is a bind fault. match.tag reads its descriptor; post to a board
leaves rotation and arrives after half of 392 d (in throughput mode each takes no less). No register and no byte of
memory changes. (From R120, R360, R361, R362, R381, Table 15.5.) -/
def Obligations.PacketsAndPosts : Prop :=
  ∀ (g : Guard) (d rs x : BitVec 5) (f : BitVec 2) (imm : BitVec 32) (s : State), s.guard g = true →
    let a := s.ra rs
    (s.cur.bound ≠ 4 → ∀ i ∈ [Instr.pktOpen g rs imm, .pktAdd g rs x f, .pktEnd g rs x f, .matchTag g d rs], exec i s = .next (s.raise 3 4)) ∧
    (s.cur.bound ≠ 5 → exec (.post g d rs x imm) s = .next (s.raise 3 5)) ∧
    (s.cur.bound = 4 → s.cur.openPkt.isSome = true → exec (.pktOpen g rs imm) s = .next (s.raise 3 4)) ∧
    (s.cur.bound = 4 → s.cur.openPkt = none →
      let ok := a.toNat < 2 ^ 32 ∧ a.toNat / 64 % 4 = 0 ∧ a.toNat % 64 < 48 ∧
        (a.toNat / 256 % 256 = s.ownPkg ∨ a.toNat / 256 % 256 < s.extent)
      (¬ ok → exec (.pktOpen g rs imm) s = .next (s.raise 4 a)) ∧
      (ok → s.cur.unsent = none → s.cur.pktLeaves ≤ s.now → exec (.pktOpen g rs imm) s =
        .next { s with cur := { s.cur with openPkt := some ⟨a, imm.setWidth 16, []⟩ } }) ∧
      (ok → ¬ (s.cur.unsent = none ∧ s.cur.pktLeaves ≤ s.now) → exec (.pktOpen g rs imm) s =
        .next { s with cur := { s.cur with status := .waiting (.packetLeft a (imm.setWidth 16)) } }) ∧
      exec (.pktAdd g rs x f) s = .next (s.raise 3 4) ∧ exec (.pktEnd g rs x f) s = .next (s.raise 3 4)) ∧
    (∀ p : OpenPkt, s.cur.bound = 4 → s.cur.openPkt = some p →
      let l := p.words ++ (if f = 0 then [s.ra rs] else if f = 1 then [s.ra rs, s.ra x] else [])
      (32 < l.length → exec (.pktAdd g rs x f) s = .next (s.raise 3 4) ∧ exec (.pktEnd g rs x f) s = .next (s.raise 3 4)) ∧
      (l.length ≤ 32 → exec (.pktAdd g rs x f) s = .next { s with cur := { s.cur with openPkt := some { p with words := l } } }) ∧
      (l ≠ [] → l.length ≤ 32 →
        let cl := p.dest.toNat % 64
        let pkg := p.dest.toNat / 256 % 256
        let out (phase : PktPhase) : Packet := ⟨phase, s.p.first, pkg, cl, p.tag, p.dest.toNat / 2 ^ 16 % 2 ^ 16, l, s.cur.loc.key⟩
        ∃ t, exec (.pktEnd g rs x f) s = .next t ∧ t.cur.openPkt = none ∧ t.mem = s.mem ∧ t.cur.a = s.cur.a ∧
          (s.cur.relaxed = [] → s.cur.pushed = true → t.cur.pktLeaves = s.now ∧
            (pkg = s.ownPkg → ∃ lat, Takes s (if cl = s.cur.loc.cluster then 12 else 196) lat ∧
              Due t (s.now + lat) (.packetArrives (out .arrive))) ∧
            (pkg ≠ s.ownPkg → t.out = .packet (s.peerAddr pkg) (out (.fromPeer (s.sendStamp 0))) :: s.out)) ∧
          ((s.cur.relaxed ≠ [] ∨ s.cur.pushed = false) → t.cur.unsent = some (out .arrive, s.nextId, s.cur.pushes.length) ∧
            t.agenda = s.agenda ∧ t.out = s.out))) ∧
    (∀ b, s.cur.bound = 4 → s.route a 32 = .ok (.loc s.cur.loc.cluster s.cur.loc.core b) →
      (a.toNat % 32 = 0 → ∃ t lat, exec (.matchTag g d rs) s = .next t ∧ Left s t ∧ Takes s (if b < 0x80000 then 8 else 10) lat ∧
        Due t (s.now + lat) (.accessComplete s.cur.uid (.desc (.matchTag d.toNat) a s.now))) ∧
      (a.toNat % 32 ≠ 0 → exec (.matchTag g d rs) s = .next (s.raise 4 a))) ∧
    (∀ tile slot, s.cur.bound = 5 → s.route a 8 = .ok (.board tile slot) →
      ∃ t lat, exec (.post g d rs x imm) s = .next t ∧ Left s t ∧ Takes s 392 lat ∧
        Due t (s.now + lat / 2) (.postPerforms s.cur.uid tile slot (d.toNat + 32 * (imm.toNat % 16)) (s.ra x) a s.now)) ∧
    (∀ target, s.cur.bound = 5 → s.route a 8 = .ok target → (∀ tile slot, target ≠ .board tile slot) →
      exec (.post g d rs x imm) s = .next (s.raise 4 a))

/-- R73, R75, R355, R363, R381, R402, Table 16.5: a packet is matched by tag; unmatched it is held while the buffer has
room, else dropped with a count, as it is where every context there is fenced. A matched word goes to its place in the
entry's buffer, full; the word that completes the entry frees it and fires it, which fills the flag word with the
count. A post to an open slot within its window makes it posted with the value and outcome 0, to one already posted
outcome 2, to an idle one is refused; it comes back after as long as it took. An enqueue joins a queue that has fewer
than 64 entries and waits in order otherwise; the oldest waiting one is taken when there is room; a head with no
footprint takes the first free context and starts 12 d cycles later with its pc and a0. (From R73, R74, R75, R355,
R362, R363, R381, R402, Table 16.5.) -/
def Obligations.PacketsPostsAndTasksArrive : Prop :=
  (∀ (p : Packet) (s : State), let f := s.focusPart p.first
    f.p.first = p.first → p.dest < 48 → p.phase = .arrive →
    let m := (f.cluster p.dest).mtab
    let dropped (t : State) : Prop := t.mem = s.mem ∧ (t.cluster p.dest).mtab = m ∧ (t.cluster p.dest).notice.getLsbD 8 = true ∧
      t.p.counters[14] = f.p.counters[14] + 1
    (f.allFenced p.dest = true → ∃ t, exec (.packetArrives p) s = .next t ∧ dropped t) ∧
    (f.allFenced p.dest = false → (∀ e ∈ m.entries, e.2.tag ≠ p.tag) →
      (m.held.length < 16 * f.p.units → ∃ t, exec (.packetArrives p) s = .next t ∧ t.mem = s.mem ∧
        (t.cluster p.dest).mtab = { m with held := m.held ++ [p] }) ∧
      (16 * f.p.units ≤ m.held.length → ∃ t, exec (.packetArrives p) s = .next t ∧ dropped t)) ∧
    (∀ (pre post : Tab MatchEntry) (n : Nat) (e : MatchEntry) (w : Word) (rest : List Word) (flat : Nat),
      f.allFenced p.dest = false → m.entries = pre ++ (n, e) :: post → (∀ x ∈ pre, x.1 ≠ n ∧ x.2.tag ≠ p.tag) → e.tag = p.tag → p.words = w :: rest →
      p.off < e.nword → f.clusterWord p.dest (e.buf + BitVec.ofNat 64 (8 * p.off)) = .ok flat → flat % 8 = 0 → flat + 8 ≤ flatHostBase →
      s.mem.wf = true → s.attr.wf = true → m.entries.Pairwise (fun x y => x.1 < y.1) →
      ∃ t, exec (.packetArrives p) s = .next t ∧ OnlyBytes s t flat 8 ∧ t.word flat = w ∧ t.isFull flat = true ∧
        (e.got + 1 = e.nword → (t.cluster p.dest).mtab.entries = pre ++ post ∧ Due t (s.now + f.p.run.d)
          (.packetArrives { p with phase := .fire e.act e.target e.nword, words := [] })) ∧
        (e.got + 1 ≠ e.nword → (t.cluster p.dest).mtab.entries = pre ++ (n, { e with got := e.got + 1 }) :: post) ∧
        (rest ≠ [] → Due t (s.now + f.p.run.d) (.packetArrives { p with phase := .deliver n, off := p.off + 1, words := rest })))) ∧
  (∀ (p : Packet) (s : State) (target : Word) (n flat : Nat), let f := s.focusPart p.first
    f.p.first = p.first → p.dest < 48 → p.phase = .fire false target n → f.clusterWord p.dest target = .ok flat → flat % 8 = 0 →
    flat + 8 ≤ flatHostBase → s.mem.wf = true → s.attr.wf = true →
    ∃ t, exec (.packetArrives p) s = .next t ∧ OnlyBytes s t flat 8 ∧ t.word flat = BitVec.ofNat 64 n ∧ t.isFull flat = true) ∧
  (∀ (uid tile slot d born : Nat) (v addr : Word) (s : State), let f := s.focusThread uid
    f.cur.uid = uid → uid ≠ 0 → (∃ k, f.cur.status = .access k) → f.cur.relaxed = [] → f.cur.pushed = true → f.cur.waitTo ≤ f.now →
    f.cur.asked = [] → ∀ (t0 : Nat) (y : Tile) (hs : slot < 16), f.p.tileOf tile = some t0 → f.p.tiles[t0]? = some y →
    let back (t : State) (r : Option Nat) : Prop := t.mem = s.mem ∧
      Due t (s.now + (s.now - born)) (.accessComplete uid (.posted (d % 32) addr r s.now))
    (y.board[slot].state = .idle → ∃ t, exec (.postPerforms uid tile slot d v addr born) s = .next t ∧ back t none ∧ t.p = f.p) ∧
    (y.board[slot].state = .posted → ∃ t, exec (.postPerforms uid tile slot d v addr born) s = .next t ∧ back t (some 2) ∧ t.p = f.p) ∧
    (y.board[slot].state = .opened → y.slotOpen slot f.plan = true →
      ∃ t z, exec (.postPerforms uid tile slot d v addr born) s = .next t ∧ back t (some 0) ∧ t.p.tiles[t0]? = some z ∧
        z.board[slot] = { y.board[slot] with state := .posted, pending := v } ∧
        ∀ (i : Nat) (h : i < 16), i ≠ slot → z.board[i] = y.board[i])) ∧
  (∀ (uid d : Nat) (addr : Word) (r : Nat) (born : Nat) (s : State), let f := s.focusThread uid
    f.cur.uid = uid → uid ≠ 0 → (∃ k, f.cur.status = .access k) → s.goto = none → f.cur.heldV = [] →
    (∃ t, exec (.accessComplete uid (.posted d addr (some r) born)) s = .next t ∧ Retired f t ∧
      t.cur.a = (f.cur.setReg d (BitVec.ofNat 64 r)).a ∧ t.mem = s.mem) ∧
    (∃ t q, exec (.accessComplete uid (.posted d addr none born)) s = .next t ∧ t.cur.status = .trapping ∧ t.cur.raised = some q ∧
      q.kind = 6 ∧ q.info = addr ∧ t.cur.a = f.cur.a ∧ t.mem = s.mem)) ∧
  (∀ (e : Enq) (s : State), let f := s.focusPart e.first
    f.p.first = e.first → f.p.run.active = true → e.cluster < 48 →
    let q := (f.cluster e.cluster).queue
    (q.items.length < 64 → q.waiting = [] → e.src = .table → ∃ t, exec (.enqueueReachesQueue e) s = .next t ∧ t.mem = s.mem ∧
      (t.cluster e.cluster).queue = { q with items := q.items ++ [e.desc] }) ∧
    (∀ u, e.src = .thread u → q.items.length < 64 → q.waiting = [] → f.cur.uid = u → u ≠ 0 → f.cur.part = e.first →
      f.cur.status = .waiting .enqueue → ∃ t, exec (.enqueueReachesQueue e) s = .next t ∧ t.mem = s.mem ∧ t.cur.status = .ready ∧
      (t.cluster e.cluster).queue = { q with items := q.items ++ [e.desc] }) ∧
    ((64 ≤ q.items.length ∨ q.waiting ≠ []) → ∃ t, exec (.enqueueReachesQueue e) s = .next t ∧ t.mem = s.mem ∧
      (t.cluster e.cluster).queue = { q with waiting := q.waiting ++ [(e.desc, (match e.src with | .thread u => some u | .table => none))] })) ∧
  (∀ (first cluster : Nat) (s : State), let f := s.focusPart first
    f.p.first = first →
    let q := (f.cluster cluster).queue
    (∀ d r, q.waiting = (d, none) :: r → q.items.length < 64 → ∃ t, exec (.enqueueAccepted first cluster) s = .next t ∧ t.mem = s.mem ∧
      (t.cluster cluster).queue = { q with items := q.items ++ [d], waiting := r }) ∧
    (∀ d l at_ more, f.p.run.active = true → f.p.run.ending = false → f.p.ppState = 0 →
      q.head = .wait → q.items = d :: l → f.taskOk d = true → nfoot d = 0 → f.freeContexts cluster = at_ :: more →
      ∃ t lat, exec (.taskDispatch first cluster) s = .next t ∧ t.mem = s.mem ∧ (t.cluster at_.cluster).queue.head = .placed at_ [] ∧
        Takes f 12 lat ∧ Due t (s.now + lat) (.taskStaged first at_.cluster)) ∧
    (∀ d l at_ pins, q.head = .placed at_ pins → q.items = d :: l → at_.cluster = cluster →
      ∃ t x, exec (.taskStaged first cluster) s = .next t ∧ t.mem = s.mem ∧ x ∈ t.threads ∧ x.uid = s.nextUid ∧ x.loc = at_ ∧
        x.pc = BitVec.ofNat 64 (d.w0.toNat % 2 ^ 32) ∧ x.a[0] = d.w1 ∧ x.pw.getLsbD 16 = d.w0.getLsbD 32 ∧ x.status = .ready ∧
        (t.cluster cluster).queue.items = l ∧ (t.cluster cluster).queue.head = .wait))

/-- R84, R93, R379, R385, R387, Table 16.6: outside a proctor context each is an illegal instruction whatever its guard.
In one, pbell rings overlay 0 of a launch that waits for its first bell, or the preloaded overlay at a swap, at its
target or lead ticks on; a target less than 16 ticks on, or any other bell, is a deadline fault. pload gives 1 while a
preload is under way, else starts one and gives 0; phold 1 puts a management reason in force, 2 takes it away,
anything else does nothing; pdrift keeps the trim of its die, takes the bits above 12 as an address fault and gives a
phase of largest magnitude among its four ports. No memory byte changes. (From R84, R93, R379, R385, R387, Table
16.6.) -/
def Obligations.ProctorInstructions : Prop :=
  ∀ (g : Guard) (d rs x : BitVec 5) (s : State),
    (s.cur.proctor = false → ∀ i ∈ [Instr.pbell g rs x, .pload g d rs, .phold g rs x, .pdrift g d rs], exec i s = .next (s.raise 2 s.cur.pc)) ∧
    (s.cur.proctor = true → s.guard g = true →
      let k := (s.ra rs).toNat % 256
      let run := s.p.run
      (run.active = true → run.ending = false → (s.ra x).toNat ≠ 0 → (s.ra x).toNat < s.tick + 16 →
        ∃ t e, exec (.pbell g rs x) s = .next t ∧ t.p.run.faults = run.faults ++ [e] ∧ e.kind = 17 ∧ t.mem = s.mem) ∧
      (run.active = true → run.ending = false → run.chain = .swapping → run.preloaded = some k → s.tick + 16 ≤ (s.ra x).toNat →
        ∃ t, exec (.pbell g rs x) s = .next t ∧ t.p.run.bellAt = some (s.ra x).toNat ∧ t.p.run.chainNext = k ∧ t.mem = s.mem ∧
          Due t (s.cycleOfTick (s.ra x).toNat) (.overlaySwapBell s.p.first)) ∧
      (run.active = true → run.chain = .none → k = 0 → s.tick + 16 ≤ (s.ra x).toNat →
        exec (.pbell g rs x) s = .next (s.startRun (s.ra x).toNat)) ∧
      (run.preload.isSome = true → exec (.pload g d rs) s = .next (s.landA 4 d 1)) ∧
      (run.preload = none → run.active = true → exec (.pload g d rs) s = .next ((s.startPreload k).landA 4 d 0) ∧
        (s.startPreload k).p.run.preload = some k ∧ (s.startPreload k).mem = s.mem) ∧
      (∀ r, r = (s.ra x).toNat % 256 →
        (s.ra rs = 1 → ∃ t, exec (.phold g rs x) s = .next t ∧ r ∈ t.p.holds ∧ t.mem = s.mem) ∧
        (s.ra rs = 2 → ∃ t, exec (.phold g rs x) s = .next t ∧ r ∉ t.p.holds ∧ t.mem = s.mem) ∧
        (s.ra rs ≠ 1 → s.ra rs ≠ 2 → exec (.phold g rs x) s = .next s)) ∧
      (2 ^ 13 ≤ (s.ra rs).toNat → exec (.pdrift g d rs) s = .next (s.raise 4 (s.ra rs))) ∧
      ((s.ra rs).toNat < 2 ^ 13 → ∀ h : s.cur.loc.cluster - 48 < 4, ∃ (u : State) (i : Nat) (hi : i < 4), u.mem = s.mem ∧ u.cur = s.cur ∧
        u.mgmt.trimmed = s.mgmt.trimmed.set (s.cur.loc.cluster - 48) ((s.ra rs).setWidth 13) ∧
        exec (.pdrift g d rs) s = .next (u.landA 4 d (BitVec.ofInt 64 (s.links[4 * (s.cur.loc.cluster - 48) + i]'(by omega)).phase)) ∧
        ∀ (j : Nat) (hj : j < 4), (s.links[4 * (s.cur.loc.cluster - 48) + j]'(by omega)).phase.natAbs ≤
          (s.links[4 * (s.cur.loc.cluster - 48) + i]'(by omega)).phase.natAbs))

/-- R42, R43, R49, R323, R344, R418: a whole-word write to an empty launch slot of an enabled function fills it and, where
the proctor is at it, its action comes 60 ticks later; to a full slot it only sets overrun, which a write clears. BAR
0 takes whole aligned words: a request word, W1C err, the doorbell of an idle mailbox. An entry of a bad lg or
alignment only sets err; one apart from every other defines a partition at rest; clearing valid starts the release,
which empties the partition and its stores, keeps HBM, and ends within 12 000 ticks. BAR 2 reads and writes whole
words of memory, in a position of the word's channel, for which an access waits, as it does behind a write received
before it: a write is full and clears poison, a read of poison gives all ones. The consumer index frees room of the
fault ring for a record that waits. (From R42, R43, R49, R250, R323, R344, R418, R425, Table 2.6.) -/
def Obligations.HostRegistersAndTables : Prop :=
  (∀ (vf slot size : Nat) (v : Word) (s : State) (hs : slot < 8), let f := s.focusPart vf
    f.p.first = vf → vf ≠ 64 → s.mgmt.ready = true → (∀ h : f.p.entry < 64, s.table[f.p.entry].w0.getLsbD 16 = true) → f.p.entry < 64 →
    (size ≠ 8 → exec (.launchSlotWrite vf slot size v) s = .next f) ∧
    (f.p.slots[slot].isSome → exec (.launchSlotWrite vf slot 8 v) s = .next { f with p := { f.p with overrun := true } }) ∧
    (f.p.slots[slot] = none → ∃ t, exec (.launchSlotWrite vf slot 8 v) s = .next t ∧ t.p.slots = f.p.slots.set slot (some (s.tick + 36, v)) ∧
      t.p.status = f.p.status ∧ t.p.overrun = f.p.overrun ∧ t.mem = s.mem ∧
      (slot = f.p.ring → f.p.acting = none → f.p.run.active = false → t.p.acting = some (slot, v, false) ∧
        Due t (s.cycleOfTick (s.tick + 60)) (if (v.toNat % 16 = 1 ∨ v.toNat % 16 = 2 ∨ v.toNat % 16 = 3) ∧ v.toNat / 2 ^ 4 % 2 ^ 4 = 0 ∧
          v.getLsbD 11 = false ∧ v.getLsbD 63 = false then
          (if v.toNat % 16 = 1 then .admitRecord vf else if v.toNat % 16 = 2 then .launch vf else .drop vf) else .invalidLaunchWord vf)))) ∧
  (∀ (vf : Nat) (s : State), let f := s.focusPart vf
    f.p.first = vf → exec (.clearOverrun vf) s = .next { f with p := { f.p with overrun := false } }) ∧
  (∀ (fn : HostFn) (off size : Nat) (v : Word) (s : State),
    (size ≠ 8 ∨ off % 8 ≠ 0 → exec (.registerWrite fn off size v) s = .next s) ∧
    (∀ n, exec (.registerWrite (.vf n) off size v) s = .next s) ∧
    (∀ (n : Nat) (h : n < 16), exec (.registerWrite .pf0 (0x80000 + 8 * n) 8 v) s = .next { s with mboxReq := s.mboxReq.set n v }) ∧
    (∀ (e : Nat) (h : e < 64), v.getLsbD 2 = true →
      exec (.registerWrite .pf0 (16 * e + 8) 8 v) s = .next { s with table := s.table.set e { s.table[e] with err := false } }) ∧
    (v.getLsbD 0 = true → s.mgmt.mailbox.toNat % 4 ≠ 1 → exec (.registerWrite .pf0 0x80200 8 v) s = .next s) ∧
    (v.getLsbD 0 = true → s.mgmt.mailbox.toNat % 4 = 1 → ∃ t, exec (.registerWrite .pf0 0x80200 8 v) s = .next t ∧
      t.mgmt.mailbox.toNat % 4 = 2 ∧ t.mem = s.mem ∧ t.p = s.p ∧ t.parts = s.parts ∧ t.mboxReq = s.mboxReq ∧
      ∀ c, c = s.mboxReq[0].toNat % 256 → (c = 0 ∨ 15 ≤ c) → Due t (s.now + 1) (.unknownMailboxCommand c))) ∧
  (∀ (e : Nat) (w : Word) (s : State) (h : e < 64),
    let lg := w.toNat / 2 % 8
    let u := w.toNat / 16 % 64
    (lg = 7 ∨ u % 2 ^ (6 - lg) ≠ 0 → exec (.partitionEntryWrite e w) s = .next { s with table := s.table.set e { s.table[e] with err := true } }) ∧
    (lg ≠ 7 → u % 2 ^ (6 - lg) = 0 →
      (∀ (k : Nat) (hk : k < 64), k ≠ e → s.table[k].w0.getLsbD 0 = true →
        Apart u lg (s.table[k].w0.toNat / 16 % 64) (s.table[k].w0.toNat / 2 % 8)) →
      (∀ (k : Nat) (hk : k < 64) (g m : Nat), s.table[k].releasing = some (g, m) → Apart u lg g m) →
      (w.getLsbD 0 = true → s.partOfEntry e = none → ∃ t, exec (.partitionEntryWrite e w) s = .next t ∧ t.mem = s.mem ∧
        t.table = s.table.set e { s.table[e] with w0 := w &&& 0x103FF } ∧
        t.p = { Part.rest u lg e with holds := s.mgmt.reasons }) ∧
      (∀ p, w.getLsbD 0 = false → s.partOfEntry e = some p → p.run.active = false → ∃ t, exec (.partitionEntryWrite e w) s = .next t ∧ t.mem = s.mem ∧
        t.table = s.table.set e { s.table[e] with w0 := w &&& 0x103FF, releasing := some (p.first, p.lg) } ∧ Due t s.now (.partitionRelease e))) ∧
    (∀ p, s.partOfEntry e = some p → (s.focusPart p.first).p = p → p.run.active = false → s.mem.wf = true →
      ∃ t c, exec (.partitionRelease e) s = .next t ∧ t.p.first = 64 ∧ t.p.records = Vector.replicate 8 none ∧
        t.table = s.table.set e { s.table[e] with releasing := some (p.first, p.lg) } ∧
        (∀ a, a < 2 ^ 40 → t.mem.read a = s.mem.read a) ∧
        (∀ cl co b, cl < 48 → co < 8 → b < 0x280000 → p.owns (shareUnit co b) = true → t.mem.read (flatLocal cl co b) = 0) ∧
        c ≤ s.cycleOfTick (s.tick + 12000) ∧ Due t c (.releaseComplete e)) ∧
    exec (.releaseComplete e) s = .next { s with table := s.table.set e { s.table[e] with releasing := none } }) ∧
  (∀ (fn : HostFn) (off flat : Nat) (v : Word) (s : State), s.mgmt.ready = true → off % 8 = 0 → s.mem.wf = true → s.attr.wf = true →
    (∀ fn off size v, Instr.hostBar2Write fn off size v ∉ s.hostQueue) →
    (fn = .pf0 ∧ flat = off ∧ off / 2 ^ 34 < 48 ∧ off % 2 ^ 34 < 0x300000000 ∧ (s.focusOwner off).p.image = none) ∨
      (∃ n, fn = .vf n ∧ n ≠ 64 ∧ (s.focusPart n).p.first = n ∧ off < 2 ^ 46 ∧ (s.focusPart n).p.translate off 0 true = .ok flat) →
    let u := (s.bar2 fn off true).1
    (hostServed u flat →
      (∃ t, exec (.hostBar2Write fn off 8 v) s = .next t ∧ OnlyBytes s t flat 8 ∧ t.word flat = v ∧ t.poisoned flat = false ∧ t.isFull flat = true) ∧
      (∃ t, exec (.hostBar2Read fn off 8) s = .next t ∧ t.mem = s.mem ∧
        t.out = .hostRead (if s.poisoned flat then BitVec.allOnes 64 else s.word flat) (s.poisoned flat) :: s.out)) ∧
    (¬ hostServed u flat → ∀ i ∈ [Instr.hostBar2Write fn off 8 v, .hostBar2Read fn off 8],
      ∃ t c r, exec i s = .next t ∧ t.mem = s.mem ∧ t.attr = s.attr ∧ t.out = s.out ∧ t.hostQueue = s.hostQueue ++ [i] ∧ s.now < c ∧
        (⟨c, r, .host⟩ : Item) ∈ t.agenda)) ∧
  (∀ (i : Instr) (s : State), s.mgmt.ready = true → (∃ fn off size v, i = .hostBar2Write fn off size v ∨ i = .hostBar2Read fn off size) →
    (∃ fn off size v, Instr.hostBar2Write fn off size v ∈ s.hostQueue) → exec i s = .next { s with hostQueue := s.hostQueue ++ [i] }) ∧
  (∀ (v : Word) (s : State), let c : BitVec 32 := v.setWidth 32
    (4096 < (s.ringProd - c).toNat → exec (.faultRingConsumerWrite v) s = .next s) ∧
    ((s.ringProd - c).toNat ≤ 4096 → s.ringWait = [] → exec (.faultRingConsumerWrite v) s = .next { s with ringCons := c }) ∧
    (∀ w, (s.ringProd - c).toNat < 4096 → s.ringWait = [w] → ∃ t, exec (.faultRingConsumerWrite v) s = .next t ∧ t.ringCons = c ∧
      t.ringProd = s.ringProd + 1 ∧ t.ringWait = [] ∧ Tab.find (s.ringProd.toNat % 4096) t.ring = some w ∧ t.mem = s.mem ∧
      t.out = if s.ringProd = c then .msix 64 1 :: s.out else s.out))

/-- R72, R255, R258, R261, R309, R311, R312, R327, R369-R371, R388, R422, R425, once bring-up is over: a homing entry, a
translation entry (whose set has room and whose key is new), a key's invalidation, a host window, mc.maint, a link-
table entry, the group word, a peer address are written with the mask of their table where their rules allow it, and
are refused with nothing changed where not; the hotness counts and the oldest-first error log are read (the counts
cleared); a soft repair joins its channel's list unless the bank's spare is taken, which is logged as kind 5; an image
is staged only if signed and not rolled back, and its commit raises the counter; forming sets up, clears the counters,
sets formed and a TICK no smaller than any member's, and with a hold lead too short leaves formed clear; the identity
statement gives the ordering code (its layout is the model's, assumption 16); dissolving clears formed; an unknown
code gives 2. Each leaves memory unchanged and its outcome in the status word. (From R72, R258, R261, R311, R312,
R327, R369, R370, R371, R388, R422, R425.) -/
def Obligations.MailboxCommands : Prop :=
  ∀ s : State, s.mgmt.ready = true →
  (∀ (first : Nat), let f := s.focusPart first
    f.p.first = first → first ≠ 64 →
    (∀ (n : Nat) (v : Word) (h : n < 64), let u : Word := v &&& 0xFFFFFFFFFFFF3F1F
      (f.p.run.active = true → Commanded (.homingEntry first n v) s 1 [] fun t => t.p = f.p) ∧
      (f.p.run.active = false → (u.getLsbD 1 = true → ∃ c, c < 48 ∧ u.getLsbD (16 + c / 12) = true ∧ u.getLsbD (20 + c % 12) = true) →
        (u.getLsbD 1 = false → u.toNat / 2 ^ 8 % 2 ^ 6 ≤ 47) → (u.getLsbD 0 = true → u.toNat / 2 ^ 48 ≠ 0) →
        Commanded (.homingEntry first n v) s 0 [] fun t => t.p.homing = f.p.homing.set n u ∧
          (u ≠ f.p.homing[n] → ∀ c, ∀ e ∈ (t.cluster c).store, e.w0.toNat / 2 ^ 34 % 2 ^ 6 = n → e.w0.getLsbD 53 = false))) ∧
    (∀ (cl : Nat) (w0 w1 : Word), cl < 48 → let l := (f.cluster cl).store
      let key (e : TransEntry) : Bool := e.w0.getLsbD 53 && e.w0.extractLsb' 0 40 == w0.extractLsb' 0 40 && e.w0.extractLsb' 40 12 == w0.extractLsb' 40 12
      (w0.getLsbD 53 = false → Commanded (.translationEntry first cl w0 w1) s 0 [] fun t =>
        (t.cluster cl).store.length = l.length ∧ ∀ e ∈ (t.cluster cl).store, key e = false) ∧
      (w0.getLsbD 53 = true → (l.filter fun e => e.w0.getLsbD 53 && transSet f.p.units e.w0 == transSet f.p.units w0).length < 8 →
        (∀ e ∈ l, key e = false) → f.p.frameOk w0 w1 = true → (∀ h : w0.toNat / 2 ^ 34 % 2 ^ 6 < 64, f.p.homing[w0.toNat / 2 ^ 34 % 2 ^ 6].getLsbD 0 = true) →
        Commanded (.translationEntry first cl w0 w1) s 0 [] fun t =>
          (⟨w0 &&& 0x3FFFFFFFFFFFFF, w1 &&& 0x3FFFFF, 0, 0, 0⟩ : TransEntry) ∈ (t.cluster cl).store ∧
          ∀ e ∈ l, e.w0.getLsbD 53 = true → e ∈ (t.cluster cl).store) ∧
      (w0.getLsbD 53 = true → (∃ e ∈ l, key e = true) → Commanded (.translationEntry first cl w0 w1) s 1 [] fun t => t.p = f.p) ∧
      (∀ e, l.find? key = some e → Commanded (.readHotness first cl w0) s 0 [BitVec.ofNat 64 (e.hn.toNat + e.hx.toNat * 2 ^ 16 + e.hy.toNat * 2 ^ 32)]
        fun t => ∀ x ∈ (t.cluster cl).store, key x = true → x.hn = 0 ∧ x.hx = 0 ∧ x.hy = 0) ∧
      (l.find? key = none → Commanded (.readHotness first cl w0) s 1 [] fun t => t.p = f.p)) ∧
    (∀ base len : Word, (base.toNat % 4096 = 0 → len.toNat % 4096 = 0 → Commanded (.hostWindow first base len) s 0 [] fun t =>
        t.p = { f.p with hostBase := base, hostLen := len }) ∧
      (base.toNat % 4096 ≠ 0 ∨ len.toNat % 4096 ≠ 0 → Commanded (.hostWindow first base len) s 1 [] fun t => t.p = f.p))) ∧
  (∀ (ctl : Nat) (h : ctl < 48),
    (∀ v : Word, (s.launchRuns = true ∨ v.toNat / 2 ^ 16 % 2 ^ 12 < 64 → Commanded (.mcMaint ctl v) s 1 [] fun t => t.ctls = s.ctls) ∧
      (s.launchRuns = false → 64 ≤ v.toNat / 2 ^ 16 % 2 ^ 12 → Commanded (.mcMaint ctl v) s 0 [] fun t =>
        t.ctls = s.ctls.set ctl { s.ctls[ctl] with maint := v &&& 0xFFFFFFFFF })) ∧
    (∀ index, (∀ e, s.ctls[ctl].log[index]? = some e → Commanded (.readErrorLog ctl index) s 0
        [e.w0, e.w1, e.w2, e.w3, BitVec.ofNat 64 s.ctls[ctl].overflow, BitVec.ofNat 64 s.ctls[ctl].log.length] fun t => t.ctls = s.ctls) ∧
      (s.ctls[ctl].log.length ≤ index → Commanded (.readErrorLog ctl index) s 1 [] fun t => t.ctls = s.ctls)) ∧
    (∀ ch bank row, ch < 8 → bank < 32 → row < 49152 → let c := s.chan (8 * ctl + ch)
      let taken := (Tab.find bank c.remaps).isSome = true ∨ ∃ r ∈ c.repairs, r.bank = bank
      (¬ taken → Commanded (.requestSoftRepair ctl ch bank row) s 0 [] fun t =>
        (t.chan (8 * ctl + ch)).repairs = c.repairs ++ [⟨bank, row, 0⟩] ∧ t.ctls = s.ctls) ∧
      (taken → Commanded (.requestSoftRepair ctl ch bank row) s 1 [] fun t =>
        t.chans = s.chans ∧ ∃ e, t.ctls[ctl].log.getLast? = some e ∧ e.w0.toNat % 16 = 5))) ∧
  Commanded .readIdentity s 0 ([if s.mgmt.moduleForm then 1 else 0, BitVec.ofNat 64 s.mgmt.rollback] ++
    (List.range 14).map (Config.identityWord s.mgmt.moduleForm s.mgmt.rollback)) (fun t => t.p = s.p ∧ t.parts = s.parts) ∧
  (∀ (n : Nat) (b : Bool),
    (s.mgmt.rollback ≤ n → Commanded (.stageFirmware n true false) s 0 [] fun t => t.mgmt.staged = some n ∧ t.mgmt.rollback = s.mgmt.rollback) ∧
    (b = false ∨ n < s.mgmt.rollback → Commanded (.stageFirmware n b false) s 1 [] fun t => t.mgmt.staged = s.mgmt.staged) ∧
    (∀ m, s.mgmt.staged = some m → Commanded (.stageFirmware n b true) s 0 [] fun t => t.mgmt.rollback = max s.mgmt.rollback m) ∧
    (s.mgmt.staged = none → Commanded (.stageFirmware n b true) s 1 [] fun t => t.mgmt.rollback = s.mgmt.rollback) ∧
    Commanded (.unknownMailboxCommand n) s 2 [] (fun t => t.p = s.p ∧ t.parts = s.parts ∧ t.table = s.table ∧ t.links = s.links)) ∧
  (∀ measured members : List (Nat × Nat),
    (s.launchRuns = true → Commanded (.formGroup measured members) s 1 [] fun t => t.group = s.group ∧ t.tick = s.tick) ∧
    (s.launchRuns = false → (s.holdLead < 32 ∨ ∃ m ∈ members, s.holdLead < 32 + m.2) → Commanded (.formGroup measured members) s 1 []
      fun t => t.group = s.group &&& ~~~0x20000 ∧ t.tick = s.tick) ∧
    (s.launchRuns = false → 32 ≤ s.holdLead → (∀ m ∈ members, 32 + m.2 ≤ s.holdLead) →
      (∀ (n : Nat) (h : n < 16), s.links[n].w0.getLsbD 12 = true → ∃ m, Tab.find n measured = some m ∧
        s.links[n].w0.toNat % 256 < s.group.toNat / 2 ^ 8 % 2 ^ 9 ∧ m + 2 ≤ s.links[n].w0.toNat / 2 ^ 16 % 2 ^ 12) →
      Commanded (.formGroup measured members) s 0 [] fun t => t.group = s.group ||| 0x20000 ∧ t.now = s.now ∧ s.tick ≤ t.tick ∧
        (∀ m ∈ members, m.1 ≤ t.tick) ∧ ∀ (n : Nat) (h : n < 16), t.links[n].w1 = 0 ∧ (s.links[n].w0.getLsbD 12 = true → t.links[n].w0.getLsbD 13 = true))) ∧
  Commanded .dissolveGroup s 0 [] (fun t => t.group = s.group &&& ~~~0x20000) ∧
  (∀ (port : Nat) (w : Word) (h : port < 16),
    (s.group.getLsbD 17 = true ∨ (w.getLsbD 12 = true ∧ w.toNat / 2 ^ 16 % 2 ^ 12 < 64) → Commanded (.linkTableEntry port w) s 1 [] fun t => t.links = s.links) ∧
    (s.group.getLsbD 17 = false → (w.getLsbD 12 = true → 64 ≤ w.toNat / 2 ^ 16 % 2 ^ 12) → Commanded (.linkTableEntry port w) s 0 [] fun t =>
      t.links = s.links.set port { s.links[port] with w0 := (s.links[port].w0 &&& 0xFFFFFFFFF000E000) ||| (w &&& 0x0FFF1FFF) })) ∧
  (∀ w : Word, let x := w.toNat / 2 ^ 8 % 2 ^ 9
    let ok := w.toNat % 256 < x ∧ x ≤ 256 ∧ 32 ≤ w.toNat / 2 ^ 32 % 2 ^ 16 ∧ (if 2 ≤ x then 256 ≤ w.toNat / 2 ^ 48 else w.toNat / 2 ^ 48 = 0)
    (s.launchRuns = false → ok → Commanded (.groupWord w) s 0 [] fun t => t.group = (s.group &&& 0xFFFE0000) ||| (w &&& 0xFFFFFFFF0001FFFF)) ∧
    (s.launchRuns = true ∨ ¬ ok → Commanded (.groupWord w) s 1 [] fun t => t.group = s.group)) ∧
  (∀ (index : Nat) (v : Word), (∀ h : index < 256, Commanded (.peerAddress index v) s 0 [] fun t => t.peers = s.peers.set index v) ∧
    (256 ≤ index → Commanded (.peerAddress index v) s 1 [] fun t => t.peers = s.peers))

/-- R206, R209, R240, R244, R304, R317-R320, R323-R325, R402, R404, R459: a resolve word frees its entry and sends a plain
access again, ends it with an address fault, or sends a roaming thread's packet home, and is only noted while the
partition is pre-empted. A blocked head tries again or is dropped. A packet leaves with the scalars, with vector state
zero, and arrives after 84 or 140 d cycles (in throughput mode no less), unless the interface there is full; it is
translated as it arrives and takes a free context, parks in the store, or, uncorrectable, ends its thread. A late
fault enters its trap, a late miss parks. A push writes its element or joins its port queue. A host load without
completion is fault 7. A chunk pair joins its queue where it fits. A soft error makes a word correctable, then
uncorrectable. (From R206, R209, R240, R304, R317, R318, R323, R324, R325, R402, R404, R459.) -/
def Obligations.ParkedAndMigratingThreads : Prop :=
  (∀ (slot first : Nat) (e : WaitEntry) (a : Acc) (s : State), let f := s.focusPart first
    let u := f.focusThread e.uid
    f.p.first = first → first ≠ 64 → Tab.find slot f.p.waits = some e → e.here = true →
    (f.p.paused = true → (∃ t, exec (.resolveRetry slot first) s = .next t ∧ t = { f with p := { f.p with waits := Tab.put slot { e with act := 1 } f.p.waits } }) ∧
      ∃ t, exec (.resolveFault slot first) s = .next t ∧ t = { f with p := { f.p with waits := Tab.put slot { e with act := 2 } f.p.waits } }) ∧
    (f.p.paused = false → u.cur.uid = e.uid → e.uid ≠ 0 → u.cur.part = first → u.cur.missed = some a → f.p.unlisted = [] →
      f.p.waits.Pairwise (fun x y => x.1 < y.1) → a.rlx = false →
      let freed (t : State) : Prop := Tab.find slot t.p.waits = none ∧ t.mem = s.mem ∧ t.attr = s.attr ∧ t.cur.uid = e.uid ∧ t.cur.a = u.cur.a
      (e.roaming = false → a.op = .load ∨ a.op = .store → ∃ t b, exec (.resolveRetry slot first) s = .next t ∧ freed t ∧ t.cur.status = .access a.id ∧
        t.cur.missed = none ∧ Carries b a.op a.va a.bytes a.sx a.d a.data a.scope a.lat a.id ∧ b.bad = 0 ∧
        Due t (s.now + a.lat / 2) (.accessComplete e.uid (.acc b))) ∧
      (e.roaming = false → ∃ t r, exec (.resolveFault slot first) s = .next t ∧ freed t ∧ t.cur.status = .trapping ∧ t.cur.raised = some r ∧
        r.kind = 4 ∧ r.info = e.va) ∧
      (∀ n h, e.roaming = true → f.p.home (a.va.toNat % 2 ^ 46) = some (n, h) →
        (∃ t lat, exec (.resolveRetry slot first) s = .next t ∧ freed t ∧ t.cur.status = .migrating ∧ t.cur.goal = h ∧ t.cur.missed = some { a with bad := 0 } ∧
          Takes u 140 lat ∧ Due t (s.now + lat) (.migrationArrival e.uid false)) ∧
        (∃ t lat, exec (.resolveFault slot first) s = .next t ∧ freed t ∧ t.cur.status = .migrating ∧ t.cur.goal = h ∧ t.cur.missed = some { a with bad := 4 } ∧
          Takes u 140 lat ∧ Due t (s.now + lat) (.migrationArrival e.uid false))))) ∧
  (∀ (cluster first : Nat) (s : State), let f := s.focusPart first
    f.p.first = first → (f.cluster cluster).queue.head = .blocked →
    (∃ t, exec (.stagingRetry cluster first) s = .next t ∧ t.mem = s.mem ∧ Due t s.now (.taskDispatch first cluster) ∧
      (t.cluster cluster).queue = { (f.cluster cluster).queue with head := .wait }) ∧
    (∃ t, exec (.stagingDiscard cluster first) s = .next t ∧ t.mem = s.mem ∧ Due t s.now (.taskDispatch first cluster) ∧
      (t.cluster cluster).queue = { (f.cluster cluster).queue with items := (f.cluster cluster).queue.items.drop 1, head := .wait })) ∧
  (∀ (uid : Nat) (s : State), let f := s.focusThread uid
    let goal := f.cur.goal
    f.cur.uid = uid → uid ≠ 0 → f.cur.status = .migrating → f.p.first = f.cur.part →
    (f.cur.loc.core ≠ 8 → f.cur.lateMiss = none → f.cur.relaxed = [] → (goal = serviceStore ∨ f.crowded goal = false) →
      ∃ t lat, exec (.migrationSend uid) s = .next t ∧ t.cur.uid = uid ∧ t.cur.loc = ⟨f.cur.loc.cluster, 8, 0⟩ ∧ t.cur.status = .migrating ∧
        t.cur.a = f.cur.a ∧ t.cur.pc = f.cur.pc ∧ t.cur.pw = f.cur.pw ||| 0x20000 ∧ t.cur.v = Vector.replicate 128 0 ∧
        t.cur.vm = Vector.replicate 8 0 ∧ t.cur.jobs = [] ∧ t.p.counters[12] = f.p.counters[12] + 1 ∧ t.mem = s.mem ∧
        Takes f (if goal ≠ serviceStore ∧ goal / 12 = f.cur.loc.cluster / 12 then 84 else 140) lat ∧ Due t (s.now + lat) (.migrationArrival uid false)) ∧
    (f.cur.loc.core ≠ 8 → f.cur.lateMiss = none → (f.cur.relaxed ≠ [] ∨ (goal ≠ serviceStore ∧ f.crowded goal = true)) → ∃ t, exec (.migrationSend uid) s = .next t ∧ t.cur = f.cur ∧ Due t (s.now + 1) (.migrationSend uid)) ∧
    (f.cur.loc.core = 8 → exec (.migrationSend uid) s = .next f) ∧
    (∀ l more a flat, f.cur.loc.core = 8 → goal ≠ serviceStore → (f.cluster goal).arrived = [] → f.freeContexts goal = l :: more → f.cur.missed = some a →
      a.bad = 0 → f.p.translate (a.va.toNat % 2 ^ 46) a.asid.toNat (accWrites a.op) = .ok flat →
      ∃ t, exec (.migrationArrival uid false) s = .next t ∧ t.cur.uid = uid ∧ t.cur.loc = l ∧ t.cur.status = .ready ∧ t.cur.missed = none ∧ t.cur.xlat = some (a.va, flat) ∧
        t.cur.a = f.cur.a ∧ t.cur.pc = f.cur.pc ∧ t.mem = s.mem) ∧
    (∀ n e, f.cur.loc.core = 8 → goal = serviceStore → f.p.waits.find? (fun x => x.2.uid == uid) = some (n, e) →
      ∃ t, exec (.migrationArrival uid false) s = .next t ∧ t.cur.status = .parked n ∧ t.p.counters[13] = f.p.counters[13] + 1 ∧ t.mem = s.mem) ∧
    (f.cur.loc.core = 8 → (∀ e ∈ f.p.waits, e.2.uid ≠ uid) → ∃ t, exec (.migrationArrival uid true) s = .next t ∧ t.cur.uid = 0 ∧
      (∀ x ∈ t.threads, x ∈ f.threads) ∧ t.mem = s.mem ∧ (t.cluster goal).notice.getLsbD 9 = true) ∧
    (∀ n e, f.cur.loc.core = 8 → f.p.waits.find? (fun x => x.2.uid == uid) = some (n, e) → f.p.unlisted = [] →
      f.p.waits.Pairwise (fun x y => x.1 < y.1) → ∃ t, exec (.migrationArrival uid true) s = .next t ∧ t.cur.uid = 0 ∧
      (∀ x ∈ t.threads, x ∈ f.threads) ∧ t.mem = s.mem ∧ Tab.find n t.p.waits = none)) ∧
  (∀ (uid kind : Nat) (info : Word) (s : State), let f := s.focusThread uid
    f.cur.uid = uid → uid ≠ 0 →
    (∀ r, f.cur.late = some r → ∃ t q, exec (.lateFault uid kind info none) s = .next t ∧ t.cur.late = none ∧ t.cur.status = .trapping ∧
      t.cur.raised = some q ∧ q.kind = r.kind ∧ q.info = r.info ∧ q.pc = f.cur.pc ∧ t.cur.a = f.cur.a ∧ t.mem = s.mem) ∧
    (∀ a n, a.rlx = true → f.cur.loc.core ≠ 8 → f.freeEntry = some n → ∃ t, exec (.lateFault uid kind info (some a)) s = .next t ∧
      t.cur.status = .parked n ∧ t.cur.missed = some a ∧ t.cur.a = f.cur.a ∧ t.mem = s.mem ∧
      ∃ e, Tab.find n t.p.waits = some e ∧ e.uid = uid ∧ e.here = true ∧ e.va = BitVec.ofNat 64 (a.va.toNat % 2 ^ 56))) ∧
  (∀ (uid sq pos : Nat) (val mask : Vec) (s : State) (h : sq < 4), let f := s.focusThread uid
    let st := f.cur.streams[sq]
    f.cur.uid = uid → uid ≠ 0 →
    (st.port = false → mask = BitVec.allOnes 512 → s.mem.wf = true → ∃ t, exec (.streamPushLands uid sq pos val mask) s = .next t ∧
      OnlyBytes s t (f.elemFlat st pos) 64 ∧ t.mem.readN (f.elemFlat st pos) 64 = val.toNat ∧ t.cur.pushes = f.cur.pushes.filter (fun y => y.sq != sq || y.pos != pos) ∧ t.cur.v = f.cur.v) ∧
    (st.port = true → let q := st.w0.toNat / 2 ^ 23 % 8
      ∃ t c, exec (.streamPushLands uid sq pos val mask) s = .next t ∧ t.mem = s.mem ∧ t.cur.pushes = f.cur.pushes.filter (fun y => y.sq != sq || y.pos != pos) ∧ c.pois = 0 ∧
      (Tab.getD ⟨[], none, 0⟩ q (t.cluster f.cur.loc.cluster).ports).chunks =
        (Tab.getD ⟨[], none, 0⟩ q (f.cluster f.cur.loc.cluster).ports).chunks ++ [c] ∧
      ∀ i, i < 512 → mask.getLsbD i = true → c.data.getLsbD i = val.getLsbD i)) ∧
  (∀ (uid id cycle r off : Nat) (a : Acc) (pre post : List Item) (s : State), let f := s.focusThread uid
    f.cur.uid = uid → uid ≠ 0 → s.agenda = pre ++ ⟨cycle, r, .ev (.accessComplete uid (.acc a))⟩ :: post →
    (∀ i ∈ pre, ∀ b, i.what = .ev (.accessComplete uid (.acc b)) → b.id ≠ id) → a.id = id → a.op = .load → a.rlx = false →
    f.cur.status = .access id → f.route a.va a.bytes = .ok (.host off) →
    ∃ t q, exec (.hostTimeout uid id) s = .next t ∧ t.cur.status = .trapping ∧ t.cur.raised = some q ∧ q.kind = 7 ∧ q.info = a.va ∧
      t.p.counters[20] = f.p.counters[20] + 1 ∧ t.cur.a = f.cur.a ∧ t.mem = s.mem) ∧
  (∀ (first cluster q key : Nat) (line : Line) (pois : BitVec 16) (j : Job) (s : State), let f := s.focusPart first
    f.p.first = first → f.job key = some j → j.code = 0 → f.p.ppState = 0 → let pq := Tab.getD ⟨[], none, 0⟩ q (f.cluster cluster).ports
    (pq.chunks.length + pq.flight ≤ 14 → ∃ t, exec (.portQueueChunkEnters first cluster q key line pois) s = .next t ∧ t.mem = s.mem ∧
      (Tab.getD ⟨[], none, 0⟩ q (t.cluster cluster).ports).chunks =
        pq.chunks ++ [⟨line.extractLsb' 0 512, pois.extractLsb' 0 8⟩, ⟨line.extractLsb' 512 512, pois.extractLsb' 8 8⟩]) ∧
    (14 < pq.chunks.length + pq.flight → ∃ t, exec (.portQueueChunkEnters first cluster q key line pois) s = .next t ∧ t.p = f.p ∧
      Due t (s.now + 1) (.portQueueChunkEnters first cluster q key line pois))) ∧
  (∀ (addr : Nat) (unc : Bool) (s : State), s.attr.wf = true →
    (addr / 2 ^ 34 < 48 ∧ addr % 2 ^ 34 < 0x300000000) ∨ (2 ^ 40 ≤ addr ∧ addr < 2 ^ 42) →
    ∃ t, exec (.softError addr unc) s = .next t ∧ t.mem = s.mem ∧
      (∀ x, x / 8 ≠ addr / 8 → t.attrOf x = s.attrOf x) ∧
      (s.attrOf addr &&& 0xE = 0 → unc = false → t.attrOf addr = s.attrOf addr ||| 4 ∧ t.poisoned addr = false) ∧
      (unc = true ∨ s.attrOf addr &&& 4 ≠ 0 → t.poisoned addr = true) ∧ (s.poisoned addr = true → t.attrOf addr = s.attrOf addr))

/-- R43-R48, R124, R400, R403, R414, R417, Tables 2.4, 18.1: an admit word empties its slot and, its work done, either
answers the admission code or keeps the record under its handle, armed, with state 2; an invalid word answers 1 with
state 3; a drop forgets its record, and where that was armed the one used last is to be armed; a launch of a handle
without a record answers 2 with state 3, of an armed one state 1, and tick 0 of overlay 0 comes 40 ticks plus its lead
on, a multiple of 8 in deterministic mode. An abort, and a launch fault at the end of its tick, stop the launch. One
that is over leaves its completion record, status 0, 4 or 5 with state 2, and its record to be armed again. A fence
takes every context of a core out of rotation and is counted. (From R43, R44, R45, R46, R48, R124, R400, R403, R414,
R417, Table 2.4, Table 18.1.) -/
def Obligations.LaunchesBeginAndEnd : Prop :=
  (∀ (first n : Nat) (w : Word) (s : State), let f := s.focusPart first
    let h := w.toNat / 2 ^ 8 % 8
    (Acting f first n w false → ∃ t c, exec (.admitRecord first) s = .next t ∧ Emptied f t n ∧ t.p.acting = some (n, w, true) ∧ s.now ≤ c ∧
      Due t c (.admitRecord first) ∧ t.p.status = f.p.status ∧ t.p.records = f.p.records ∧ t.mem = s.mem) ∧
    (Acting f first n w true → f.unsettled = false → let r := f.copyRecord (w.toNat / 2 ^ 12 % 2 ^ 50 * 64)
      let c := f.admissionCode r h
      (c ≠ 0 → c < 256 → ∃ t, exec (.admitRecord first) s = .next t ∧ StatusIs t n c 3 3 w ∧ t.p.records = f.p.records ∧ t.mem = s.mem) ∧
      (c = 0 → ∃ t, exec (.admitRecord first) s = .next t ∧ StatusIs t n 0 0 2 w ∧ t.p.armed = some h ∧
        t.p.records.toList[h]? = some (some ⟨r, recGroup r⟩) ∧ (∀ k, k ≠ h → t.p.records.toList[k]? = f.p.records.toList[k]?) ∧
        (s.mem.wf = true → ∀ a, a < 2 ^ 41 → t.mem.read a = s.mem.read a))) ∧
    (∀ e, Acting f first n w e → ∃ t, exec (.invalidLaunchWord first) s = .next t ∧ Emptied f t n ∧ StatusIs t n 0 1 3 w ∧ t.p.run = f.p.run ∧
      t.p.records = f.p.records ∧ t.mem = s.mem) ∧
    (∀ e, Acting f first n w e →
      (f.p.records.toList[h]? = some none → ∃ t, exec (.drop first) s = .next t ∧ Emptied f t n ∧ StatusIs t n 0 2 3 w ∧
        t.p.records = f.p.records ∧ t.p.armed = f.p.armed ∧ t.p.run = f.p.run ∧ t.mem = s.mem) ∧
      (∀ a, f.p.records.toList[h]? = some (some a) → let left := f.p.recent.filter (· != h)
        ∃ t, exec (.drop first) s = .next t ∧ Emptied f t n ∧ StatusIs t n 0 0 2 w ∧ t.p.records.toList[h]? = some none ∧
        (∀ k, k ≠ h → t.p.records.toList[k]? = f.p.records.toList[k]?) ∧ t.p.recent = left ∧ t.p.run = f.p.run ∧ t.mem = s.mem ∧
        (f.p.armed ≠ some h → f.p.arming ≠ some h → t.p.armed = f.p.armed ∧ t.p.arming = f.p.arming) ∧
        (f.p.armed = some h → f.p.run.active = false → t.p.armed = none ∧ t.p.arming = left.head? ∧
          (left ≠ [] → ∃ c, s.now ≤ c ∧ Due t c (.rearmComplete first))))) ∧
    (∀ e, Acting f first n w e → f.p.run.active = false → e = false →
      (f.p.records.toList[h]? = some none → ∃ t, exec (.launch first) s = .next t ∧ Emptied f t n ∧ StatusIs t n 0 2 3 w ∧ t.p.run = f.p.run ∧ t.mem = s.mem) ∧
      (∀ a, f.p.records.toList[h]? = some (some a) → a.group = false → f.unsettled = false → f.p.armed = some h →
        let t0 := s.tick + 40 + blkLead f.p.bank0
        ∃ t, exec (.launch first) s = .next t ∧ Emptied f t n ∧ StatusIs t n 0 0 1 w ∧ t.p.acting = none ∧ t.p.run.active = true ∧
          t.p.run.handle = h ∧ t.p.run.rec_ = a.words ∧ t.p.run.slot = n ∧ t.p.run.chain = .running ∧ t.p.run.ovl = 0 ∧ t.mem = s.mem ∧
          t.p.run.tick0 = (if recDet a.words then t0 / 8 * 8 else t0)) ∧
      (∀ a, f.p.records.toList[h]? = some (some a) → a.group = false → f.unsettled = false → f.p.armed ≠ some h →
        ∃ t c, exec (.launch first) s = .next t ∧ Emptied f t n ∧ t.p.run = f.p.run ∧ s.now ≤ c ∧ Due t c (.launch first)))) ∧
  (∀ (vf : Nat) (s : State), let f := s.focusPart vf
    f.p.first = vf →
    (f.p.run.active = false → exec (.abortLaunch vf) s = .next f) ∧
    (f.p.run.active = true → f.p.run.ending = false → f.p.run.aborted = false → ∃ t, exec (.abortLaunch vf) s = .next t ∧
      t.p.run.aborted = true ∧ t.p.run.active = true ∧ t.mem = s.mem ∧
      (if f.p.run.stopped = true ∨ s.tick < f.p.run.tick0 then Due t (s.now / 2 * 2 + 1) (.launchRetires vf)
       else ∃ r, (⟨f.plan, r, .ev (.launchRetires vf)⟩ : Item) ∈ t.p.run.tq)) ∧
    (f.p.run.active = true → f.p.run.final = false → f.p.run.ending = false → f.p.run.group = false →
      ∃ t, exec (.launchFaultEnd vf) s = .next t ∧ t.p.run.ending = true ∧ t.p.run.final = true ∧ t.p.run.faults = f.p.run.faults ∧ t.p.run.tq = [] ∧
        t.p.run.chain = .retired ∧ (∀ x ∈ t.p.tiles, x.clearings = [] ∧ x.words = [] ∧ ∀ y ∈ x.streams.toList, y.done = true) ∧
        Due t (s.now / 2 * 2 + 1) (.launchRetires vf) ∧ t.mem = s.mem) ∧
    (f.p.run.active = true → f.p.paused = false → f.p.ppState = 0 → f.p.run.slot < 8 → let run := f.p.run
      let ends (t : State) (res : Nat) : Prop := t.p.run.active = false ∧ t.p.armed = none ∧
        t.p.arming = (if run.handle ∈ f.p.recent then some run.handle else f.p.recent.head?) ∧
        StatusIs t run.slot 0 res 2 (run.tag <<< 12) ∧ t.p.counters[5] = BitVec.ofNat 64 s.tick ∧ t.p.counters[7] = 0 ∧
        t.p.counters[8] = f.p.counters[8] + 1 ∧ t.mem = s.mem ∧ (f.p.recent ≠ [] → ∃ c, s.now ≤ c ∧ Due t c (.rearmComplete vf))
      (run.ending = false → run.aborted = false → run.faults = [] → run.nfault = 0 → f.launchOver = true →
        ∃ t, exec (.launchRetires vf) s = .next t ∧ ends t 0 ∧ t.p.counters[1] = 0 ∧ t.p.counters[2] = 0 ∧ t.p.counters[3] = 0 ∧
          t.p.counters[0] = (match run.halted with | some c => 1 ||| (c.setWidth 64 <<< 16) | none => 0) ∧
          t.p.counters[4] = BitVec.ofNat 64 (run.deDone - run.ovlPlan) ∧ t.p.counters[6] = BitVec.ofNat 64 (run.ovl % 256)) ∧
      (run.ending = false → run.aborted = false → f.launchOver = false → exec (.launchRetires vf) s = .next f) ∧
      (run.ending = true → (run.final = true ∨ run.aborted = true) → f.sweep.launchThreads = [] → f.p.jobs = [] → (run.aborted = true ∨ run.faults ≠ []) →
        ∃ t, exec (.launchRetires vf) s = .next t ∧ ends t (if run.aborted then 5 else 4) ∧
          t.p.counters[0].toNat % 256 = (if run.aborted then 3 else 2)) ∧
      (run.ending = true → (run.final = true ∨ run.aborted = true) → f.sweep.launchThreads ≠ [] → ∃ t, exec (.launchRetires vf) s = .next t ∧
        t.p.run = run ∧ t.mem = s.mem ∧ Due t (s.now / 2 * 2 + 3) (.launchRetires vf))) ∧
    (∀ h, f.p.arming = some h → f.p.run.active = false → f.unsettled = false →
      (∀ a, f.p.records.toList[h]? = some (some a) → ∃ t, exec (.rearmComplete vf) s = .next t ∧ t.p.armed = some h ∧
        t.p.arming = none ∧ t.p.records = f.p.records ∧ t.p.tiles.length = f.p.tileCount) ∧
      (f.p.records.toList[h]? = some none → ∃ t, exec (.rearmComplete vf) s = .next t ∧ t.p.armed = none ∧ t.p.arming = none ∧ t.mem = s.mem))) ∧
  (∀ (first cluster core : Nat) (s : State), let f := s.storeThread.focusPart first
    f.p.first = first → first ≠ 64 → f.p.run.active = true → f.coreFenced cluster core = false → core < 8 →
    ∃ t, exec (.rollCallFence first cluster core) s = .next t ∧ t.coreFenced cluster core = true ∧ (t.cluster cluster).notice.getLsbD core = true ∧
      t.p.counters[22] = f.p.counters[22] + 1 ∧
      t.p.counters[10] = f.p.counters[10] + BitVec.ofNat 64 (f.threads.filter fun x => x.standsOn first cluster core).length ∧
      t.threads.length = f.threads.length ∧ t.mem = s.mem ∧ Due t (s.now / 2 * 2 + 1) (.launchRetires first) ∧
      (∀ x ∈ t.threads, x.standsOn first cluster core = true → x.openPkt = none ∧ x.status ≠ .ready) ∧
      ∀ x ∈ f.threads, x.standsOn first cluster core = false → x ∈ t.threads)

/-- R28, R53, R93, R366, R405-R412: a pass not drained at its budget is a deadline fault. A preload ends with its block
held and, at a swap, the successor's bell 8 ticks on. A drained overlay whose control stream halted, or that has no
successor, retires the timetable; one with a successor waits for the swap, one with a pass left changes its tiles,
PLAN standing still for 1 035 frames. A governor writes its assignment words one at a time and, unless its mode is
fixed, moves cores at a boundary. A pre-emption stops at once where no overlay runs, else at a quiet prept, under
passes that of the last; the save, once all is still, ends in state 2; a restore of a damaged area sets err and stays
there, else the launch resumes at a tick whose distance from the stop is one more than a multiple of 21 760 d, with
PLAN as it stood. For each of budgetExceeded, preloadComplete, overlayDrained, residentSetChange, governorBoundary,
preempt, saveComplete, resume and restore exec answers a next state, under conditions on the state and the operands
alone. (From R28, R53, R93, R366, R405, R406, R408, R409, R410, R411, R412, Table 17.11.) -/
def Obligations.OverlaysGovernorAndPreemption : Prop :=
  (∀ (first : Nat) (s : State), let f := s.focusPart first
    let run := f.p.run
    let de := (run.overlay run.ovl).2.toNat % 2 ^ 40
    f.p.first = first → first ≠ 64 →
    (run.chain = .running → f.plan ≠ run.ovlPlan + de → exec (.budgetExceeded first) s = .next f) ∧
    (run.chain = .running → f.plan = run.ovlPlan + de → run.active = true → run.ending = false → ∃ t e, exec (.budgetExceeded first) s = .next t ∧
      t.p.run.faults = run.faults ++ [e] ∧ e.kind = 17 ∧ e.ltick = de ∧ e.thread = false ∧ t.mem = s.mem) ∧
    (∀ k, run.active = true → run.preload = some k →
      (∃ t, exec (.preloadComplete first) s = .next t ∧ t.p.run.preload = none ∧ t.p.run.preloaded = some k ∧ t.p.run.nextBlock = f.loadBlock k ∧
        t.p.run.block = run.block ∧ t.mem = s.mem ∧
        (run.chain = .swapping → run.bellAt = none → run.chainNext = k → Due t (s.cycleOfTick (s.tick + 8)) (.overlaySwapBell first)))) ∧
    (run.chain = .draining → ∃ t, exec (.overlayDrained first) s = .next t ∧ t.mem = s.mem ∧ t.p.run.deDone = max run.deDone f.plan ∧
      (∀ x ∈ t.p.tiles, ∀ y ∈ x.streams.toList, y.done = true) ∧
      (run.pass + 1 < run.passes → t.p.run.chain = .changing) ∧
      (run.passes ≤ run.pass + 1 → (run.halted.isSome = true ∨ run.chainNext = 0xFF) → t.p.run.chain = .retired ∧
        (∀ x ∈ t.p.tiles, ∀ y ∈ x.streams.toList, y.body = []) ∧ (run.active = true → Due t (s.now / 2 * 2 + 1) (.launchRetires first))) ∧
      (run.passes ≤ run.pass + 1 → run.halted = none → run.chainNext ≠ 0xFF → 1 < run.passes → t.p.run.chain = .changing) ∧
      (run.passes ≤ 1 → run.pass = 0 → run.halted = none → run.chainNext ≠ 0xFF → t.p.run.chain = .swapping ∧
        (run.preloaded = some run.chainNext → Due t (s.cycleOfTick (s.tick + 8)) (.overlaySwapBell first)))) ∧
    (run.chain = .changing → run.stopped = false → ∃ t, exec (.residentSetChange first) s = .next t ∧ t.p.run.stopped = true ∧ t.plan = f.plan ∧
      t.p.run.chain = .changing ∧ Due t (s.cycleOfTick (s.tick + 1 + 1035 * 68)) (.residentSetChange first)) ∧
    (run.chain = .changing → run.stopped = true → run.pass + 1 < run.passes → ∃ t, exec (.residentSetChange first) s = .next t ∧
      t.p.run.pass = run.pass + 1 ∧ t.p.run.chain = .running ∧ t.p.run.stopped = false ∧ t.p.run.prept = none ∧ t.p.run.bounds = [] ∧ t.plan = run.ovlPlan ∧ t.p.tiles.length = f.p.tiles.length) ∧
    (run.chain = .changing → run.stopped = true → run.passes ≤ run.pass + 1 → ∃ t, exec (.residentSetChange first) s = .next t ∧
      t.p.run.pass = 0 ∧ t.p.run.chain = .swapping ∧ t.p.run.stopped = false ∧ t.plan = run.deDone + 1) ∧
    (∀ (cluster core stage a : Nat) (rest : List (Nat × Nat)), let g := (f.cluster cluster).gov
      g.word ≠ 0 → run.active = true → f.p.paused = false →
      (g.pend = (core, stage) :: rest → f.localIn cluster (g.table.getD 1 0) 64 64 = some a → s.mem.wf = true →
        ∃ t, exec (.governorBoundary first cluster) s = .next t ∧ OnlyBytes s t (a + 8 * core) 8 ∧ t.word (a + 8 * core) = BitVec.ofNat 64 stage ∧
          (t.cluster cluster).gov = { g with pend := rest } ∧ (rest ≠ [] → Due t (s.now + f.p.run.d) (.governorBoundary first cluster))) ∧
      (g.pend = [] → (g.table.getD 0 0).getLsbD 0 = true → exec (.governorBoundary first cluster) s = .next f) ∧
      (g.pend = [] → (g.table.getD 0 0).getLsbD 0 = false → ∃ t, exec (.governorBoundary first cluster) s = .next t ∧ t.mem = s.mem ∧
        (t.cluster cluster).gov = { g with stages := (f.govMove cluster g.table g.stages).1, pend := (f.govMove cluster g.table g.stages).2 })) ∧
    (run.active = true → f.p.ppState = 0 →
      (f.overlayRuns = true → ∃ t, exec (.preempt first) s = .next t ∧ t.p = { f.p with ppState := 1, ppTick := s.tick, ppWant := true } ∧ t.mem = s.mem) ∧
      (f.overlayRuns = false → run.ending = false → ∃ t sv c, exec (.preempt first) s = .next t ∧ t.p.ppState = 1 ∧ t.p.ppTick = s.tick ∧
        t.p.ppWant = false ∧ t.p.run.stopped = true ∧ t.plan = f.plan ∧ t.p.saved = some sv ∧ sv.ts = s.tick ∧ s.now ≤ c ∧ Due t c (.saveComplete first) ∧
        t.mem = s.mem)) ∧
    (run.active = true → f.p.ppState = 1 → f.p.ppWant = true → run.pass + 1 < run.passes → exec (.preempt first) s = .next f) ∧
    (run.active = true → f.p.ppState = 1 → f.p.ppWant = true → run.prept = some (f.plan, true) → run.passes ≤ run.pass + 1 → run.ending = false → ∃ t sv, exec (.preempt first) s = .next t ∧
      t.p.ppState = 1 ∧ t.p.ppWant = false ∧ t.p.run.stopped = true ∧ t.plan = f.plan ∧ t.p.saved = some sv ∧ sv.ts = s.tick ∧ t.mem = s.mem)) ∧
  (∀ (first : Nat) (sv : Saved) (s : State), let g := s.storeThread.focusPart first
    g.p.first = first → first ≠ 64 → g.p.saved = some sv →
    (g.p.ppState = 1 → g.p.ppWant = false → (g.launchThreads.all g.threadSaved && g.p.jobs.all Job.saved && !g.inTransit) = true →
      ∃ t, exec (.saveComplete first) s = .next t ∧ t.p.ppState = 2 ∧ t.p.ppTick = s.tick ∧ t.out = .msix 64 2 :: s.out ∧ t.p.run = g.p.run ∧
        ∃ x, t.p.saved = some x ∧ x.ts = sv.ts ∧ x.tiles = g.p.tiles ∧ x.code = g.p.code) ∧
    (g.p.ppState = 1 → g.p.ppWant = false → (g.launchThreads.all g.threadSaved && g.p.jobs.all Job.saved && !g.inTransit) = false →
      ∃ t, exec (.saveComplete first) s = .next t ∧ t.p = g.p ∧ t.mem = s.mem ∧ Due t (s.cycleOfTick (s.tick + 1)) (.saveComplete first)) ∧
    (g.p.ppState = 3 → g.launchThreads = [] → g.p.waits = [] → g.lists = [] → ∃ t, exec (.resume first) s = .next t ∧ t.p.ppState = 0 ∧
      t.p.saved = none ∧ t.p.run.stopped = sv.held ∧ t.p.run.plan = sv.plan ∧ t.p.run.chain = g.p.run.chain ∧ t.mem = s.mem)) ∧
  (∀ (first : Nat) (sv : Saved) (s : State), let f := s.focusPart first
    f.p.first = first → first ≠ 64 → f.p.saved = some sv → f.p.ppState = 2 → 0 < f.p.run.d →
    let intact := sameCrc (f.areaCells (sv.back + sv.save) sv.save) sv.area
    (∀ h : f.p.entry < 64, intact = false → exec (.restore first) s = .next { f with table := s.table.set f.p.entry { s.table[f.p.entry] with err := true } }) ∧
    (intact = true → ∃ t n, exec (.restore first) s = .next t ∧ t.p.ppState = 3 ∧ t.p.tiles = sv.tiles ∧ t.p.code = sv.code ∧ t.p.saved = some sv ∧
      ∀ T, T = sv.ts + 1 + n * (21760 * f.p.run.d) → s.tick < T ∧ Due t (s.cycleOfTick T) (.resume first)))

/-- R252, R258-R260, R313, R370, R372-R374, R376, R384, R388, R389, R421, R423, R424, R451: a lost lock, or a phase beyond
the margin, dissolves the group. A line its frame's control flit names joins its tile's arrivals and counts its flits;
one with that flit lost comes unchecked. A reason begins a hold, one too late is a link fault; a removal ends it; a
boundary word nobody here issued is a deadline fault; a member’s management reason joins or leaves those in force, and
its link fault dissolves the group; launch messages are held until every member's is there, then tick 0 is a multiple
of 1 024, or differing policies are refused with 0x0E. A peer's request is held to its time, translated, served at its
channel and answered; a reply ends the load that waits. A repair's remap is logged, listed and latched; retraining
takes four slots and logs a failure at its end; scrubbing changes no sound word. Power, temperature and trip follow
Table 19.2; bring-up leaves memory zero, nothing admitted and the mailbox idle. For each of linkFaultEvent,
linkLineArrives, groupControlMessage, groupLaunchStart, peerRequestArrives, peerReplyArrives, repairLatch,
retrainBurst, maintenanceSlot, powerWindow, emergencyTrip, powerLoss and bringUp exec answers a next state, under
conditions on the state and the operands alone. (From R258, R259, R260, R313, R373, R374, R384, R388, R389, R421,
R424, R451.) -/
def Obligations.LinksPeersAndPackage : Prop :=
  (∀ (port : Nat) (lost : Bool) (phase : BitVec 16) (s : State) (h : port < 16), let l := s.links[port]
    let bad := lost = true ∨ l.w0.toNat / 2 ^ 48 < phase.toInt.natAbs
    let w0 : Word := (l.w0 &&& 0xFFFF0000FFFFFFFF) ||| (phase.setWidth 64 <<< 32)
    ∃ t, exec (.linkFaultEvent port lost phase) s = .next t ∧ t.mem = s.mem ∧
      t.links = s.links.set port { l with w0 := if lost then w0 &&& ~~~0x2000 else w0 } ∧
      (s.group.getLsbD 17 = true → l.w0.getLsbD 12 = true → bad → t.group = s.group &&& ~~~0x20000) ∧
      (s.group.getLsbD 17 = false ∨ l.w0.getLsbD 12 = false ∨ ¬ bad → t = { s with links := t.links })) ∧
  (∀ (first tile stile n ltick t0 corr : Nat) (data : Line) (pois : BitVec 16) (c : ControlFlit) (y : Tile) (s : State) (h : n < 16), let f := s.focusPart first
    f.p.first = first → f.p.run.active = true → f.plan ≤ ltick → f.p.tileOf tile = some t0 → f.p.tiles[t0]? = some y →
    let comes (t : State) (port : Option Nat) (bad : BitVec 16) (header : Option Bool) : Prop := t.mem = s.mem ∧ t.p.tiles[t0]? = some { y with
        arriving := y.arriving ++ [⟨ltick, stile, port, data, bad, header⟩] } ∧
      ∃ r, (⟨ltick, r, .ev (.timedEffectLands first t0 .unclaimed)⟩ : Item) ∈ t.p.run.tq
    let lost : Nat := (if pois.toNat % 2 ^ 8 = 0 then 0 else 1) + (if pois.toNat / 2 ^ 8 = 0 then 0 else 1)
    let both : BitVec 16 := (if pois.toNat / 2 ^ 8 = 0 then 0 else 0xFF00) ||| (if pois.toNat % 2 ^ 8 = 0 then 0 else 0x00FF)
    let counted (t : State) (more : Nat) : Prop := t.links[n].w0 = s.links[n].w0 ∧
      t.links[n].w1.toNat / 2 ^ 32 = (s.links[n].w1.toNat / 2 ^ 32 + lost + more) % 2 ^ 32 ∧
      t.links[n].w1.toNat % 2 ^ 32 = (s.links[n].w1.toNat + corr) % 2 ^ 32
    (∃ t, exec (.linkLineArrives first tile stile none data pois ⟨some c, corr⟩ ltick) s = .next t ∧ comes t none pois (some true) ∧ t.links = s.links) ∧
    (∀ a b, flitEntry c (f.sentTick n ltick) = some (a, b) → ∃ t, exec (.linkLineArrives first tile stile (some n) data pois ⟨some c, corr⟩ ltick) s = .next t ∧
      comes t (some n) both (some (decide (a = stile ∧ b = tile))) ∧ counted t 0) ∧
    (flitEntry c (f.sentTick n ltick) = none → ∃ t, exec (.linkLineArrives first tile stile (some n) data pois ⟨some c, corr⟩ ltick) s = .next t ∧
      t.mem = s.mem ∧ t.p = f.p ∧ counted t 0) ∧
    (∃ t, exec (.linkLineArrives first tile stile (some n) data pois ⟨none, corr⟩ ltick) s = .next t ∧ comes t (some n) both none ∧
      (n, f.sentTick n ltick / 5 * 5) ∈ t.lost ∧ counted t (if f.frameLost n ltick then 0 else 1))) ∧
  (∀ (first pkg key x tick lag : Nat) (word : Word) (pols : List Word) (s : State), let f := s.focusPart first
    let run := f.p.run
    f.p.first = first →
    (key < 65536 → run.group = true → f.missedReason tick = false → f.plan ≤ x → run.hold = .running → ∃ t, exec (.groupControlMessage (.reason first pkg key x tick)) s = .next t ∧ t.mem = s.mem ∧
      t.p.run.reasons = run.reasons ++ [⟨pkg, key, x⟩] ∧ t.p.run.hold = .pending ∧ t.p.run.h0 = x ∧ ∃ r, (⟨x, r, .ev (.holdBegins first)⟩ : Item) ∈ t.p.run.tq) ∧
    (key < 65536 → run.group = true → (f.missedReason tick = true ∨ x < f.plan) → run.active = true → run.ending = false →
      ∃ t e, exec (.groupControlMessage (.reason first pkg key x tick)) s = .next t ∧ t.mem = s.mem ∧ t.group = s.group &&& ~~~0x20000 ∧
      t.p.run.faults = run.faults ++ [e] ∧ e.kind = 19 ∧ t.p.run.reasons = run.reasons) ∧
    (key < 65536 → run.group = true → s.tick ≤ x + s.holdLead → ∃ t, exec (.groupControlMessage (.removal first pkg key x)) s = .next t ∧ t.mem = s.mem ∧
      ∀ r, r ∈ t.p.run.reasons ↔ r ∈ run.reasons ∧ ¬ (r.pkg = pkg ∧ r.key = key)) ∧
    (∀ n, f.missedReason tick = false → (run.group = true → f.plan ≤ x) → ∃ t, exec (.groupControlMessage (.reason first pkg (65536 + n) x tick)) s = .next t ∧ t.mem = s.mem ∧ 256 * (pkg + 1) + n ∈ t.p.holds) ∧
    (∀ n, ∃ t, exec (.groupControlMessage (.removal first pkg (65536 + n) x)) s = .next t ∧ t.mem = s.mem ∧ 256 * (pkg + 1) + n ∉ t.p.holds) ∧
    (run.group = true → run.active = true → run.ending = false → ∃ t, exec (.groupControlMessage (.boundary first pkg x word)) s = .next t ∧ t.mem = s.mem ∧
      t.p.run.bounds = run.bounds ++ [(x, 1024 + pkg, word)] ∧
      ((∃ tile, tile < 1024 ∧ (x, tile, word) ∈ run.bounds) → t.p.run.faults = run.faults) ∧
      ((∀ b ∈ run.bounds ++ run.bounds0, b.1 ≠ x) → pkg ≠ s.ownPkg → ∃ e, t.p.run.faults = run.faults ++ [e] ∧ e.kind = 17)) ∧
    (∃ t, exec (.groupControlMessage (.launch first pkg x pols lag)) s = .next t ∧ t.mem = s.mem ∧ (pkg, x, pols, lag) ∈ t.p.stamps ∧ t.p.run = run) ∧
    (∀ kind info tile stream thread cycle pc geom, run.active = true → run.ending = false →
      ∃ t, exec (.groupControlMessage (.fault first pkg kind x info tile stream thread cycle pc geom)) s = .next t ∧ t.mem = s.mem ∧
        t.p.run.faults = run.faults ++ [⟨kind, x - run.ovlPlan, cycle, tile, stream, info, pc, geom, thread, pkg⟩] ∧ (kind = 19 → t.group = s.group &&& ~~~0x20000)) ∧
    (run.active = true → run.group = true → run.chain = .none → run.aborted = false → run.slot < 8 →
      (∀ k, k < s.extent → ∃ y ∈ f.p.stamps, y.1 = k) →
      ((∀ y ∈ f.p.stamps, y.2.2.1 = recPolicyWords run.rec_) → ∃ t, exec (.groupLaunchStart first) s = .next t ∧ t.mem = s.mem ∧
        t.p.run.chain = .running ∧ t.p.run.active = true ∧ t.p.stamps = [] ∧ 1024 ∣ t.p.run.tick0 ∧
        t.p.run.plan0 = t.p.run.tick0 - t.p.planLag ∧ (∀ y ∈ f.p.stamps, y.2.2.2 ≤ t.p.planLag) ∧
        (∀ y ∈ f.p.stamps, y.2.1 + s.peerLat + 100 + blkLead f.p.bank0 ≤ t.p.run.tick0) ∧
        (f.p.stamps ≠ [] → ∃ y ∈ f.p.stamps, t.p.run.tick0 < y.2.1 + s.peerLat + 100 + blkLead f.p.bank0 + 1024)) ∧
      ((∃ y ∈ f.p.stamps, y.2.2.1 ≠ recPolicyWords run.rec_) → ∃ t, exec (.groupLaunchStart first) s = .next t ∧ t.mem = s.mem ∧
        t.p.run.active = false ∧ StatusIs t run.slot 0x0E 3 3 (run.tag <<< 12)))) ∧
  (∀ (r : PeerReq) (s : State) (flat : Nat), let f := s.focusPart r.first
    f.p.first = r.first →
    (s.now < f.deliverAt r.stamp → ∃ t, exec (.peerRequestArrives r) s = .next t ∧ t.mem = s.mem ∧ t.out = s.out ∧ t.p = f.p ∧
      Due t (f.deliverAt r.stamp) (.peerRequestArrives r)) ∧
    (f.deliverAt r.stamp < s.now → r.phys = none → f.p.run.ending = false → ∃ t, exec (.peerRequestArrives r) s = .next t ∧ t.group = s.group &&& ~~~0x20000 ∧
      (∀ why, f.p.translate (r.va.toNat % 2 ^ 46) r.asid.toNat (accWrites r.op) = .error why → ∃ e, t.p.run.faults = f.p.run.faults ++ [e] ∧ e.kind = 19)) ∧
    (f.deliverAt r.stamp = s.now → r.phys = none →
    (∀ why, f.p.translate (r.va.toNat % 2 ^ 46) r.asid.toNat (accWrites r.op) = .error why →
      exec (.peerRequestArrives r) s = .next { f with out := .reply r.source none 4 :: s.out }) ∧
    (f.p.translate (r.va.toNat % 2 ^ 46) r.asid.toNat (accWrites r.op) = .ok flat → r.bytes = 8 → s.mem.wf = true →
      (servedNow f flat = false → (accWrites r.op = true → f.p.hbmOpen (r.va.toNat % 2 ^ 46) 8 (if r.copy then 9 else 7) = true) →
        ∃ t T, exec (.peerRequestArrives r) s = .next t ∧ t.mem = s.mem ∧ t.out = s.out ∧ s.tick < T ∧
          Due t (s.cycleOfTick T) (.peerRequestArrives { r with phys := some flat })) ∧
      (accWrites r.op = true → f.p.hbmOpen (r.va.toNat % 2 ^ 46) 8 (if r.copy then 9 else 7) = false → ∃ t, exec (.peerRequestArrives r) s = .next t ∧ t.mem = s.mem ∧
        t.out = .reply r.source none 6 :: s.out) ∧
      (servedNow f flat = true →
      (r.op = .load → Clean s flat → flat % 8 = 0 → flat < flatHostBase → ∃ t, exec (.peerRequestArrives r) s = .next t ∧ t.mem = s.mem ∧
        t.out = .reply r.source (some (s.word flat)) 0 :: s.out) ∧
      (r.op = .load → s.poisoned flat = true → ∃ t, exec (.peerRequestArrives r) s = .next t ∧ t.mem = s.mem ∧ t.out = .reply r.source none 0 :: s.out) ∧
      (r.op = .store → r.pois = false → f.p.hbmOpen (r.va.toNat % 2 ^ 46) 8 (if r.copy then 9 else 7) = true →
        ∃ t, exec (.peerRequestArrives r) s = .next t ∧ OnlyBytes s t flat 8 ∧
          t.word flat = r.data ∧ (r.copy = true → flat % 8 = 0 → flat < flatHostBase → s.attr.wf = true → t.isFull flat = true) ∧
          t.out = .reply r.source (some 0) 0 :: s.out) ∧
      (r.op = .ldfe → r.copy = false → f.p.hbmOpen (r.va.toNat % 2 ^ 46) 8 7 = true → ∃ t w, exec (.peerRequestArrives r) s = .next t ∧ t.mem = s.mem ∧
        Tab.getD [] flat t.lists = Tab.getD [] flat s.lists ++ [w] ∧ w.uid = 0 ∧ w.acc.op = .ldfe ∧ w.acc.id = r.source ∧ Due t s.now (.waiterPerforms flat)))))) ∧
  (∀ (uid id : Nat) (v : Word) (a : Acc) (s : State), let f := s.focusThread uid
    f.cur.uid = uid → uid ≠ 0 → f.cur.status = .access id → f.cur.relaxed = [] → f.cur.heldV = [] → f.cur.asked.find? (fun x => x.id == id) = some a → a.id = id → a.op = .load → a.bytes = 8 →
    a.sx = false → a.rlx = false → f.p.run.det = true →
    (s.now < a.due → ∃ t, exec (.peerReplyArrives uid id (some v) 0) s = .next t ∧ t.cur = f.cur ∧ t.mem = s.mem ∧
      Due t a.due (.peerReplyArrives uid id (some v) 0)) ∧
    (a.due = s.now → s.goto = none → ∃ t, exec (.peerReplyArrives uid id (some v) 0) s = .next t ∧ Retired f t ∧ t.cur.a = (f.cur.setReg a.d v).a ∧ t.mem = s.mem) ∧
    (a.due = s.now → ∃ t q, exec (.peerReplyArrives uid id none 0) s = .next t ∧ t.cur.status = .trapping ∧ t.cur.raised = some q ∧ q.kind = 7 ∧
      q.info = a.va ∧ t.mem = s.mem)) ∧
  (∀ (ctl ch bank row n : Nat) (rest : List Repair) (s : State) (h : ctl < 48), ch < 8 → bank < 32 → row < 49152 →
    (s.chan (8 * ctl + ch)).repairs = ⟨bank, row, n⟩ :: rest → 8 ≤ n → s.attr = [] →
    ∃ t e, exec (.repairLatch ctl ch bank row) s = .next t ∧ t.mem = s.mem ∧ t.attr = [] ∧ (t.chan (8 * ctl + ch)).repairs = rest ∧
      Tab.find bank (t.chan (8 * ctl + ch)).remaps = some row ∧ t.ctls[ctl].log.getLast? = some e ∧ e.w0.toNat % 16 = 4 ∧
      t.mgmt.repairs = s.mgmt.repairs ++ [BitVec.ofNat 64 (ctl + ch * 2 ^ 6 + bank * 2 ^ 9 + row * 2 ^ 14 + 2 ^ 63)] ∧ t.mgmt.current = !s.mgmt.current) ∧
  (∀ (chan : Nat) (ok : Bool) (s : State), chan < 384 → let rti := (s.maint (chan / 8)).toNat % 2 ^ 16
    (∃ t, exec (.retrainBurst chan ok) s = .next t ∧ t.mem = s.mem ∧ (t.chan chan).retrain = 4 ∧
      (t.chan chan).failing = !ok ∧ t.ctls = s.ctls ∧
      (rti ≠ 0 → ∃ b, Due t (s.now + 131072 * rti) (.retrainBurst chan b))) ∧
    (∀ h : chan / 8 < 48, s.tick % 68 ∈ [16, 33, 50, 67] → (s.chan chan).retrain = 1 → ∃ t, exec (.maintenanceSlot chan) s = .next t ∧
      (t.chan chan).retrain = 0 ∧ ((s.chan chan).failing = false → t.ctls = s.ctls) ∧
      ((s.chan chan).failing = true → ∃ e, t.ctls[chan / 8].log.getLast? = some e ∧ e.w0.toNat % 16 = 6 ∧ e.w0.toNat / 16 % 8 = chan % 8)) ∧
    (s.attr = [] → ∃ t, exec (.maintenanceSlot chan) s = .next t ∧ t.mem = s.mem ∧ t.attr = [] ∧ t.p = s.p ∧ t.parts = s.parts ∧
      ∃ T, s.tick < T ∧ T ≤ s.tick + 33 ∧ T % 68 ∈ [16, 33, 50, 67] ∧ Due t (s.cycleOfTick T) (.maintenanceSlot chan))) ∧
  (∀ (watts celsius : Nat) (s : State), s.mgmt.tripped = false → ∃ t, exec (.powerWindow watts celsius) s = .next t ∧ t.mem = s.mem ∧
    t.mgmt.powered = s.mgmt.powered ∧ (t.mgmt.tripped = true ↔ 115 ≤ celsius) ∧
    (celsius < 115 → (s.mgmt.limit < watts → 1 ∈ t.mgmt.reasons) ∧ (100 * watts < 95 * s.mgmt.limit → 1 ∉ t.mgmt.reasons) ∧
      (100 ≤ celsius → 2 ∈ t.mgmt.reasons) ∧ (celsius < 95 → 2 ∉ t.mgmt.reasons)) ∧
    (115 ≤ celsius → ∃ c, s.now < c ∧ Due t c .emergencyTrip)) ∧
  (∀ s : State,
    (s.mgmt.tripped = true → exec .emergencyTrip s = .next { s with mgmt := { s.mgmt with powered := false } }) ∧
    (s.mgmt.tripped = false → ∃ t c, exec .emergencyTrip s = .next t ∧ t.mgmt.tripped = true ∧ t.mgmt.powered = s.mgmt.powered ∧ t.mem = s.mem ∧
      s.now < c ∧ Due t c .emergencyTrip) ∧
    (∀ b, ∃ t, exec (.powerLoss b) s = .next t ∧ t.mgmt.powered = false ∧ t.mem = s.mem ∧ t.mgmt.rollback = s.mgmt.rollback ∧
      t.mgmt.repairs = s.mgmt.repairs ∧ (b = false → t.mgmt.repairs0 = s.mgmt.repairs0 ∧ t.mgmt.repairs1 = s.mgmt.repairs1)) ∧
    (∀ (config list : Bool) (limit : Nat), exec (.bringUp false config list limit) s = .next { s with out := .report 1 :: s.out } ∧
      ((∀ n, s.mgmt.staged = some n → s.mgmt.rollback ≤ n) → s.mem.wf = true → ∃ t, exec (.bringUp true config list limit) s = .next t ∧ t.mgmt.ready = true ∧ t.mgmt.mailbox = 1 ∧
        t.mgmt.limit = (if s.mgmt.moduleForm then 3200 else if config then min limit 3200 else 1600) ∧ t.parts = [] ∧ t.threads = [] ∧ t.attr = [] ∧
        (∀ e ∈ t.table.toList, e.w0 = 0) ∧ (∀ a, a < 2 ^ 64 → t.mem.read a = 0) ∧ (∀ a, 2 ^ 64 ≤ a → t.mem.read a = s.mem.read a) ∧
        (list = false → t.out = .report 2 :: s.out))))

/-- R368, R49, R369, R371, R388, R323, Table 10.5: TICK and every count are zero, no partition, thread or record exists,
the partition table, the peer table and the fault ring are empty, every link entry holds the margin of Table 16.2 and
is unused, the group word is extent 1 and hold lead 32 and not formed, every controller has rti 1 024, thr 512, arep 1
and cthr 4 with an empty log. Memory lists nothing, which is the canonical form: every byte of local store, HBM and
tensor SRAM reads zero (the model's choice, assumptions 1 and 5: bring-up writes zero before a program runs). The
first thing due is the bring-up. (From R368, R49, R369, R371, R388, R323, Table 10.5.) -/
def Obligations.ResetLeavesTheTablesAtTheirValues : Prop :=
  let s := State.reset
  s.now = 0 ∧ s.tick = 0 ∧ s.parts = [] ∧ s.threads = [] ∧ s.p.first = 64 ∧ s.cur.uid = 0 ∧
  (∀ e ∈ s.table.toList, e.w0 = 0 ∧ e.err = false ∧ e.releasing = none) ∧ (∀ w ∈ s.peers.toList, w = 0) ∧
  s.ring = [] ∧ s.ringProd = 0 ∧ s.ringCons = 0 ∧ s.ringWait = [] ∧
  (∀ l ∈ s.links.toList, l.used = false ∧ l.w0.toNat = 0x200 * 2 ^ 48 ∧ l.w1 = 0) ∧
  s.formed = false ∧ s.ownPkg = 0 ∧ s.extent = 1 ∧ s.group.toNat / 2 ^ 8 % 2 ^ 9 = 1 ∧ s.holdLead = 32 ∧ s.peerLat = 0 ∧
  (∀ c ∈ s.ctls.toList, c.maint.toNat % 2 ^ 16 = 1024 ∧ c.maint.toNat / 2 ^ 16 % 2 ^ 12 = 512 ∧ c.maint.getLsbD 28 = true ∧
    c.maint.toNat / 2 ^ 29 % 2 ^ 7 = 4 ∧ c.log = [] ∧ c.overflow = 0) ∧
  s.mgmt.ready = false ∧ s.mgmt.powered = true ∧ s.mem.wf = true ∧ s.attr.wf = true ∧ (∀ a, a < flatHostBase → s.mem.read a = 0) ∧
  ∃ i, s.rest.pick = .agenda i [] ∧ i.cycle = 0 ∧ ∃ limit, i.what = .ev (.bringUp true true true limit)

/-- R77, R78, R86, Tables 4.1, 4.2, 4.5-4.10: add.x8 a1, a2, a3; li a5; br with the guard not p3; a conversion to an 8-bit
format in the V slot; fadd; the bell of code 7 with idle count 3; a tld of five more lines through a graph. A cell of
no instruction, an unused field that is not zero and two writers of one scalar register are rejected by name. (From
R77, R78, R81, R82, R86, Table 4.1, Table 4.2, Table 4.9.) -/
def Obligations.WordsDecodeAsTheEncodingsSay : Prop :=
  decodeBundle 128 true 0x0100443300000000 = .ok (.paired (.add ⟨0, 0⟩ 1 2 3 3) .vnop) ∧
  decodeBundle 128 false 0x8000500012345678 = .ok (.long (.li ⟨0, 0⟩ 5 0x12345678)) ∧
  decodeBundle 128 false 0x84260000FFFFFFFE = .ok (.long (.br ⟨1, 3⟩ 0xFFFFFFFE)) ∧
  decodeBundle 128 false 0x0000000002004082 = .ok (.paired (.nop ⟨0, 0⟩) (.fadd 0 0 1 1 2)) ∧
  decodeT 0 0x00C4000000000007 = .ok ⟨3, .bell 7⟩ ∧
  decodeT 1 0x0004000000294021 = .ok ⟨0, .tld 1 2 0 4 1 0 0 5⟩ ∧
  decodeBundle 128 false 0x0300000100000000 = .error (.badField .s) ∧
  decodeBundle 128 false 0x7F00000000000000 = .error (.illCell .s) ∧
  decodeT 1 0x003FC00000000000 = .error (.illCell .stream)

/-- R77, R87, R91, R110: with power, once the threads whose waits are over are in rotation again, step is exec of the
earliest thing due, where that is an event, at the state with time passed to it. Where it is a thread's issue slot
that the thread takes, step runs the bundle its pc's word decodes to, S slot before V slot on the same registers, and
settles it: without a fault the thread retires it and its pc moves to the target taken, else by 8; a bundle held back
leaves it as it was. A word that does not decode, and a fetch outside the code, run their fault. A stream's word that
decodes to i is exec of i at the state with the stream moved on to its next word, then settled. Without power a step
is the fault powerIsOff. (From R77, R81, R82, R87, R91, R110, R113.) -/
def Obligations.AStepRunsWhatIsDue : Prop :=
  (∀ s : State, s.mgmt.powered = false → step s = .fault .powerIsOff) ∧
  (∀ (s : State), s.mgmt.powered = true → let due := (s.settleWaits.takePick s.settleWaits.pick).1
    let u := (s.settleWaits.takePick s.settleWaits.pick).2
    (∀ i, due = .ev i → step s = exec i u) ∧
    (∀ uid v, due = .issue uid → u.takeSlot uid false = (true, v) →
      (∀ w b, v.fetch = some w → decodeBundle v.vectors v.cur.proctor w = .ok b → step s = runBundle exec b v) ∧
      (∀ w e, v.fetch = some w → decodeBundle v.vectors v.cur.proctor w = .error e → step s = runBundle exec (.long (.illegalInstruction e.slot)) v) ∧
      (v.fetch = none → step s = runBundle exec (.long .fetchFault) v)) ∧
    (∀ uid v, due = .issue uid → u.takeSlot uid false = (false, v) → step s = .next v) ∧
    (∀ first tile stream v w x, due = .word first tile stream → u.takeWord first tile stream = (some w, v) → decodeT stream w = .ok x →
      (∀ t, exec x.instr { v.advanceStream with bundle := w } = .next t → step s = .next t.settleWord)) ∧
    (∀ first tile stream v w e, due = .word first tile stream → u.takeWord first tile stream = (some w, v) → decodeT stream w = .error e →
      (∀ t, exec .illegalStreamWord { v.advanceStream with bundle := w } = .next t → step s = .next t.settleWord))) ∧
  (∀ s : State, (∀ t ∈ s.rest.threads, t.waits = false) → s.settleWaits = s.rest) ∧
  (∀ (s : State) (cycle rank : Nat) (w : Task) (rest : List Item), s.pick = .agenda ⟨cycle, rank, w⟩ rest → s.now ≤ cycle →
    (s.takePick s.pick).1 = w ∧ (s.takePick s.pick).2.agenda = rest ∧ (s.takePick s.pick).2.now = cycle ∧
    (s.takePick s.pick).2.mem = s.mem) ∧
  (∀ (v : State), v.cur.recite = 0 → v.cur.fwd = none →
    let v0 : State := ({ v with
      goto := none, slotV := false, force := none
      cur := { v.cur with
        back := v.cur.streams, raised := none, lastIssue := v.now, issueTvec := v.trapTvec, done := 0, fwd := none } } : State).noteIssue
    (∀ i t, exec i v0 = .next t → runBundle exec (.long i) v = .next (State.settle (.long i) v v0 t t.cur.raised)) ∧
    (∀ i j t x, exec i v0 = .next t → t.cur.status ≠ .migrating → t.cur.status.isHeld = false →
      exec j { t with slotV := true, cur := { t.cur with raised := none } } = .next x →
      runBundle exec (.paired i j) v = .next (State.settle (.paired i j) v v0 x (lowerFault t.cur.raised x.cur.raised))) ∧
    (∀ (b : Bundle) (t : State), t.cur.status = .ready → t.cur.recite = 0 → ∃ r, State.settle b v v0 t none = r ∧ r.cur.status = .ready ∧
      r.cur.retired = t.cur.retired + 1 ∧ r.cur.pc = t.goto.getD (t.cur.pc + 8) ∧ r.mem = t.mem ∧ r.cur.a = t.cur.a ∧ r.cur.pw = t.cur.pw) ∧
    (∀ (b : Bundle) (t : State), t.cur.status.isHeld = true → ∃ r, State.settle b v v0 t none = r ∧ r.cur.status = t.cur.status ∧
      r.cur.retired = v.cur.retired ∧ r.cur.pc = v.cur.pc ∧ r.cur.a = v.cur.a ∧ r.cur.streams = v.cur.streams ∧ r.mem = v.mem) ∧
    (∀ (b : Bundle) (t : State) (f : Raised), t.cur.status.isHeld = false → f.kind ≠ 7 → f.kind ≠ 8 → f.kind ≠ 9 → State.settle b v v0 t (some f) =
      ({ v0 with fresh := t.fresh } : State).startTrap f))

/-- R77, R78, R81, R103, Tables 4.1 to 4.8: for every well-formed instruction with a core encoding and every value of its
operands, the bundle that holds it with no-ops beside it decodes, in a thread with all 128 vector registers and, for
the proctor's four, in a proctor context, to that instruction and those no-ops; so no bit of an S, V or long encoding
is dropped. A word with bit 63 clear carries an S slot and a V slot at once: both come back from it unless both write
one scalar register. (From R77, R78, R81, R82, R103, Table 4.1, Table 4.5.) -/
def Obligations.BundlesDecodeAsEncoded : Prop :=
  (∀ (i : Instr) (w : BitVec 64), i.WF 128 = true → encode i = some w →
    decodeBundle 128 true w = .ok (if i.lFields.isSome then .long i else if i.sFields.isSome then .paired i .vnop else .paired (.nop ⟨0, 0⟩) i)) ∧
  (∀ (i j : Instr) (f : SFields) (h : VFields), i.WF 128 = true → j.WF 128 = true → i.sFields = some f → j.vFields = some h →
    decodeBundle 128 false (pairBits f h) = if scalarClash i j then .error .sameScalar else .ok (.paired i j))

/-- R86, R87, R89, Tables 4.9 and 4.10: for every well-formed instruction with a stream encoding, every value of its
operands and every idle count, one engine's stream decodes its word to exactly that instruction and count; and
whatever any engine's stream decodes to an instruction of the timed plane is the word that the instruction and count
encode to. (From R86, R87, R89, Table 4.9, Table 4.10.) -/
def Obligations.StreamWordsDecodeAsEncoded : Prop :=
  (∀ (x : StreamWord) (w : BitVec 64), x.instr.WF 0 = true → encodeStream x = some w → ∃ eng, eng < 7 ∧ decodeT eng w = .ok x) ∧
  (∀ (eng : Nat) (w v : BitVec 64) (x : StreamWord), decodeT eng w = .ok x → encodeStream x = some v → v = w)

/-- The memory of the model (R239, R244, R245, R16, R240) is a list of cells with strictly rising addresses and none that
equals what an unlisted address reads as; from every state in which memory and the attribute bytes have that form,
whatever the step does, they have it in the next state. It rests on the model's representation of memory; no rule of
the spec is claimed for it. (From R239, R240, R244, R245.) -/
def Obligations.StepKeepsMemoryForm : Prop :=
  ∀ s t : State, s.mem.wf = true → s.attr.wf = true → step s = .next t → t.mem.wf = true ∧ t.attr.wf = true
end

