-- ==== Sys2Proof/Laws/Memory.lean ====
section
/-! SUPPORT. Memory as data: what each operation reads back as, and that each keeps the canonical form. -/

namespace Sys2Proof.Machine

/-- Every cell of a memory lies above an address. -/
def Memory.above (m : Memory) (a : Nat) : Prop := ∀ c ∈ m, a < c.1

theorem Memory.wf_cons {a : Nat} {x : Byte} {m : Memory} :
    Memory.wf ((a, x) :: m) = true ↔ x ≠ unlisted a ∧ m.above a ∧ m.wf = true := by
  induction m generalizing a x with
  | nil => simp [Memory.wf, Memory.above]
  | cons c t ih =>
    obtain ⟨b, y⟩ := c
    have h := @ih b y
    simp only [Memory.wf, Bool.and_eq_true, decide_eq_true_eq]
    constructor
    · rintro ⟨⟨h1, h2⟩, h3⟩
      refine ⟨h1, ?_, h3⟩
      intro c hc
      rcases List.mem_cons.1 hc with rfl | hc
      · exact h2
      · exact lt_trans h2 ((h.1 h3).2.1 c hc)
    · rintro ⟨h1, h2, h3⟩
      exact ⟨⟨h1, h2 (b, y) (by simp)⟩, h3⟩

theorem Memory.wf_nil : Memory.wf [] = true := rfl

theorem Memory.read_above {m : Memory} {a b : Nat} (h : m.above a) (hb : b ≤ a) : m.read b = unlisted b := by
  cases m with
  | nil => rfl
  | cons c t =>
    have := h c (by simp)
    simp [Memory.read, show b < c.1 by omega]

theorem Memory.above_insert {m : Memory} {a b : Nat} {x : Byte} (h : m.above b) (hb : b < a) : (m.insert a x).above b := by
  induction m with
  | nil => simpa [Memory.insert, Memory.above] using hb
  | cons c t ih =>
    have ht : Memory.above t b := fun d hd => h d (by simp [hd])
    have hc : b < c.1 := h c (by simp)
    simp only [Memory.insert]
    split_ifs
    · intro d hd; rcases List.mem_cons.1 hd with rfl | hd
      · exact hb
      · exact h d hd
    · intro d hd; rcases List.mem_cons.1 hd with rfl | hd
      · exact hb
      · exact ht d hd
    · intro d hd; rcases List.mem_cons.1 hd with rfl | hd
      · exact hc
      · exact ih ht d hd

theorem Memory.above_clear {m : Memory} {a b : Nat} (h : m.above b) : (m.clear a).above b := by
  induction m with
  | nil => exact h
  | cons c t ih =>
    have ht : Memory.above t b := fun d hd => h d (by simp [hd])
    simp only [Memory.clear]
    split_ifs
    · exact h
    · exact ht
    · intro d hd; rcases List.mem_cons.1 hd with rfl | hd
      · exact h _ (by simp)
      · exact ih ht d hd

theorem Memory.wf_insert {m : Memory} {a : Nat} {x : Byte} (h : m.wf = true) (hx : x ≠ unlisted a) :
    (m.insert a x).wf = true := by
  induction m with
  | nil => simpa [Memory.insert, Memory.wf] using hx
  | cons c t ih =>
    obtain ⟨b, y⟩ := c
    obtain ⟨h1, h2, h3⟩ := Memory.wf_cons.1 h
    simp only [Memory.insert]
    split_ifs with hab hab'
    · refine Memory.wf_cons.2 ⟨hx, ?_, h⟩
      intro d hd; rcases List.mem_cons.1 hd with rfl | hd
      · exact hab
      · exact lt_trans hab (h2 d hd)
    · subst hab'; exact Memory.wf_cons.2 ⟨hx, h2, h3⟩
    · exact Memory.wf_cons.2 ⟨h1, Memory.above_insert h2 (by omega), ih h3⟩

theorem Memory.wf_clear {m : Memory} {a : Nat} (h : m.wf = true) : (m.clear a).wf = true := by
  induction m with
  | nil => rfl
  | cons c t ih =>
    obtain ⟨b, y⟩ := c
    obtain ⟨h1, h2, h3⟩ := Memory.wf_cons.1 h
    simp only [Memory.clear]
    split_ifs
    · exact h
    · exact h3
    · exact Memory.wf_cons.2 ⟨h1, Memory.above_clear h2, ih h3⟩

/-- A write keeps the canonical form. -/
theorem Memory.wf_write {m : Memory} {a : Nat} {x : Byte} (h : m.wf = true) : (m.write a x).wf = true := by
  unfold Memory.write
  split_ifs with hx
  · exact Memory.wf_clear h
  · exact Memory.wf_insert h hx

theorem Memory.read_insert {m : Memory} {a b : Nat} {x : Byte} (h : m.wf = true) :
    (m.insert a x).read b = if b = a then x else m.read b := by
  induction m with
  | nil =>
    simp only [Memory.insert, Memory.read]
    split_ifs <;> first | rfl | omega
  | cons c t ih =>
    obtain ⟨k, y⟩ := c
    obtain ⟨h1, h2, h3⟩ := Memory.wf_cons.1 h
    simp only [Memory.insert]
    split_ifs <;> simp only [Memory.read, ih h3] <;> split_ifs <;> first | rfl | omega

theorem Memory.read_clear {m : Memory} {a b : Nat} (h : m.wf = true) :
    (m.clear a).read b = if b = a then unlisted b else m.read b := by
  induction m with
  | nil => simp [Memory.clear, Memory.read]
  | cons c t ih =>
    obtain ⟨k, y⟩ := c
    obtain ⟨h1, h2, h3⟩ := Memory.wf_cons.1 h
    simp only [Memory.clear]
    rcases lt_trichotomy a k with hlt | heq | hgt
    · rw [if_pos hlt]
      split_ifs with hb
      · subst hb; simp [Memory.read, hlt]
      · rfl
    · subst heq
      rw [if_neg (lt_irrefl _), if_pos rfl]
      split_ifs with hb
      · subst hb; exact Memory.read_above h2 (le_refl _)
      · simp only [Memory.read, hb, if_false]
        split_ifs
        · exact Memory.read_above h2 (by omega)
        · rfl
    · rw [if_neg (by omega), if_neg (by omega)]
      simp only [Memory.read, ih h3]
      split_ifs <;> first | rfl | omega

/-- Read after write: the byte written where it was written, the old byte everywhere else. -/
theorem Memory.read_write {m : Memory} {a b : Nat} {x : Byte} (h : m.wf = true) :
    (m.write a x).read b = if b = a then x else m.read b := by
  unfold Memory.write
  split_ifs with hx hb hb
  · subst hb; simp [Memory.read_clear h, hx]
  · simp [Memory.read_clear h, hb]
  · simp [Memory.read_insert h, hb]
  · simp [Memory.read_insert h, hb]

/-- Two memories in canonical form that read alike are the same data. -/
theorem Memory.ext {m n : Memory} (hm : m.wf = true) (hn : n.wf = true) (h : ∀ a, m.read a = n.read a) : m = n := by
  induction m generalizing n with
  | nil =>
    cases n with
    | nil => rfl
    | cons c t =>
      obtain ⟨b, y⟩ := c
      have := h b
      simp [Memory.read] at this
      exact absurd this.symm (Memory.wf_cons.1 hn).1
  | cons c t ih =>
    obtain ⟨b, y⟩ := c
    obtain ⟨h1, h2, h3⟩ := Memory.wf_cons.1 hm
    cases n with
    | nil =>
      have := h b
      simp [Memory.read] at this
      exact absurd this h1
    | cons d u =>
      obtain ⟨k, z⟩ := d
      obtain ⟨g1, g2, g3⟩ := Memory.wf_cons.1 hn
      have hk : b = k := by
        rcases lt_trichotomy b k with hlt | heq | hlt
        · have := h b; simp [Memory.read, hlt] at this; exact absurd this h1
        · exact heq
        · have := h k; simp [Memory.read, hlt] at this; exact absurd this.symm g1
      subst hk
      have hy : y = z := by simpa [Memory.read] using h b
      subst hy
      congr 1
      refine ih h3 g3 fun a => ?_
      have := h a
      simp only [Memory.read] at this
      by_cases ha : a < b
      · rw [Memory.read_above h2 (by omega), Memory.read_above g2 (by omega)]
      · by_cases hb : a = b
        · subst hb; rw [Memory.read_above h2 (le_refl _), Memory.read_above g2 (le_refl _)]
        · simpa [ha, hb] using this

theorem Memory.wf_writeN {m : Memory} {a n v : Nat} (h : m.wf = true) : (m.writeN a n v).wf = true := by
  induction n generalizing m a v with
  | zero => exact h
  | succ n ih => exact ih (Memory.wf_write h)

/-- A store of n bytes changes those bytes, and each gets its byte of the value (R12). -/
theorem Memory.read_writeN {m : Memory} {a n v b : Nat} (h : m.wf = true) :
    (m.writeN a n v).read b = if a ≤ b ∧ b < a + n then BitVec.ofNat 8 (v / 256 ^ (b - a)) else m.read b := by
  induction n generalizing m a v with
  | zero => simp [Memory.writeN, show ¬(a ≤ b ∧ b < a) by omega]
  | succ n ih =>
    rw [Memory.writeN, ih (Memory.wf_write h), Memory.read_write h]
    by_cases hb : b = a
    · subst hb; simp [show ¬(b + 1 ≤ b) by omega]
    · by_cases h2 : a + 1 ≤ b ∧ b < a + 1 + n
      · rw [if_pos h2, if_pos (by omega), Nat.div_div_eq_div_mul, ← pow_succ', show b - a = b - (a + 1) + 1 by omega]
      · rw [if_neg h2, if_neg hb, if_neg (by omega)]

/-- A store leaves every byte outside it. -/
theorem Memory.read_writeN_outside {m : Memory} {a n v b : Nat} (h : m.wf = true) (hb : b < a ∨ a + n ≤ b) :
    (m.writeN a n v).read b = m.read b := by
  rw [Memory.read_writeN h, if_neg (by omega)]

theorem Memory.readN_eq {m n : Memory} {a k : Nat} (h : ∀ b, a ≤ b → b < a + k → m.read b = n.read b) :
    m.readN a k = n.readN a k := by
  induction k generalizing a with
  | zero => rfl
  | succ k ih =>
    simp only [Memory.readN]
    rw [h a (le_refl _) (by omega), ih fun b h1 h2 => h b (by omega) (by omega)]

/-- A value of n bytes reads back as it was stored. -/
theorem Memory.readN_writeN {m : Memory} {a n v : Nat} (h : m.wf = true) :
    (m.writeN a n v).readN a n = v % 256 ^ n := by
  induction n generalizing m a v with
  | zero => simp [Memory.readN, Nat.mod_one]
  | succ n ih =>
    rw [Memory.readN, Memory.writeN, ih (Memory.wf_write h), Memory.read_writeN (Memory.wf_write h),
      if_neg (by omega), Memory.read_write h, if_pos rfl, pow_succ', Nat.mod_mul]
    simp

theorem Memory.readN_writeN_outside {m : Memory} {a n v b k : Nat} (h : m.wf = true) (hb : b + k ≤ a ∨ a + n ≤ b) :
    (m.writeN a n v).readN b k = m.readN b k :=
  Memory.readN_eq fun _ h1 h2 => Memory.read_writeN_outside h (by omega)

theorem Memory.wf_filter {m : Memory} {p : Host.Cell → Bool} (h : m.wf = true) : Memory.wf (m.filter p) = true := by
  induction m with
  | nil => rfl
  | cons c t ih =>
    obtain ⟨b, y⟩ := c
    obtain ⟨h1, h2, h3⟩ := Memory.wf_cons.1 h
    simp only [List.filter_cons]
    split_ifs
    · exact Memory.wf_cons.2 ⟨h1, fun d hd => h2 d (List.mem_filter.1 hd).1, ih h3⟩
    · exact ih h3

theorem Memory.wf_wipe {m : Memory} {lo hi : Nat} (h : m.wf = true) : (m.wipe lo hi).wf = true := Memory.wf_filter h

theorem Memory.read_filter {m : Memory} {p : Nat → Bool} {b : Nat} (h : m.wf = true) :
    Memory.read (m.filter fun c => p c.1) b = if p b then m.read b else unlisted b := by
  induction m with
  | nil => simp [Memory.read]
  | cons c t ih =>
    obtain ⟨k, y⟩ := c
    obtain ⟨h1, h2, h3⟩ := Memory.wf_cons.1 h
    simp only [List.filter_cons]
    by_cases hk : b = k
    · subst hk
      cases hp : p b
      · simp [hp, ih h3]
      · simp [Memory.read]
    · split_ifs with hp hb hb
      · simp only [Memory.read, ih h3, hb, if_true, hk, if_false]
      · simp [Memory.read, ih h3, hb, hk]
      · rw [ih h3, if_pos hb]
        simp only [Memory.read, hk, if_false]
        split_ifs with hlt
        · exact Memory.read_above h2 (by omega)
        · rfl
      · rw [ih h3, if_neg hb]

/-- Wiping a range leaves each of its bytes unlisted and every other byte as it was. -/
theorem Memory.read_wipe {m : Memory} {lo hi b : Nat} (h : m.wf = true) :
    (m.wipe lo hi).read b = if lo ≤ b ∧ b < hi then unlisted b else m.read b := by
  unfold Memory.wipe
  have := @Memory.read_filter m (fun a => decide (a < lo) || decide (hi ≤ a)) b h
  simp only [this, Bool.or_eq_true, decide_eq_true_eq]
  split_ifs <;> first | rfl | omega

theorem Memory.wf_foldl_write {l : List Host.Cell} {m : Memory} (h : m.wf = true) :
    Memory.wf (l.foldl (fun r c => Memory.write r c.1 c.2) m) = true := by
  induction l generalizing m with
  | nil => exact h
  | cons c t ih => exact ih (Memory.wf_write h)

theorem Memory.wf_relocate {m : Memory} {gone : Nat → Bool} {dest : Nat → Option Nat} (h : m.wf = true) :
    (m.relocate gone dest).wf = true := Memory.wf_foldl_write (Memory.wf_filter h)

end Sys2Proof.Machine
end

