-- ==== Sys2Proof/Laws/State.lean ====
section
/-! SUPPORT. What each named update of the state leaves alone: one lemma per field, by computation, so that no later
proof unfolds a record update. -/

namespace Sys2Proof.Machine

/-- All that sending a result on its way can do: hold it back with the bundle, or put its landing on the agenda. -/
theorem State.land_cases (s : State) (l : Nat) (w : RegWrite) :
    s.land l w = { s with cur := { s.cur with heldV := s.cur.heldV ++ [(s.now + l * s.dil, w)] } } ∨
    s.land l w = s.dueIn (l * s.dil) (landRank (l * s.dil)) (.registerResultLands s.cur.uid s.now w) := by
  unfold State.land
  dsimp only
  generalize (_ && _ : Bool) = b
  cases b
  · exact .inr rfl
  · exact .inl rfl

@[simp] theorem State.dueAt_now (s : State) (c r : Nat) (w : Task) : (s.dueAt c r w).now = s.now := rfl
@[simp] theorem State.dueAt_tickOff (s : State) (c r : Nat) (w : Task) : (s.dueAt c r w).tickOff = s.tickOff := rfl
@[simp] theorem State.dueAt_fresh (s : State) (c r : Nat) (w : Task) : (s.dueAt c r w).fresh = s.fresh := rfl
@[simp] theorem State.dueAt_nextUid (s : State) (c r : Nat) (w : Task) : (s.dueAt c r w).nextUid = s.nextUid := rfl
@[simp] theorem State.dueAt_nextId (s : State) (c r : Nat) (w : Task) : (s.dueAt c r w).nextId = s.nextId := rfl
@[simp] theorem State.dueAt_cur (s : State) (c r : Nat) (w : Task) : (s.dueAt c r w).cur = s.cur := rfl
@[simp] theorem State.dueAt_p (s : State) (c r : Nat) (w : Task) : (s.dueAt c r w).p = s.p := rfl
@[simp] theorem State.dueAt_tl (s : State) (c r : Nat) (w : Task) : (s.dueAt c r w).tl = s.tl := rfl
@[simp] theorem State.dueAt_tix (s : State) (c r : Nat) (w : Task) : (s.dueAt c r w).tix = s.tix := rfl
@[simp] theorem State.dueAt_tstream (s : State) (c r : Nat) (w : Task) : (s.dueAt c r w).tstream = s.tstream := rfl
@[simp] theorem State.dueAt_slotV (s : State) (c r : Nat) (w : Task) : (s.dueAt c r w).slotV = s.slotV := rfl
@[simp] theorem State.dueAt_goto (s : State) (c r : Nat) (w : Task) : (s.dueAt c r w).goto = s.goto := rfl
@[simp] theorem State.dueAt_bundle (s : State) (c r : Nat) (w : Task) : (s.dueAt c r w).bundle = s.bundle := rfl
@[simp] theorem State.dueAt_force (s : State) (c r : Nat) (w : Task) : (s.dueAt c r w).force = s.force := rfl
@[simp] theorem State.dueAt_mem (s : State) (c r : Nat) (w : Task) : (s.dueAt c r w).mem = s.mem := rfl
@[simp] theorem State.dueAt_attr (s : State) (c r : Nat) (w : Task) : (s.dueAt c r w).attr = s.attr := rfl
@[simp] theorem State.dueAt_lists (s : State) (c r : Nat) (w : Task) : (s.dueAt c r w).lists = s.lists := rfl
@[simp] theorem State.dueAt_threads (s : State) (c r : Nat) (w : Task) : (s.dueAt c r w).threads = s.threads := rfl
@[simp] theorem State.dueAt_parts (s : State) (c r : Nat) (w : Task) : (s.dueAt c r w).parts = s.parts := rfl
@[simp] theorem State.dueAt_table (s : State) (c r : Nat) (w : Task) : (s.dueAt c r w).table = s.table := rfl
@[simp] theorem State.dueAt_links (s : State) (c r : Nat) (w : Task) : (s.dueAt c r w).links = s.links := rfl
@[simp] theorem State.dueAt_frames (s : State) (c r : Nat) (w : Task) : (s.dueAt c r w).frames = s.frames := rfl
@[simp] theorem State.dueAt_lost (s : State) (c r : Nat) (w : Task) : (s.dueAt c r w).lost = s.lost := rfl
@[simp] theorem State.dueAt_group (s : State) (c r : Nat) (w : Task) : (s.dueAt c r w).group = s.group := rfl
@[simp] theorem State.dueAt_peers (s : State) (c r : Nat) (w : Task) : (s.dueAt c r w).peers = s.peers := rfl
@[simp] theorem State.dueAt_ctls (s : State) (c r : Nat) (w : Task) : (s.dueAt c r w).ctls = s.ctls := rfl
@[simp] theorem State.dueAt_chans (s : State) (c r : Nat) (w : Task) : (s.dueAt c r w).chans = s.chans := rfl
@[simp] theorem State.dueAt_hostQueue (s : State) (c r : Nat) (w : Task) : (s.dueAt c r w).hostQueue = s.hostQueue := rfl
@[simp] theorem State.dueAt_ring (s : State) (c r : Nat) (w : Task) : (s.dueAt c r w).ring = s.ring := rfl
@[simp] theorem State.dueAt_ringProd (s : State) (c r : Nat) (w : Task) : (s.dueAt c r w).ringProd = s.ringProd := rfl
@[simp] theorem State.dueAt_ringCons (s : State) (c r : Nat) (w : Task) : (s.dueAt c r w).ringCons = s.ringCons := rfl
@[simp] theorem State.dueAt_ringWait (s : State) (c r : Nat) (w : Task) : (s.dueAt c r w).ringWait = s.ringWait := rfl
@[simp] theorem State.dueAt_mboxReq (s : State) (c r : Nat) (w : Task) : (s.dueAt c r w).mboxReq = s.mboxReq := rfl
@[simp] theorem State.dueAt_mboxResp (s : State) (c r : Nat) (w : Task) : (s.dueAt c r w).mboxResp = s.mboxResp := rfl
@[simp] theorem State.dueAt_mgmt (s : State) (c r : Nat) (w : Task) : (s.dueAt c r w).mgmt = s.mgmt := rfl
@[simp] theorem State.dueAt_firmware (s : State) (c r : Nat) (w : Task) : (s.dueAt c r w).firmware = s.firmware := rfl
@[simp] theorem State.dueAt_out (s : State) (c r : Nat) (w : Task) : (s.dueAt c r w).out = s.out := rfl

@[simp] theorem State.dueIn_now (s : State) (d r : Nat) (i : Instr) : (s.dueIn d r i).now = s.now := rfl
@[simp] theorem State.dueIn_tickOff (s : State) (d r : Nat) (i : Instr) : (s.dueIn d r i).tickOff = s.tickOff := rfl
@[simp] theorem State.dueIn_fresh (s : State) (d r : Nat) (i : Instr) : (s.dueIn d r i).fresh = s.fresh := rfl
@[simp] theorem State.dueIn_nextUid (s : State) (d r : Nat) (i : Instr) : (s.dueIn d r i).nextUid = s.nextUid := rfl
@[simp] theorem State.dueIn_nextId (s : State) (d r : Nat) (i : Instr) : (s.dueIn d r i).nextId = s.nextId := rfl
@[simp] theorem State.dueIn_cur (s : State) (d r : Nat) (i : Instr) : (s.dueIn d r i).cur = s.cur := rfl
@[simp] theorem State.dueIn_p (s : State) (d r : Nat) (i : Instr) : (s.dueIn d r i).p = s.p := rfl
@[simp] theorem State.dueIn_tl (s : State) (d r : Nat) (i : Instr) : (s.dueIn d r i).tl = s.tl := rfl
@[simp] theorem State.dueIn_tix (s : State) (d r : Nat) (i : Instr) : (s.dueIn d r i).tix = s.tix := rfl
@[simp] theorem State.dueIn_tstream (s : State) (d r : Nat) (i : Instr) : (s.dueIn d r i).tstream = s.tstream := rfl
@[simp] theorem State.dueIn_slotV (s : State) (d r : Nat) (i : Instr) : (s.dueIn d r i).slotV = s.slotV := rfl
@[simp] theorem State.dueIn_goto (s : State) (d r : Nat) (i : Instr) : (s.dueIn d r i).goto = s.goto := rfl
@[simp] theorem State.dueIn_bundle (s : State) (d r : Nat) (i : Instr) : (s.dueIn d r i).bundle = s.bundle := rfl
@[simp] theorem State.dueIn_force (s : State) (d r : Nat) (i : Instr) : (s.dueIn d r i).force = s.force := rfl
@[simp] theorem State.dueIn_mem (s : State) (d r : Nat) (i : Instr) : (s.dueIn d r i).mem = s.mem := rfl
@[simp] theorem State.dueIn_attr (s : State) (d r : Nat) (i : Instr) : (s.dueIn d r i).attr = s.attr := rfl
@[simp] theorem State.dueIn_lists (s : State) (d r : Nat) (i : Instr) : (s.dueIn d r i).lists = s.lists := rfl
@[simp] theorem State.dueIn_threads (s : State) (d r : Nat) (i : Instr) : (s.dueIn d r i).threads = s.threads := rfl
@[simp] theorem State.dueIn_parts (s : State) (d r : Nat) (i : Instr) : (s.dueIn d r i).parts = s.parts := rfl
@[simp] theorem State.dueIn_table (s : State) (d r : Nat) (i : Instr) : (s.dueIn d r i).table = s.table := rfl
@[simp] theorem State.dueIn_links (s : State) (d r : Nat) (i : Instr) : (s.dueIn d r i).links = s.links := rfl
@[simp] theorem State.dueIn_frames (s : State) (d r : Nat) (i : Instr) : (s.dueIn d r i).frames = s.frames := rfl
@[simp] theorem State.dueIn_lost (s : State) (d r : Nat) (i : Instr) : (s.dueIn d r i).lost = s.lost := rfl
@[simp] theorem State.dueIn_group (s : State) (d r : Nat) (i : Instr) : (s.dueIn d r i).group = s.group := rfl
@[simp] theorem State.dueIn_peers (s : State) (d r : Nat) (i : Instr) : (s.dueIn d r i).peers = s.peers := rfl
@[simp] theorem State.dueIn_ctls (s : State) (d r : Nat) (i : Instr) : (s.dueIn d r i).ctls = s.ctls := rfl
@[simp] theorem State.dueIn_chans (s : State) (d r : Nat) (i : Instr) : (s.dueIn d r i).chans = s.chans := rfl
@[simp] theorem State.dueIn_hostQueue (s : State) (d r : Nat) (i : Instr) : (s.dueIn d r i).hostQueue = s.hostQueue := rfl
@[simp] theorem State.dueIn_ring (s : State) (d r : Nat) (i : Instr) : (s.dueIn d r i).ring = s.ring := rfl
@[simp] theorem State.dueIn_ringProd (s : State) (d r : Nat) (i : Instr) : (s.dueIn d r i).ringProd = s.ringProd := rfl
@[simp] theorem State.dueIn_ringCons (s : State) (d r : Nat) (i : Instr) : (s.dueIn d r i).ringCons = s.ringCons := rfl
@[simp] theorem State.dueIn_ringWait (s : State) (d r : Nat) (i : Instr) : (s.dueIn d r i).ringWait = s.ringWait := rfl
@[simp] theorem State.dueIn_mboxReq (s : State) (d r : Nat) (i : Instr) : (s.dueIn d r i).mboxReq = s.mboxReq := rfl
@[simp] theorem State.dueIn_mboxResp (s : State) (d r : Nat) (i : Instr) : (s.dueIn d r i).mboxResp = s.mboxResp := rfl
@[simp] theorem State.dueIn_mgmt (s : State) (d r : Nat) (i : Instr) : (s.dueIn d r i).mgmt = s.mgmt := rfl
@[simp] theorem State.dueIn_firmware (s : State) (d r : Nat) (i : Instr) : (s.dueIn d r i).firmware = s.firmware := rfl
@[simp] theorem State.dueIn_out (s : State) (d r : Nat) (i : Instr) : (s.dueIn d r i).out = s.out := rfl

@[simp] theorem State.duePlan_now (s : State) (k r : Nat) (w : Task) : (s.duePlan k r w).now = s.now := rfl
@[simp] theorem State.duePlan_tickOff (s : State) (k r : Nat) (w : Task) : (s.duePlan k r w).tickOff = s.tickOff := rfl
@[simp] theorem State.duePlan_agenda (s : State) (k r : Nat) (w : Task) : (s.duePlan k r w).agenda = s.agenda := rfl
@[simp] theorem State.duePlan_fresh (s : State) (k r : Nat) (w : Task) : (s.duePlan k r w).fresh = s.fresh := rfl
@[simp] theorem State.duePlan_nextUid (s : State) (k r : Nat) (w : Task) : (s.duePlan k r w).nextUid = s.nextUid := rfl
@[simp] theorem State.duePlan_nextId (s : State) (k r : Nat) (w : Task) : (s.duePlan k r w).nextId = s.nextId := rfl
@[simp] theorem State.duePlan_cur (s : State) (k r : Nat) (w : Task) : (s.duePlan k r w).cur = s.cur := rfl
@[simp] theorem State.duePlan_tl (s : State) (k r : Nat) (w : Task) : (s.duePlan k r w).tl = s.tl := rfl
@[simp] theorem State.duePlan_tix (s : State) (k r : Nat) (w : Task) : (s.duePlan k r w).tix = s.tix := rfl
@[simp] theorem State.duePlan_tstream (s : State) (k r : Nat) (w : Task) : (s.duePlan k r w).tstream = s.tstream := rfl
@[simp] theorem State.duePlan_slotV (s : State) (k r : Nat) (w : Task) : (s.duePlan k r w).slotV = s.slotV := rfl
@[simp] theorem State.duePlan_goto (s : State) (k r : Nat) (w : Task) : (s.duePlan k r w).goto = s.goto := rfl
@[simp] theorem State.duePlan_bundle (s : State) (k r : Nat) (w : Task) : (s.duePlan k r w).bundle = s.bundle := rfl
@[simp] theorem State.duePlan_force (s : State) (k r : Nat) (w : Task) : (s.duePlan k r w).force = s.force := rfl
@[simp] theorem State.duePlan_mem (s : State) (k r : Nat) (w : Task) : (s.duePlan k r w).mem = s.mem := rfl
@[simp] theorem State.duePlan_attr (s : State) (k r : Nat) (w : Task) : (s.duePlan k r w).attr = s.attr := rfl
@[simp] theorem State.duePlan_lists (s : State) (k r : Nat) (w : Task) : (s.duePlan k r w).lists = s.lists := rfl
@[simp] theorem State.duePlan_threads (s : State) (k r : Nat) (w : Task) : (s.duePlan k r w).threads = s.threads := rfl
@[simp] theorem State.duePlan_parts (s : State) (k r : Nat) (w : Task) : (s.duePlan k r w).parts = s.parts := rfl
@[simp] theorem State.duePlan_table (s : State) (k r : Nat) (w : Task) : (s.duePlan k r w).table = s.table := rfl
@[simp] theorem State.duePlan_links (s : State) (k r : Nat) (w : Task) : (s.duePlan k r w).links = s.links := rfl
@[simp] theorem State.duePlan_frames (s : State) (k r : Nat) (w : Task) : (s.duePlan k r w).frames = s.frames := rfl
@[simp] theorem State.duePlan_lost (s : State) (k r : Nat) (w : Task) : (s.duePlan k r w).lost = s.lost := rfl
@[simp] theorem State.duePlan_group (s : State) (k r : Nat) (w : Task) : (s.duePlan k r w).group = s.group := rfl
@[simp] theorem State.duePlan_peers (s : State) (k r : Nat) (w : Task) : (s.duePlan k r w).peers = s.peers := rfl
@[simp] theorem State.duePlan_ctls (s : State) (k r : Nat) (w : Task) : (s.duePlan k r w).ctls = s.ctls := rfl
@[simp] theorem State.duePlan_chans (s : State) (k r : Nat) (w : Task) : (s.duePlan k r w).chans = s.chans := rfl
@[simp] theorem State.duePlan_hostQueue (s : State) (k r : Nat) (w : Task) : (s.duePlan k r w).hostQueue = s.hostQueue := rfl
@[simp] theorem State.duePlan_ring (s : State) (k r : Nat) (w : Task) : (s.duePlan k r w).ring = s.ring := rfl
@[simp] theorem State.duePlan_ringProd (s : State) (k r : Nat) (w : Task) : (s.duePlan k r w).ringProd = s.ringProd := rfl
@[simp] theorem State.duePlan_ringCons (s : State) (k r : Nat) (w : Task) : (s.duePlan k r w).ringCons = s.ringCons := rfl
@[simp] theorem State.duePlan_ringWait (s : State) (k r : Nat) (w : Task) : (s.duePlan k r w).ringWait = s.ringWait := rfl
@[simp] theorem State.duePlan_mboxReq (s : State) (k r : Nat) (w : Task) : (s.duePlan k r w).mboxReq = s.mboxReq := rfl
@[simp] theorem State.duePlan_mboxResp (s : State) (k r : Nat) (w : Task) : (s.duePlan k r w).mboxResp = s.mboxResp := rfl
@[simp] theorem State.duePlan_mgmt (s : State) (k r : Nat) (w : Task) : (s.duePlan k r w).mgmt = s.mgmt := rfl
@[simp] theorem State.duePlan_firmware (s : State) (k r : Nat) (w : Task) : (s.duePlan k r w).firmware = s.firmware := rfl
@[simp] theorem State.duePlan_out (s : State) (k r : Nat) (w : Task) : (s.duePlan k r w).out = s.out := rfl

@[simp] theorem State.dueTick_now (s : State) (k r : Nat) (i : Instr) : (s.dueTick k r i).now = s.now := rfl
@[simp] theorem State.dueTick_tickOff (s : State) (k r : Nat) (i : Instr) : (s.dueTick k r i).tickOff = s.tickOff := rfl
@[simp] theorem State.dueTick_agenda (s : State) (k r : Nat) (i : Instr) : (s.dueTick k r i).agenda = s.agenda := rfl
@[simp] theorem State.dueTick_fresh (s : State) (k r : Nat) (i : Instr) : (s.dueTick k r i).fresh = s.fresh := rfl
@[simp] theorem State.dueTick_nextUid (s : State) (k r : Nat) (i : Instr) : (s.dueTick k r i).nextUid = s.nextUid := rfl
@[simp] theorem State.dueTick_nextId (s : State) (k r : Nat) (i : Instr) : (s.dueTick k r i).nextId = s.nextId := rfl
@[simp] theorem State.dueTick_cur (s : State) (k r : Nat) (i : Instr) : (s.dueTick k r i).cur = s.cur := rfl
@[simp] theorem State.dueTick_tl (s : State) (k r : Nat) (i : Instr) : (s.dueTick k r i).tl = s.tl := rfl
@[simp] theorem State.dueTick_tix (s : State) (k r : Nat) (i : Instr) : (s.dueTick k r i).tix = s.tix := rfl
@[simp] theorem State.dueTick_tstream (s : State) (k r : Nat) (i : Instr) : (s.dueTick k r i).tstream = s.tstream := rfl
@[simp] theorem State.dueTick_slotV (s : State) (k r : Nat) (i : Instr) : (s.dueTick k r i).slotV = s.slotV := rfl
@[simp] theorem State.dueTick_goto (s : State) (k r : Nat) (i : Instr) : (s.dueTick k r i).goto = s.goto := rfl
@[simp] theorem State.dueTick_bundle (s : State) (k r : Nat) (i : Instr) : (s.dueTick k r i).bundle = s.bundle := rfl
@[simp] theorem State.dueTick_force (s : State) (k r : Nat) (i : Instr) : (s.dueTick k r i).force = s.force := rfl
@[simp] theorem State.dueTick_mem (s : State) (k r : Nat) (i : Instr) : (s.dueTick k r i).mem = s.mem := rfl
@[simp] theorem State.dueTick_attr (s : State) (k r : Nat) (i : Instr) : (s.dueTick k r i).attr = s.attr := rfl
@[simp] theorem State.dueTick_lists (s : State) (k r : Nat) (i : Instr) : (s.dueTick k r i).lists = s.lists := rfl
@[simp] theorem State.dueTick_threads (s : State) (k r : Nat) (i : Instr) : (s.dueTick k r i).threads = s.threads := rfl
@[simp] theorem State.dueTick_parts (s : State) (k r : Nat) (i : Instr) : (s.dueTick k r i).parts = s.parts := rfl
@[simp] theorem State.dueTick_table (s : State) (k r : Nat) (i : Instr) : (s.dueTick k r i).table = s.table := rfl
@[simp] theorem State.dueTick_links (s : State) (k r : Nat) (i : Instr) : (s.dueTick k r i).links = s.links := rfl
@[simp] theorem State.dueTick_frames (s : State) (k r : Nat) (i : Instr) : (s.dueTick k r i).frames = s.frames := rfl
@[simp] theorem State.dueTick_lost (s : State) (k r : Nat) (i : Instr) : (s.dueTick k r i).lost = s.lost := rfl
@[simp] theorem State.dueTick_group (s : State) (k r : Nat) (i : Instr) : (s.dueTick k r i).group = s.group := rfl
@[simp] theorem State.dueTick_peers (s : State) (k r : Nat) (i : Instr) : (s.dueTick k r i).peers = s.peers := rfl
@[simp] theorem State.dueTick_ctls (s : State) (k r : Nat) (i : Instr) : (s.dueTick k r i).ctls = s.ctls := rfl
@[simp] theorem State.dueTick_chans (s : State) (k r : Nat) (i : Instr) : (s.dueTick k r i).chans = s.chans := rfl
@[simp] theorem State.dueTick_hostQueue (s : State) (k r : Nat) (i : Instr) : (s.dueTick k r i).hostQueue = s.hostQueue := rfl
@[simp] theorem State.dueTick_ring (s : State) (k r : Nat) (i : Instr) : (s.dueTick k r i).ring = s.ring := rfl
@[simp] theorem State.dueTick_ringProd (s : State) (k r : Nat) (i : Instr) : (s.dueTick k r i).ringProd = s.ringProd := rfl
@[simp] theorem State.dueTick_ringCons (s : State) (k r : Nat) (i : Instr) : (s.dueTick k r i).ringCons = s.ringCons := rfl
@[simp] theorem State.dueTick_ringWait (s : State) (k r : Nat) (i : Instr) : (s.dueTick k r i).ringWait = s.ringWait := rfl
@[simp] theorem State.dueTick_mboxReq (s : State) (k r : Nat) (i : Instr) : (s.dueTick k r i).mboxReq = s.mboxReq := rfl
@[simp] theorem State.dueTick_mboxResp (s : State) (k r : Nat) (i : Instr) : (s.dueTick k r i).mboxResp = s.mboxResp := rfl
@[simp] theorem State.dueTick_mgmt (s : State) (k r : Nat) (i : Instr) : (s.dueTick k r i).mgmt = s.mgmt := rfl
@[simp] theorem State.dueTick_firmware (s : State) (k r : Nat) (i : Instr) : (s.dueTick k r i).firmware = s.firmware := rfl
@[simp] theorem State.dueTick_out (s : State) (k r : Nat) (i : Instr) : (s.dueTick k r i).out = s.out := rfl

@[simp] theorem State.onRun_now (s : State) (f : Run → Run) : (s.onRun f).now = s.now := rfl
@[simp] theorem State.onRun_tickOff (s : State) (f : Run → Run) : (s.onRun f).tickOff = s.tickOff := rfl
@[simp] theorem State.onRun_agenda (s : State) (f : Run → Run) : (s.onRun f).agenda = s.agenda := rfl
@[simp] theorem State.onRun_fresh (s : State) (f : Run → Run) : (s.onRun f).fresh = s.fresh := rfl
@[simp] theorem State.onRun_nextUid (s : State) (f : Run → Run) : (s.onRun f).nextUid = s.nextUid := rfl
@[simp] theorem State.onRun_nextId (s : State) (f : Run → Run) : (s.onRun f).nextId = s.nextId := rfl
@[simp] theorem State.onRun_cur (s : State) (f : Run → Run) : (s.onRun f).cur = s.cur := rfl
@[simp] theorem State.onRun_tl (s : State) (f : Run → Run) : (s.onRun f).tl = s.tl := rfl
@[simp] theorem State.onRun_tix (s : State) (f : Run → Run) : (s.onRun f).tix = s.tix := rfl
@[simp] theorem State.onRun_tstream (s : State) (f : Run → Run) : (s.onRun f).tstream = s.tstream := rfl
@[simp] theorem State.onRun_slotV (s : State) (f : Run → Run) : (s.onRun f).slotV = s.slotV := rfl
@[simp] theorem State.onRun_goto (s : State) (f : Run → Run) : (s.onRun f).goto = s.goto := rfl
@[simp] theorem State.onRun_bundle (s : State) (f : Run → Run) : (s.onRun f).bundle = s.bundle := rfl
@[simp] theorem State.onRun_force (s : State) (f : Run → Run) : (s.onRun f).force = s.force := rfl
@[simp] theorem State.onRun_mem (s : State) (f : Run → Run) : (s.onRun f).mem = s.mem := rfl
@[simp] theorem State.onRun_attr (s : State) (f : Run → Run) : (s.onRun f).attr = s.attr := rfl
@[simp] theorem State.onRun_lists (s : State) (f : Run → Run) : (s.onRun f).lists = s.lists := rfl
@[simp] theorem State.onRun_threads (s : State) (f : Run → Run) : (s.onRun f).threads = s.threads := rfl
@[simp] theorem State.onRun_parts (s : State) (f : Run → Run) : (s.onRun f).parts = s.parts := rfl
@[simp] theorem State.onRun_table (s : State) (f : Run → Run) : (s.onRun f).table = s.table := rfl
@[simp] theorem State.onRun_links (s : State) (f : Run → Run) : (s.onRun f).links = s.links := rfl
@[simp] theorem State.onRun_frames (s : State) (f : Run → Run) : (s.onRun f).frames = s.frames := rfl
@[simp] theorem State.onRun_lost (s : State) (f : Run → Run) : (s.onRun f).lost = s.lost := rfl
@[simp] theorem State.onRun_group (s : State) (f : Run → Run) : (s.onRun f).group = s.group := rfl
@[simp] theorem State.onRun_peers (s : State) (f : Run → Run) : (s.onRun f).peers = s.peers := rfl
@[simp] theorem State.onRun_ctls (s : State) (f : Run → Run) : (s.onRun f).ctls = s.ctls := rfl
@[simp] theorem State.onRun_chans (s : State) (f : Run → Run) : (s.onRun f).chans = s.chans := rfl
@[simp] theorem State.onRun_hostQueue (s : State) (f : Run → Run) : (s.onRun f).hostQueue = s.hostQueue := rfl
@[simp] theorem State.onRun_ring (s : State) (f : Run → Run) : (s.onRun f).ring = s.ring := rfl
@[simp] theorem State.onRun_ringProd (s : State) (f : Run → Run) : (s.onRun f).ringProd = s.ringProd := rfl
@[simp] theorem State.onRun_ringCons (s : State) (f : Run → Run) : (s.onRun f).ringCons = s.ringCons := rfl
@[simp] theorem State.onRun_ringWait (s : State) (f : Run → Run) : (s.onRun f).ringWait = s.ringWait := rfl
@[simp] theorem State.onRun_mboxReq (s : State) (f : Run → Run) : (s.onRun f).mboxReq = s.mboxReq := rfl
@[simp] theorem State.onRun_mboxResp (s : State) (f : Run → Run) : (s.onRun f).mboxResp = s.mboxResp := rfl
@[simp] theorem State.onRun_mgmt (s : State) (f : Run → Run) : (s.onRun f).mgmt = s.mgmt := rfl
@[simp] theorem State.onRun_firmware (s : State) (f : Run → Run) : (s.onRun f).firmware = s.firmware := rfl
@[simp] theorem State.onRun_out (s : State) (f : Run → Run) : (s.onRun f).out = s.out := rfl

@[simp] theorem State.onCluster_now (s : State) (c : Nat) (f : ClusterPart → ClusterPart) : (s.onCluster c f).now = s.now := rfl
@[simp] theorem State.onCluster_tickOff (s : State) (c : Nat) (f : ClusterPart → ClusterPart) : (s.onCluster c f).tickOff = s.tickOff := rfl
@[simp] theorem State.onCluster_agenda (s : State) (c : Nat) (f : ClusterPart → ClusterPart) : (s.onCluster c f).agenda = s.agenda := rfl
@[simp] theorem State.onCluster_fresh (s : State) (c : Nat) (f : ClusterPart → ClusterPart) : (s.onCluster c f).fresh = s.fresh := rfl
@[simp] theorem State.onCluster_nextUid (s : State) (c : Nat) (f : ClusterPart → ClusterPart) : (s.onCluster c f).nextUid = s.nextUid := rfl
@[simp] theorem State.onCluster_nextId (s : State) (c : Nat) (f : ClusterPart → ClusterPart) : (s.onCluster c f).nextId = s.nextId := rfl
@[simp] theorem State.onCluster_cur (s : State) (c : Nat) (f : ClusterPart → ClusterPart) : (s.onCluster c f).cur = s.cur := rfl
@[simp] theorem State.onCluster_tl (s : State) (c : Nat) (f : ClusterPart → ClusterPart) : (s.onCluster c f).tl = s.tl := rfl
@[simp] theorem State.onCluster_tix (s : State) (c : Nat) (f : ClusterPart → ClusterPart) : (s.onCluster c f).tix = s.tix := rfl
@[simp] theorem State.onCluster_tstream (s : State) (c : Nat) (f : ClusterPart → ClusterPart) : (s.onCluster c f).tstream = s.tstream := rfl
@[simp] theorem State.onCluster_slotV (s : State) (c : Nat) (f : ClusterPart → ClusterPart) : (s.onCluster c f).slotV = s.slotV := rfl
@[simp] theorem State.onCluster_goto (s : State) (c : Nat) (f : ClusterPart → ClusterPart) : (s.onCluster c f).goto = s.goto := rfl
@[simp] theorem State.onCluster_bundle (s : State) (c : Nat) (f : ClusterPart → ClusterPart) : (s.onCluster c f).bundle = s.bundle := rfl
@[simp] theorem State.onCluster_force (s : State) (c : Nat) (f : ClusterPart → ClusterPart) : (s.onCluster c f).force = s.force := rfl
@[simp] theorem State.onCluster_mem (s : State) (c : Nat) (f : ClusterPart → ClusterPart) : (s.onCluster c f).mem = s.mem := rfl
@[simp] theorem State.onCluster_attr (s : State) (c : Nat) (f : ClusterPart → ClusterPart) : (s.onCluster c f).attr = s.attr := rfl
@[simp] theorem State.onCluster_lists (s : State) (c : Nat) (f : ClusterPart → ClusterPart) : (s.onCluster c f).lists = s.lists := rfl
@[simp] theorem State.onCluster_threads (s : State) (c : Nat) (f : ClusterPart → ClusterPart) : (s.onCluster c f).threads = s.threads := rfl
@[simp] theorem State.onCluster_parts (s : State) (c : Nat) (f : ClusterPart → ClusterPart) : (s.onCluster c f).parts = s.parts := rfl
@[simp] theorem State.onCluster_table (s : State) (c : Nat) (f : ClusterPart → ClusterPart) : (s.onCluster c f).table = s.table := rfl
@[simp] theorem State.onCluster_links (s : State) (c : Nat) (f : ClusterPart → ClusterPart) : (s.onCluster c f).links = s.links := rfl
@[simp] theorem State.onCluster_frames (s : State) (c : Nat) (f : ClusterPart → ClusterPart) : (s.onCluster c f).frames = s.frames := rfl
@[simp] theorem State.onCluster_lost (s : State) (c : Nat) (f : ClusterPart → ClusterPart) : (s.onCluster c f).lost = s.lost := rfl
@[simp] theorem State.onCluster_group (s : State) (c : Nat) (f : ClusterPart → ClusterPart) : (s.onCluster c f).group = s.group := rfl
@[simp] theorem State.onCluster_peers (s : State) (c : Nat) (f : ClusterPart → ClusterPart) : (s.onCluster c f).peers = s.peers := rfl
@[simp] theorem State.onCluster_ctls (s : State) (c : Nat) (f : ClusterPart → ClusterPart) : (s.onCluster c f).ctls = s.ctls := rfl
@[simp] theorem State.onCluster_chans (s : State) (c : Nat) (f : ClusterPart → ClusterPart) : (s.onCluster c f).chans = s.chans := rfl
@[simp] theorem State.onCluster_hostQueue (s : State) (c : Nat) (f : ClusterPart → ClusterPart) : (s.onCluster c f).hostQueue = s.hostQueue := rfl
@[simp] theorem State.onCluster_ring (s : State) (c : Nat) (f : ClusterPart → ClusterPart) : (s.onCluster c f).ring = s.ring := rfl
@[simp] theorem State.onCluster_ringProd (s : State) (c : Nat) (f : ClusterPart → ClusterPart) : (s.onCluster c f).ringProd = s.ringProd := rfl
@[simp] theorem State.onCluster_ringCons (s : State) (c : Nat) (f : ClusterPart → ClusterPart) : (s.onCluster c f).ringCons = s.ringCons := rfl
@[simp] theorem State.onCluster_ringWait (s : State) (c : Nat) (f : ClusterPart → ClusterPart) : (s.onCluster c f).ringWait = s.ringWait := rfl
@[simp] theorem State.onCluster_mboxReq (s : State) (c : Nat) (f : ClusterPart → ClusterPart) : (s.onCluster c f).mboxReq = s.mboxReq := rfl
@[simp] theorem State.onCluster_mboxResp (s : State) (c : Nat) (f : ClusterPart → ClusterPart) : (s.onCluster c f).mboxResp = s.mboxResp := rfl
@[simp] theorem State.onCluster_mgmt (s : State) (c : Nat) (f : ClusterPart → ClusterPart) : (s.onCluster c f).mgmt = s.mgmt := rfl
@[simp] theorem State.onCluster_firmware (s : State) (c : Nat) (f : ClusterPart → ClusterPart) : (s.onCluster c f).firmware = s.firmware := rfl
@[simp] theorem State.onCluster_out (s : State) (c : Nat) (f : ClusterPart → ClusterPart) : (s.onCluster c f).out = s.out := rfl

@[simp] theorem State.count_now (s : State) (w n : Nat) : (s.count w n).now = s.now := rfl
@[simp] theorem State.count_tickOff (s : State) (w n : Nat) : (s.count w n).tickOff = s.tickOff := rfl
@[simp] theorem State.count_agenda (s : State) (w n : Nat) : (s.count w n).agenda = s.agenda := rfl
@[simp] theorem State.count_fresh (s : State) (w n : Nat) : (s.count w n).fresh = s.fresh := rfl
@[simp] theorem State.count_nextUid (s : State) (w n : Nat) : (s.count w n).nextUid = s.nextUid := rfl
@[simp] theorem State.count_nextId (s : State) (w n : Nat) : (s.count w n).nextId = s.nextId := rfl
@[simp] theorem State.count_cur (s : State) (w n : Nat) : (s.count w n).cur = s.cur := rfl
@[simp] theorem State.count_tl (s : State) (w n : Nat) : (s.count w n).tl = s.tl := rfl
@[simp] theorem State.count_tix (s : State) (w n : Nat) : (s.count w n).tix = s.tix := rfl
@[simp] theorem State.count_tstream (s : State) (w n : Nat) : (s.count w n).tstream = s.tstream := rfl
@[simp] theorem State.count_slotV (s : State) (w n : Nat) : (s.count w n).slotV = s.slotV := rfl
@[simp] theorem State.count_goto (s : State) (w n : Nat) : (s.count w n).goto = s.goto := rfl
@[simp] theorem State.count_bundle (s : State) (w n : Nat) : (s.count w n).bundle = s.bundle := rfl
@[simp] theorem State.count_force (s : State) (w n : Nat) : (s.count w n).force = s.force := rfl
@[simp] theorem State.count_mem (s : State) (w n : Nat) : (s.count w n).mem = s.mem := rfl
@[simp] theorem State.count_attr (s : State) (w n : Nat) : (s.count w n).attr = s.attr := rfl
@[simp] theorem State.count_lists (s : State) (w n : Nat) : (s.count w n).lists = s.lists := rfl
@[simp] theorem State.count_threads (s : State) (w n : Nat) : (s.count w n).threads = s.threads := rfl
@[simp] theorem State.count_parts (s : State) (w n : Nat) : (s.count w n).parts = s.parts := rfl
@[simp] theorem State.count_table (s : State) (w n : Nat) : (s.count w n).table = s.table := rfl
@[simp] theorem State.count_links (s : State) (w n : Nat) : (s.count w n).links = s.links := rfl
@[simp] theorem State.count_frames (s : State) (w n : Nat) : (s.count w n).frames = s.frames := rfl
@[simp] theorem State.count_lost (s : State) (w n : Nat) : (s.count w n).lost = s.lost := rfl
@[simp] theorem State.count_group (s : State) (w n : Nat) : (s.count w n).group = s.group := rfl
@[simp] theorem State.count_peers (s : State) (w n : Nat) : (s.count w n).peers = s.peers := rfl
@[simp] theorem State.count_ctls (s : State) (w n : Nat) : (s.count w n).ctls = s.ctls := rfl
@[simp] theorem State.count_chans (s : State) (w n : Nat) : (s.count w n).chans = s.chans := rfl
@[simp] theorem State.count_hostQueue (s : State) (w n : Nat) : (s.count w n).hostQueue = s.hostQueue := rfl
@[simp] theorem State.count_ring (s : State) (w n : Nat) : (s.count w n).ring = s.ring := rfl
@[simp] theorem State.count_ringProd (s : State) (w n : Nat) : (s.count w n).ringProd = s.ringProd := rfl
@[simp] theorem State.count_ringCons (s : State) (w n : Nat) : (s.count w n).ringCons = s.ringCons := rfl
@[simp] theorem State.count_ringWait (s : State) (w n : Nat) : (s.count w n).ringWait = s.ringWait := rfl
@[simp] theorem State.count_mboxReq (s : State) (w n : Nat) : (s.count w n).mboxReq = s.mboxReq := rfl
@[simp] theorem State.count_mboxResp (s : State) (w n : Nat) : (s.count w n).mboxResp = s.mboxResp := rfl
@[simp] theorem State.count_mgmt (s : State) (w n : Nat) : (s.count w n).mgmt = s.mgmt := rfl
@[simp] theorem State.count_firmware (s : State) (w n : Nat) : (s.count w n).firmware = s.firmware := rfl
@[simp] theorem State.count_out (s : State) (w n : Nat) : (s.count w n).out = s.out := rfl

@[simp] theorem State.emit_now (s : State) (o : Out) : (s.emit o).now = s.now := rfl
@[simp] theorem State.emit_tickOff (s : State) (o : Out) : (s.emit o).tickOff = s.tickOff := rfl
@[simp] theorem State.emit_agenda (s : State) (o : Out) : (s.emit o).agenda = s.agenda := rfl
@[simp] theorem State.emit_fresh (s : State) (o : Out) : (s.emit o).fresh = s.fresh := rfl
@[simp] theorem State.emit_nextUid (s : State) (o : Out) : (s.emit o).nextUid = s.nextUid := rfl
@[simp] theorem State.emit_nextId (s : State) (o : Out) : (s.emit o).nextId = s.nextId := rfl
@[simp] theorem State.emit_cur (s : State) (o : Out) : (s.emit o).cur = s.cur := rfl
@[simp] theorem State.emit_p (s : State) (o : Out) : (s.emit o).p = s.p := rfl
@[simp] theorem State.emit_tl (s : State) (o : Out) : (s.emit o).tl = s.tl := rfl
@[simp] theorem State.emit_tix (s : State) (o : Out) : (s.emit o).tix = s.tix := rfl
@[simp] theorem State.emit_tstream (s : State) (o : Out) : (s.emit o).tstream = s.tstream := rfl
@[simp] theorem State.emit_slotV (s : State) (o : Out) : (s.emit o).slotV = s.slotV := rfl
@[simp] theorem State.emit_goto (s : State) (o : Out) : (s.emit o).goto = s.goto := rfl
@[simp] theorem State.emit_bundle (s : State) (o : Out) : (s.emit o).bundle = s.bundle := rfl
@[simp] theorem State.emit_force (s : State) (o : Out) : (s.emit o).force = s.force := rfl
@[simp] theorem State.emit_mem (s : State) (o : Out) : (s.emit o).mem = s.mem := rfl
@[simp] theorem State.emit_attr (s : State) (o : Out) : (s.emit o).attr = s.attr := rfl
@[simp] theorem State.emit_lists (s : State) (o : Out) : (s.emit o).lists = s.lists := rfl
@[simp] theorem State.emit_threads (s : State) (o : Out) : (s.emit o).threads = s.threads := rfl
@[simp] theorem State.emit_parts (s : State) (o : Out) : (s.emit o).parts = s.parts := rfl
@[simp] theorem State.emit_table (s : State) (o : Out) : (s.emit o).table = s.table := rfl
@[simp] theorem State.emit_links (s : State) (o : Out) : (s.emit o).links = s.links := rfl
@[simp] theorem State.emit_frames (s : State) (o : Out) : (s.emit o).frames = s.frames := rfl
@[simp] theorem State.emit_lost (s : State) (o : Out) : (s.emit o).lost = s.lost := rfl
@[simp] theorem State.emit_group (s : State) (o : Out) : (s.emit o).group = s.group := rfl
@[simp] theorem State.emit_peers (s : State) (o : Out) : (s.emit o).peers = s.peers := rfl
@[simp] theorem State.emit_ctls (s : State) (o : Out) : (s.emit o).ctls = s.ctls := rfl
@[simp] theorem State.emit_chans (s : State) (o : Out) : (s.emit o).chans = s.chans := rfl
@[simp] theorem State.emit_hostQueue (s : State) (o : Out) : (s.emit o).hostQueue = s.hostQueue := rfl
@[simp] theorem State.emit_ring (s : State) (o : Out) : (s.emit o).ring = s.ring := rfl
@[simp] theorem State.emit_ringProd (s : State) (o : Out) : (s.emit o).ringProd = s.ringProd := rfl
@[simp] theorem State.emit_ringCons (s : State) (o : Out) : (s.emit o).ringCons = s.ringCons := rfl
@[simp] theorem State.emit_ringWait (s : State) (o : Out) : (s.emit o).ringWait = s.ringWait := rfl
@[simp] theorem State.emit_mboxReq (s : State) (o : Out) : (s.emit o).mboxReq = s.mboxReq := rfl
@[simp] theorem State.emit_mboxResp (s : State) (o : Out) : (s.emit o).mboxResp = s.mboxResp := rfl
@[simp] theorem State.emit_mgmt (s : State) (o : Out) : (s.emit o).mgmt = s.mgmt := rfl
@[simp] theorem State.emit_firmware (s : State) (o : Out) : (s.emit o).firmware = s.firmware := rfl

@[simp] theorem State.storeTile_now (s : State) : (s.storeTile).now = s.now := rfl
@[simp] theorem State.storeTile_tickOff (s : State) : (s.storeTile).tickOff = s.tickOff := rfl
@[simp] theorem State.storeTile_agenda (s : State) : (s.storeTile).agenda = s.agenda := rfl
@[simp] theorem State.storeTile_fresh (s : State) : (s.storeTile).fresh = s.fresh := rfl
@[simp] theorem State.storeTile_nextUid (s : State) : (s.storeTile).nextUid = s.nextUid := rfl
@[simp] theorem State.storeTile_nextId (s : State) : (s.storeTile).nextId = s.nextId := rfl
@[simp] theorem State.storeTile_cur (s : State) : (s.storeTile).cur = s.cur := rfl
@[simp] theorem State.storeTile_tl (s : State) : (s.storeTile).tl = s.tl := rfl
@[simp] theorem State.storeTile_tix (s : State) : (s.storeTile).tix = s.tix := rfl
@[simp] theorem State.storeTile_tstream (s : State) : (s.storeTile).tstream = s.tstream := rfl
@[simp] theorem State.storeTile_slotV (s : State) : (s.storeTile).slotV = s.slotV := rfl
@[simp] theorem State.storeTile_goto (s : State) : (s.storeTile).goto = s.goto := rfl
@[simp] theorem State.storeTile_bundle (s : State) : (s.storeTile).bundle = s.bundle := rfl
@[simp] theorem State.storeTile_force (s : State) : (s.storeTile).force = s.force := rfl
@[simp] theorem State.storeTile_mem (s : State) : (s.storeTile).mem = s.mem := rfl
@[simp] theorem State.storeTile_attr (s : State) : (s.storeTile).attr = s.attr := rfl
@[simp] theorem State.storeTile_lists (s : State) : (s.storeTile).lists = s.lists := rfl
@[simp] theorem State.storeTile_threads (s : State) : (s.storeTile).threads = s.threads := rfl
@[simp] theorem State.storeTile_parts (s : State) : (s.storeTile).parts = s.parts := rfl
@[simp] theorem State.storeTile_table (s : State) : (s.storeTile).table = s.table := rfl
@[simp] theorem State.storeTile_links (s : State) : (s.storeTile).links = s.links := rfl
@[simp] theorem State.storeTile_frames (s : State) : (s.storeTile).frames = s.frames := rfl
@[simp] theorem State.storeTile_lost (s : State) : (s.storeTile).lost = s.lost := rfl
@[simp] theorem State.storeTile_group (s : State) : (s.storeTile).group = s.group := rfl
@[simp] theorem State.storeTile_peers (s : State) : (s.storeTile).peers = s.peers := rfl
@[simp] theorem State.storeTile_ctls (s : State) : (s.storeTile).ctls = s.ctls := rfl
@[simp] theorem State.storeTile_chans (s : State) : (s.storeTile).chans = s.chans := rfl
@[simp] theorem State.storeTile_hostQueue (s : State) : (s.storeTile).hostQueue = s.hostQueue := rfl
@[simp] theorem State.storeTile_ring (s : State) : (s.storeTile).ring = s.ring := rfl
@[simp] theorem State.storeTile_ringProd (s : State) : (s.storeTile).ringProd = s.ringProd := rfl
@[simp] theorem State.storeTile_ringCons (s : State) : (s.storeTile).ringCons = s.ringCons := rfl
@[simp] theorem State.storeTile_ringWait (s : State) : (s.storeTile).ringWait = s.ringWait := rfl
@[simp] theorem State.storeTile_mboxReq (s : State) : (s.storeTile).mboxReq = s.mboxReq := rfl
@[simp] theorem State.storeTile_mboxResp (s : State) : (s.storeTile).mboxResp = s.mboxResp := rfl
@[simp] theorem State.storeTile_mgmt (s : State) : (s.storeTile).mgmt = s.mgmt := rfl
@[simp] theorem State.storeTile_firmware (s : State) : (s.storeTile).firmware = s.firmware := rfl
@[simp] theorem State.storeTile_out (s : State) : (s.storeTile).out = s.out := rfl

@[simp] theorem State.focusTile_now (s : State) (n : Nat) : (s.focusTile n).now = s.now := rfl
@[simp] theorem State.focusTile_tickOff (s : State) (n : Nat) : (s.focusTile n).tickOff = s.tickOff := rfl
@[simp] theorem State.focusTile_agenda (s : State) (n : Nat) : (s.focusTile n).agenda = s.agenda := rfl
@[simp] theorem State.focusTile_fresh (s : State) (n : Nat) : (s.focusTile n).fresh = s.fresh := rfl
@[simp] theorem State.focusTile_nextUid (s : State) (n : Nat) : (s.focusTile n).nextUid = s.nextUid := rfl
@[simp] theorem State.focusTile_nextId (s : State) (n : Nat) : (s.focusTile n).nextId = s.nextId := rfl
@[simp] theorem State.focusTile_cur (s : State) (n : Nat) : (s.focusTile n).cur = s.cur := rfl
@[simp] theorem State.focusTile_p (s : State) (n : Nat) : (s.focusTile n).p = s.p := rfl
@[simp] theorem State.focusTile_tstream (s : State) (n : Nat) : (s.focusTile n).tstream = s.tstream := rfl
@[simp] theorem State.focusTile_slotV (s : State) (n : Nat) : (s.focusTile n).slotV = s.slotV := rfl
@[simp] theorem State.focusTile_goto (s : State) (n : Nat) : (s.focusTile n).goto = s.goto := rfl
@[simp] theorem State.focusTile_bundle (s : State) (n : Nat) : (s.focusTile n).bundle = s.bundle := rfl
@[simp] theorem State.focusTile_force (s : State) (n : Nat) : (s.focusTile n).force = s.force := rfl
@[simp] theorem State.focusTile_mem (s : State) (n : Nat) : (s.focusTile n).mem = s.mem := rfl
@[simp] theorem State.focusTile_attr (s : State) (n : Nat) : (s.focusTile n).attr = s.attr := rfl
@[simp] theorem State.focusTile_lists (s : State) (n : Nat) : (s.focusTile n).lists = s.lists := rfl
@[simp] theorem State.focusTile_threads (s : State) (n : Nat) : (s.focusTile n).threads = s.threads := rfl
@[simp] theorem State.focusTile_parts (s : State) (n : Nat) : (s.focusTile n).parts = s.parts := rfl
@[simp] theorem State.focusTile_table (s : State) (n : Nat) : (s.focusTile n).table = s.table := rfl
@[simp] theorem State.focusTile_links (s : State) (n : Nat) : (s.focusTile n).links = s.links := rfl
@[simp] theorem State.focusTile_frames (s : State) (n : Nat) : (s.focusTile n).frames = s.frames := rfl
@[simp] theorem State.focusTile_lost (s : State) (n : Nat) : (s.focusTile n).lost = s.lost := rfl
@[simp] theorem State.focusTile_group (s : State) (n : Nat) : (s.focusTile n).group = s.group := rfl
@[simp] theorem State.focusTile_peers (s : State) (n : Nat) : (s.focusTile n).peers = s.peers := rfl
@[simp] theorem State.focusTile_ctls (s : State) (n : Nat) : (s.focusTile n).ctls = s.ctls := rfl
@[simp] theorem State.focusTile_chans (s : State) (n : Nat) : (s.focusTile n).chans = s.chans := rfl
@[simp] theorem State.focusTile_hostQueue (s : State) (n : Nat) : (s.focusTile n).hostQueue = s.hostQueue := rfl
@[simp] theorem State.focusTile_ring (s : State) (n : Nat) : (s.focusTile n).ring = s.ring := rfl
@[simp] theorem State.focusTile_ringProd (s : State) (n : Nat) : (s.focusTile n).ringProd = s.ringProd := rfl
@[simp] theorem State.focusTile_ringCons (s : State) (n : Nat) : (s.focusTile n).ringCons = s.ringCons := rfl
@[simp] theorem State.focusTile_ringWait (s : State) (n : Nat) : (s.focusTile n).ringWait = s.ringWait := rfl
@[simp] theorem State.focusTile_mboxReq (s : State) (n : Nat) : (s.focusTile n).mboxReq = s.mboxReq := rfl
@[simp] theorem State.focusTile_mboxResp (s : State) (n : Nat) : (s.focusTile n).mboxResp = s.mboxResp := rfl
@[simp] theorem State.focusTile_mgmt (s : State) (n : Nat) : (s.focusTile n).mgmt = s.mgmt := rfl
@[simp] theorem State.focusTile_firmware (s : State) (n : Nat) : (s.focusTile n).firmware = s.firmware := rfl
@[simp] theorem State.focusTile_out (s : State) (n : Nat) : (s.focusTile n).out = s.out := rfl

@[simp] theorem State.raise_now (s : State) (k : Nat) (i : Word) : (s.raise k i).now = s.now := rfl
@[simp] theorem State.raise_tickOff (s : State) (k : Nat) (i : Word) : (s.raise k i).tickOff = s.tickOff := rfl
@[simp] theorem State.raise_agenda (s : State) (k : Nat) (i : Word) : (s.raise k i).agenda = s.agenda := rfl
@[simp] theorem State.raise_fresh (s : State) (k : Nat) (i : Word) : (s.raise k i).fresh = s.fresh := rfl
@[simp] theorem State.raise_nextUid (s : State) (k : Nat) (i : Word) : (s.raise k i).nextUid = s.nextUid := rfl
@[simp] theorem State.raise_nextId (s : State) (k : Nat) (i : Word) : (s.raise k i).nextId = s.nextId := rfl
@[simp] theorem State.raise_p (s : State) (k : Nat) (i : Word) : (s.raise k i).p = s.p := rfl
@[simp] theorem State.raise_tl (s : State) (k : Nat) (i : Word) : (s.raise k i).tl = s.tl := rfl
@[simp] theorem State.raise_tix (s : State) (k : Nat) (i : Word) : (s.raise k i).tix = s.tix := rfl
@[simp] theorem State.raise_tstream (s : State) (k : Nat) (i : Word) : (s.raise k i).tstream = s.tstream := rfl
@[simp] theorem State.raise_slotV (s : State) (k : Nat) (i : Word) : (s.raise k i).slotV = s.slotV := rfl
@[simp] theorem State.raise_goto (s : State) (k : Nat) (i : Word) : (s.raise k i).goto = s.goto := rfl
@[simp] theorem State.raise_bundle (s : State) (k : Nat) (i : Word) : (s.raise k i).bundle = s.bundle := rfl
@[simp] theorem State.raise_force (s : State) (k : Nat) (i : Word) : (s.raise k i).force = s.force := rfl
@[simp] theorem State.raise_mem (s : State) (k : Nat) (i : Word) : (s.raise k i).mem = s.mem := rfl
@[simp] theorem State.raise_attr (s : State) (k : Nat) (i : Word) : (s.raise k i).attr = s.attr := rfl
@[simp] theorem State.raise_lists (s : State) (k : Nat) (i : Word) : (s.raise k i).lists = s.lists := rfl
@[simp] theorem State.raise_threads (s : State) (k : Nat) (i : Word) : (s.raise k i).threads = s.threads := rfl
@[simp] theorem State.raise_parts (s : State) (k : Nat) (i : Word) : (s.raise k i).parts = s.parts := rfl
@[simp] theorem State.raise_table (s : State) (k : Nat) (i : Word) : (s.raise k i).table = s.table := rfl
@[simp] theorem State.raise_links (s : State) (k : Nat) (i : Word) : (s.raise k i).links = s.links := rfl
@[simp] theorem State.raise_frames (s : State) (k : Nat) (i : Word) : (s.raise k i).frames = s.frames := rfl
@[simp] theorem State.raise_lost (s : State) (k : Nat) (i : Word) : (s.raise k i).lost = s.lost := rfl
@[simp] theorem State.raise_group (s : State) (k : Nat) (i : Word) : (s.raise k i).group = s.group := rfl
@[simp] theorem State.raise_peers (s : State) (k : Nat) (i : Word) : (s.raise k i).peers = s.peers := rfl
@[simp] theorem State.raise_ctls (s : State) (k : Nat) (i : Word) : (s.raise k i).ctls = s.ctls := rfl
@[simp] theorem State.raise_chans (s : State) (k : Nat) (i : Word) : (s.raise k i).chans = s.chans := rfl
@[simp] theorem State.raise_hostQueue (s : State) (k : Nat) (i : Word) : (s.raise k i).hostQueue = s.hostQueue := rfl
@[simp] theorem State.raise_ring (s : State) (k : Nat) (i : Word) : (s.raise k i).ring = s.ring := rfl
@[simp] theorem State.raise_ringProd (s : State) (k : Nat) (i : Word) : (s.raise k i).ringProd = s.ringProd := rfl
@[simp] theorem State.raise_ringCons (s : State) (k : Nat) (i : Word) : (s.raise k i).ringCons = s.ringCons := rfl
@[simp] theorem State.raise_ringWait (s : State) (k : Nat) (i : Word) : (s.raise k i).ringWait = s.ringWait := rfl
@[simp] theorem State.raise_mboxReq (s : State) (k : Nat) (i : Word) : (s.raise k i).mboxReq = s.mboxReq := rfl
@[simp] theorem State.raise_mboxResp (s : State) (k : Nat) (i : Word) : (s.raise k i).mboxResp = s.mboxResp := rfl
@[simp] theorem State.raise_mgmt (s : State) (k : Nat) (i : Word) : (s.raise k i).mgmt = s.mgmt := rfl
@[simp] theorem State.raise_firmware (s : State) (k : Nat) (i : Word) : (s.raise k i).firmware = s.firmware := rfl
@[simp] theorem State.raise_out (s : State) (k : Nat) (i : Word) : (s.raise k i).out = s.out := rfl

@[simp] theorem State.land_now (s : State) (l : Nat) (w : RegWrite) : (s.land l w).now = s.now := by rcases s.land_cases l w with h | h <;> rw [h] <;> rfl
@[simp] theorem State.land_tickOff (s : State) (l : Nat) (w : RegWrite) : (s.land l w).tickOff = s.tickOff := by rcases s.land_cases l w with h | h <;> rw [h] <;> rfl
@[simp] theorem State.land_fresh (s : State) (l : Nat) (w : RegWrite) : (s.land l w).fresh = s.fresh := by rcases s.land_cases l w with h | h <;> rw [h] <;> rfl
@[simp] theorem State.land_nextUid (s : State) (l : Nat) (w : RegWrite) : (s.land l w).nextUid = s.nextUid := by rcases s.land_cases l w with h | h <;> rw [h] <;> rfl
@[simp] theorem State.land_nextId (s : State) (l : Nat) (w : RegWrite) : (s.land l w).nextId = s.nextId := by rcases s.land_cases l w with h | h <;> rw [h] <;> rfl
@[simp] theorem State.land_p (s : State) (l : Nat) (w : RegWrite) : (s.land l w).p = s.p := by rcases s.land_cases l w with h | h <;> rw [h] <;> rfl
@[simp] theorem State.land_tl (s : State) (l : Nat) (w : RegWrite) : (s.land l w).tl = s.tl := by rcases s.land_cases l w with h | h <;> rw [h] <;> rfl
@[simp] theorem State.land_tix (s : State) (l : Nat) (w : RegWrite) : (s.land l w).tix = s.tix := by rcases s.land_cases l w with h | h <;> rw [h] <;> rfl
@[simp] theorem State.land_tstream (s : State) (l : Nat) (w : RegWrite) : (s.land l w).tstream = s.tstream := by rcases s.land_cases l w with h | h <;> rw [h] <;> rfl
@[simp] theorem State.land_slotV (s : State) (l : Nat) (w : RegWrite) : (s.land l w).slotV = s.slotV := by rcases s.land_cases l w with h | h <;> rw [h] <;> rfl
@[simp] theorem State.land_goto (s : State) (l : Nat) (w : RegWrite) : (s.land l w).goto = s.goto := by rcases s.land_cases l w with h | h <;> rw [h] <;> rfl
@[simp] theorem State.land_bundle (s : State) (l : Nat) (w : RegWrite) : (s.land l w).bundle = s.bundle := by rcases s.land_cases l w with h | h <;> rw [h] <;> rfl
@[simp] theorem State.land_force (s : State) (l : Nat) (w : RegWrite) : (s.land l w).force = s.force := by rcases s.land_cases l w with h | h <;> rw [h] <;> rfl
@[simp] theorem State.land_mem (s : State) (l : Nat) (w : RegWrite) : (s.land l w).mem = s.mem := by rcases s.land_cases l w with h | h <;> rw [h] <;> rfl
@[simp] theorem State.land_attr (s : State) (l : Nat) (w : RegWrite) : (s.land l w).attr = s.attr := by rcases s.land_cases l w with h | h <;> rw [h] <;> rfl
@[simp] theorem State.land_lists (s : State) (l : Nat) (w : RegWrite) : (s.land l w).lists = s.lists := by rcases s.land_cases l w with h | h <;> rw [h] <;> rfl
@[simp] theorem State.land_threads (s : State) (l : Nat) (w : RegWrite) : (s.land l w).threads = s.threads := by rcases s.land_cases l w with h | h <;> rw [h] <;> rfl
@[simp] theorem State.land_parts (s : State) (l : Nat) (w : RegWrite) : (s.land l w).parts = s.parts := by rcases s.land_cases l w with h | h <;> rw [h] <;> rfl
@[simp] theorem State.land_table (s : State) (l : Nat) (w : RegWrite) : (s.land l w).table = s.table := by rcases s.land_cases l w with h | h <;> rw [h] <;> rfl
@[simp] theorem State.land_links (s : State) (l : Nat) (w : RegWrite) : (s.land l w).links = s.links := by rcases s.land_cases l w with h | h <;> rw [h] <;> rfl
@[simp] theorem State.land_frames (s : State) (l : Nat) (w : RegWrite) : (s.land l w).frames = s.frames := by rcases s.land_cases l w with h | h <;> rw [h] <;> rfl
@[simp] theorem State.land_lost (s : State) (l : Nat) (w : RegWrite) : (s.land l w).lost = s.lost := by rcases s.land_cases l w with h | h <;> rw [h] <;> rfl
@[simp] theorem State.land_group (s : State) (l : Nat) (w : RegWrite) : (s.land l w).group = s.group := by rcases s.land_cases l w with h | h <;> rw [h] <;> rfl
@[simp] theorem State.land_peers (s : State) (l : Nat) (w : RegWrite) : (s.land l w).peers = s.peers := by rcases s.land_cases l w with h | h <;> rw [h] <;> rfl
@[simp] theorem State.land_ctls (s : State) (l : Nat) (w : RegWrite) : (s.land l w).ctls = s.ctls := by rcases s.land_cases l w with h | h <;> rw [h] <;> rfl
@[simp] theorem State.land_chans (s : State) (l : Nat) (w : RegWrite) : (s.land l w).chans = s.chans := by rcases s.land_cases l w with h | h <;> rw [h] <;> rfl
@[simp] theorem State.land_hostQueue (s : State) (l : Nat) (w : RegWrite) : (s.land l w).hostQueue = s.hostQueue := by rcases s.land_cases l w with h | h <;> rw [h] <;> rfl
@[simp] theorem State.land_ring (s : State) (l : Nat) (w : RegWrite) : (s.land l w).ring = s.ring := by rcases s.land_cases l w with h | h <;> rw [h] <;> rfl
@[simp] theorem State.land_ringProd (s : State) (l : Nat) (w : RegWrite) : (s.land l w).ringProd = s.ringProd := by rcases s.land_cases l w with h | h <;> rw [h] <;> rfl
@[simp] theorem State.land_ringCons (s : State) (l : Nat) (w : RegWrite) : (s.land l w).ringCons = s.ringCons := by rcases s.land_cases l w with h | h <;> rw [h] <;> rfl
@[simp] theorem State.land_ringWait (s : State) (l : Nat) (w : RegWrite) : (s.land l w).ringWait = s.ringWait := by rcases s.land_cases l w with h | h <;> rw [h] <;> rfl
@[simp] theorem State.land_mboxReq (s : State) (l : Nat) (w : RegWrite) : (s.land l w).mboxReq = s.mboxReq := by rcases s.land_cases l w with h | h <;> rw [h] <;> rfl
@[simp] theorem State.land_mboxResp (s : State) (l : Nat) (w : RegWrite) : (s.land l w).mboxResp = s.mboxResp := by rcases s.land_cases l w with h | h <;> rw [h] <;> rfl
@[simp] theorem State.land_mgmt (s : State) (l : Nat) (w : RegWrite) : (s.land l w).mgmt = s.mgmt := by rcases s.land_cases l w with h | h <;> rw [h] <;> rfl
@[simp] theorem State.land_firmware (s : State) (l : Nat) (w : RegWrite) : (s.land l w).firmware = s.firmware := by rcases s.land_cases l w with h | h <;> rw [h] <;> rfl
@[simp] theorem State.land_out (s : State) (l : Nat) (w : RegWrite) : (s.land l w).out = s.out := by rcases s.land_cases l w with h | h <;> rw [h] <;> rfl

@[simp] theorem State.setAttr_now (s : State) (f : Nat) (b : Byte) : (s.setAttr f b).now = s.now := by unfold State.setAttr; split <;> rfl
@[simp] theorem State.setAttr_tickOff (s : State) (f : Nat) (b : Byte) : (s.setAttr f b).tickOff = s.tickOff := by unfold State.setAttr; split <;> rfl
@[simp] theorem State.setAttr_agenda (s : State) (f : Nat) (b : Byte) : (s.setAttr f b).agenda = s.agenda := by unfold State.setAttr; split <;> rfl
@[simp] theorem State.setAttr_fresh (s : State) (f : Nat) (b : Byte) : (s.setAttr f b).fresh = s.fresh := by unfold State.setAttr; split <;> rfl
@[simp] theorem State.setAttr_nextUid (s : State) (f : Nat) (b : Byte) : (s.setAttr f b).nextUid = s.nextUid := by unfold State.setAttr; split <;> rfl
@[simp] theorem State.setAttr_nextId (s : State) (f : Nat) (b : Byte) : (s.setAttr f b).nextId = s.nextId := by unfold State.setAttr; split <;> rfl
@[simp] theorem State.setAttr_cur (s : State) (f : Nat) (b : Byte) : (s.setAttr f b).cur = s.cur := by unfold State.setAttr; split <;> rfl
@[simp] theorem State.setAttr_p (s : State) (f : Nat) (b : Byte) : (s.setAttr f b).p = s.p := by unfold State.setAttr; split <;> rfl
@[simp] theorem State.setAttr_tl (s : State) (f : Nat) (b : Byte) : (s.setAttr f b).tl = s.tl := by unfold State.setAttr; split <;> rfl
@[simp] theorem State.setAttr_tix (s : State) (f : Nat) (b : Byte) : (s.setAttr f b).tix = s.tix := by unfold State.setAttr; split <;> rfl
@[simp] theorem State.setAttr_tstream (s : State) (f : Nat) (b : Byte) : (s.setAttr f b).tstream = s.tstream := by unfold State.setAttr; split <;> rfl
@[simp] theorem State.setAttr_slotV (s : State) (f : Nat) (b : Byte) : (s.setAttr f b).slotV = s.slotV := by unfold State.setAttr; split <;> rfl
@[simp] theorem State.setAttr_goto (s : State) (f : Nat) (b : Byte) : (s.setAttr f b).goto = s.goto := by unfold State.setAttr; split <;> rfl
@[simp] theorem State.setAttr_bundle (s : State) (f : Nat) (b : Byte) : (s.setAttr f b).bundle = s.bundle := by unfold State.setAttr; split <;> rfl
@[simp] theorem State.setAttr_force (s : State) (f : Nat) (b : Byte) : (s.setAttr f b).force = s.force := by unfold State.setAttr; split <;> rfl
@[simp] theorem State.setAttr_mem (s : State) (f : Nat) (b : Byte) : (s.setAttr f b).mem = s.mem := by unfold State.setAttr; split <;> rfl
@[simp] theorem State.setAttr_lists (s : State) (f : Nat) (b : Byte) : (s.setAttr f b).lists = s.lists := by unfold State.setAttr; split <;> rfl
@[simp] theorem State.setAttr_threads (s : State) (f : Nat) (b : Byte) : (s.setAttr f b).threads = s.threads := by unfold State.setAttr; split <;> rfl
@[simp] theorem State.setAttr_parts (s : State) (f : Nat) (b : Byte) : (s.setAttr f b).parts = s.parts := by unfold State.setAttr; split <;> rfl
@[simp] theorem State.setAttr_table (s : State) (f : Nat) (b : Byte) : (s.setAttr f b).table = s.table := by unfold State.setAttr; split <;> rfl
@[simp] theorem State.setAttr_links (s : State) (f : Nat) (b : Byte) : (s.setAttr f b).links = s.links := by unfold State.setAttr; split <;> rfl
@[simp] theorem State.setAttr_frames (s : State) (f : Nat) (b : Byte) : (s.setAttr f b).frames = s.frames := by unfold State.setAttr; split <;> rfl
@[simp] theorem State.setAttr_lost (s : State) (f : Nat) (b : Byte) : (s.setAttr f b).lost = s.lost := by unfold State.setAttr; split <;> rfl
@[simp] theorem State.setAttr_group (s : State) (f : Nat) (b : Byte) : (s.setAttr f b).group = s.group := by unfold State.setAttr; split <;> rfl
@[simp] theorem State.setAttr_peers (s : State) (f : Nat) (b : Byte) : (s.setAttr f b).peers = s.peers := by unfold State.setAttr; split <;> rfl
@[simp] theorem State.setAttr_ctls (s : State) (f : Nat) (b : Byte) : (s.setAttr f b).ctls = s.ctls := by unfold State.setAttr; split <;> rfl
@[simp] theorem State.setAttr_chans (s : State) (f : Nat) (b : Byte) : (s.setAttr f b).chans = s.chans := by unfold State.setAttr; split <;> rfl
@[simp] theorem State.setAttr_hostQueue (s : State) (f : Nat) (b : Byte) : (s.setAttr f b).hostQueue = s.hostQueue := by unfold State.setAttr; split <;> rfl
@[simp] theorem State.setAttr_ring (s : State) (f : Nat) (b : Byte) : (s.setAttr f b).ring = s.ring := by unfold State.setAttr; split <;> rfl
@[simp] theorem State.setAttr_ringProd (s : State) (f : Nat) (b : Byte) : (s.setAttr f b).ringProd = s.ringProd := by unfold State.setAttr; split <;> rfl
@[simp] theorem State.setAttr_ringCons (s : State) (f : Nat) (b : Byte) : (s.setAttr f b).ringCons = s.ringCons := by unfold State.setAttr; split <;> rfl
@[simp] theorem State.setAttr_ringWait (s : State) (f : Nat) (b : Byte) : (s.setAttr f b).ringWait = s.ringWait := by unfold State.setAttr; split <;> rfl
@[simp] theorem State.setAttr_mboxReq (s : State) (f : Nat) (b : Byte) : (s.setAttr f b).mboxReq = s.mboxReq := by unfold State.setAttr; split <;> rfl
@[simp] theorem State.setAttr_mboxResp (s : State) (f : Nat) (b : Byte) : (s.setAttr f b).mboxResp = s.mboxResp := by unfold State.setAttr; split <;> rfl
@[simp] theorem State.setAttr_mgmt (s : State) (f : Nat) (b : Byte) : (s.setAttr f b).mgmt = s.mgmt := by unfold State.setAttr; split <;> rfl
@[simp] theorem State.setAttr_firmware (s : State) (f : Nat) (b : Byte) : (s.setAttr f b).firmware = s.firmware := by unfold State.setAttr; split <;> rfl
@[simp] theorem State.setAttr_out (s : State) (f : Nat) (b : Byte) : (s.setAttr f b).out = s.out := by unfold State.setAttr; split <;> rfl

@[simp] theorem State.wakeList_now (s : State) (f c : Nat) : (s.wakeList f c).now = s.now := by unfold State.wakeList; dsimp only; split <;> rfl
@[simp] theorem State.wakeList_tickOff (s : State) (f c : Nat) : (s.wakeList f c).tickOff = s.tickOff := by unfold State.wakeList; dsimp only; split <;> rfl
@[simp] theorem State.wakeList_fresh (s : State) (f c : Nat) : (s.wakeList f c).fresh = s.fresh := by unfold State.wakeList; dsimp only; split <;> rfl
@[simp] theorem State.wakeList_nextUid (s : State) (f c : Nat) : (s.wakeList f c).nextUid = s.nextUid := by unfold State.wakeList; dsimp only; split <;> rfl
@[simp] theorem State.wakeList_nextId (s : State) (f c : Nat) : (s.wakeList f c).nextId = s.nextId := by unfold State.wakeList; dsimp only; split <;> rfl
@[simp] theorem State.wakeList_cur (s : State) (f c : Nat) : (s.wakeList f c).cur = s.cur := by unfold State.wakeList; dsimp only; split <;> rfl
@[simp] theorem State.wakeList_p (s : State) (f c : Nat) : (s.wakeList f c).p = s.p := by unfold State.wakeList; dsimp only; split <;> rfl
@[simp] theorem State.wakeList_tl (s : State) (f c : Nat) : (s.wakeList f c).tl = s.tl := by unfold State.wakeList; dsimp only; split <;> rfl
@[simp] theorem State.wakeList_tix (s : State) (f c : Nat) : (s.wakeList f c).tix = s.tix := by unfold State.wakeList; dsimp only; split <;> rfl
@[simp] theorem State.wakeList_tstream (s : State) (f c : Nat) : (s.wakeList f c).tstream = s.tstream := by unfold State.wakeList; dsimp only; split <;> rfl
@[simp] theorem State.wakeList_slotV (s : State) (f c : Nat) : (s.wakeList f c).slotV = s.slotV := by unfold State.wakeList; dsimp only; split <;> rfl
@[simp] theorem State.wakeList_goto (s : State) (f c : Nat) : (s.wakeList f c).goto = s.goto := by unfold State.wakeList; dsimp only; split <;> rfl
@[simp] theorem State.wakeList_bundle (s : State) (f c : Nat) : (s.wakeList f c).bundle = s.bundle := by unfold State.wakeList; dsimp only; split <;> rfl
@[simp] theorem State.wakeList_force (s : State) (f c : Nat) : (s.wakeList f c).force = s.force := by unfold State.wakeList; dsimp only; split <;> rfl
@[simp] theorem State.wakeList_mem (s : State) (f c : Nat) : (s.wakeList f c).mem = s.mem := by unfold State.wakeList; dsimp only; split <;> rfl
@[simp] theorem State.wakeList_attr (s : State) (f c : Nat) : (s.wakeList f c).attr = s.attr := by unfold State.wakeList; dsimp only; split <;> rfl
@[simp] theorem State.wakeList_lists (s : State) (f c : Nat) : (s.wakeList f c).lists = s.lists := by unfold State.wakeList; dsimp only; split <;> rfl
@[simp] theorem State.wakeList_threads (s : State) (f c : Nat) : (s.wakeList f c).threads = s.threads := by unfold State.wakeList; dsimp only; split <;> rfl
@[simp] theorem State.wakeList_parts (s : State) (f c : Nat) : (s.wakeList f c).parts = s.parts := by unfold State.wakeList; dsimp only; split <;> rfl
@[simp] theorem State.wakeList_table (s : State) (f c : Nat) : (s.wakeList f c).table = s.table := by unfold State.wakeList; dsimp only; split <;> rfl
@[simp] theorem State.wakeList_links (s : State) (f c : Nat) : (s.wakeList f c).links = s.links := by unfold State.wakeList; dsimp only; split <;> rfl
@[simp] theorem State.wakeList_frames (s : State) (f c : Nat) : (s.wakeList f c).frames = s.frames := by unfold State.wakeList; dsimp only; split <;> rfl
@[simp] theorem State.wakeList_lost (s : State) (f c : Nat) : (s.wakeList f c).lost = s.lost := by unfold State.wakeList; dsimp only; split <;> rfl
@[simp] theorem State.wakeList_group (s : State) (f c : Nat) : (s.wakeList f c).group = s.group := by unfold State.wakeList; dsimp only; split <;> rfl
@[simp] theorem State.wakeList_peers (s : State) (f c : Nat) : (s.wakeList f c).peers = s.peers := by unfold State.wakeList; dsimp only; split <;> rfl
@[simp] theorem State.wakeList_ctls (s : State) (f c : Nat) : (s.wakeList f c).ctls = s.ctls := by unfold State.wakeList; dsimp only; split <;> rfl
@[simp] theorem State.wakeList_chans (s : State) (f c : Nat) : (s.wakeList f c).chans = s.chans := by unfold State.wakeList; dsimp only; split <;> rfl
@[simp] theorem State.wakeList_hostQueue (s : State) (f c : Nat) : (s.wakeList f c).hostQueue = s.hostQueue := by unfold State.wakeList; dsimp only; split <;> rfl
@[simp] theorem State.wakeList_ring (s : State) (f c : Nat) : (s.wakeList f c).ring = s.ring := by unfold State.wakeList; dsimp only; split <;> rfl
@[simp] theorem State.wakeList_ringProd (s : State) (f c : Nat) : (s.wakeList f c).ringProd = s.ringProd := by unfold State.wakeList; dsimp only; split <;> rfl
@[simp] theorem State.wakeList_ringCons (s : State) (f c : Nat) : (s.wakeList f c).ringCons = s.ringCons := by unfold State.wakeList; dsimp only; split <;> rfl
@[simp] theorem State.wakeList_ringWait (s : State) (f c : Nat) : (s.wakeList f c).ringWait = s.ringWait := by unfold State.wakeList; dsimp only; split <;> rfl
@[simp] theorem State.wakeList_mboxReq (s : State) (f c : Nat) : (s.wakeList f c).mboxReq = s.mboxReq := by unfold State.wakeList; dsimp only; split <;> rfl
@[simp] theorem State.wakeList_mboxResp (s : State) (f c : Nat) : (s.wakeList f c).mboxResp = s.mboxResp := by unfold State.wakeList; dsimp only; split <;> rfl
@[simp] theorem State.wakeList_mgmt (s : State) (f c : Nat) : (s.wakeList f c).mgmt = s.mgmt := by unfold State.wakeList; dsimp only; split <;> rfl
@[simp] theorem State.wakeList_firmware (s : State) (f c : Nat) : (s.wakeList f c).firmware = s.firmware := by unfold State.wakeList; dsimp only; split <;> rfl
@[simp] theorem State.wakeList_out (s : State) (f c : Nat) : (s.wakeList f c).out = s.out := by unfold State.wakeList; dsimp only; split <;> rfl

@[simp] theorem State.scheduleIssue_now (s : State) (e : Nat) : (s.scheduleIssue e).now = s.now := rfl
@[simp] theorem State.scheduleIssue_tickOff (s : State) (e : Nat) : (s.scheduleIssue e).tickOff = s.tickOff := rfl
@[simp] theorem State.scheduleIssue_fresh (s : State) (e : Nat) : (s.scheduleIssue e).fresh = s.fresh := rfl
@[simp] theorem State.scheduleIssue_nextUid (s : State) (e : Nat) : (s.scheduleIssue e).nextUid = s.nextUid := rfl
@[simp] theorem State.scheduleIssue_nextId (s : State) (e : Nat) : (s.scheduleIssue e).nextId = s.nextId := rfl
@[simp] theorem State.scheduleIssue_p (s : State) (e : Nat) : (s.scheduleIssue e).p = s.p := rfl
@[simp] theorem State.scheduleIssue_tl (s : State) (e : Nat) : (s.scheduleIssue e).tl = s.tl := rfl
@[simp] theorem State.scheduleIssue_tix (s : State) (e : Nat) : (s.scheduleIssue e).tix = s.tix := rfl
@[simp] theorem State.scheduleIssue_tstream (s : State) (e : Nat) : (s.scheduleIssue e).tstream = s.tstream := rfl
@[simp] theorem State.scheduleIssue_slotV (s : State) (e : Nat) : (s.scheduleIssue e).slotV = s.slotV := rfl
@[simp] theorem State.scheduleIssue_goto (s : State) (e : Nat) : (s.scheduleIssue e).goto = s.goto := rfl
@[simp] theorem State.scheduleIssue_bundle (s : State) (e : Nat) : (s.scheduleIssue e).bundle = s.bundle := rfl
@[simp] theorem State.scheduleIssue_force (s : State) (e : Nat) : (s.scheduleIssue e).force = s.force := rfl
@[simp] theorem State.scheduleIssue_mem (s : State) (e : Nat) : (s.scheduleIssue e).mem = s.mem := rfl
@[simp] theorem State.scheduleIssue_attr (s : State) (e : Nat) : (s.scheduleIssue e).attr = s.attr := rfl
@[simp] theorem State.scheduleIssue_lists (s : State) (e : Nat) : (s.scheduleIssue e).lists = s.lists := rfl
@[simp] theorem State.scheduleIssue_threads (s : State) (e : Nat) : (s.scheduleIssue e).threads = s.threads := rfl
@[simp] theorem State.scheduleIssue_parts (s : State) (e : Nat) : (s.scheduleIssue e).parts = s.parts := rfl
@[simp] theorem State.scheduleIssue_table (s : State) (e : Nat) : (s.scheduleIssue e).table = s.table := rfl
@[simp] theorem State.scheduleIssue_links (s : State) (e : Nat) : (s.scheduleIssue e).links = s.links := rfl
@[simp] theorem State.scheduleIssue_frames (s : State) (e : Nat) : (s.scheduleIssue e).frames = s.frames := rfl
@[simp] theorem State.scheduleIssue_lost (s : State) (e : Nat) : (s.scheduleIssue e).lost = s.lost := rfl
@[simp] theorem State.scheduleIssue_group (s : State) (e : Nat) : (s.scheduleIssue e).group = s.group := rfl
@[simp] theorem State.scheduleIssue_peers (s : State) (e : Nat) : (s.scheduleIssue e).peers = s.peers := rfl
@[simp] theorem State.scheduleIssue_ctls (s : State) (e : Nat) : (s.scheduleIssue e).ctls = s.ctls := rfl
@[simp] theorem State.scheduleIssue_chans (s : State) (e : Nat) : (s.scheduleIssue e).chans = s.chans := rfl
@[simp] theorem State.scheduleIssue_hostQueue (s : State) (e : Nat) : (s.scheduleIssue e).hostQueue = s.hostQueue := rfl
@[simp] theorem State.scheduleIssue_ring (s : State) (e : Nat) : (s.scheduleIssue e).ring = s.ring := rfl
@[simp] theorem State.scheduleIssue_ringProd (s : State) (e : Nat) : (s.scheduleIssue e).ringProd = s.ringProd := rfl
@[simp] theorem State.scheduleIssue_ringCons (s : State) (e : Nat) : (s.scheduleIssue e).ringCons = s.ringCons := rfl
@[simp] theorem State.scheduleIssue_ringWait (s : State) (e : Nat) : (s.scheduleIssue e).ringWait = s.ringWait := rfl
@[simp] theorem State.scheduleIssue_mboxReq (s : State) (e : Nat) : (s.scheduleIssue e).mboxReq = s.mboxReq := rfl
@[simp] theorem State.scheduleIssue_mboxResp (s : State) (e : Nat) : (s.scheduleIssue e).mboxResp = s.mboxResp := rfl
@[simp] theorem State.scheduleIssue_mgmt (s : State) (e : Nat) : (s.scheduleIssue e).mgmt = s.mgmt := rfl
@[simp] theorem State.scheduleIssue_firmware (s : State) (e : Nat) : (s.scheduleIssue e).firmware = s.firmware := rfl
@[simp] theorem State.scheduleIssue_out (s : State) (e : Nat) : (s.scheduleIssue e).out = s.out := rfl

@[simp] theorem State.retire_now (s : State) : (s.retire).now = s.now := rfl
@[simp] theorem State.retire_tickOff (s : State) : (s.retire).tickOff = s.tickOff := rfl
@[simp] theorem State.retire_agenda (s : State) : (s.retire).agenda = s.agenda := rfl
@[simp] theorem State.retire_fresh (s : State) : (s.retire).fresh = s.fresh := rfl
@[simp] theorem State.retire_nextUid (s : State) : (s.retire).nextUid = s.nextUid := rfl
@[simp] theorem State.retire_nextId (s : State) : (s.retire).nextId = s.nextId := rfl
@[simp] theorem State.retire_tl (s : State) : (s.retire).tl = s.tl := rfl
@[simp] theorem State.retire_tix (s : State) : (s.retire).tix = s.tix := rfl
@[simp] theorem State.retire_tstream (s : State) : (s.retire).tstream = s.tstream := rfl
@[simp] theorem State.retire_slotV (s : State) : (s.retire).slotV = s.slotV := rfl
@[simp] theorem State.retire_bundle (s : State) : (s.retire).bundle = s.bundle := rfl
@[simp] theorem State.retire_force (s : State) : (s.retire).force = s.force := rfl
@[simp] theorem State.retire_mem (s : State) : (s.retire).mem = s.mem := rfl
@[simp] theorem State.retire_attr (s : State) : (s.retire).attr = s.attr := rfl
@[simp] theorem State.retire_lists (s : State) : (s.retire).lists = s.lists := rfl
@[simp] theorem State.retire_threads (s : State) : (s.retire).threads = s.threads := rfl
@[simp] theorem State.retire_parts (s : State) : (s.retire).parts = s.parts := rfl
@[simp] theorem State.retire_table (s : State) : (s.retire).table = s.table := rfl
@[simp] theorem State.retire_links (s : State) : (s.retire).links = s.links := rfl
@[simp] theorem State.retire_frames (s : State) : (s.retire).frames = s.frames := rfl
@[simp] theorem State.retire_lost (s : State) : (s.retire).lost = s.lost := rfl
@[simp] theorem State.retire_group (s : State) : (s.retire).group = s.group := rfl
@[simp] theorem State.retire_peers (s : State) : (s.retire).peers = s.peers := rfl
@[simp] theorem State.retire_ctls (s : State) : (s.retire).ctls = s.ctls := rfl
@[simp] theorem State.retire_chans (s : State) : (s.retire).chans = s.chans := rfl
@[simp] theorem State.retire_hostQueue (s : State) : (s.retire).hostQueue = s.hostQueue := rfl
@[simp] theorem State.retire_ring (s : State) : (s.retire).ring = s.ring := rfl
@[simp] theorem State.retire_ringProd (s : State) : (s.retire).ringProd = s.ringProd := rfl
@[simp] theorem State.retire_ringCons (s : State) : (s.retire).ringCons = s.ringCons := rfl
@[simp] theorem State.retire_ringWait (s : State) : (s.retire).ringWait = s.ringWait := rfl
@[simp] theorem State.retire_mboxReq (s : State) : (s.retire).mboxReq = s.mboxReq := rfl
@[simp] theorem State.retire_mboxResp (s : State) : (s.retire).mboxResp = s.mboxResp := rfl
@[simp] theorem State.retire_mgmt (s : State) : (s.retire).mgmt = s.mgmt := rfl
@[simp] theorem State.retire_firmware (s : State) : (s.retire).firmware = s.firmware := rfl
@[simp] theorem State.retire_out (s : State) : (s.retire).out = s.out := rfl

@[simp] theorem State.dueAt_agenda (s : State) (c r : Nat) (w : Task) :
    (s.dueAt c r w).agenda = insertItem ⟨c, r, w⟩ s.agenda := rfl

@[simp] theorem State.dueIn_agenda (s : State) (d r : Nat) (i : Instr) :
    (s.dueIn d r i).agenda = insertItem ⟨s.now + d, r, .ev i⟩ s.agenda := rfl

@[simp] theorem State.raise_cur (s : State) (k : Nat) (i : Word) :
    (s.raise k i).cur = { s.cur with raised := some (.of k s.slotBit i s.cur.pc) } := rfl

@[simp] theorem State.retire_cur (s : State) : s.retire.cur = { s.cur with
    pc := s.goto.getD (s.cur.pc + 8), retired := s.cur.retired + 1, fromCluster := s.cur.loc.cluster,
    back := s.cur.streams, xlat := none } := rfl

end Sys2Proof.Machine
end

