-- ==== Sys2Proof/Tests/Slice0.lean ====
section
/-! SUPPORT. Tests: the checks of well-formedness, words written out from the encodings, single instructions against
values worked out by hand from the spec, and a witness for the hypotheses of each statement. -/

namespace Sys2Proof.Tests

open Sys2Proof.Machine Sys2Proof.Claims

/-! A small state: one thread of a running whole-package partition in deterministic mode. -/

/-- A running thread, uid 1, all registers zero. -/
def thread1 : Thread := { Thread.rest with uid := 1, status := .ready, pw := 0x00010001 }

/-- A tile with an empty engine. -/
def tile1 : Tile := Tile.rest

/-- A whole-package partition with a launch under way and one tile. -/
def part1 : Part := { Part.rest 0 0 0 with
  tiles := [tile1], run := { Run.rest with active := true, tcmode := 3, chain := .running } }

/-- The thread, the partition and the tile act; 100 core cycles have passed and nothing is due. -/
def base : State := { State.reset with now := 100, agenda := [], cur := thread1, p := part1, nextUid := 2 }

/-- No guard. -/
def always : Guard := ⟨0, 0⟩

def base.withA (n : Fin 24) (v : Word) (s : State) : State := { s with cur := { s.cur with a := s.cur.a.set n v } }

/-! Well-formedness refuses (R79, R81, R89). -/

theorem test_wf_scalar_codes : ([.add always 25 0 0 0, .add always 0 25 0 0, .add always 0 0 25 0, .add always 0 0 0 5,
    .shli always 0 0 64, .shri always 0 0 0x1FF, .sari always 0 0 64, .rori always 0 0 65, .movi always 25 0,
    .cmp always 16 0 0 0, .cmp always 0 0 0 8, .cmpiEq always 16 0 0, .pand always 0 16 0, .pand always 0 0 16,
    .anchor always 2, .fence always 10, .trap always 0x10000, .spawn always 0 1 0 0, .ebind always 6,
    .crd always 0 0x00B, .cwr always 0 0x080, .call always 25 0] : List Instr).all (fun i => !i.WF 128) = true := by decide

theorem test_wf_memory_codes : ([.ld always 0 0 0 7, .st always 0 0 0 1, .ldf always 0 0 0 10, .ldl always 0 0 1 0 0,
    .ldl always 0 0 8 3 0, .stl always 0 0 8 0 0, .rsv always 0 0 0 0 10, .dctr always 0 0 11, .tlook always 0 0 0 8,
    .tlook always 0 0 16 0, .tset always 16 0 0, .tdrop always 0 0 3, .sbind always 0 4 0 0, .sbind always 0 0 2 1,
    .sbind always 0 0 0 128, .pktOpen always 0 0x10000, .pktAdd always 0 0 2, .pktAdd always 0 1 0, .pktEnd always 1 0 2,
    .pktEnd always 0 0 3, .post always 0 0 0 10] : List Instr).all (fun i => !i.WF 128) = true := by decide

theorem test_wf_matrix_codes : ([.mjob always 0 1 0 0, .mjob always 0 0 23 0, .mjob always 0 0 0 0x08000000,
    .mjob always 0 0 0 4, .mjob always 0 0 0 0x00100000, .mjob always 0 0 0 0x00080000, .mjob always 0 0 0 0x00400000,
    .mjobG always 0 0 0 0x40, .mjobG always 0 0 0 0x06400000] : List Instr).all (fun i => !i.WF 128) = true := by decide

theorem test_wf_vector_codes : (Instr.fadd 0 0 16 0 0).WF 16 = false ∧ (Instr.fadd 0 0 0 16 0).WF 16 = false ∧
    (Instr.fadd 0 0 0 0 16).WF 16 = false ∧ (Instr.fadd 0 0 15 15 15).WF 16 = true ∧
    ([.fcmpEq 0 0 0 0 0, .hcmpLt 0 0 8 0 0, .vcmpEq 0 0 0 0 0, .cvtRn 0 0 0 0 30, .cvtRn 0 0 0 0 0x50, .vins 0 0 0 16,
      .vins 1 0 0 8, .vext 0 25 0 0, .vbcast 0 0 0 25, .mand 0 1 1, .mand 1 8 1, .mor 1 1 8] : List Instr).all
        (fun i => !i.WF 128) = true := by decide

theorem test_wf_stream_codes : ([.wait 0, .loop 1 1 0, .setta 0 1 0 1, .setta 0 0 8 1, .addta 0 8 1, .brp 0 0 0 1, .brp 0 1 0 0,
    .clear 0 0xFFF 1, .clear 1 0 0, .chkp 0 7 0 0, .chkp 0 0 1 8, .region 0 10, .hold 0 0, .rgeom 0 7, .tld 0 0 1 0 0 0 0 0,
    .tld 0 0 0 0 0 0 1 1, .tst 0 0 1 0 0 0 0, .tst 0 0 0 0 0 1 1, .mma 0 0 0 0 4 1 0 0 0 0, .mma 0 0 0 0 0 0 0 0 0 0,
    .mma 0 0 0 1 1 1 0 1 0 0, .mma 0 0 0 0 0 1 0 0 1 0, .mma 0 0 0 7 7 1 0 0 0 0, .mmag 0 0 0 0 0 1 0 1 0 0 0, .mspill 0 0 3 0,
    .mmov 0 1 1] : List Instr).all (fun i => !i.WF 0) = true := by decide

theorem test_wf_tile_codes : ([.eadd 0 0 0 0 0, .eadd 0 0 0 3 1, .ecvt 0 0 8 0 1 0 0 0, .ecvt 0 0 0 8 1 0 0 0, .ecvt 0 0 1 1 1 0 0 0,
    .ecvt 0 0 0 1 1 5 0 0, .ecmp 0 0 0 0 1 3, .sred 0 0 0 1 3, .sred 0 0 3 1 0, .strn 0 0 0 0, .sperm 0 0 0 0 0, .sbc 0 0 0 0,
    .sslice 0 0 0 0 0, .sscan 0 0 3 1, .sroll 0 0 0 0 0, .sendt 0 2 0 0 0, .sendt 0 0 0 1 0, .recvt 0 0 0 1 0 0,
    .recvt 0 3 0 0 0 0] : List Instr).all (fun i => !i.WF 0) = true := by decide

theorem test_wf_event_indices : ([.launchSlotWrite 64 0 8 0, .launchSlotWrite 0 8 8 0, .launchSlotWrite 0 0 9 0, .abortLaunch 64,
    .clearOverrun 64, .partitionEntryWrite 64 0, .stagingRetry 48 0, .stagingDiscard 48 0, .linkTableEntry 16 0,
    .homingEntry 0 64 0, .peerAddress 256 0, .mcMaint 48 0, .requestSoftRepair 48 0 0 0, .requestSoftRepair 0 8 0 0,
    .requestSoftRepair 0 0 32 0, .requestSoftRepair 0 0 0 65536, .readErrorLog 48 0, .readErrorLog 0 256, .linkFaultEvent 16 true 0,
    .retrainBurst 384 true, .maintenanceSlot 384] : List Instr).all (fun i => !i.WF 0) = true := by decide

/-! Words written out from the encodings (Tables 4.1 to 4.10). -/

theorem test_decode_scalar : decodeBundle 128 true 0x0100443300000000 = .ok (.paired (.add ⟨0, 0⟩ 1 2 3 3) .vnop) := by rfl

theorem test_decode_long : decodeBundle 128 false 0x8000500012345678 = .ok (.long (.li ⟨0, 0⟩ 5 0x12345678)) := by rfl

theorem test_decode_transfer : decodeBundle 128 false 0x84260000FFFFFFFE = .ok (.long (.br ⟨1, 3⟩ 0xFFFFFFFE)) := by rfl

theorem test_decode_vector : decodeBundle 128 false 0x0000000002004082 = .ok (.paired (.nop ⟨0, 0⟩) (.fadd 0 0 1 1 2)) := by rfl

theorem test_decode_bell : decodeT 0 0x00C4000000000007 = .ok ⟨3, .bell 7⟩ := by rfl

theorem test_decode_tld : decodeT 1 0x0004000000294021 = .ok ⟨0, .tld 1 2 0 4 1 0 0 5⟩ := by rfl

/-- The example under Table 4.8: its terms add to 0x0118_4430; the printed sum 0x0119_4430 has d = 5 (assumption 30). -/
theorem test_decode_example : decodeBundle 16 false 0x0118443002010286 = .ok (.paired (.add ⟨0, 3⟩ 1 2 3 0) (.fadd 0 0 4 5 6)) := by rfl

/-- Table 4.13. -/
theorem test_decode_probe : decodeBundle 16 false 0x84457000FFFFFFFE = .ok (.long (.call ⟨0, 2⟩ 23 0xFFFFFFFE)) ∧
    decodeBundle 16 false 0x5400000000000000 = .ok (.paired (.texit ⟨0, 0⟩) .vnop) := ⟨rfl, rfl⟩

/-- The example after R89. -/
theorem test_decode_idle : decodeT 1 0xFFC0000000000000 = .ok ⟨1023, .nopStream⟩ := by rfl

theorem test_decode_slots : decodeBundle 16 false 0x4000443600000000 = .ok (.paired (.ld ⟨0, 0⟩ 1 2 3 6) .vnop) ∧
    decodeBundle 16 false 0x4300443900000000 = .ok (.paired (.ldfe ⟨0, 0⟩ 1 2 3 9) .vnop) ∧
    decodeBundle 16 false 0x200045FF00000000 = .ok (.paired (.addi ⟨0, 0⟩ 1 2 0x1FF) .vnop) ∧
    decodeBundle 16 false 0x3000443400000000 = .ok (.paired (.cmp ⟨0, 0⟩ 1 2 3 4) .vnop) ∧
    decodeBundle 16 false 0x5100440000000000 = .ok (.paired (.jrl ⟨0, 0⟩ 1 2) .vnop) := ⟨rfl, rfl, rfl, rfl, rfl⟩

theorem test_decode_long_rows : decodeBundle 16 false 0x8800110D00000012 = .ok (.long (.rsv ⟨0, 0⟩ 1 2 3 1 0x12)) ∧
    decodeBundle 16 false 0x9000111030000000 = .ok (.long (.mjob ⟨0, 0⟩ 1 2 4 0x30000000)) ∧
    decodeBundle 16 false 0x94C0500000000010 = .ok (.long (.crd ⟨0, 0⟩ 5 0x10)) ∧
    decodeBundle 16 true 0x9800010C00000000 = .ok (.long (.pbell ⟨0, 0⟩ 2 3)) ∧
    decodeBundle 16 false 0x9800010C00000000 = .error .proctorOnly := ⟨rfl, rfl, rfl, rfl, rfl⟩

theorem test_decode_vector_rows : decodeBundle 16 false 0xC0208086 = .ok (.paired (.nop ⟨0, 0⟩) (.cvtRn 0 1 2 1 6)) ∧
    decodeBundle 16 false 0x61004103 = .ok (.paired (.nop ⟨0, 0⟩) (.vaddW3216 1 0 1 2 3)) ∧
    decodeBundle 16 false 0xD6004103 = .ok (.paired (.nop ⟨0, 0⟩) (.mand 1 2 3)) ∧
    decodeBundle 16 false 0xE0004100 = .ok (.paired (.nop ⟨0, 0⟩) (.fexp2 0 1 2)) := ⟨rfl, rfl, rfl, rfl⟩

theorem test_decode_stream_rows : decodeT 2 0x0005400000000041 = .ok ⟨0, .mmov 1 0 1⟩ ∧
    decodeT 3 0x0004000000110321 = .ok ⟨0, .eadd 1 2 3 1 4⟩ ∧
    decodeT 4 0x0004000040100021 = .ok ⟨0, .sred 1 2 0 4 1⟩ ∧
    decodeT 5 0x00040000001CC152 = .ok ⟨0, .sendt 2 1 5 3 7⟩ ∧
    decodeT 6 0x0004000000280021 = .ok ⟨0, .tst 1 2 0 0 0 0 5⟩ := ⟨rfl, rfl, rfl, rfl, rfl⟩

/-- R82: `vext a1` beside `add a1`; both naming `zr` is legal. -/
theorem test_decode_clash : decodeBundle 16 false 0x01004430D2004280 = .error .sameScalar ∧
    decodeBundle 16 false 0x01060430D2060280 = .ok (.paired (.add ⟨0, 0⟩ 24 2 3 0) (.vext 0 24 5 0)) := ⟨rfl, rfl⟩

/-- R83: a res cell is a no-op whatever its other fields hold. -/
theorem test_decode_reserved : decodeBundle 16 false 0x1EFFFFFF00000000 = .ok (.paired (.resSlotNop .s 0x1EFFFFFF) .vnop) := by rfl

theorem test_decode_refused : decodeBundle 128 false 0x0300000100000000 = .error (.badField .s) ∧
    decodeBundle 128 false 0x7F00000000000000 = .error (.illCell .s) ∧
    decodeT 1 0x003FC00000000000 = .error (.illCell .stream) := ⟨rfl, rfl, rfl⟩

/-- The examples of "Issuing", "Vector and stream instructions" and of the memory, engine and synchronisation entries. -/
theorem test_decode_examples : decodeBundle 16 false 0x9280000800000000 = .ok (.long (.ebind ⟨0, 0⟩ 2)) ∧
    decodeBundle 16 false 0x5600400000000000 = .ok (.paired (.tick ⟨0, 0⟩ 1) .vnop) ∧
    decodeBundle 16 false 0x9240018400000006 = .ok (.long (.sbind ⟨0, 0⟩ 3 1 0 6)) ∧
    decodeBundle 16 false 0x4000443500000000 = .ok (.paired (.ld ⟨0, 0⟩ 1 2 3 5) .vnop) ∧
    decodeBundle 16 false 0x4200443200000000 = .ok (.paired (.ldf ⟨0, 0⟩ 1 2 3 2) .vnop) ∧
    decodeBundle 16 false 0x9000142860040000 = .ok (.long (.mjob ⟨0, 0⟩ 1 8 10 0x60040000)) ∧
    decodeT 2 0x000440190C080108 = .ok ⟨0, .mmag 0 1 2 0 0 4 3 4 0 1 1⟩ := ⟨rfl, rfl, rfl, rfl, rfl, rfl, rfl⟩

/-! Values of the spec's worked examples. -/

/-- The table under R156. -/
theorem test_division : divW (BitVec.ofInt 64 (-7)) 2 = BitVec.ofInt 64 (-3) ∧ remW (BitVec.ofInt 64 (-7)) 2 = BitVec.ofInt 64 (-1) ∧
    divuW (BitVec.ofInt 64 (-7)) 2 = 0x7FFFFFFFFFFFFFFC ∧ remuW (BitVec.ofInt 64 (-7)) 2 = 1 ∧
    divW 0x8000000000000000 (BitVec.allOnes 64) = 0x8000000000000000 ∧ remW 0x8000000000000000 (BitVec.allOnes 64) = 0 ∧
    divW 5 0 = BitVec.allOnes 64 ∧ remuW 5 0 = 5 := by decide

/-- The example under R155. -/
theorem test_extract : extW 0xF0A0 0x0708 = 0xFFFFFFFFFFFFFFF0 ∧ extuW 0xF0A0 0x0708 = 0xF0 := by decide

/-- The examples under Tables 6.1 and 6.4: 300, 460 and 470 to f8e4. -/
theorem test_round_f8e4 : f8e4.round .rn (.fin false 300 0) = (0x79, fnx) ∧ f8e4.round .ru (.fin false 300 0) = (0x7A, fnx) ∧
    f8e4.round .rz (.fin false 300 0) = (0x79, fnx) ∧ f8e4.round .rn (.fin false 460 0) = (0x7E, fnx) ∧
    (f8e4.round .rn (.fin false 470 0)).2 = fof ||| fnx ∧ f8e4.round .rd (.fin false 470 0) = (0x7E, fnx) := by decide

/-- The example under R199: 300, -0.3 and 0.25 from f32 to f8e4, nearest even. -/
theorem test_convert_f8e4 : f8e4.round .rn (f32.value 0x43960000) = (0x79, fnx) ∧ f8e4.round .rn (f32.value 0xBE99999A) = (0xAA, fnx) ∧
    f8e4.round .rn (f32.value 0x7FC00000) = (0x7F, 0) ∧ f8e4.round .rn (f32.value 0x3E800000) = (0x28, 0) := by decide

/-- The example under R72. -/
theorem test_home : (Part.rest 0 0 0).home 0x12345000 = some (0, 23) := by decide

/-- Table 5.1. -/
theorem test_modes : (List.range 4).map modeThreads = [16, 8, 4, 2] ∧ (List.range 4).map modeVectors = [16, 32, 64, 128] := by decide

/-! One step. -/

theorem test_fetch_word : ∃ t, step (State.reset.withFetchWord 32 0) = .next t := ⟨_, by rfl⟩

/-! For each statement with hypotheses, a state and operands that meet them. -/

/-- The acting thread of `base` with changes. -/
def onCur (f : Thread → Thread) : State := { base with cur := f base.cur }

/-- The acting partition of `base` with changes. -/
def onPart (f : Part → Part) : State := { base with p := f base.p }

/-- `base` with operand registers a1 and a2. -/
def operands (a b : Word) : State := onCur fun t => { t with a := (t.a.set 1 a).set 2 b }

theorem witness_guard_off : base.guard ⟨1, 0⟩ = false ∧ base.force = none ∧ (base.creg 3).isSome = true := by decide

theorem witness_guard_on : base.guard always = true ∧ base.transferGuard always = true ∧ base.slotV = false := by decide

theorem witness_shift_counts : (operands 1 63).guard always = true ∧ ((operands 1 63).ra 2).toNat < 64 ∧
    64 ≤ ((operands 1 64).ra 2).toNat := by decide

theorem witness_division : (operands 5 0).guard always = true ∧ (operands 5 0).ra 2 = 0 ∧
    ((operands 0x8000000000000000 0xFFFFFFFFFFFFFFFF).ra 1).toInt = -2 ^ 63 ∧
    ((operands 0x8000000000000000 0xFFFFFFFFFFFFFFFF).ra 2).toInt = -1 ∧
    (operands 5 1).ra 2 ≠ 0 ∧ ¬ (((operands 5 1).ra 1).toInt = -2 ^ 63 ∧ ((operands 5 1).ra 2).toInt = -1) := by decide

theorem witness_immediates : base.guard always = true ∧ (0 : BitVec 9).toInt = 0 ∧ (63 : BitVec 9).toInt = 63 ∧
    (64 : BitVec 9).toInt = 64 := by decide

theorem witness_landing : (base.focusThread 1).cur.uid = 1 ∧ (base.focusThread 7).cur.uid ≠ 7 := by decide

theorem witness_latency : base.slotV = false ∧ (24 : BitVec 5).toNat = 24 ∧ (23 : BitVec 5).toNat < 24 := by decide

theorem witness_thread_instructions : base.transferGuard always = true ∧ base.cur.openPkt = none ∧ base.guard always = true ∧
    base.p.run.det = true ∧ base.cur.loc.cluster < 48 ∧ base.cur.parkedCmd = none ∧ base.slotV = false := by decide

/-- A thread on its way to trap entry with fault 9 of code 5. -/
def trapped : State :=
  onCur fun t => { t with status := .trapping, raised := some { Raised.of 9 0 5 8 with tvec := 0x101, handled := true } }

theorem witness_trap_entry : ∃ r, (trapped.focusThread 1).cur.uid = 1 ∧ (trapped.focusThread 1).cur.status = .trapping ∧
    (trapped.focusThread 1).cur.raised = some r ∧ r.handled = true ∧ r.kind < 256 ∧ r.slot < 2 ∧
    (trapped.focusThread 1).landsBy 1 ≤ (trapped.focusThread 1).now ∧ (trapped.focusThread 1).cur.relaxed = [] ∧
    (trapped.focusThread 1).cur.recite = 0 :=
  ⟨{ Raised.of 9 0 5 8 with tvec := 0x101, handled := true }, by decide⟩

theorem witness_unhandled : base.cur.uid ≠ 0 ∧ base.cur.part = base.p.first ∧ base.cur.recite = 0 ∧
    (Raised.of 2 0 0 0).told = false ∧ base.cur.trapEnabled = false ∧
    (onCur fun t => { t with tvec := 1, fault := 0x200 }).cur.trapActive = true ∧
    1 ≤ (Raised.of 2 0 0 0).kind ∧ (Raised.of 2 0 0 0).kind ≤ 7 ∧ base.p.run.active = true ∧ base.p.run.ending = false := by decide

theorem witness_trap_instruction : base.cur.recite = 0 ∧ base.cur.status = .ready ∧ base.guard always = true ∧
    base.cur.fwd = none := by decide

theorem witness_return_from_trap : base.transferGuard always = true ∧ base.cur.trapActive = false ∧
    (onCur fun t => { t with fault := 0x200 }).guard always = true ∧
    (onCur fun t => { t with fault := 0x200 }).cur.trapActive = true := by decide

theorem witness_control_registers : cregListed 0x00B = false ∧ base.guard always = true ∧ cregListed 0x003 = true ∧
    cregListed 0x009 = true ∧ (base.ra 1).extractLsb' 0 56 = 0 ∧ (base.focusThread 1).cur.uid = 1 := by decide

theorem witness_address_spaces : (operands 4096 0).guard always = true ∧ 4096 ≤ ((operands 4096 0).ra 1).toNat ∧
    ((operands 4095 0).ra 1).toNat < 4096 ∧ (∀ r ∈ (operands 4095 0).p.retiring, r.1 ≠ 4095) ∧ (operands 4095 0).p.run.det = true ∧
    (∃ r ∈ (onPart fun p => { p with retiring := [(0, 500)] }).p.retiring, r.1 = (base.ra 1).toNat) ∧
    (base.focusPart 0).p.first = 0 := by decide

theorem witness_address_space_retired : let s := onCur fun t => { t with status := .waiting .asidDrop }
    (s.focusPart 0).p.first = 0 ∧ ((s.focusPart 0).focusThread 1).cur.uid = 1 ∧
    ((s.focusPart 0).focusThread 1).cur.status = .waiting .asidDrop ∧ ((s.focusPart 0).focusThread 1).cur.part = 0 := by decide

theorem witness_faulting_encodings : base.p.run.active = true ∧ base.p.run.ending = false := by decide

/-! Vector statements. -/

theorem witness_unbound : unbound base [1, 2, 3] ∧ unbound base [127] := by unfold unbound; decide

theorem witness_vector_selection : unbound base [1, 2, 3] ∧ (15 : BitVec 7).toNat < 512 / 32 ∧ (7 : BitVec 7).toNat < 512 / 64 ∧
    (31 : BitVec 7).toNat < 32 := by unfold unbound; decide

/-- Every bf16 lane of v1 and v2 is 1, every f32 lane of v3 is 1. -/
def halves : State := onCur fun t => { t with v := ((t.v.set 1 0x3F803F803F803F803F803F803F803F803F803F803F803F803F803F803F803F803F803F803F803F803F803F803F803F803F803F803F803F803F803F803F803F80).set 2 0x3F803F803F803F803F803F803F803F803F803F803F803F803F803F803F803F803F803F803F803F803F803F803F803F803F803F803F803F803F803F803F803F80).set 3 0x3F8000003F8000003F8000003F8000003F8000003F8000003F8000003F8000003F8000003F8000003F8000003F8000003F8000003F8000003F8000003F800000 }

theorem witness_dot : unbound halves [1, 2, 3] ∧ ∃ m0 e0 m2 e2,
    (bf16.value (laneOf (vreg halves 1) 16 30)).mul (bf16.value (laneOf (vreg halves 2) 16 30)) = (FVal.fin false m0 e0, 0) ∧
    (bf16.value (laneOf (vreg halves 1) 16 31)).mul (bf16.value (laneOf (vreg halves 2) 16 31)) = (FVal.fin false m0 e0, 0) ∧
    f32.value (laneOf (vreg halves 3) 32 15) = FVal.fin false m2 e2 ∧ m0 ≠ 0 ∧ m2 ≠ 0 ∧
    scaled false m0 e0 (min e0 e2) + scaled false m0 e0 (min e0 e2) + scaled false m2 e2 (min e0 e2) ≠ 0 :=
  ⟨by unfold unbound; decide, 2 ^ 14, -14, 2 ^ 23, -23, by decide +kernel⟩

theorem witness_conversions : cvtRow 30 = none ∧ (∃ a b n k, cvtRow 16 = some (a, b, n, k) ∧ k ≤ 1) ∧
    (∃ a b n k, cvtRow 6 = some (a, b, n, k) ∧ 3 < k) ∧ unbound base [1, 2] :=
  ⟨by decide, ⟨_, _, _, _, rfl, by decide⟩, ⟨_, _, _, _, rfl, by decide⟩, by unfold unbound; decide⟩

theorem witness_permutes : unbound base [1, 2, 3] ∧ (7 : BitVec 7).toNat < 8 := by unfold unbound; decide

theorem witness_special_functions : unbound base [1, 2] ∧ (f32.value 0x7FC00000).isNan = true ∧
    ∃ n m e, f32.value 0x3F800000 = .fin n m e ∧ m ≠ 0 :=
  ⟨by unfold unbound; decide, by decide, _, _, _, rfl, by decide⟩

/-- `base` with the overlay chain in some state. -/
def withChain (c : Chain) : State := onPart fun p => { p with run := { p.run with chain := c } }


/-! Statements about the timed plane. -/

/-- The acting tile of `base` with changes, in its place in the partition as well. -/
def onTl (f : Tile → Tile) : State := { base with tl := f tile1, p := { part1 with tiles := [f tile1] } }

/-- A tile with a stream word in progress under key 9. -/
def working (what : TimedWord) (f : WordRun → WordRun := id) : State :=
  onTl fun t => { t with words := [f ⟨9, 1, 40, what, 0, 0x400, 0x2000, 0x3000, [], [], [], false⟩] }

/-- Notice-board slot 2 in some state. -/
def boarded (n : NoticeSlot) : State := onTl fun t => { t with board := t.board.set 2 n }

/-- ta1 and ta2 of the acting stream. -/
def addressed (a b : Word) : State :=
  onTl fun t => { t with streams := t.streams.set 0 { TStream.rest with ta := (TStream.rest.ta.set 1 a).set 2 b } }

/-- `base` with port 3 used, up and in phase. -/
def linked : State := { base with links := base.links.set 3 ⟨0x0200000000003000, 0⟩ }

theorem witness_control_words : base.tstream < 7 ∧ (1 : BitVec 16).toNat = (base.tl.bells + 1) % 65536 ∧
    (2 : BitVec 16).toNat ≠ (base.tl.bells + 1) % 65536 ∧ base.tl.board[(15 : BitVec 4).toNat].quiet ≤ base.plan ∧
    (7 : BitVec 4).toNat < 8 ∧ (1 : BitVec 3) ≠ 0 ∧
    (8 : BitVec 16).getLsbD 3 = true ∧ linked.links[3].w0.getLsbD 12 = true ∧ linked.links[3].w0.getLsbD 13 = true ∧
    2 * ((linked.links[3].w0.extractLsb' 32 16).toInt).natAbs ≤ (linked.links[3].w0.extractLsb' 48 16).toNat ∧
    base.links[3].w0.getLsbD 13 = false ∧ base.p.run.active = true ∧ base.p.run.ending = false := by decide

theorem witness_clearings : base.tl.board[2].state = .idle ∧ (boarded ⟨.opened, 0, 0, none, 0, 0⟩).tl.board[2].state ≠ .idle ∧
    (4 : BitVec 16).getLsbD 2 = true ∧ (atTile base 0 0).p.first = 0 ∧
    (atTile (boarded ⟨.posted, 0, 7, none, 0, 0⟩) 0 0).tl.board[2].state = .posted ∧
    (atTile (boarded ⟨.opened, 0, 0, none, 0, 0⟩) 0 0).tl.board[2].state = .opened := by decide

theorem witness_clearing_policies : let s : State := { base with p := { part1 with policies := [⟨0, 2, 0, 0, 5⟩, ⟨0, 3, 1, 0, 6⟩] } }
    (∃ y, (atTile s 0 0).p.policies.find? (fun y => y.tile == (atTile s 0 0).tl.ltile && y.slot == 2) = some y ∧ y.policy = 0) ∧
    (∃ y, (atTile s 0 0).p.policies.find? (fun y => y.tile == (atTile s 0 0).tl.ltile && y.slot == 3) = some y ∧ y.policy = 1) :=
  ⟨⟨_, rfl, rfl⟩, ⟨_, rfl, rfl⟩⟩

theorem witness_hold : let s := boarded ⟨.holding, 0, 0, some 10, 0, 0⟩
    let u : State := { s with p := { s.p with run := { s.p.run with hold := .holding, stopped := true, heldAt := 40 } } }
    (atTile u 0 0).tl.board[2].limit = some 10 ∧ (atTile u 0 0).tl.board[2].state = .holding ∧ (atTile u 0 0).p.run.hold = .holding ∧
    (atTile u 0 0).p.run.active = true ∧ (atTile u 0 0).p.run.ending = false ∧ (atTile u 0 0).tick = 40 + 10 * 1 := by decide

theorem witness_hold_begins_and_ends : let s := onPart fun p => { p with run := { p.run with hold := .pending, h0 := 50 } }
    let u := onPart fun p => { p with run := { p.run with hold := .resuming, resumeAt := 50, stopped := true } }
    (s.focusPart 0).p.first = 0 ∧ (s.focusPart 0).p.run.active = true ∧ (s.focusPart 0).p.run.stopped = false ∧
    (s.focusPart 0).p.run.mreqs = [] ∧ (s.focusPart 0).p.run.hold = .pending ∧ (s.focusPart 0).p.run.h0 ≤ (s.focusPart 0).plan ∧
    (u.focusPart 0).p.run.hold = .resuming ∧ (u.focusPart 0).p.run.resumeAt = (u.focusPart 0).tick := by decide

theorem witness_moves : EngineFree base false ∧ InHbm base (base.ta 0) ∧ InSram (base.ta 1) (128 * 4096) 128 ∧ InSram (base.ta 1) 64 64 ∧
    base.p.tileOf 0 = some 0 ∧ 0 < base.p.tiles.length ∧ base.tix < base.p.tiles.length := by
  unfold EngineFree InHbm InSram; decide

/-- A descriptor of one dimension of three lines, stride 1, at tensor SRAM offset 0. -/
def described : State :=
  ((base.storeWord (flatSram 0 0 0) 1 true).storeWord (flatSram 0 0 8) 0x0001000100010003 true).storeWord (flatSram 0 0 16) 0x00010001 true
    |>.storeWord (flatSram 0 0 24) 1 true

theorem witness_descriptor : ∃ sh, shapeOf ((List.range 8).map fun i =>
    described.word (flatSram described.p.first described.tl.ltile ((described.ta 1).toNat + 8 * i))) = some sh ∧ sh.lines = 3 :=
  ⟨_, by rfl, by rfl⟩

/-- A graph of one `acc` of four lines (the stage of `pool4`). -/
theorem witness_graph : ∃ gr, ({ part1 with graphs := [(0, 0, [0x1, 0x4050D])] } : Part).graphAt 0 (base.ctlOf 0) = some gr ∧
    ((3 : BitVec 12).toNat + 1) % gr.a = 0 ∧ ((3 : BitVec 12).toNat + 1) * gr.b / gr.a = 1 ∧ InSram 0 128 128 :=
  ⟨_, by rfl, by rfl, by rfl, by unfold InSram; decide⟩

/-- The page of HBM offset 0 mapped in its home cluster, with ASID 0, for writing; demand 1; every region named `store` at
HBM offset 0, and tensor SRAM from 0x1000 on named `shape`. -/
def part2 : Part := { part1 with
  clusters := [(0, { ClusterPart.rest with store := [⟨0x0030000000000000, 0, 0, 0, 0⟩] })]
  regions := [⟨none, 0, 0x1000, 6⟩, ⟨some 0, 0x1000, 0x1000, 4⟩]
  run := { part1.run with block := [0x01000000] } }

def mapped : State := { base with p := part2 }

/-- A request of line 0 of a contiguous `tld` or `tst` kept under key 9. -/
def request (write : Bool) : LineReq := ⟨0, 0, 1, 9, 0, 200, 0, write, false, false, 0, 0⟩

/-- A word kept under key 9, as its tile holds it. -/
def run9 (what : TimedWord) : WordRun := ⟨9, 1, 40, what, 0, 0x400, 0x2000, 0x3000, [], [], [], false⟩

/-- `mapped` with that word in progress. -/
def moving (what : TimedWord) : State :=
  { mapped with tl := { tile1 with words := [run9 what] }, p := { part2 with tiles := [{ tile1 with words := [run9 what] }] } }

/-- A `tld` of one line. -/
def tld1 : TimedWord := .plain (.tld 0 1 0 0 0 0 0 0)

theorem witness_line_requests : let f := atTile (moving tld1) 0 0
    f.p.first = 0 ∧ f.wordRun 9 = some (run9 tld1) ∧ (run9 tld1).rowLines = 1 ∧ 0 ≤ f.lineOff (run9 tld1) 0 ∧
    f.lineOff (run9 tld1) 0 < 2 ^ 46 ∧ f.lineFlat (f.lineOff (run9 tld1) 0) false = some 0 ∧
    f.lineFlat (f.lineOff (run9 tld1) 0) true = some 0 ∧ f.inBudget 0 = true ∧ f.portOk false 0 = true ∧
    (∀ i, i < 16 → f.attrOf (flatSram 0 f.tl.ltile (0 + 8 * i)) = 0) ∧ (∀ i, i < 16 → f.attrOf (0 + 8 * i) = 0) := by decide

theorem witness_line_over_budget : let s := moving tld1
    let u : State := { s with p := { s.p with run := { s.p.run with requests := [(50, 0)] } } }
    let f := atTile u 0 0
    f.p.first = 0 ∧ f.wordRun 9 = some (run9 tld1) ∧ f.lineFlat (f.lineOff (run9 tld1) 0) false = some 0 ∧
    f.inBudget 0 = false ∧ f.p.run.active = true ∧ f.p.run.ending = false := by decide

theorem witness_landing_line : let f := atTile mapped 0 0
    f.p.first = 0 ∧ mapped.mem.wf = true ∧ f.portOk false 0 = true ∧ f.tl.ltile < 1024 ∧
    f.p.sramEngine f.tl.ltile 0 128 1 = true ∧ f.p.sramEngine f.tl.ltile 0x1000 128 1 = false ∧ f.p.sramEngine f.tl.ltile 0x1000 128 4 = true ∧
    f.p.run.active = true ∧ f.p.run.ending = false ∧ f.p.hbmNamed 0 128 6 = true := by decide

theorem witness_matrix_words : EngineFree base false ∧ InSram ((addressed 0 0x400).ta 1) (1024 * 511) 128 ∧
    InSram ((addressed 0 0x400).ta 2) (1024 * 511) 128 ∧
    (((addressed 0 0x400).ta 1).toNat / 128 + 8) % 16 = ((addressed 0 0x400).ta 2).toNat / 128 % 16 ∧
    ¬ ((base.ta 1).toNat / 128 + 8) % 16 = (base.ta 2).toNat / 128 % 16 ∧
    0 < 32 * matScales 0 ∧ InSram (base.ta 3) (32 * matScales 0 * 511) 128 ∧ InSram (base.ta 3) 64 64 ∧ InSram (base.ta 3) 128 128 ∧
    base.accBusy [0] = false ∧ InSram (base.ta 1) (128 * 32) 128 ∧
    (let s := working (.plain (.mma 0 1 2 0 0 8 0 0 0 0)) ; s.accBusy [0] = true) := by
  unfold EngineFree InSram; decide

theorem witness_products : let w : TimedWord := .plain (.mma 0 1 2 0 0 2 1 0 0 0)
    let f := atTile (moving w) 0 0
    f.p.first = 0 ∧ f.wordRun 9 = some (run9 w) ∧ (∀ x ∈ (run9 w).lines, x.1 / 16 ≠ 1) ∧
    (∀ i, i < 8 → f.portOk true ((run9 w).r0.toNat + 1024 * 1 + 128 * i) = true ∧ f.portOk true ((run9 w).r1.toNat + 1024 * 1 + 128 * i) = true) ∧
    (run9 w).r0.toNat % 128 = 0 ∧ (run9 w).r1.toNat % 128 = 0 ∧ (run9 w).r1.toNat + 1024 * 1 + 1024 ≤ 0x600000 ∧
    (moving w).mem.wf = true ∧ f.tl.ltile < 1024 ∧ matKt 5 = matKt 5 ∧ (run9 w).what = w := by decide

theorem witness_clean_sram : CleanSram base := by
  intro x _
  show (if base.sramFlat x < flatHostBase then unlisted (wordOf (base.sramFlat x)) else 0) = 0
  unfold unlisted wordOf
  split
  · rw [if_pos (by omega)]
  · rfl

theorem witness_products_by_list : let w : TimedWord := .plain (.mmag 0 1 2 0 0 2 3 4 0 1 1)
    (atTile (moving w) 0 0).wordRun 9 = some (run9 w) ∧ matKt 0 = matKt 3 := by decide

theorem witness_accumulators : (∀ w ∈ ([.plain (.mspill 0 1 2 1), .plain (.mfill 0 1), .plain (.madd 0 1 2), .plain (.mmov 0 0 1)] : List TimedWord),
    (atTile (moving w) 0 0).wordRun 9 = some (run9 w) ∧ (run9 w).stream < 7 ∧ (run9 w).r0.toNat % 128 = 0 ∧
    (atTile (moving w) 0 0).portOk false ((run9 w).r0.toNat + 128 * 31) = true ∧ (∀ x ∈ (run9 w).lines, x.1 ≠ 31)) := by decide

theorem witness_group_lands : let f := atTile mapped 0 0
    ∀ a, f.portOk false a = true ∧ f.p.sramEngine f.tl.ltile 64 64 2 = true ∧ f.p.first = 0 ∧ f.tl.ltile < 1024 :=
  fun _ => ⟨rfl, by decide, rfl, by decide⟩

theorem witness_elementwise_words : EngineFree base false ∧ 1 ≤ (4095 : BitVec 12).toNat ∧
    InSram (base.ta 1) (4 * 32 * 4095) (groupAlign 32) ∧ InSram (base.ta 2) 4 4 ∧
    (onTl fun t => { t with streams := t.streams.set 0 { TStream.rest with busy := 51 } }).plan <
      (onTl fun t => { t with streams := t.streams.set 0 { TStream.rest with busy := 51 } }).stream.busy ∧
    ¬ InSram ((addressed 1 0).ta 1) (4 * (elemFmt 0).width * 1) (groupAlign (elemFmt 0).width) := by
  unfold EngineFree InSram; decide

theorem witness_elementwise_groups : let w : TimedWord := .vec .ma 0 0 4
    let f := atTile (moving w) 0 0
    f.p.first = 0 ∧ f.wordRun 9 = some (run9 w) ∧ (run9 w).stream < 7 ∧ (run9 w).what = w ∧
    (∀ i a, i < 3 → a < 0x3000 → a % 128 = 0 → f.portOk false a = true) ∧
    (∀ i, i < 3 → (if i = 0 then (run9 w).r0 else if i = 1 then (run9 w).r1 else (run9 w).r2).toNat % 8 = 0) := by
  refine ⟨rfl, rfl, by decide, rfl, fun _ _ _ _ _ => rfl, by decide⟩

theorem witness_scalar_read : let w : TimedWord := .vec .scale 0 0 4
    (atTile (moving w) 0 0).wordRun 9 = some (run9 w) ∧ (run9 w).r1.toNat % 4 = 0 ∧ (run9 w).r1.toNat + 4 ≤ 0x600000 ∧
    (atTile (moving w) 0 0).portOk false (run9 w).r1.toNat = true := by decide

theorem witness_shape_words : EngineFree base false ∧ InSram (base.ta 1) (4 * 32 * (32 * 384)) (groupAlign 32) ∧ InSram (base.ta 2) 32 1 ∧
    ((0 : Int) ≤ (base.ta 1).toNat + 4 * 32 * (1 * (1 : BitVec 12).toInt) ∧ (base.ta 1).toNat + 4 * 32 * (1 * (1 : BitVec 12).toInt) + 4 * 32 ≤ 0x600000) ∧
    ((base.ta 1).toNat + 4 * 32 * (1 * (0xFFF : BitVec 12).toInt) : Int) < 0 := by
  unfold EngineFree InSram; decide

theorem witness_shape_groups : ∀ op ∈ ([.red 0, .trn, .perm, .bc, .slice 1, .scan, .roll 31] : List ShapeOp),
    let w : TimedWord := .shape op 3 1
    (atTile (moving w) 0 0).wordRun 9 = some (run9 w) ∧ (run9 w).stream < 7 ∧ (run9 w).r0.toNat % (4 * 8) = 0 ∧
    (atTile (moving w) 0 0).portOk false (run9 w).r0.toNat = true := by decide

/-- `moving` with a line of source tile 7 arrived in this tick. -/
def received (what : TimedWord) (a : List Arrival) : State :=
  let t : Tile := { tile1 with words := [run9 what], arriving := a }
  { mapped with tl := t, p := { part2 with tiles := [t] } }

theorem witness_sends : EngineFree base false ∧ EngineFree base true ∧
    (let f := atTile (moving (.send 0 none)) 0 0
     f.wordRun 9 = some (run9 (.send 0 none)) ∧ f.p.tileOf 0 = some 0 ∧ f.p.tiles[0]? = some { tile1 with words := [run9 (.send 0 none)] } ∧
     f.tix < f.p.tiles.length ∧ f.portOk false ((run9 (.send 0 none)).r0.toNat + 128 * 0) = true) ∧
    (atTile (moving (.send 5 (some 15))) 0 0).sendersOn 15 ≤ 1 := by
  unfold EngineFree; decide

/-- Two tiles whose `sendt` words occupy port 3 in the same ticks. -/
def twoSenders : State :=
  let t : Tile := { tile1 with words := [{ run9 (.send 5 (some 3)) with r1 := 100 }] }
  { mapped with tl := t, p := { part2 with tiles := [t, { t with ltile := 1 }] } }

theorem witness_send_conflict : 1 < (atTile twoSenders 0 0).sendersOn 3 ∧ (atTile twoSenders 0 0).p.run.active = true := by decide

theorem witness_claims : let a : Arrival := ⟨50, 7, none, 0, 0, some true⟩
    let w : TimedWord := .recv 7 none false
    let f := atTile (received w [a]) 0 0
    f.wordRun 9 = some (run9 w) ∧ f.tl.arriving = [a] ∧ a.ltick = f.plan ∧ a.port = none ∧ a.stile = 7 ∧ a.header = some true ∧ a.pois = 0 ∧
    f.portOk false ((run9 w).r0.toNat + 128 * 0) = true ∧ f.p.sramEngine f.tl.ltile ((run9 w).r0.toNat + 128 * 0) 128 5 = true ∧
    (atTile (received w []) 0 0).tl.arriving = [] ∧
    (∃ x ∈ f.tl.arriving, x.ltick ≤ f.plan ∧ x.header.isSome = true) := by decide +kernel

/-! Statements about memory, synchronisation, engines and packets. -/

/-- A byte of the scratchpad of core 0 of cluster 0, as an address. -/
def pad (b : Nat) : Word := BitVec.ofNat 64 (2 ^ 47 + b)

/-- An access of the acting thread to the scratchpad word at 0x100. -/
def acc1 (op : AccOp) (n : Nat) : Acc := ⟨5, op, pad 0x100, n, false, 3, 7, false, 5, 8, 108, 0, false, 0, 100, 0, 0, 0, false, false, none⟩

/-- `base` out of rotation for access 5. -/
def accessing : State := onCur fun t => { t with status := .access 5 }

/-- A waiter of the acting thread, listed at the word at 0x100. -/
def waiter1 (chosen : Bool) : Waiter := ⟨1, acc1 .ldfe 8, true, chosen⟩

def listed (chosen : Bool) : State :=
  { onCur fun t => { t with status := .listed } with lists := [(flatLocal 0 0 0x100, [waiter1 chosen])] }

theorem witness_sync_issue : base.p.run.det = true ∧ base.guard always = true ∧ base.guard ⟨1, 0⟩ = false ∧
    (operands (pad 0x100) 0).route ((operands (pad 0x100) 0).ra 1 + (operands (pad 0x100) 0).ra 2) 8 = .ok (.loc 0 0 0x100) ∧
    tripOf base (.loc 0 0 0x100) = some 8 ∧ tripOf base (.loc 0 0 0x80000) = some 10 ∧ tripOf base (.loc 0 1 0) = some 24 ∧
    tripOf base (.loc 1 0 0) = some 392 ∧ tripOf base (.hbm 0 0) = some 200 ∧
    tripOf (onCur fun t => { t with pw := 0x00010001 }) (.hbm 5 0) = some 392 ∧
    (pad 0x100).toNat % 64 = 0 ∧ (pad 0x104).toNat % 8 ≠ 0 ∧ base.route (2 ^ 56) 8 = .error 4 ∧
    { base with p := { part1 with hostLen := 8 } }.route (2 ^ 46) 8 = .ok (.host 0) ∧
    { base with p := { part1 with run := { part1.run with ltiles := 1 } } }.route (3 * 2 ^ 46) 8 = .ok (.sram 0 0) ∧
    { base with p := { part1 with run := { part1.run with ltiles := 1 } } }.route (3 * 2 ^ 46 + 2 ^ 44) 8 = .ok (.board 0 0) ∧
    base.route (3 * 2 ^ 46 + 2 ^ 45) 8 = .ok (.counters 0) := by
  (repeat' apply And.intro) <;> first | rfl | decide

theorem witness_sync_arrives : (accessing.focusThread 1).cur.uid = 1 ∧ (accessing.focusThread 1).cur.status = .access (acc1 .ldfe 8).id ∧
    (acc1 .ldfe 8).bytes = 8 ∧ placeOf (accessing.focusThread 1) (acc1 .ldfe 8) = some (flatLocal 0 0 0x100) := by decide

theorem witness_sync_chosen : let s := listed false
    Tab.getD [] (flatLocal 0 0 0x100) s.lists = [] ++ waiter1 false :: [] ∧ (waiter1 false).uid ≠ 0 ∧
    (∃ t0, s.findThread 1 = some t0 ∧ t0.status = .listed ∧ s.standsStill t0.part = false ∧ t0.relaxed = [] ∧ t0.pushed = true ∧
      t0.waitTo ≤ s.now ∧ t0.asked = []) ∧
    (s.poisoned (flatLocal 0 0 0x100) || syncMay .ldfe (s.isFull (flatLocal 0 0 0x100)) (s.word (flatLocal 0 0 0x100))) = true :=
  ⟨by decide, by decide, ⟨_, rfl, by decide⟩, by decide⟩

/-- A `ldfe` of an empty word waits. -/
theorem witness_sync_waits : let s := (listed false).setAttr (flatLocal 0 0 0x100) 1
    ∀ x ∈ Tab.getD [] (flatLocal 0 0 0x100) s.lists, x.chosen = false ∧ s.memberReady (flatLocal 0 0 0x100) x = false := by decide

theorem witness_sync_performs : let s := listed true
    Tab.getD [] (flatLocal 0 0 0x100) s.lists = [] ++ waiter1 true :: [] ∧ s.lists.Pairwise (fun x y => x.1 < y.1) ∧
    (s.focusThread 1).cur.uid = 1 ∧ s.mem.wf = true ∧ s.attr.wf = true ∧ flatLocal 0 0 0x100 % 8 = 0 ∧
    flatLocal 0 0 0x100 + 8 ≤ flatHostBase ∧ s.attr.read (flatLocal 0 0 0x100 / 8 * 8) = 0 := by decide

/-- A dependence counter at 1 whose successor is for cluster 3. -/
def counting : State :=
  let s : State := { listed true with lists := [(flatLocal 0 0 0x100, [⟨1, acc1 .dctr 8, true, true⟩])] }
  s.storeWord (flatLocal 0 0 0x100) 0x0000000300000001 true

theorem witness_counter_fires : Tab.getD [] (flatLocal 0 0 0x100) counting.lists = [⟨1, acc1 .dctr 8, true, true⟩] ∧
    counting.mem.wf = true ∧ counting.attr.wf = true ∧ (counting.word (flatLocal 0 0 0x100)).toNat % 2 ^ 32 = 1 ∧
    ((counting.word (flatLocal 0 0 0x100)).extractLsb' 32 6).toNat < 48 := by decide

theorem witness_sync_completes : let a := { acc1 .ldfe 8 with stage := 1 }
    (accessing.focusThread 1).cur.uid = 1 ∧ (accessing.focusThread 1).cur.status = .access a.id ∧ a.stage = 1 ∧ a.rlx = false ∧
    accessing.goto = none ∧ a.bad = 0 ∧ ({ a with bad := 7 } : Acc).bad ≠ 0 ∧ (accessing.focusThread 1).enqueuing 1 = false := by decide

theorem witness_loads_and_stores : base.p.run.det = true ∧ base.guard always = true ∧ base.cur.fromCluster = base.cur.loc.cluster ∧
    (operands (pad 0x100) 0).route (pad 0x100) 1 = .ok (.loc 0 0 0x100) ∧ tripOf base (.loc 0 0 0x100) = some 8 ∧
    (pad 0x101).toNat % 8 ≠ 0 ∧ base.cur.relaxed.length < 8 ∧ base.route (2 ^ 56) 8 = .error 4 := by
  (repeat' apply And.intro) <;> first | rfl | decide

theorem witness_load_completes : ∀ n ∈ [1, 2, 4, 8], let a := acc1 .load n
    (accessing.focusThread 1).cur.status = .access a.id ∧ a.stage = 0 ∧ a.rlx = false ∧ accessing.goto = none ∧
    placeOf (accessing.focusThread 1) a = some (flatLocal 0 0 0x100) ∧ a.bytes ∈ [1, 2, 4, 8] ∧ flatLocal 0 0 0x100 % a.bytes = 0 ∧
    flatLocal 0 0 0x100 + 8 ≤ flatHostBase ∧ accessing.attr.read (flatLocal 0 0 0x100 / 8 * 8) = 0 := by decide

/-- A store to HBM offset 0x1000, past the region that names the store engine. -/
theorem witness_hbm_store : let s : State := { mapped with p := { part2 with regions := [⟨none, 0x800, 0x800, 6⟩] } }
    placeOf s { acc1 .store 8 with va := 8 } = some 8 ∧ placeOf s { acc1 .store 8 with va := 0x800 } = none ∧
    placeOf s { acc1 .store 8 with va := 0x1000 } = none := by decide

theorem witness_poisoned_load : let s := accessing.setAttr (flatLocal 0 0 0x100) 2
    placeOf (s.focusThread 1) (acc1 .load 8) = some (flatLocal 0 0 0x100) ∧ s.poisoned (flatLocal 0 0 0x100) = true ∧
    (acc1 .store 4).bytes < 8 := by decide

theorem witness_watch : placeOf (accessing.focusThread 1) (acc1 .watch 8) = some (flatLocal 0 0 0x100) ∧ (acc1 .watch 8).sx = false ∧
    (acc1 .watch 8).bytes = 8 := by decide

theorem witness_nap : 2 ^ 32 ≤ ((operands 0x100000000 0).ra 1).toNat ∧ ((operands 0xFFFFFFFF 0).ra 1).toNat < 2 ^ 32 ∧
    base.cur.monitor.armed = false ∧
    (onCur fun t => { t with monitor := ⟨true, true, pad 0x100, flatLocal 0 0 0x100⟩ }).cur.monitor.seen = true ∧
    (onCur fun t => { t with monitor := ⟨true, false, pad 0x100, flatLocal 0 0 0x100⟩ }).cur.monitor.seen = false := by decide

theorem witness_fence : (base.cur.relaxed = [] ∧ base.cur.pushes = [] ∧ base.cur.waitTo ≤ base.now ∧ base.cur.asked = []) ∧
    ¬ ((onCur fun t => { t with pushes := [⟨1, 0, 90, none, 130⟩] }).cur.pushes = []) ∧ (8 : BitVec 4) ≠ 7 ∧ (8 : BitVec 4) ≠ 9 := by decide

theorem witness_nap_ends : let s := onCur fun t => { t with status := .napping, napAt := 200, monitor := ⟨true, true, pad 0x100, flatLocal 0 0 0x100⟩ }
    let u := onCur fun t => { t with status := .napping, napAt := 200, monitor := ⟨true, false, pad 0x100, flatLocal 0 0 0x100⟩ }
    (s.focusThread 1).cur.uid = 1 ∧ (s.focusThread 1).cur.status = .napping ∧ (s.focusThread 1).p.ppState = 0 ∧
    (s.focusThread 1).cur.monitor.seen = true ∧ (u.focusThread 1).cur.monitor.seen = false ∧ (u.focusThread 1).cur.napAt = 200 := by decide

/-- Slot 3 of core 0 of cluster 0 as an address, and its line number in the tag table. -/
def slot3 : Word := pad (0x80000 + 128 * 3)

/-- A tag table with one entry, at slot 3. -/
def tagged (e : TagEntry) : State :=
  { operands 0x2000 slot3 with p := { part1 with clusters := [(0, { ClusterPart.rest with tags := [(3, e)] })] } }

theorem witness_tags : base.guard always = true ∧ ((tagged ⟨0x40, true, false, 0⟩).cluster 0).tags.Pairwise (fun x y => x.1 < y.1) ∧
    2 ^ 56 ≤ ((operands (2 ^ 56) 0).ra 1).toNat ∧ ((tagged ⟨0x40, true, false, 0⟩).ra 1).toNat < 2 ^ 56 ∧
    { base with p := { part1 with first := 32, lg := 1 } }.p.owns (8 * 0 + 7) = false ∧ base.p.owns (8 * 0 + 7) = true ∧
    (tagged ⟨0x40, true, false, 0⟩).tagOf 0 0 3 = ⟨0x40, true, false, 0⟩ ∧
    ((0x2000 : Word).extractLsb' 7 49 : BitVec 49) = 0x40 ∧
    (tagged ⟨0x40, true, false, 0⟩).route slot3 1 = .ok (.loc 0 0 (0x80000 + 128 * 3)) := by
  (repeat' apply And.intro) <;> first | rfl | decide

theorem witness_tag_lookup : let s := tagged ⟨0x40, true, false, 0⟩
    (s.tagOf 0 0 3).valid = true ∧ (s.tagOf 0 0 3).tag = (0x40 : BitVec 49) ∧
    (∀ m, m < 3 → ¬ ((s.tagOf 0 0 m).valid = true ∧ (s.tagOf 0 0 m).tag = (0x40 : BitVec 49))) := by decide

theorem witness_tag_dirty : let s := tagged ⟨0x40, true, false, 0x8001⟩
    s.p.run.det = true ∧ (s.tagOf 0 0 3).pin = false ∧ (s.tagOf 0 0 3).valid = true ∧ (s.tagOf 0 0 3).dirty ≠ 0 ∧
    s.route ((s.tagOf 0 0 3).tag.setWidth 64 <<< 7) 128 = .ok (.hbm 2 0x2000) := by
  (repeat' apply And.intro) <;> first | rfl | decide

theorem witness_tag_pinned : let s := tagged ⟨0x40, true, true, 1⟩
    (s.tagOf 0 0 3).pin = true ∧ ((s.tagOf 0 0 3).valid = true ∧ (s.tagOf 0 0 3).dirty ≠ 0) ∧
    (let u := tagged ⟨0x40, false, false, 0⟩ ; (u.tagOf 0 0 3).valid = false ∧ (u.tagOf 0 0 3).pin = false) := by decide

/-- `accessing` with a stream descriptor at 0x100: offset 0x40, all bounds 1. -/
def describing : State :=
  let a := flatLocal 0 0 0x100
  { accessing with mem := [⟨a, 0x40⟩, ⟨a + 8, 1⟩, ⟨a + 10, 1⟩, ⟨a + 12, 1⟩, ⟨a + 14, 1⟩] }

theorem witness_stream_bind : let u := describing.focusThread 1
    let w (i : Nat) : Word := u.word (flatLocal 0 0 0x100 + 8 * i)
    u.cur.uid = 1 ∧ u.cur.status = .access 5 ∧ (∀ i, i < 4 → u.attr.read ((flatLocal 0 0 0x100 + 8 * i) / 8 * 8) = 0) ∧
    descFault u.p 0 0 (pad 0x100) (w 0) (w 1) (w 2) (w 3) = none ∧ (w 0).getLsbD 22 = false ∧ describing.goto = none := by
  decide +kernel

theorem witness_stream_route : (describing.focusThread 1).route (pad 0x100) 1 = .ok (.loc 0 0 0x100) ∧
    (operands (pad 0x100) 0).route ((operands (pad 0x100) 0).ra 1) 32 = .ok (.loc 0 0 0x100) := ⟨rfl, rfl⟩

theorem witness_stream_free : let st (n : Nat) : State := onCur fun t => { t with streams := t.streams.set 1 { StreamReg.rest with bound := true, flight := n } }
    (base.cur.streams[1]).bound = false ∧ ((st 0).cur.streams[1]).bound = true ∧ ((st 1).cur.streams[1]).flight ≠ 0 ∧
    (2 : BitVec 2).getLsbD 1 = true ∧ (1 : BitVec 2).getLsbD 1 = false ∧
    (∀ q ∈ base.cur.streams.toList, ¬ (q.bound = true ∧ q.reg = 5)) := by decide

/-- An 8 by 8-step product of the scratchpad: A at 0x1000, B at 0x2000, C at 0x4000, rows of 64 and 128 bytes. -/
def matOps (t : Thread) : Thread := { t with bound := 1, a := ((((((t.a.set 2 (pad 0x1000)).set 3 0x40).set 4 (pad 0x2000)).set 5 0x40).set 6
  (pad 0x4000)).set 7 0x80) }

/-- imm32 of that command: C pair 6, f8e4, one tile, one step. -/
def matImm : BitVec 32 := 0x30000000

def matBase : State := onCur matOps

def matJob (step : Nat) : Job where
  key := 9
  uid := 1
  part := 0
  cluster := 0
  core := 0
  pos := 0
  nthr := 16
  eng := 1
  seq := 1
  asid := 0
  quad := 0
  cmd := .mat false (pad 0x1000) 0x40 (pad 0x2000) 0x40 (pad 0x4000) 0x80 0 matImm
  accepted := 90
  started := true
  step := step
  steps := 8
  lastStep := 0
  lastAcc := 0
  code := 0
  addr := 0
  emptied := []
  rowList := []
  bundle := 0
  flights := []
  graph := .rest

theorem witness_engine_commands : base.p.run.det = true ∧ base.guard always = true ∧ base.cur.bound ≠ 1 ∧ base.cur.bound ≠ 2 ∧
    base.cur.bound ≠ 3 ∧ (onCur fun t => { t with bound := 2 }).cur.bound = 2 ∧
    base.route (pad 0x100) 192 = .ok (.loc base.cur.loc.cluster base.cur.loc.core 0x100) ∧ (pad 0x100).toNat % 64 = 0 ∧
    base.route (pad 0x80000) 64 = .ok (.loc 0 0 0x80000) ∧ matBase.cur.bound = 1 ∧ matBase.cur.parkedCmd = none ∧
    matBase.p.jobs = [] := by
  (repeat' apply And.intro) <;> first | rfl | decide

theorem witness_matrix_command : matBase.matFault 0 (matCmd false (matBase.ra 2) (matBase.ra 3) (matBase.ra 4) (matBase.ra 5)
    (matBase.ra 6) (matBase.ra 7) 0 matImm) = none ∧
    matBase.matFault 0 (matCmd false (matBase.ra 2) (matBase.ra 3) (matBase.ra 4) (matBase.ra 5) (matBase.ra 4) (matBase.ra 5) 0 matImm) ≠ none ∧
    (matBase.ra 2, matBase.ra 6) = (pad 0x1000, pad 0x4000) := by decide +kernel

theorem witness_four_jobs : ([matJob 0, matJob 0, matJob 0, matJob 0].filter fun j => j.uid == matBase.cur.uid && j.eng == 1).length = 4 := by
  decide

theorem witness_job_wait : (onCur fun t => { t with jobs := [⟨1, 1, 0, 0⟩] }).cur.jobStatus 0x101 = 0 ∧
    ((onCur fun t => { t with jobs := [⟨1, 1, 1, 0⟩] }).cur.jobStatus 0x101).toNat % 256 = 1 ∧ (operands 0x101 0).ra 1 = 0x101 := by decide

theorem witness_id_returns : (base.focusThread 1).cur.uid = 1 := by decide

/-- `base` with one job. -/
def withJob (j : Job) : State := onPart fun p => { p with jobs := [j] }

theorem witness_matrix_job : let f := (withJob (matJob 7)).focusPart 0
    f.p.first = 0 ∧ f.job 9 = some (matJob 7) ∧ (matJob 7).key = 9 ∧ (matJob 7).started = true ∧ (matJob 7).code = 0 ∧ f.p.ppState = 0 ∧
    (matJob 7).step + 1 = (matJob 7).steps ∧ (matJob 6).step + 1 < (matJob 6).steps ∧ (withJob (matJob 7)).mem.wf = true := by decide

theorem witness_matrix_rows : let f := (withJob (matJob 7)).focusPart 0
    let m := matCmd false (pad 0x1000) 0x40 (pad 0x2000) 0x40 (pad 0x4000) 0x80 0 matImm
    f.matPoison m (matJob 7).rowList = none ∧ m.mt * m.nt = 1 ∧
    (∀ r < 32, f.flatOf (m.c.crow 0 r) = flatLocal 0 0 (0x4000 + 128 * r)) ∧ flatLocal 0 0 0x4000 % 8 = 0 := by decide +kernel

/-- A copy of one 8-byte element from scratchpad 0x100 to 0x200. -/
def copyDesc : List Word := [pad 0x100, pad 0x200, 1, 0x0001000100010001, 0x0001000100010001, 0x0001000100010001] ++ List.replicate 18 0

def copyJob (step : Nat) : Job := { matJob step with eng := 2, cmd := .copy copyDesc (pad 0x400), steps := 17 }

theorem witness_copy_job : let f := (withJob (copyJob 16)).focusPart 0
    f.job 9 = some (copyJob 16) ∧ (copyJob 16).steps = 16 + copyCount copyDesc ∧ 16 ≤ (copyJob 16).step ∧ (copyJob 16).step < (copyJob 16).steps ∧
    (copyJob 16).flights = [] ∧ copySize copyDesc = 8 := by decide

theorem witness_copy_places : let f := (withJob (copyJob 16)).focusPart 0
    f.route (copySrc copyDesc 0) 8 = .ok (.loc 0 0 0x100) ∧ f.route (copyDst copyDesc 0) 8 = .ok (.loc 0 0 0x200) ∧
    f.attr.read (flatLocal 0 0 0x100 / 8 * 8) = 0 ∧ f.attr.read (flatLocal 0 0 0x200 / 8 * 8) = 0 := by
  (repeat' apply And.intro) <;> first | rfl | decide

theorem witness_job_completes : let f := (withJob (copyJob 17)).focusPart 0
    f.job 9 = some (copyJob 17) ∧ f.p.jobs.Pairwise (fun x y => x.key ≠ y.key) ∧ f.cur.uid = (copyJob 17).uid ∧ f.cur.jobs = [] := by decide

theorem witness_parked_command : let s := onCur fun t => { t with parkedCmd := some ⟨2, 3, .copy copyDesc (pad 0x400), 0⟩ }
    (s.focusThread 1).cur.uid = 1 ∧ (s.focusThread 1).cur.parkedCmd = some ⟨2, 3, .copy copyDesc (pad 0x400), 0⟩ ∧
    (s.focusThread 1).cur.nextCmd = none ∧ (s.focusThread 1).p.jobs = [] ∧ (s.focusThread 1).p.ppState = 0 ∧
    (s.focusThread 1).p.run.ending = false := by decide

theorem witness_packets : let s := onCur fun t => { t with bound := 4 }
    let u := onCur fun t => { t with bound := 4, openPkt := some ⟨0, 7, []⟩ }
    base.cur.bound ≠ 4 ∧ base.cur.bound ≠ 5 ∧ s.cur.bound = 4 ∧ s.cur.openPkt = none ∧ u.cur.openPkt.isSome = true ∧
    ((s.ra 1).toNat < 2 ^ 32 ∧ (s.ra 1).toNat / 64 % 4 = 0 ∧ (s.ra 1).toNat % 64 < 48 ∧ (s.ra 1).toNat / 256 % 256 = s.ownPkg) ∧
    ¬ ((48 : Word).toNat % 64 < 48) ∧ s.cur.unsent = none ∧ s.cur.pktLeaves ≤ s.now ∧ u.cur.relaxed = [] ∧ u.cur.pushes = [] := by decide

theorem witness_packet_full : 32 < (List.replicate 31 (0 : Word) ++ [0, 0]).length ∧ (List.replicate 31 (0 : Word) ++ [0]).length ≤ 32 := by decide

theorem witness_match_and_post : base.route (pad 0x100) 32 = .ok (.loc base.cur.loc.cluster base.cur.loc.core 0x100) ∧
    (pad 0x100).toNat % 32 = 0 ∧ (pad 0x108).toNat % 32 ≠ 0 ∧
    { base with p := { part1 with run := { part1.run with ltiles := 1 } } }.route (3 * 2 ^ 46 + 2 ^ 44 + 8 * 15) 8 = .ok (.board 0 15) ∧
    (onCur fun t => { t with bound := 5 }).cur.bound = 5 := by
  (repeat' apply And.intro) <;> first | rfl | decide

/-- A packet of tag 7 for cluster 0. -/
def packet1 (ph : PktPhase) (words : List Word) : Packet := ⟨ph, 0, 0, 0, 7, 0, words, 0⟩

/-- A matching entry of tag 7 of two words at scratchpad 0x200. -/
def entry1 (n : Nat) : MatchEntry := ⟨7, false, n, pad 0x200, pad 0x300, 0⟩

/-- `base` with what the partition owns in cluster 0. -/
def onCluster0 (f : ClusterPart → ClusterPart) : State := onPart fun p => { p with clusters := [(0, f .rest)] }

theorem witness_packet_unmatched : (base.focusPart 0).p.first = 0 ∧ (packet1 .arrive [1]).dest < 48 ∧
    (∀ e ∈ ((base.focusPart 0).cluster 0).mtab.entries, e.2.tag ≠ (packet1 .arrive [1]).tag) ∧
    ((base.focusPart 0).cluster 0).mtab.held.length < 16 * (base.focusPart 0).p.units ∧
    16 * ({ base with p := { Part.rest 63 6 0 with clusters := [] } } : State).p.units ≤ (List.replicate 16 (packet1 .arrive [1])).length := by decide

theorem witness_packet_matched : let s := onCluster0 fun c => { c with mtab := ⟨[(0, entry1 1)], []⟩ }
    ((s.focusPart 0).cluster 0).mtab.entries = [] ++ (0, entry1 1) :: [] ∧ (entry1 1).tag = (packet1 .arrive [5]).tag ∧
    (packet1 .arrive [5]).off < (entry1 1).nword ∧ (entry1 1).got + 1 = (entry1 1).nword ∧ (entry1 2).got + 1 ≠ (entry1 2).nword ∧
    flatLocal 0 0 0x200 % 8 = 0 ∧ s.mem.wf = true ∧ s.attr.wf = true := by decide

theorem witness_packet_place : let s := onCluster0 fun c => { c with mtab := ⟨[(0, entry1 1)], []⟩ }
    (s.focusPart 0).clusterWord 0 (pad 0x200) = .ok (flatLocal 0 0 0x200) ∧ (s.focusPart 0).clusterWord 0 (pad 0x300) = .ok (flatLocal 0 0 0x300) := by
  (repeat' apply And.intro) <;> first | rfl | decide

/-- The acting thread out of rotation for a post to slot 2 of tile 0, where the slot stands so. -/
def posting (n : NoticeSlot) (c : List Clearing) : State :=
  let t : Tile := { tile1 with board := tile1.board.set 2 n, clearings := c }
  { accessing with tl := t, p := { part1 with tiles := [t] } }

theorem witness_post_performs : ∀ n ∈ ([⟨.idle, 0, 0, none, 0, 0⟩, ⟨.posted, 0, 0, none, 0, 0⟩, ⟨.opened, 0, 0, none, 0, 0⟩] : List NoticeSlot),
    let f := (posting n [⟨4, none, 40, 60⟩]).focusThread 1
    f.cur.uid = 1 ∧ f.cur.status = .access 5 ∧ f.cur.relaxed = [] ∧ f.cur.pushes = [] ∧ f.cur.waitTo ≤ f.now ∧ f.cur.asked = [] ∧
    f.p.tileOf 0 = some 0 ∧ (f.p.tiles.getD 0 .rest).board[2] = n ∧ (f.p.tiles.getD 0 .rest).slotOpen 2 f.plan = true := by decide

/-- An enqueue for cluster 0. -/
def enq1 (src : EnqSrc) : Enq := ⟨0, 0, ⟨0x100, 3, 0, 0⟩, src⟩

theorem witness_enqueue : let s := onCur fun t => { t with status := .waiting .enqueue }
    ((base.focusPart 0).cluster 0).queue.items.length < 64 ∧ ((base.focusPart 0).cluster 0).queue.waiting = [] ∧
    (s.focusPart 0).cur.uid = 1 ∧ (s.focusPart 0).cur.part = 0 ∧ (s.focusPart 0).cur.status = .waiting .enqueue ∧
    64 ≤ (List.replicate 64 (enq1 .table).desc).length := by decide

theorem witness_queue_head : let s := onCluster0 fun c => { c with queue := ⟨[(enq1 .table).desc], [], .wait⟩ }
    let f := s.focusPart 0
    f.p.first = 0 ∧ f.p.run.active = true ∧ f.p.run.ending = false ∧ f.p.ppState = 0 ∧ f.p.run.det = true ∧ f.cur.proctor = false ∧
    (f.cluster 0).queue.head = .wait ∧ (f.cluster 0).queue.items = (enq1 .table).desc :: [] ∧ nfoot (enq1 .table).desc = 0 ∧
    (∃ l m, f.freeContexts 0 = l :: m) := by
  refine ⟨rfl, rfl, rfl, rfl, rfl, rfl, rfl, rfl, by decide, _, _, rfl⟩

theorem witness_queue_waits : let s := onCluster0 fun c => { c with queue := ⟨[], [((enq1 .table).desc, none)], .wait⟩ }
    ((s.focusPart 0).cluster 0).queue.waiting = ((enq1 .table).desc, none) :: [] ∧ ((s.focusPart 0).cluster 0).queue.items.length < 64 := by decide

theorem witness_task_ok : ({ base with p := { part1 with code := List.replicate 40 0 } } : State).taskOk (enq1 .table).desc = true := by decide

theorem witness_task_placed : let s := onCluster0 fun c => { c with queue := ⟨[(enq1 .table).desc], [], .placed ⟨0, 0, 1⟩ []⟩ }
    ((s.focusPart 0).cluster 0).queue.head = .placed ⟨0, 0, 1⟩ [] ∧ ((s.focusPart 0).cluster 0).queue.items = (enq1 .table).desc :: [] := by decide

/-! Statements about the proctor, the host, launches and the package. -/

/-- The acting thread is a proctor's context on die 0, with operands. -/
def proctor1 (a b : Word) (r : Run) : State :=
  { operands a b with cur := { (operands a b).cur with proctor := true, loc := ⟨48, 0, 0⟩ }, p := { part1 with run := r } }

theorem witness_proctor : base.cur.proctor = false ∧
    (let s := proctor1 0 60 part1.run ; s.cur.proctor = true ∧ s.guard always = true ∧ s.p.run.active = true ∧ s.p.run.ending = false ∧
      (s.ra 2).toNat ≠ 0 ∧ (s.ra 2).toNat < s.tick + 16) := by decide

theorem witness_proctor_bell : let s := proctor1 1 66 { part1.run with chain := .swapping, preloaded := some 1 }
    s.p.run.chain = .swapping ∧ s.p.run.preloaded = some ((s.ra 1).toNat % 256) ∧ s.tick + 16 ≤ (s.ra 2).toNat := by decide

theorem witness_proctor_first_bell : let s := proctor1 0 66 { part1.run with chain := .none }
    s.p.run.active = true ∧ s.p.run.chain = .none ∧ (s.ra 1).toNat % 256 = 0 ∧ s.tick + 16 ≤ (s.ra 2).toNat ∧
    s.p.run.preload = none ∧ (proctor1 0 0 { part1.run with preload := some 1 }).p.run.preload.isSome = true ∧
    2 ^ 13 ≤ ((proctor1 0x2000 0 part1.run).ra 1).toNat ∧ ((proctor1 0x1FFF 0 part1.run).ra 1).toNat < 2 ^ 13 ∧
    s.cur.loc.cluster - 48 < 4 ∧ s.ra 1 ≠ 1 ∧ s.ra 1 ≠ 2 ∧ (proctor1 1 0 part1.run).ra 1 = 1 ∧ (proctor1 2 0 part1.run).ra 1 = 2 := by decide

/-- `base` after bring-up, with a whole-package partition at rest defined by entry 0. -/
def ready : State := { base with
  mgmt := { Mgmt.rest with ready := true, mailbox := 1 }
  table := base.table.set 0 ⟨0x10001, false, none⟩
  p := Part.rest 0 0 0 }

theorem witness_launch_slot : (ready.focusPart 0).p.first = 0 ∧ ready.mgmt.ready = true ∧ (ready.focusPart 0).p.entry = 0 ∧
    ready.table[0].w0.getLsbD 16 = true ∧ (ready.focusPart 0).p.slots[7] = none ∧ (ready.focusPart 0).p.slots[0] = none ∧
    (0 : Nat) = (ready.focusPart 0).p.ring ∧ (ready.focusPart 0).p.acting = none ∧ (ready.focusPart 0).p.run.active = false ∧
    ({ ready with p := { ready.p with slots := ready.p.slots.set 7 (some (3, 1)) } }.focusPart 0).p.slots[7].isSome = true := by decide

theorem witness_registers : ready.mgmt.mailbox.toNat % 4 = 1 ∧ base.mgmt.mailbox.toNat % 4 ≠ 1 ∧ (1 : Word).getLsbD 0 = true ∧
    (4 : Word).getLsbD 2 = true ∧ ready.mboxReq[0].toNat % 256 = 0 := by decide

/-- Entry word: units 32 to 63. -/
def halfEntry : Word := BitVec.ofNat 64 (1 + 2 * 1 + 16 * 32 + 65536)

/-- No partition yet. -/
def empty : State := { base with p := Part.rest 64 0 64, cur := .rest, mgmt := ready.mgmt }

theorem witness_entries : halfEntry.toNat / 2 % 8 ≠ 7 ∧ halfEntry.toNat / 16 % 64 % 2 ^ (6 - halfEntry.toNat / 2 % 8) = 0 ∧
    (∀ (k : Nat) (hk : k < 64), k ≠ 1 → empty.table[k].w0.getLsbD 0 = true → Apart 32 1 (empty.table[k].w0.toNat / 16 % 64) (empty.table[k].w0.toNat / 2 % 8)) ∧
    (∀ (k : Nat) (hk : k < 64) (g m : Nat), empty.table[k].releasing = some (g, m) → Apart 32 1 g m) ∧
    halfEntry.getLsbD 0 = true ∧ empty.partOfEntry 1 = none ∧ (14 : Word).toNat / 2 % 8 = 7 := by
  refine ⟨by decide, by decide, ?_, ?_, by decide, by decide, by decide⟩
  · intro k hk _ h; simp [empty, base, State.reset] at h
  · intro k hk g m h; simp [empty, base, State.reset] at h

theorem witness_release : (∃ p, ready.partOfEntry 0 = some p ∧ p.run.active = false ∧ (ready.focusPart p.first).p = p) ∧ ready.mem.wf = true :=
  ⟨⟨_, rfl, rfl, rfl⟩, rfl⟩

theorem witness_host_memory : ready.mgmt.ready = true ∧ ready.mem.wf = true ∧ ready.attr.wf = true ∧ (0x40 : Nat) % 8 = 0 ∧
    (0x40 / 2 ^ 34 < 48 ∧ 0x40 % 2 ^ 34 < 0x300000000) ∧ (ready.focusOwner 0x40).p.image = none ∧
    ({ mapped with mgmt := ready.mgmt }.focusPart 0).p.first = 0 := by decide

theorem witness_host_memory_vf : ({ mapped with mgmt := ready.mgmt }.focusPart 0).p.translate 0x40 0 true = .ok 0x40 := by rfl

theorem witness_ring : 4096 < (base.ringProd - 1).toNat ∧ (base.ringProd - 0).toNat ≤ 4096 ∧ base.ringWait = [] ∧
    { base with ringProd := 4096, ringWait := [[1]] }.ringWait = [[1]] ∧ ((4096 : BitVec 32) - 1).toNat < 4096 := by decide

theorem witness_homing : (ready.focusPart 0).p.first = 0 ∧ ((0xFFFF0000FFFF0003 : Word) &&& 0xFFFFFFFFFFFF3F1F).getLsbD 1 = true ∧
    (∃ c, c < 48 ∧ (0xFFFF0000FFFF0003 : Word).getLsbD (16 + c / 12) = true ∧ (0xFFFF0000FFFF0003 : Word).getLsbD (20 + c % 12) = true) ∧
    (0xFFFF0000FFFF0003 : Word).toNat / 2 ^ 48 ≠ 0 ∧ (ready.focusPart 0).p.run.active = false ∧ base.p.run.active = true := by
  refine ⟨by decide, by decide, ⟨0, by decide⟩, by decide, by decide, by decide⟩

theorem witness_translation : let l := ((ready.focusPart 0).cluster 0).store
    (0x0020000000000000 : Word).getLsbD 53 = true ∧ (0 : Word).getLsbD 53 = false ∧
    (l.filter fun e => e.w0.getLsbD 53 && transSet (ready.focusPart 0).p.units e.w0 == transSet (ready.focusPart 0).p.units 0x0020000000000000).length < 8 ∧
    (ready.focusPart 0).p.frameOk 0x0020000000000000 0 = true ∧ (ready.focusPart 0).p.homing[0].getLsbD 0 = true ∧
    (((mapped.focusPart 0).cluster 0).store.any fun e => e.w0.getLsbD 53 && e.w0.extractLsb' 0 40 == (0 : BitVec 40)) = true := by decide

theorem witness_windows : (0x1000 : Word).toNat % 4096 = 0 ∧ (0x800 : Word).toNat % 4096 ≠ 0 := by decide

theorem witness_maintenance : base.launchRuns = true ∧ ready.launchRuns = false ∧ 64 ≤ (0x400000 : Word).toNat / 2 ^ 16 % 2 ^ 12 ∧
    (0x3F0000 : Word).toNat / 2 ^ 16 % 2 ^ 12 < 64 ∧ ready.ctls[47].log = [] ∧
    (ready.logEntry 47 ⟨1, 2, 3, 4⟩).ctls[47].log[0]? = some ⟨1, 2, 3, 4⟩ ∧
    ¬ ((Tab.find 0 (ready.chan 0).remaps).isSome = true ∨ ∃ r ∈ (ready.chan 0).repairs, r.bank = 0) ∧
    (Tab.find 0 ({ ready with chans := [(0, { Chan.rest with remaps := [(0, 5)] })] }.chan 0).remaps).isSome = true := by decide

theorem witness_firmware : ready.mgmt.rollback ≤ 3 ∧ { ready.mgmt with staged := some 3 }.staged = some 3 ∧ ready.mgmt.staged = none ∧
    2 < { ready.mgmt with rollback := 3 }.rollback := by decide

/-- `ready` with port 3 used: latency limit 130 ticks, peer 1, in a group of two. -/
def grouped : State := { ready with links := base.links.set 3 ⟨0x0200000000821001, 0⟩, group := 0x0100002000000200 }

theorem witness_group : grouped.launchRuns = false ∧ 32 ≤ grouped.holdLead ∧ 32 + 0 ≤ grouped.holdLead ∧ grouped.links[3].w0.getLsbD 12 = true ∧
    Tab.find 3 [(3, 128)] = some 128 ∧ grouped.links[3].w0.toNat % 256 < grouped.group.toNat / 2 ^ 8 % 2 ^ 9 ∧
    128 + 2 ≤ grouped.links[3].w0.toNat / 2 ^ 16 % 2 ^ 12 ∧ { grouped with group := 0x20000 }.group.getLsbD 17 = true ∧
    grouped.group.getLsbD 17 = false ∧ (0x3F1000 : Word).getLsbD 12 = true ∧ (0x3F1000 : Word).toNat / 2 ^ 16 % 2 ^ 12 < 64 ∧
    ((0x0100002000000200 : Word).toNat % 256 < 2 ∧ 32 ≤ (0x0100002000000200 : Word).toNat / 2 ^ 32 % 2 ^ 16 ∧ 256 ≤ (0x0100002000000200 : Word).toNat / 2 ^ 48) ∧
    ¬ ((0x00FF002000000200 : Word).toNat / 2 ^ 48 ≥ 256) := by decide

/-- A thread parked in wait-list entry 0 for an access of HBM offset 0. -/
def parked (roaming : Bool) : State :=
  { onCur fun t => { t with status := .parked 0, missed := some { acc1 .load 8 with va := 0 } } with
    p := { part1 with waits := [(0, ⟨1, true, 0, 0, 0, 0, 0, 0, roaming⟩)] } }

theorem witness_resolve : ∀ b : Bool, let f := (parked b).focusPart 0
    let u := f.focusThread 1
    f.p.first = 0 ∧ Tab.find 0 f.p.waits = some ⟨1, true, 0, 0, 0, 0, 0, 0, b⟩ ∧ f.p.ppState = 0 ∧ u.cur.uid = 1 ∧ u.cur.part = 0 ∧
    u.cur.missed = some { acc1 .load 8 with va := 0 } ∧ f.p.unlisted = [] ∧ f.p.waits.Pairwise (fun x y => x.1 < y.1) ∧
    f.p.run.det = true ∧ u.cur.proctor = false ∧ f.p.home (({ acc1 .load 8 with va := 0 } : Acc).va.toNat % 2 ^ 46) = some (0, 0) ∧
    { f.p with ppState := 1 }.ppState ≠ 0 := by decide

theorem witness_staging : let s := onCluster0 fun c => { c with queue := ⟨[(enq1 .table).desc], [], .blocked⟩ }
    ((s.focusPart 0).cluster 0).queue.head = .blocked := by decide

/-- A thread that moves to cluster 5, in a context or on its way. -/
def moved (core goal : Nat) : State :=
  { onCur fun t => { t with status := .migrating, goal := goal, loc := ⟨0, core, 0⟩, missed := some { acc1 .load 8 with va := 0 } } with
    p := { part2 with waits := [(0, ⟨1, false, 0, 0, 0, 0, 0, 0, true⟩)] } }

theorem witness_migration : let f := (moved 0 5).focusThread 1
    let g := (moved 8 0).focusThread 1
    let h := (moved 8 serviceStore).focusThread 1
    f.cur.uid = 1 ∧ f.cur.status = .migrating ∧ f.p.first = f.cur.part ∧ f.p.run.det = true ∧ f.cur.proctor = false ∧ f.cur.loc.core ≠ 8 ∧
    f.cur.relaxed = [] ∧ (f.cluster 5).arrived.length < 8 ∧ g.cur.loc.core = 8 ∧ g.cur.goal ≠ serviceStore ∧ (g.cluster 0).arrived = [] ∧
    (∃ a, g.cur.missed = some a ∧ a.bad = 0 ∧ a.va = 0) ∧
    h.cur.goal = serviceStore ∧ (∃ n e, h.p.waits.find? (fun x => x.2.uid == 1) = some (n, e)) ∧ (∃ l m, g.freeContexts 0 = l :: m) := by
  refine ⟨rfl, rfl, rfl, rfl, rfl, by decide, rfl, by decide, rfl, by decide, rfl, ⟨_, rfl, rfl, rfl⟩, rfl, ⟨_, _, rfl⟩, _, _, rfl⟩

theorem witness_migration_place : ((moved 8 0).focusThread 1).p.translate (0 % 2 ^ 46) 0 false = .ok 0 := by rfl

theorem witness_late : let s := onCur fun t => { t with late := some { Raised.of 4 0 8 0 with late := true } }
    (s.focusThread 1).cur.late.isSome = true ∧ ({ acc1 .load 8 with rlx := true } : Acc).rlx = true ∧ (base.focusThread 1).cur.loc.core ≠ 8 ∧
    (base.focusThread 1).freeEntry.isSome = true := by decide +kernel

theorem witness_push : let s := onCur fun t => { t with streams := t.streams.set 1 { StreamReg.rest with bound := true, push := true, port := true } }
    (base.focusThread 1).cur.streams[0].port = false ∧ (s.focusThread 1).cur.streams[1].port = true ∧ base.mem.wf = true := by decide +kernel

/-- A load of host memory on its way. -/
def hostLoad : State :=
  let a := { acc1 .load 8 with va := 2 ^ 46 }
  { accessing with p := { part1 with hostLen := 8 }, agenda := [⟨500, 0, .ev (.accessComplete 1 (.acc a))⟩] }

theorem witness_host_timeout : (hostLoad.focusThread 1).cur.uid = 1 ∧ (hostLoad.focusThread 1).cur.status = .access 5 ∧
    (hostLoad.focusThread 1).route (2 ^ 46) 8 = .ok (.host 0) ∧
    hostLoad.agenda = [] ++ ⟨500, 0, .ev (.accessComplete 1 (.acc { acc1 .load 8 with va := 2 ^ 46 }))⟩ :: [] := by
  (repeat' apply And.intro) <;> first | rfl | decide

theorem witness_port_queue : let f := (withJob (copyJob 0)).focusPart 0
    f.job 9 = some (copyJob 0) ∧ (copyJob 0).code = 0 ∧ (Tab.getD ⟨[], none, 0⟩ 0 (f.cluster 0).ports).chunks.length ≤ 14 ∧
    14 < (⟨List.replicate 15 ⟨0, 0⟩, none, 0⟩ : PortQueue).chunks.length := by decide

theorem witness_soft_error : base.attr.wf = true ∧ (0 / 2 ^ 34 < 48 ∧ 0 % 2 ^ 34 < 0x300000000) ∧ base.attrOf 0 &&& 0xE = 0 ∧
    (base.setAttr 0 4).attrOf 0 &&& 4 ≠ 0 ∧ (base.setAttr 0 2).poisoned 0 = true := by decide

/-- A record of one overlay, one tile and no thread (Tables 1.1, 1.2, 1.5), with its CRC-32. -/
def record1 : List Word := [0x10001434C5251, 0xE486D17500000090, 0x10000, 0x0, 0x100010, 0x0, 0x0, 0x1000, 0x10034, 0x0, 0x0, 0x0, 0x0, 0x0, 0x0, 0x0, 0x6000000040, 0xFF0000000064]

/-- Its image: a control stream of one `nop` (Tables 1.12 to 1.15), with its CRC-32. -/
def image1 : List Word := [0x14D495251, 0xD806C986000000A0, 0x0, 0x0, 0x0, 0x0, 0x0, 0x0, 0x1, 0x4000000058, 0x0, 0x100000050, 0x100000000000000, 0x200000000000000, 0x300000000000000, 0x400000000000000, 0x500000000000000, 0x600000000000000, 0x0, 0x7A110000]

/-- The words of a list from a flat address on. -/
def laid (m : Memory) (at_ : Nat) (l : List Word) : Memory :=
  l.zipIdx.foldl (fun m (w, i) => m.writeN (at_ + 8 * i) 8 w.toNat) m

/-- A partition at rest that maps the record at HBM offset 0 and the image at 0x1000, its proctor at slot 0. -/
def admitting (w : Word) (emptied : Bool) : State := { ready with
  mem := laid (laid [] 0 record1) (2 ^ 34) image1
  p := { Part.rest 0 0 0 with
    slots := (Vector.replicate 8 none).set 0 (some (40, w))
    acting := some (0, w, emptied)
    clusters := [(0, { ClusterPart.rest with store := [⟨0x0030000000000000, 0, 0, 0, 0⟩] }),
      (1, { ClusterPart.rest with store := [⟨0x0030000000000001, 0, 0, 0, 0⟩] })] } }

theorem witness_admission : let f := (admitting 1 true).focusPart 0
    f.p.first = 0 ∧ f.p.acting = some (0, 1, true) ∧ f.unsettled = false ∧
    f.admissionCode (f.copyRecord ((1 : Word).toNat / 2 ^ 12 % 2 ^ 50 * 64)) ((1 : Word).toNat / 2 ^ 8 % 8) = 0 ∧
    (admitting 1 true).mem.wf = true := by decide +kernel

theorem witness_admission_refused : let f := (admitting 0x40001 true).focusPart 0
    f.admissionCode (f.copyRecord ((0x40001 : Word).toNat / 2 ^ 12 % 2 ^ 50 * 64)) 0 = 1 := by decide +kernel

theorem witness_admission_begins : let f := (admitting 1 false).focusPart 0
    f.p.first = 0 ∧ f.p.acting = some (0, 1, false) ∧ f.p.run.active = false ∧ f.p.records.toList[0]? = some none := by decide +kernel

/-- The record kept under handle 0. -/
def armed1 (h : Option Nat) : State :=
  let s := admitting 2 false
  { s with p := { s.p with records := s.p.records.set 0 (some ⟨record1, false⟩), armed := h } }

theorem witness_launch : ∀ h ∈ ([none, some 0] : List (Option Nat)), let f := (armed1 h).focusPart 0
    f.p.acting = some (0, 2, false) ∧ f.p.records.toList[0]? = some (some ⟨record1, false⟩) ∧ f.unsettled = false ∧ f.p.armed = h := by
  decide +kernel

theorem witness_abort : (base.focusPart 0).p.run.active = true ∧ (base.focusPart 0).p.run.ending = false ∧ (base.focusPart 0).p.run.aborted = false ∧
    (base.focusPart 0).p.run.final = false ∧ (base.focusPart 0).p.run.group = false ∧ (ready.focusPart 0).p.run.active = false := by decide

/-- A launch whose timetable has retired, with no thread left. -/
def withRun (r : Run) : State := { base with cur := .rest, p := { part1 with run := r } }

theorem witness_retirement : let f := (withRun { part1.run with chain := .retired }).focusPart 0
    f.p.run.active = true ∧ f.p.paused = false ∧ f.p.ppState = 0 ∧ f.p.run.slot < 8 ∧ f.p.run.ending = false ∧ f.p.run.aborted = false ∧
    f.p.run.faults = [] ∧ f.p.run.nfault = 0 ∧ f.launchOver = true ∧ (base.focusPart 0).launchOver = false := by decide

theorem witness_ending : let r : Run := { part1.run with ending := true, final := true, faults := [⟨17, 0, 0, 0, 0, 0, 0, 0, false, 0⟩] }
    let f := (withRun r).focusPart 0
    f.p.run.ending = true ∧ f.p.run.final = true ∧ f.sweep.launchThreads = [] ∧ f.p.jobs = [] ∧ f.p.run.faults ≠ [] ∧
    (({ base with p := { part1 with run := r } } : State).focusPart 0).sweep.launchThreads ≠ [] := by decide

theorem witness_rearm : ∀ v ∈ ([none, some ⟨record1, false⟩] : List (Option Admitted)),
    let f := ({ ready with p := { ready.p with arming := some 0, records := ready.p.records.set 0 v } } : State).focusPart 0
    f.p.arming = some 0 ∧ f.p.run.active = false ∧ f.unsettled = false ∧ f.p.records.toList[0]? = some v := by decide

theorem witness_roll_call : let f := base.storeThread.focusPart 0
    f.p.first = 0 ∧ f.p.run.active = true ∧ f.coreFenced 0 7 = false ∧ (7 : Nat) < 8 := by decide

/-- A running overlay with a budget of 50 cycles whose chain stands so. -/
def chained (f : Run → Run) : State := { base with p := { part1 with run := f { part1.run with rec_ := record1 } } }

theorem witness_budget : ((chained id).focusPart 0).p.run.chain = .running ∧ ((chained id).focusPart 0).plan = 50 ∧
    (let r := ((chained id).focusPart 0).p.run ; (r.overlay r.ovl).2.toNat % 2 ^ 40 = 100) ∧
    (let s := chained fun r => { r with plan := 50 } ; (s.focusPart 0).plan = (s.focusPart 0).p.run.ovlPlan + 100) := by decide

theorem witness_chain : ((chained fun r => { r with preload := some 0, chain := .swapping, chainNext := 0 }).focusPart 0).p.run.preload = some 0 ∧
    ((chained fun r => { r with chain := .draining, passes := 2 }).focusPart 0).p.run.pass + 1 < 2 ∧
    ((chained fun r => { r with chain := .draining }).focusPart 0).p.run.chainNext = 0xFF ∧
    ((chained fun r => { r with chain := .draining, chainNext := 0, preloaded := some 0 }).focusPart 0).p.run.preloaded = some 0 ∧
    ((chained fun r => { r with chain := .changing, stopped := true }).focusPart 0).p.run.stopped = true := by decide

/-- A governor of cluster 0 whose table lies in the scratchpad, with two assignment words to write. -/
def governed : State := onCluster0 fun c => { c with gov := ⟨pad 0x400, [0, pad 0x500], [], 0, [(0, 1), (3, 2)]⟩ }

theorem witness_governor : let f := governed.focusPart 0
    (f.cluster 0).gov.word ≠ 0 ∧ f.p.run.active = true ∧ f.p.paused = false ∧ (f.cluster 0).gov.pend = (0, 1) :: [(3, 2)] ∧
    f.localIn 0 ((f.cluster 0).gov.table.getD 1 0) 64 64 = some (flatLocal 0 0 0x500) ∧ governed.mem.wf = true := by decide

theorem witness_preemption : (base.focusPart 0).overlayRuns = true ∧ ((chained fun r => { r with chain := .retired }).focusPart 0).overlayRuns = false ∧
    (base.focusPart 0).p.ppState = 0 ∧
    (let s : State := { base with p := { part1 with ppState := 1, ppWant := true, run := { part1.run with prept := some (50, true) } } }
     (s.focusPart 0).p.ppState = 1 ∧ (s.focusPart 0).p.run.prept = some ((s.focusPart 0).plan, true) ∧ (s.focusPart 0).p.run.ending = false) := by decide

/-- A save in progress. -/
def saved1 : Saved := ⟨40, false, 40, 0, [], 0, 0, [tile1], [], [], [], []⟩

theorem witness_save : let s : State := { withRun part1.run with p := { part1 with ppState := 1, saved := some saved1 } }
    let g := s.storeThread.focusPart 0
    g.p.first = 0 ∧ g.p.saved = some saved1 ∧ g.p.ppState = 1 ∧ g.p.ppWant = false ∧
    (g.launchThreads.all g.threadSaved && g.p.jobs.all Job.saved && !g.inTransit) = true ∧
    (let u : State := { base with p := { part1 with ppState := 1, saved := some saved1 } }
     let h := u.storeThread.focusPart 0
     (h.launchThreads.all h.threadSaved && h.p.jobs.all Job.saved && !h.inTransit) = false) := by decide

def witnessPaused : State := { withRun part1.run with p := { part1 with ppState := 2, saved := some saved1 } }

theorem witness_restore : let f := witnessPaused.focusPart 0
    f.p.saved = some saved1 ∧ f.p.ppState = 2 ∧ 0 < f.p.run.d ∧ f.p.entry < 64 ∧ f.lists = [] ∧ f.launchThreads = [] ∧ f.p.waits = [] := by decide

theorem witness_restore_crc : let f := witnessPaused.focusPart 0
    sameCrc (f.areaCells (saved1.back + saved1.save) saved1.save) saved1.area = true := by decide +kernel

theorem witness_restore_damaged : sameCrc [⟨0, 1⟩] [] = false := by decide +kernel

theorem witness_link_fault : grouped.links[3].w0.getLsbD 12 = true ∧ ({ grouped with group := 0x20000 } : State).group.getLsbD 17 = true ∧
    grouped.links[3].w0.toNat / 2 ^ 48 < (0x201 : BitVec 16).toInt.natAbs ∧ ¬ grouped.links[3].w0.toNat / 2 ^ 48 < (0x200 : BitVec 16).toInt.natAbs := by decide

theorem witness_line_arrives : (base.focusPart 0).p.tileOf 0 = some 0 ∧ (base.focusPart 0).p.tiles[0]? = some tile1 ∧ (base.focusPart 0).plan ≤ 50 ∧
    (base.focusPart 0).p.run.active = true := by decide

theorem witness_group_reason : let s := chained fun r => { r with group := true }
    let f := s.focusPart 0
    f.p.first = 0 ∧ (65535 : Nat) < 65536 ∧ f.p.run.group = true ∧ f.plan ≤ 50 ∧ 49 < f.plan ∧ f.p.run.hold = .running ∧ f.p.run.active = true ∧
    f.p.run.ending = false ∧ s.tick ≤ 18 + s.holdLead := by decide

theorem witness_boundary : let s := chained fun r => { r with group := true, bounds := [(50, 3, 7)] }
    (s.focusPart 0).p.run.group = true ∧ (∃ tile, tile < 1024 ∧ (50, tile, (7 : Word)) ∈ (s.focusPart 0).p.run.bounds) ∧
    (∀ b ∈ (s.focusPart 0).p.run.bounds ++ (s.focusPart 0).p.run.bounds0, b.1 ≠ 51) ∧ 1 ≠ s.ownPkg :=
  ⟨rfl, ⟨3, by decide⟩, by decide⟩

theorem witness_group_start : let s : State := { chained (fun r => { r with group := true, chain := .none }) with group := 0x0100002000000100 }
    let u : State := { s with p := { s.p with stamps := [(0, 40, [], 0)] } }
    let f := u.focusPart 0
    f.p.run.active = true ∧ f.p.run.group = true ∧ f.p.run.chain = .none ∧ f.p.run.aborted = false ∧ f.p.run.slot < 8 ∧
    (∀ k, k < u.extent → ∃ y ∈ f.p.stamps, y.1 = k) ∧ (∀ y ∈ f.p.stamps, y.2.2.1 = recPolicyWords f.p.run.rec_) ∧
    [(1 : Word)] ≠ recPolicyWords f.p.run.rec_ := by
  refine ⟨rfl, rfl, rfl, rfl, by decide, ?_, by decide, by decide⟩
  intro k hk
  have hk : k < 1 := hk
  exact ⟨(0, 40, [], 0), by decide, by omega⟩

theorem witness_peer_request : (mapped.focusPart 0).p.translate 0 0 true = .ok 0 ∧ (mapped.focusPart 0).p.translate 0x8000 0 true = .error 0 := ⟨rfl, rfl⟩

theorem witness_peer_request_regions : (mapped.focusPart 0).p.hbmOpen 0 8 7 = false ∧ (base.focusPart 0).p.hbmOpen 0 8 7 = true ∧
    mapped.attr.read (0 / 8 * 8) = 0 ∧ (mapped.setAttr 0 2).poisoned 0 = true := by decide

/-- A load sent to a peer, its reply due in a cycle. -/
def sent (due : Nat) : State := onCur fun t => { t with status := .access 5, asked := [{ acc1 .load 8 with due := due }] }

theorem witness_peer_reply : let f := (sent 101).focusThread 1
    f.cur.uid = 1 ∧ f.cur.status = .access 5 ∧ f.cur.relaxed = [] ∧
    f.cur.asked.find? (fun x => x.id == 5) = some { acc1 .load 8 with due := 101 } ∧ ({ acc1 .load 8 with due := 101 } : Acc).id = 5 ∧
    f.p.run.det = true ∧ (sent 101).now < 101 ∧ (sent 100).now = 100 ∧ (sent 100).goto = none := by decide

theorem witness_repair : let s : State := { ready with chans := [(0, { Chan.rest with repairs := [⟨5, 1000, 8⟩] })] }
    (s.chan (8 * 0 + 0)).repairs = ⟨5, 1000, 8⟩ :: [] ∧ 8 ≤ 8 ∧ s.attr = [] ∧ (0 : Nat) < 48 := by decide

theorem witness_maintenance_events : ready.attr = [] ∧ (383 : Nat) / 8 < 48 ∧ (ready.maint (383 / 8)).toNat % 2 ^ 16 ≠ 0 ∧ (ready.chan 0).retrain = 0 := by
  decide

theorem witness_power : ready.mgmt.tripped = false ∧ { ready.mgmt with tripped := true }.tripped = true ∧ State.reset.mgmt.staged = none ∧
    State.reset.mem.wf = true ∧ State.reset.mgmt.powered = true ∧ { ready.mgmt with powered := false }.powered = false := by decide

/-! A step. -/

theorem witness_issue_slot : let s := State.reset.withFetchWord 64 0x8000500012345678
    let u := s.settleWaits
    ∃ c r t, u.pick = .agenda ⟨c, r, .issue 1⟩ t ∧ s.now ≤ c ∧
      ((u.takePick u.pick).2.takeSlot 1 false).1 = true ∧
      ((u.takePick u.pick).2.takeSlot 1 false).2.fetch = some 0x8000500012345678 ∧
      ((u.takePick u.pick).2.takeSlot 1 false).2.cur.recite = 0 ∧ ((u.takePick u.pick).2.takeSlot 1 false).2.cur.fwd = none :=
  ⟨_, _, _, by rfl, by decide, by rfl, by rfl, by rfl, by rfl⟩

theorem witness_fetch_fault : (onCur fun t => { t with pc := 4 }).fetch = none ∧ base.fetch = none := by decide

/-- The control stream of tile 0 has a `nop` to issue in the next tick. -/
def wordDue : State := onTl fun t => { t with streams := t.streams.set 0 { TStream.rest with body := [0], due := 50, done := false } }

theorem witness_stream_word : (wordDue.takeWord 0 0 0).1 = some 0 := by rfl

theorem witness_round_trip : (Instr.add ⟨0, 3⟩ 1 2 3 4).WF 128 = true ∧ (encode (.add ⟨0, 3⟩ 1 2 3 4)).isSome = true ∧
    (Instr.add ⟨0, 3⟩ 1 2 3 4).sFields.isSome = true ∧ (Instr.fadd 0 0 4 5 6).vFields.isSome = true ∧
    (Instr.tld 1 2 0 4 1 0 0 5).WF 0 = true ∧ (encodeStream ⟨0, .tld 1 2 0 4 1 0 0 5⟩).isSome = true := by decide

theorem witness_memory_form : State.reset.mem.wf = true ∧ State.reset.attr.wf = true := by decide

/-! More witnesses: results, traps, control registers and stream operands. -/

/-- The acting thread with stream sq1 on vector register 5. -/
def streaming (q : StreamReg) : State :=
  onCur fun t => { t with streams := t.streams.set 1 { q with bound := true, reg := 5, w1 := 0x0001000100010002 } }

theorem witness_landing_bound : let f := (streaming .rest).focusThread 1
    f.cur.uid = 1 ∧ (∃ q ∈ f.cur.streams.toList, q.bound = true ∧ q.reg = 5) ∧
    (∀ q ∈ (base.focusThread 1).cur.streams.toList, q.bound = true → q.reg ≠ 5) := by decide

theorem witness_landing_push : let y : Push := ⟨1, 0, 90, none, 130⟩
    let f := (onCur fun t => { t with pushes := [y] }).focusThread 1
    f.cur.uid = 1 ∧ f.cur.pushes.find? (fun z => z.sq == 1 && z.pos == 0) = some y := by decide

theorem witness_bind_waits : let s := onCur fun t => { t with bound := 2, parkedCmd := some ⟨2, 3, .copy [] 0, 0⟩ }
    s.guard always = true ∧ s.cur.openPkt = none ∧ (∃ c ∈ s.cur.parkedCmd, c.eng = s.cur.bound.toNat) ∧
    (∀ c ∈ base.cur.parkedCmd, c.eng ≠ base.cur.bound.toNat) := by decide

theorem witness_trap_entry_no_miss : (trapped.focusThread 1).cur.lateMiss = none := by decide

theorem witness_unhandled_late : let s := onCur fun t => { t with tvec := 1, fault := 0x200 }
    s.cur.trapActive = true ∧ s.trapTvec.getLsbD 0 = false ∧ base.cur.issueTvec.getLsbD 0 = false ∧
    (Raised.of 2 0 0 0).late = false ∧ ({ Raised.of 2 0 0 0 with late := true } : Raised).late = true := by decide

theorem witness_control_registers_late : let f := base.focusThread 1
    let g := (withChain .none).focusThread 1
    f.beforeBell = false ∧ g.beforeBell = true ∧ g.cur.uid = 1 ∧ (5 : Word).extractLsb' 0 16 ≠ 0 ∧
    homingOk (0xFFFF0000FFFF0003 &&& homingMask) = true := by decide

/-- An operand stream of the wrong kind: a push stream read, a pop stream written. -/
theorem witness_stream_wrong : (∃ x st, (streaming { StreamReg.rest with push := true }).streamOf (5 : BitVec 7).toNat = some x ∧
      (streaming { StreamReg.rest with push := true }).cur.streams.toList[x]? = some st ∧ st.push = true) ∧
    (∃ x st, (streaming .rest).streamOf (5 : BitVec 7).toNat = some x ∧ (streaming .rest).cur.streams.toList[x]? = some st ∧ st.push = false) :=
  ⟨⟨_, _, by rfl, by rfl, by rfl⟩, _, _, by rfl, by rfl, by rfl⟩

theorem witness_stream_ready : let e (a : Option Word) := streaming { StreamReg.rest with buf := [(0, 7, a)] }
    (streaming .rest).streamsReady [5, 1] (some 2) = false ∧ (e none).streamsReady [5, 1] (some 2) = true ∧
    (e (some 8)).streamsReady [5, 1] (some 2) = true ∧ (e none).cur.streams[1].k < (e none).cur.streams[1].total := by decide

theorem witness_stream_values : let e (a : Option Word) := streaming { StreamReg.rest with buf := [(0, 7, a)] }
    (∃ v, (e none).operand 5 = .value v) ∧ (∃ v, (e none).operand 1 = .value v) ∧ (∃ a, (e (some 8)).operand 5 = .poisoned a) :=
  ⟨⟨_, rfl⟩, ⟨_, rfl⟩, _, rfl⟩

theorem witness_stream_ends : let s := streaming { StreamReg.rest with k := 2 }
    let u := streaming { StreamReg.rest with push := true }
    s.streamsReady [5] none = true ∧ s.cur.streams[1].total ≤ s.cur.streams[1].k ∧
    u.streamsReady [1, 2] (some 5) = true ∧ u.streamOf 5 = some 1 ∧ u.cur.streams[1].k < u.cur.streams[1].total := by decide

theorem witness_stream_end_value : ∃ v, (streaming { StreamReg.rest with k := 2 }).operand 5 = .value v := ⟨_, rfl⟩

theorem witness_move_graphs : let p : Part := { part1 with graphs := [(0, 0, [0x1, 0x4050D])] }
    ∃ gr, p.graphAt 0 (base.ctlOf 0) = some gr ∧ gr.b ≠ 0 ∧ 4 % gr.b = 0 ∧ InSram 0 (128 * (4 * gr.a / gr.b)) 128 ∧
    (let s : State := { base with p := p }
     s.p.graphAt 0 (s.ctlOf (0 + 128 * (s.bytes (s.sramFlat (s.ta 0).toNat) 4 * 4))) = some gr) ∧ 1 * 4 % gr.a = 0 :=
  ⟨_, by rfl, by decide, by decide, by unfold InSram; decide, by rfl, by decide⟩

theorem witness_hold_chain : part1.run.chain ≠ .none ∧ EngineFree base false ∧ InHbm base (base.ta 0) ∧ InSram (base.ta 1) (128 * 32) 128 := by
  unfold EngineFree InHbm InSram; decide

/-! More witnesses: links, accesses, engines and packets. -/

theorem witness_claims_lost : let s : State := { received (.recv 7 (some 3) true) [] with lost := [(3, 50)] }
    let f := atTile s 0 0
    f.p.first = 0 ∧ f.wordRun 9 = some (run9 (.recv 7 (some 3) true)) ∧ f.frameLost 3 f.plan = true ∧ f.portOk false (0x400 + 0) = true ∧
    (atTile (received (.recv 7 (some 3) true) []) 0 0).frameLost 3 50 = false ∧ (atTile mapped 0 0).bankOk false fabricOut = true := by decide

/-- A thread that is not anchored, in a group of two packages. -/
def roaming : State := { base with group := 0x0100002000020200, cur := { base.cur with pw := 1 } }

theorem witness_access_leaves : roaming.roams = true ∧ roaming.route 0x1000 8 = .ok (.hbm 1 0x1000) ∧ roaming.cur.loc.cluster = 0 ∧
    roaming.route (2 ^ 48) 8 = .ok (.peer 1) ∧ (2 ^ 48 : Word).toNat % 8 = 0 ∧ (0 : Nat) ≠ 7 ∧ (0 : Nat) ≠ 9 ∧
    roaming.cur.syncDrained roaming.now 0 = true := by
  (repeat' apply And.intro) <;> first | rfl | decide

theorem witness_ninth_relaxed : let s := onCur fun t => { t with relaxed := List.replicate 8 { acc1 .load 8 with rlx := true } }
    8 ≤ s.cur.relaxed.length ∧ (base.cur.fromCluster == base.cur.loc.cluster) = true ∧ (8 : BitVec 4).getLsbD 3 = true ∧
    base.route (3 * 2 ^ 46 + 2 ^ 45) 8 = .ok (.counters 0) ∧
    { base with p := { part1 with hostLen := 8 } }.route (2 ^ 46) 8 = .ok (.host 0) := by
  (repeat' apply And.intro) <;> first | rfl | decide

theorem witness_access_ends : let a := { acc1 .load 8 with stage := 1 }
    let f := accessing.focusThread 1
    f.cur.uid = 1 ∧ f.liveAccess a = true ∧ f.liveAccess (acc1 .store 8) = true ∧ f.cur.status = .access a.id ∧ f.cur.heldV = [] ∧ a.bad = 0 ∧
    ({ a with bad := 7 } : Acc).bad = 7 ∧ (7 : Nat) < 32 ∧ f.enqueuing 1 = false := by decide

theorem witness_relaxed_ends : let a := { acc1 .load 8 with rlx := true, stage := 1 }
    let f := (onCur fun t => { t with relaxed := [a] }).focusThread 1
    f.liveAccess a = true ∧ a.rlx = true ∧ a.bad = 0 ∧ f.cur.landed = [] ∧ f.cur.unsent = none := by decide

theorem witness_access_place : let f := accessing.focusThread 1
    memPlace f (acc1 .load 4) = some (flatLocal 0 0 0x100) ∧ (acc1 .load 4).bytes ∈ [1, 2, 4, 8] ∧ flatLocal 0 0 0x100 % 4 = 0 ∧
    f.attrOf (flatLocal 0 0 0x100) = 0 ∧ (f.setAttr (flatLocal 0 0 0x100) 2).poisoned (flatLocal 0 0 0x100) = true := by
  (repeat' apply And.intro) <;> first | rfl | decide

/-- An access of the acting thread to HBM, at a virtual address. -/
def toHbm (op : AccOp) (va : Word) : Acc := { acc1 op 8 with va := va }

/-- `mapped` in throughput mode. -/
def loose : State := { mapped with p := { part2 with run := { part2.run with det := false } } }

theorem witness_access_hbm : mapped.route 0x4000 8 = .ok (.hbm 4 0x4000) ∧ mapped.translated (toHbm .load 0x4000) 0x4000 = .error 0 ∧
    mapped.route 8 8 = .ok (.hbm 0 8) ∧ mapped.translated (toHbm .store 8) 8 = .ok 8 ∧ mapped.p.hbmOpen 8 8 7 = false ∧
    placed mapped (toHbm .load 8) = some 8 ∧ servedNow mapped 8 = true ∧ placed loose (toHbm .load 8) = some 8 ∧
    servedNow loose 8 = false := by
  (repeat' apply And.intro) <;> first | rfl | decide

theorem witness_served : let s : State := { loose with tickOff := 18 }
    servedNow s 8 = true := by decide

theorem witness_counter : base.route (3 * 2 ^ 46 + 2 ^ 45 + 8) 8 = .ok (.counters 8) ∧ (acc1 .load 8).op = .load := ⟨rfl, rfl⟩

theorem witness_watch_ends : let a := { acc1 .watch 8 with stage := 1 }
    (accessing.focusThread 1).cur.status = .access a.id ∧ a.rlx = false ∧ a.stage = 1 ∧ accessing.goto = none ∧
    (accessing.focusThread 1).cur.heldV = [] ∧ base.route 0x1000 8 = .ok (.hbm 1 0x1000) := by
  (repeat' apply And.intro) <;> first | rfl | decide

theorem witness_nap_waits : let t := (onCur fun t => { t with monitor := ⟨true, false, pad 0x100, flatLocal 0 0 0x100⟩ }).cur
    t.monitor.armed = true ∧ t.monitor.seen = false ∧ t.napAt = 0 ∧ t.heldV = [] ∧ base.cur.pushed = true ∧
    (onCur fun t => { t with lastIssue := 95, pushes := [⟨1, 0, 90, none, 130⟩] }).cur.pushed = false := by decide

theorem witness_tag_slot : let s := tagged ⟨0x40, true, false, 0⟩
    0x80000 ≤ 0x80000 + 128 * 3 ∧ s.route slot3 1 = .ok (.loc s.cur.loc.cluster s.cur.loc.core (0x80000 + 128 * 3)) ∧
    s.route (pad 0x100) 1 = .ok (.loc 0 0 0x100) ∧ 0x100 < 0x80000 := by
  (repeat' apply And.intro) <;> first | rfl | decide

/-- A partition whose last matrix step is at hand, in a cycle and a mode. -/
def stepping (now : Nat) (det : Bool) : State :=
  let s := withJob (matJob 7)
  { s with now := now, p := { s.p with run := { s.p.run with det := det } } }

theorem witness_own_turn : let f := (stepping 128 true).focusPart 0
    f.ownTurn (matJob 7) (f.now - 1) = f.now ∧ f.p.ppState = 0 := by decide

theorem witness_lent_turn : let f := (stepping 112 false).focusPart 0
    f.p.run.det = false ∧ f.lentNow (matJob 7) = true := by decide +kernel

theorem witness_job_completes_alive : let f := (withJob (copyJob 17)).focusPart 0
    f.p.ppState = 0 ∧ (∀ p ∈ f.cur.jobs, p.eng = 2 → p.seq = 1 → p.code = 0) := by decide

theorem witness_packet_waits : let s := onCur fun t => { t with bound := 4, lastIssue := 95, pushes := [⟨1, 0, 90, none, 130⟩] }
    s.cur.pushed = false ∧ (onCur fun t => { t with bound := 4 }).cur.pushed = true ∧ (1 : Nat) < roaming.extent := by decide

/-- Every core of cluster 0 fenced. -/
def fencedAll : State := onCluster0 fun c => { c with rolls := (List.range 8).map fun n => (n, ⟨0, true, 0⟩) }

theorem witness_all_fenced : (fencedAll.focusPart 0).allFenced 0 = true ∧ (base.focusPart 0).allFenced 0 = false ∧
    ((entry1 1).got + 1 = (entry1 1).nword) ∧ [(0, entry1 1)].Pairwise (fun (x y : Nat × MatchEntry) => x.1 < y.1) := by decide +kernel

theorem witness_post_back : ((accessing.focusThread 1).cur.heldV = [] ∧ (accessing.focusThread 1).cur.status = .access 5) ∧
    ((posting ⟨.idle, 0, 0, none, 0, 0⟩ []).focusThread 1).cur.pushed = true := by decide

theorem witness_host_served : let s : State := { ready with tickOff := 18 }
    let u := (s.bar2 .pf0 0x40 true).1
    u.positionServes 0 0 64 = true ∧ u.p.first = 0 ∧ u.p.units = 64 ∧ channelOf 0x40 = 0 ∧ (u.chan 0).bursts = [] ∧ u.p.run.det = true ∧
    u.agenda = [] := by decide +kernel

theorem witness_host_waits : let u := (ready.bar2 .pf0 0x40 true).1
    u.positionServes 0 0 64 = false := by decide +kernel

theorem witness_host_in_order : let s : State := { ready with hostQueue := [.hostBar2Write .pf0 0x40 8 1] }
    s.mgmt.ready = true ∧ Instr.hostBar2Write .pf0 0x40 8 1 ∈ s.hostQueue ∧ ready.hostQueue = [] := by decide

/-- R344: a write does not pass one received before it. -/
theorem test_host_write_waits_its_turn : ∃ t, exec (.hostBar2Write .pf0 0x80 8 2) { ready with hostQueue := [.hostBar2Write .pf0 0x40 8 1] } = .next t ∧
    t.hostQueue = [.hostBar2Write .pf0 0x40 8 1, .hostBar2Write .pf0 0x80 8 2] := ⟨_, rfl, by decide⟩

theorem witness_resolve_paused : ∀ b : Bool, let f := (parked b).focusPart 0
    let u := f.focusThread 1
    f.p.paused = false ∧ { f.p with ppState := 1 }.paused = true ∧ u.cur.missed = some { acc1 .load 8 with va := 0 } ∧
    ({ acc1 .load 8 with va := 0 } : Acc).rlx = false := by decide

/-- Twenty-four packets on their way to cluster 5. -/
def jammed : State :=
  { moved 0 5 with threads := List.replicate 24 { thread1 with uid := 7, status := .migrating, loc := ⟨0, 8, 0⟩, goal := 5 } }

theorem witness_migration_crowded : ((moved 0 5).focusThread 1).cur.lateMiss = none ∧ ((moved 0 5).focusThread 1).crowded 5 = false ∧
    (jammed.focusThread 1).crowded 5 = true := by decide +kernel

theorem witness_migration_lost : let f := (moved 8 serviceStore).focusThread 1
    let g := ({ moved 8 0 with p := part2 } : State).focusThread 1
    f.p.unlisted = [] ∧ f.p.waits.Pairwise (fun x y => x.1 < y.1) ∧ (∃ n e, f.p.waits.find? (fun x => x.2.uid == 1) = some (n, e)) ∧
    (∀ e ∈ g.p.waits, e.2.uid ≠ 1) ∧ g.cur.loc.core = 8 := ⟨rfl, by decide, ⟨_, _, rfl⟩, by decide, rfl⟩

theorem witness_drop : let s : State := admitting 3 false
    let f (h : Option Nat) : State := ({ s with p := { s.p with records := s.p.records.set 0 (some ⟨record1, false⟩), armed := h, recent := [0] } } : State).focusPart 0
    (f (some 0)).p.acting = some (0, 3, false) ∧ (f none).p.records.toList[0]? = some (some ⟨record1, false⟩) ∧ (f (some 0)).p.armed = some 0 ∧
    (f (some 0)).p.run.active = false ∧ (f none).p.armed ≠ some 0 ∧ (f none).p.arming ≠ some 0 ∧ (f none).p.recent.filter (· != 0) = [] ∧
    ((s.focusPart 0).p.records.toList[0]? = some none) := by decide +kernel

theorem witness_abort_waits : let s := chained fun r => { r with stopped := true }
    (s.focusPart 0).p.run.stopped = true ∧ (base.focusPart 0).p.run.stopped = false ∧ ¬ (base.tick < (base.focusPart 0).p.run.tick0) := by decide

/-! More witnesses: the overlay chain, links, peers and the step. -/

theorem witness_chain_ends : let f := (chained fun r => { r with chain := .draining, passes := 2, pass := 1, chainNext := 0 }).focusPart 0
    f.p.run.chain = .draining ∧ f.p.run.passes ≤ f.p.run.pass + 1 ∧ f.p.run.halted = none ∧ f.p.run.chainNext ≠ 0xFF ∧ 1 < f.p.run.passes ∧
    ((chained fun r => { r with chain := .draining, halted := some 3 }).focusPart 0).p.run.halted.isSome = true ∧
    ((chained fun r => { r with chain := .swapping, chainNext := 0, preload := some 0 }).focusPart 0).p.run.bellAt = none := by decide

/-- A governor at rest whose table word 0 stands so: fixed or not. -/
def boundary (w : Word) : State := onCluster0 fun c => { c with gov := ⟨pad 0x400, [w, pad 0x500], [], 0, []⟩ }

theorem witness_governor_modes : ((boundary 1).focusPart 0).p.paused = false ∧
    ((((boundary 1).focusPart 0).cluster 0).gov.pend = [] ∧ ((((boundary 1).focusPart 0).cluster 0).gov.table.getD 0 0).getLsbD 0 = true) ∧
    ((((boundary 0).focusPart 0).cluster 0).gov.table.getD 0 0).getLsbD 0 = false := by decide

theorem witness_preempt_passes : let s (pass : Nat) : State := { base with p := { part1 with
      ppState := 1, ppWant := true, run := { part1.run with prept := some (50, true), passes := 2, pass := pass } } }
    ((s 0).focusPart 0).p.run.pass + 1 < ((s 0).focusPart 0).p.run.passes ∧ ((s 1).focusPart 0).p.run.passes ≤ ((s 1).focusPart 0).p.run.pass + 1 ∧
    ((s 1).focusPart 0).p.run.prept = some (((s 1).focusPart 0).plan, true) ∧ ((s 1).focusPart 0).p.ppState = 1 := by decide

theorem witness_resume : let s : State := { withRun part1.run with p := { part1 with ppState := 3, saved := some saved1 } }
    let g := s.storeThread.focusPart 0
    g.p.ppState = 3 ∧ g.p.saved = some saved1 ∧ g.launchThreads = [] ∧ g.p.waits = [] ∧ g.lists = [] := by decide

theorem witness_line_flits : let c : ControlFlit := ⟨50, (Vector.replicate 5 none).set 0 (some (7, 0))⟩
    let f := base.focusPart 0
    f.sentTick 3 50 = 50 ∧ flitEntry c 50 = some (7, 0) ∧ flitEntry c 51 = none ∧ f.frameLost 3 50 = false := by decide

theorem witness_reason_times : let f (t : Nat) := (chained fun r => { r with group := true, heldAt := 10, resumeAt := t }).focusPart 0
    (f 40).missedReason 20 = true ∧ (f 20).missedReason 20 = false ∧ (f 20).plan ≤ 60 ∧ ¬ ((f 20).plan ≤ 40) ∧ (f 20).p.run.hold = .running := by decide

/-- `mapped` in a launch of a group whose peer latency is 32 ticks. -/
def awaiting : State := { mapped with group := 0x0020002000000200, p := { part2 with run := { part2.run with group := true } } }

/-- A load, a store or a synchronising access of a peer to HBM offset 0. -/
def asked (op : AccOp) (stamp : Nat) : PeerReq := ⟨0, 0, op, 0, 8, 0, 0, 4, false, false, stamp, none⟩

theorem witness_peer_times : let f := awaiting.focusPart 0
    f.now < f.deliverAt 60 ∧ f.deliverAt 36 = f.now ∧ f.deliverAt 20 < f.now ∧ (mapped.focusPart 0).deliverAt 20 = mapped.now ∧
    (asked .load 36).phys = none ∧ (asked .load 36).bytes = 8 ∧ accWrites (asked .ldfe 36).op = true := by decide

theorem witness_peer_served : servedNow (awaiting.focusPart 0) 0 = true ∧ servedNow (loose.focusPart 0) 0 = false ∧
    (base.focusPart 0).p.translate 0 0 true = .error 0 := ⟨rfl, by decide, rfl⟩

theorem witness_reply_held : ((sent 101).focusThread 1).cur.heldV = [] := rfl

theorem witness_retraining : let s : State := { ready with chans := [(0, { Chan.rest with retrain := 1, failing := true })] }
    (s.chan 0).retrain = 1 ∧ (s.chan 0).failing = true ∧ s.tick % 68 ∈ [16, 33, 50, 67] ∧ (ready.chan 0).failing = false := by decide

theorem witness_staged_image : let m : Mgmt := { Mgmt.rest with staged := some 3 }
    ∀ n, m.staged = some n → m.rollback ≤ n := by simp [Mgmt.rest]

theorem witness_nothing_waits : ∀ t ∈ State.reset.rest.threads, t.waits = false := by decide

theorem witness_held_bundle : (onCur fun t => { t with status := .held [5] none false }).cur.status.isHeld = true ∧ base.cur.status.isHeld = false ∧
    base.cur.recite = 0 ∧ base.cur.fwd = none := by decide

end Sys2Proof.Tests
end

section
/-! O53. Its clauses on the end of a resident-set change give PLAN its new value without asking that the launch runs on; where
the launch ends, PLAN is TICK less the partition's lag (R9, R52), and the change cannot move it. -/

namespace Sys2Proof.Machine

/-- R9, R52: with no launch, or one that is ending, PLAN follows TICK at the partition's lag. -/
theorem State.plan_of_ending {s : State} (h : (!s.p.run.active || s.p.run.ending) = true) : s.plan = s.tick - s.p.planLag := by
  simp [State.plan, h]

/-- Trying the swap moves neither PLAN nor TICK: it puts at most one item on the agenda. -/
theorem State.plan_trySwap (s : State) : s.trySwap.plan = s.plan := by
  unfold State.trySwap
  split <;> rfl

@[simp] theorem State.loadSet_tick (s : State) (pass : Nat) : (s.loadSet pass).tick = s.tick := rfl
@[simp] theorem State.loadSet_run (s : State) (pass : Nat) : (s.loadSet pass).p.run = s.p.run := rfl
@[simp] theorem State.loadSet_planLag (s : State) (pass : Nat) : (s.loadSet pass).p.planLag = s.p.planLag := rfl
@[simp] theorem State.onRun_tick (s : State) (f : Run → Run) : (s.onRun f).tick = s.tick := rfl
@[simp] theorem State.onRun_run (s : State) (f : Run → Run) : (s.onRun f).p.run = f s.p.run := rfl
@[simp] theorem State.onRun_planLag (s : State) (f : Run → Run) : (s.onRun f).p.planLag = s.p.planLag := rfl
@[simp] theorem State.stopStreams_tick (s : State) : s.stopStreams.tick = s.tick := rfl
@[simp] theorem State.stopStreams_run (s : State) : s.stopStreams.p.run = s.p.run := rfl
@[simp] theorem State.stopStreams_planLag (s : State) : s.stopStreams.p.planLag = s.p.planLag := rfl

/-- R53: after the last pass of an ending launch the change leaves PLAN at TICK less the lag. -/
theorem State.plan_changeDone_of_ending {s : State} (h : (!s.p.run.active || s.p.run.ending) = true)
    (hlast : s.p.run.passes ≤ s.p.run.pass + 1) : s.changeDone.plan = s.tick - s.p.planLag := by
  have hpass : ¬ s.p.run.pass + 1 < s.p.run.passes := by omega
  rw [State.changeDone, if_neg hpass, State.plan_trySwap, State.plan_of_ending (by simpa using h)]
  simp only [State.stopStreams_tick, State.stopStreams_planLag, State.onRun_tick, State.onRun_planLag,
    State.loadSet_tick, State.loadSet_planLag]

/-- R53: the second turn of a resident-set change ends it. -/
theorem exec_residentSetChange_of_stopped {first : Nat} {s : State} (hfirst : (s.focusPart first).p.first = first)
    (hchain : (s.focusPart first).p.run.chain = .changing) (hstopped : (s.focusPart first).p.run.stopped = true) :
    exec (.residentSetChange first) s = .next (s.focusPart first).changeDone := by
  change execResidentSetChange first s = _
  simp [execResidentSetChange, hfirst, hchain, hstopped]

/-- Reset with a partition of unit 0 whose launch is ending while its resident set changes after the only pass. -/
def endingChange : State :=
  { State.reset with p := { Part.rest 0 0 0 with
      run := { Run.rest with active := true, ending := true, chain := .changing, stopped := true } } }

/-- TICK and the lag of `endingChange` are zero, and so is PLAN after the change. -/
theorem exec_residentSetChange_endingChange :
    ∃ t, exec (.residentSetChange 0) endingChange = .next t ∧ t.plan = 0 :=
  ⟨_, exec_residentSetChange_of_stopped rfl rfl rfl, State.plan_changeDone_of_ending rfl (by decide)⟩

end Sys2Proof.Machine

namespace Sys2Proof.Proofs

open Sys2Proof.Machine

/-- Refutes O53: after the last pass the statement gives PLAN as deDone + 1, which is 1 in `endingChange`, but the launch there
is ending, so PLAN stays TICK less the lag, which is 0. The clause lacks that the launch is active and not ending. -/
theorem not_overlaysGovernorAndPreemption : ¬ Obligations.OverlaysGovernorAndPreemption := by
  unfold Obligations.OverlaysGovernorAndPreemption
  rintro ⟨hchain, -, -⟩
  obtain ⟨-, -, -, -, -, -, hlastPass, -⟩ := hchain 0 endingChange rfl (by decide)
  obtain ⟨t, ht, -, -, -, hplan⟩ := hlastPass rfl rfl (by decide)
  obtain ⟨u, hu, huplan⟩ := exec_residentSetChange_endingChange
  have htu : t = u := Host.Outcome.next.inj (ht.symm.trans hu)
  have hdone : (endingChange.focusPart 0).p.run.deDone = 0 := rfl
  rw [htu, huplan, hdone] at hplan
  exact absurd hplan (by decide)

end Sys2Proof.Proofs
end

section
/-! O52: launches begin and end. First the machinery below every action: the agenda, the partition that acts, the launch slots' status
words (R43, Table 2.4) and what the proctor's steps between two bells leave. -/

namespace Sys2Proof.Machine

open Sys2Proof.Claims

/-! The agenda, and the partition that acts. -/

theorem mem_insertItem {x y : Item} {l : List Item} : x ∈ insertItem y l ↔ x = y ∨ x ∈ l := by
  induction l with
  | nil => simp [insertItem]
  | cons z l ih =>
    simp only [insertItem]
    split
    · simp
    · simp only [List.mem_cons, ih]; tauto

theorem State.agenda_subset_dueAt (s : State) (c r : Nat) (w : Task) : s.agenda ⊆ (s.dueAt c r w).agenda :=
  fun _ h => mem_insertItem.2 (.inr h)

/-- An event put on the agenda is due. -/
theorem due_dueAt (s : State) (c r : Nat) (i : Instr) : Due (s.dueAt c r (.ev i)) c i := ⟨r, mem_insertItem.2 (.inl rfl)⟩

/-- What is due stays due where the agenda only grows. -/
theorem due_mono {s t : State} {c : Nat} {i : Instr} (h : Due s c i) (ht : s.agenda ⊆ t.agenda) : Due t c i :=
  h.imp fun _ hr => ht hr

/-- Taking a partition as the one that acts moves partitions only. -/
theorem State.focusPart_eq (s : State) (first : Nat) : ∃ q l, s.focusPart first = { s with p := q, parts := l } := by
  unfold State.focusPart State.storePart
  dsimp only
  split
  · exact ⟨s.p, s.parts, rfl⟩
  · split <;> split <;> exact ⟨_, _, rfl⟩

@[simp] theorem State.focusPart_mem (s : State) (first : Nat) : (s.focusPart first).mem = s.mem := by
  obtain ⟨q, l, h⟩ := s.focusPart_eq first; rw [h]
@[simp] theorem State.focusPart_now (s : State) (first : Nat) : (s.focusPart first).now = s.now := by
  obtain ⟨q, l, h⟩ := s.focusPart_eq first; rw [h]
@[simp] theorem State.focusPart_tick (s : State) (first : Nat) : (s.focusPart first).tick = s.tick := by
  obtain ⟨q, l, h⟩ := s.focusPart_eq first; rw [h]; rfl

@[simp] theorem State.storeThread_mem (s : State) : s.storeThread.mem = s.mem := by
  unfold State.storeThread; split <;> rfl
@[simp] theorem State.storeThread_now (s : State) : s.storeThread.now = s.now := by
  unfold State.storeThread; split <;> rfl
@[simp] theorem State.storeThread_tickOff (s : State) : s.storeThread.tickOff = s.tickOff := by
  unfold State.storeThread; split <;> rfl
@[simp] theorem State.storeThread_p (s : State) : s.storeThread.p = s.p := by
  unfold State.storeThread; split <;> rfl
@[simp] theorem State.storeThread_agenda (s : State) : s.storeThread.agenda = s.agenda := by
  unfold State.storeThread; split <;> rfl

/-- A later TICK begins in a later core cycle. -/
theorem State.now_le_cycleOfTick (s : State) (k : Nat) : s.now ≤ s.cycleOfTick (s.tick + 1 + k) := by
  simp only [State.cycleOfTick, State.tick]; omega

/-! Status words and the proctor (R44). -/

theorem State.setStatus_p (s : State) (n adm res st tag : Nat) (irq : Bool) :
    (s.setStatus n adm res st tag irq).p = { s.p with
      status := if h : n < 8 then s.p.status.set n (statusWord adm res st tag) else s.p.status } := by
  unfold State.setStatus; dsimp only; split <;> rfl
@[simp] theorem State.setStatus_mem (s : State) (n adm res st tag : Nat) (irq : Bool) :
    (s.setStatus n adm res st tag irq).mem = s.mem := by unfold State.setStatus; dsimp only; split <;> rfl
@[simp] theorem State.setStatus_now (s : State) (n adm res st tag : Nat) (irq : Bool) :
    (s.setStatus n adm res st tag irq).now = s.now := by unfold State.setStatus; dsimp only; split <;> rfl
@[simp] theorem State.setStatus_tickOff (s : State) (n adm res st tag : Nat) (irq : Bool) :
    (s.setStatus n adm res st tag irq).tickOff = s.tickOff := by unfold State.setStatus; dsimp only; split <;> rfl
@[simp] theorem State.setStatus_agenda (s : State) (n adm res st tag : Nat) (irq : Bool) :
    (s.setStatus n adm res st tag irq).agenda = s.agenda := by unfold State.setStatus; dsimp only; split <;> rfl

/-- Table 2.4: a status vector with a status word in its place. -/
theorem statusIs_of_set {t : State} {n adm res st tag : Nat} {w : Word} {v : Vector Word 8} (hn : n < 8)
    (ht : t.p.status = v.set n (statusWord adm res st tag)) (ha : adm < 256) (hr : res < 256) (hst : st < 4)
    (htag : tag % 2 ^ 46 = w.toNat / 2 ^ 12 % 2 ^ 46) : StatusIs t n adm res st w := by
  have hword : statusWord adm res st tag =
      BitVec.ofNat 64 (adm + res * 2 ^ 8 + st * 2 ^ 16 + w.toNat / 2 ^ 12 % 2 ^ 46 * 2 ^ 18) := by
    rw [statusWord, htag, Nat.mod_eq_of_lt ha, Nat.mod_eq_of_lt hr, Nat.mod_eq_of_lt hst]
  rw [StatusIs, ht, hword, Vector.toList_set, List.getElem?_set_self (by simpa using hn)]

theorem State.kickProctor_cases (s : State) : s.kickProctor = s ∨
    ∃ a c r w, s.kickProctor = ({ s with p := { s.p with acting := a } } : State).dueAt c r w := by
  unfold State.kickProctor
  split
  · exact .inl rfl
  · split
    · exact .inl rfl
    · exact .inr ⟨_, _, _, _, rfl⟩

/-- The proctor's turn changes of the partition only the slot it acts on. -/
theorem State.kickProctor_p (s : State) : ∃ a, s.kickProctor.p = { s.p with acting := a } := by
  rcases s.kickProctor_cases with h | ⟨a, c, r, w, h⟩
  · exact ⟨s.p.acting, by rw [h]⟩
  · exact ⟨a, by rw [h]; rfl⟩
@[simp] theorem State.kickProctor_mem (s : State) : s.kickProctor.mem = s.mem := by
  rcases s.kickProctor_cases with h | ⟨a, c, r, w, h⟩ <;> rw [h]; rfl
theorem State.agenda_subset_kickProctor (s : State) : s.agenda ⊆ s.kickProctor.agenda := by
  rcases s.kickProctor_cases with h | ⟨a, c, r, w, h⟩ <;> rw [h]
  · exact fun _ h => h
  · exact State.agenda_subset_dueAt { s with p := { s.p with acting := a } } c r w

/-- R44: the end of an action changes of the partition only the slot the proctor acts on. -/
theorem State.actionDone_p (s : State) : ∃ a, s.actionDone.p = { s.p with acting := a } :=
  State.kickProctor_p { s with p := { s.p with acting := none } }
@[simp] theorem State.actionDone_mem (s : State) : s.actionDone.mem = s.mem :=
  State.kickProctor_mem { s with p := { s.p with acting := none } }
theorem State.agenda_subset_actionDone (s : State) : s.agenda ⊆ s.actionDone.agenda :=
  State.agenda_subset_kickProctor { s with p := { s.p with acting := none } }

/-- R44: an answer changes the status word of its slot and the slot the proctor acts on. -/
theorem State.answer_p {s : State} {n : Nat} {w : Word} {e : Bool} (h : s.p.acting = some (n, w, e)) (hn : n < 8)
    (adm res st : Nat) : ∃ a, (s.answer adm res st).p =
      { s.p with acting := a, status := s.p.status.set n (statusWord adm res st (launchTag w)) } := by
  obtain ⟨a, ha⟩ := (s.setStatus n adm res st (launchTag w) (w.getLsbD 62)).actionDone_p
  exact ⟨a, by simp only [State.answer, h]; rw [ha, State.setStatus_p, dif_pos hn]⟩
@[simp] theorem State.answer_mem (s : State) (adm res st : Nat) : (s.answer adm res st).mem = s.mem := by
  unfold State.answer; split
  · simp
  · rfl
theorem State.agenda_subset_answer (s : State) (adm res st : Nat) : s.agenda ⊆ (s.answer adm res st).agenda := by
  unfold State.answer; split
  · exact fun x hx => State.agenda_subset_actionDone _ (by simpa using hx)
  · exact fun _ h => h

/-- Table 2.4: the status word that an answer leaves. -/
theorem statusIs_answer {s : State} {n : Nat} {w : Word} {e : Bool} (h : s.p.acting = some (n, w, e)) (hn : n < 8)
    {adm res st : Nat} (ha : adm < 256) (hr : res < 256) (hst : st < 4) : StatusIs (s.answer adm res st) n adm res st w := by
  obtain ⟨a, hp⟩ := State.answer_p h hn adm res st
  exact statusIs_of_set (v := s.p.status) (tag := launchTag w) hn (by rw [hp]) ha hr hst (Nat.mod_mod _ _)

/-! R44: the acting slot is set empty, and the ring moves on. -/

theorem State.emptySlot_acting {s : State} {n : Nat} {w : Word} {e : Bool} (h : s.p.acting = some (n, w, e)) :
    s.emptySlot.p.acting = some (n, w, true) := by simp only [State.emptySlot, h]
theorem State.emptySlot_ring {s : State} {n : Nat} {w : Word} {e : Bool} (h : s.p.acting = some (n, w, e)) :
    s.emptySlot.p.ring = (n + 1) % 8 := by simp only [State.emptySlot, h]
theorem State.emptySlot_slots {s : State} {n : Nat} {w : Word} {e : Bool} (h : s.p.acting = some (n, w, e)) (hn : n < 8) :
    s.emptySlot.p.slots = s.p.slots.set n none := by simp only [State.emptySlot, h, dif_pos hn]
@[simp] theorem State.emptySlot_mem (s : State) : s.emptySlot.mem = s.mem := by unfold State.emptySlot; split <;> rfl
@[simp] theorem State.emptySlot_now (s : State) : s.emptySlot.now = s.now := by unfold State.emptySlot; split <;> rfl
@[simp] theorem State.emptySlot_tick (s : State) : s.emptySlot.tick = s.tick := by unfold State.emptySlot; split <;> rfl
@[simp] theorem State.emptySlot_first (s : State) : s.emptySlot.p.first = s.p.first := by unfold State.emptySlot; split <;> rfl
@[simp] theorem State.emptySlot_status (s : State) : s.emptySlot.p.status = s.p.status := by unfold State.emptySlot; split <;> rfl
@[simp] theorem State.emptySlot_records (s : State) : s.emptySlot.p.records = s.p.records := by unfold State.emptySlot; split <;> rfl
@[simp] theorem State.emptySlot_armed (s : State) : s.emptySlot.p.armed = s.p.armed := by unfold State.emptySlot; split <;> rfl
@[simp] theorem State.emptySlot_arming (s : State) : s.emptySlot.p.arming = s.p.arming := by unfold State.emptySlot; split <;> rfl
@[simp] theorem State.emptySlot_recent (s : State) : s.emptySlot.p.recent = s.p.recent := by unfold State.emptySlot; split <;> rfl
@[simp] theorem State.emptySlot_bank0 (s : State) : s.emptySlot.p.bank0 = s.p.bank0 := by unfold State.emptySlot; split <;> rfl
@[simp] theorem State.emptySlot_run (s : State) : s.emptySlot.p.run = s.p.run := by unfold State.emptySlot; split <;> rfl
@[simp] theorem State.emptySlot_unsettled (s : State) : s.emptySlot.unsettled = s.unsettled := by
  unfold State.emptySlot; split <;> rfl

theorem emptied_of_set {f t : State} {n : Nat} (hn : n < 8) (hslots : t.p.slots = f.p.slots.set n none)
    (hring : t.p.ring = (n + 1) % 8) : Emptied f t n := by
  refine ⟨hring, fun k hk => ?_⟩
  rw [hslots, Vector.toList_set, List.getElem?_set]
  by_cases hkn : k = n
  · simp [hkn, hn]
  · simp [hkn, Ne.symm hkn]

/-- R44: the slot stays empty where what follows leaves the slots and the ring. -/
theorem emptied_of_emptySlot {f t : State} {first n : Nat} {w : Word} {e : Bool} (h : Acting f first n w e)
    (hslots : t.p.slots = f.emptySlot.p.slots) (hring : t.p.ring = f.emptySlot.p.ring) : Emptied f t n := by
  obtain ⟨-, hn, hact⟩ := h
  exact emptied_of_set hn (hslots.trans (State.emptySlot_slots hact hn)) (hring.trans (State.emptySlot_ring hact))

/-- R44: an action that empties its slot and ends with an answer. -/
theorem emptied_answer {f u : State} {first n : Nat} {w : Word} {e : Bool} (h : Acting f first n w e)
    (hu : u.p.acting = some (n, w, true)) (hslots : u.p.slots = f.emptySlot.p.slots) (hring : u.p.ring = f.emptySlot.p.ring)
    (adm res st : Nat) : Emptied f (u.answer adm res st) n := by
  obtain ⟨a, hp⟩ := State.answer_p hu h.2.1 adm res st
  exact emptied_of_emptySlot h (by rw [hp]; exact hslots) (by rw [hp]; exact hring)

/-- What firmware does later is due later. -/
theorem State.due_actLater (s : State) (i : Instr) : ∃ c, s.now ≤ c ∧ Due (s.actLater i) c i :=
  ⟨_, s.now_le_cycleOfTick _, due_dueAt _ _ _ _⟩
@[simp] theorem State.actLater_p (s : State) (i : Instr) : (s.actLater i).p = s.p := rfl
@[simp] theorem State.actLater_mem (s : State) (i : Instr) : (s.actLater i).mem = s.mem := rfl

end Sys2Proof.Machine
end

section
/-! O52: the records of a partition, which of them is armed, and the words of admission and of dropping (R44, R45). -/

namespace Sys2Proof.Machine

open Sys2Proof.Claims

/-! Records and arming (R45). -/

/-- Wiping ranges changes bytes and what is kept of them only. -/
theorem State.wipeRanges_eq (s : State) (l : List (Nat × Nat)) : ∃ m a, s.wipeRanges l = { s with mem := m, attr := a } := by
  unfold State.wipeRanges
  induction l generalizing s with
  | nil => exact ⟨s.mem, s.attr, rfl⟩
  | cons r l ih =>
    obtain ⟨m, a, h⟩ := ih { s with mem := s.mem.wipe r.1 r.2, attr := s.attr.wipe r.1 r.2 }
    exact ⟨m, a, h⟩

/-- Wiping ranges leaves every byte outside them. -/
theorem State.read_wipeRanges {s : State} (hwf : s.mem.wf = true) {l : List (Nat × Nat)} {b : Nat}
    (h : ∀ r ∈ l, b < r.1 ∨ r.2 ≤ b) : (s.wipeRanges l).mem.read b = s.mem.read b := by
  unfold State.wipeRanges
  induction l generalizing s with
  | nil => rfl
  | cons r l ih =>
    have hr : ¬ (r.1 ≤ b ∧ b < r.2) := by have := h r List.mem_cons_self; omega
    have hl := ih (s := { s with mem := s.mem.wipe r.1 r.2, attr := s.attr.wipe r.1 r.2 }) (Memory.wf_wipe hwf)
      fun q hq => h q (List.mem_cons_of_mem _ hq)
    rw [List.foldl_cons, hl, Memory.read_wipe hwf, if_neg hr]

@[simp] theorem State.freshTiles_length (s : State) (r : Words) : (s.freshTiles r).length = s.p.tileCount := by
  rw [State.freshTiles, List.length_map, List.length_range]

/-- R45: arming a record changes what is loaded, and which record is armed. -/
theorem State.arm_p {s : State} {h : Nat} {a : Admitted} (hrec : s.p.records.toList[h]? = some (some a)) :
    ∃ i code graphs bank tiles, (s.arm h).p = { s.p with
      armedIn := i, code := code, graphs := graphs, bank0 := bank, tiles := tiles, backed := [], armed := some h, arming := none } ∧
      tiles.length = s.p.tileCount := by
  obtain ⟨m, b, hw⟩ := s.wipeRanges_eq s.p.tileRanges
  have hget : s.p.records.toList.getD h none = some a := by rw [List.getD_eq_getElem?_getD, hrec]; rfl
  simp only [State.arm, hget, hw]
  exact ⟨_, _, _, _, _, rfl, State.freshTiles_length _ _⟩

/-- R45: arming zeroes tensor SRAM and accumulators, which lie above local store and HBM. -/
theorem State.read_arm {s : State} (hwf : s.mem.wf = true) {h b : Nat} (hb : b < 2 ^ 41) : (s.arm h).mem.read b = s.mem.read b := by
  unfold State.arm
  split
  · rfl
  · refine State.read_wipeRanges hwf fun r hr => .inl ?_
    simp only [Part.tileRanges, List.mem_cons, List.not_mem_nil, or_false] at hr
    rcases hr with rfl | rfl <;> simp only [flatSram, flatAcc, flatSramBase, flatAccBase] <;> omega

/-- With nothing to arm, what was armed or to be armed is forgotten. -/
theorem State.arm_none {s : State} {h : Nat} (hrec : s.p.records.toList[h]? = some none) :
    s.arm h = { s with p := { s.p with armed := none, arming := none } } := by
  have hget : s.p.records.toList.getD h none = none := by rw [List.getD_eq_getElem?_getD, hrec]; rfl
  simp only [State.arm, hget]

theorem State.armLater_p (s : State) (h : Option Nat) : (s.armLater h).p = { s.p with armed := none, arming := h } := by
  unfold State.armLater; cases h <;> rfl
@[simp] theorem State.armLater_mem (s : State) (h : Option Nat) : (s.armLater h).mem = s.mem := by
  unfold State.armLater; cases h <;> rfl
/-- R45, R417: where a record is left to arm, its arming comes to an end. -/
theorem State.due_armLater (s : State) {h : Option Nat} (hsome : h ≠ none) :
    ∃ c, s.now ≤ c ∧ Due (s.armLater h) c (.rearmComplete s.p.first) := by
  cases h with
  | none => exact absurd rfl hsome
  | some k => exact ⟨_, s.now_le_cycleOfTick _, due_dueAt _ _ _ _⟩

/-- A record is kept under its handle, and used last. -/
theorem State.setRecord_some_p (s : State) {h : Nat} (hh : h < 8) (a : Admitted) : (s.setRecord h (some a)).p =
    { s.p with recent := h :: s.p.recent.filter (· != h), records := s.p.records.set h (some a) } := by
  simp [State.setRecord, Part.useRecord, hh]
/-- A record is forgotten. -/
theorem State.setRecord_none_p (s : State) {h : Nat} (hh : h < 8) : (s.setRecord h none).p =
    { s.p with recent := s.p.recent.filter (· != h), records := s.p.records.set h none } := by
  simp [State.setRecord, hh]
@[simp] theorem State.setRecord_mem (s : State) (h : Nat) (a : Option Admitted) : (s.setRecord h a).mem = s.mem := rfl
@[simp] theorem State.setRecord_now (s : State) (h : Nat) (a : Option Admitted) : (s.setRecord h a).now = s.now := rfl

theorem handleOf_lt (w : Word) : handleOf w < 8 := by unfold handleOf field; omega

/-! Admission (R39, R45). -/

section
variable {first n : Nat} {w : Word} {s : State}

theorem exec_admitRecord_full (h : Acting (s.focusPart first) first n w false) :
    exec (.admitRecord first) s = .next ((s.focusPart first).emptySlot.actLater (.admitRecord first)) := by
  obtain ⟨hfirst, -, hact⟩ := h
  change execAdmitRecord first s = _
  simp [execAdmitRecord, hfirst, hact]

/-- R44: a word of admission empties its slot, and its work goes on later. -/
theorem admitRecord_empties (h : Acting (s.focusPart first) first n w false) :
    ∃ t c, exec (.admitRecord first) s = .next t ∧ Emptied (s.focusPart first) t n ∧ t.p.acting = some (n, w, true) ∧ s.now ≤ c ∧
      Due t c (.admitRecord first) ∧ t.p.status = (s.focusPart first).p.status ∧ t.p.records = (s.focusPart first).p.records ∧
      t.mem = s.mem := by
  obtain ⟨c, hc, hdue⟩ := (s.focusPart first).emptySlot.due_actLater (.admitRecord first)
  exact ⟨_, c, exec_admitRecord_full h, emptied_of_emptySlot h rfl rfl, State.emptySlot_acting h.2.2, by simpa using hc, hdue,
    by simp, by simp, by simp⟩

/-- R39: the work of an admission that is refused answers the code. -/
theorem admitRecord_refused (h : Acting (s.focusPart first) first n w true) (hu : (s.focusPart first).unsettled = false)
    {c : Nat} (hcode : (s.focusPart first).admissionCode ((s.focusPart first).copyRecord (field w 61 12 * 64)) (handleOf w) = c)
    (hc : c ≠ 0) (hlt : c < 256) :
    ∃ t, exec (.admitRecord first) s = .next t ∧ StatusIs t n c 3 3 w ∧ t.p.records = (s.focusPart first).p.records ∧ t.mem = s.mem := by
  obtain ⟨hfirst, hn, hact⟩ := h
  refine ⟨(s.focusPart first).answer c 3 3, ?_, statusIs_answer hact hn hlt (by decide) (by decide), ?_, by simp⟩
  · change execAdmitRecord first s = _
    simp [execAdmitRecord, hfirst, hact, hu, hcode, hc]
  · obtain ⟨a, hp⟩ := State.answer_p hact hn c 3 3
    rw [hp]

/-- R45: the work of an admission that is accepted keeps the record under its handle, and arms it. -/
theorem admitRecord_kept (h : Acting (s.focusPart first) first n w true) (hu : (s.focusPart first).unsettled = false)
    {r : Words} (hr : (s.focusPart first).copyRecord (field w 61 12 * 64) = r)
    (hc : (s.focusPart first).admissionCode r (handleOf w) = 0) :
    ∃ t, exec (.admitRecord first) s = .next t ∧ StatusIs t n 0 0 2 w ∧ t.p.armed = some (handleOf w) ∧
      t.p.records.toList[handleOf w]? = some (some ⟨r, recGroup r⟩) ∧
      (∀ k, k ≠ handleOf w → t.p.records.toList[k]? = (s.focusPart first).p.records.toList[k]?) ∧
      (s.mem.wf = true → ∀ a, a < 2 ^ 41 → t.mem.read a = s.mem.read a) := by
  obtain ⟨hfirst, hn, hact⟩ := h
  have hh := handleOf_lt w
  have hset := (s.focusPart first).setRecord_some_p hh ⟨r, recGroup r⟩
  obtain ⟨i, code, graphs, bank, tiles, harm, -⟩ := State.arm_p (s := (s.focusPart first).setRecord (handleOf w) (some ⟨r, recGroup r⟩))
    (h := handleOf w) (a := ⟨r, recGroup r⟩) (by rw [hset, Vector.toList_set, List.getElem?_set_self (by simpa using hh)])
  rw [hset] at harm
  have hact' : (((s.focusPart first).setRecord (handleOf w) (some ⟨r, recGroup r⟩)).arm (handleOf w)).p.acting = some (n, w, true) := by
    rw [harm]; exact hact
  obtain ⟨a, hp⟩ := State.answer_p hact' hn 0 0 2
  rw [harm] at hp
  refine ⟨_, ?_, statusIs_answer hact' hn (by decide) (by decide) (by decide), by rw [hp], ?_, fun k hk => ?_, fun hwf b hb => ?_⟩
  · change execAdmitRecord first s = _
    simp [execAdmitRecord, hfirst, hact, hu, hr, hc]
  · rw [hp, Vector.toList_set, List.getElem?_set_self (by simpa using hh)]
  · rw [hp, Vector.toList_set, List.getElem?_set_ne (Ne.symm hk)]
  · rw [State.answer_mem, State.read_arm (by simpa using hwf) hb, State.setRecord_mem, State.focusPart_mem]

/-! Words that are not valid, and drops (R43, R45). -/

variable {e : Bool}

/-- R44: an action that ends in an answer right after its slot is empty. -/
theorem emptySlot_answer (h : Acting (s.focusPart first) first n w e) {adm res st : Nat} (ha : adm < 256) (hr : res < 256) (hst : st < 4) :
    let t := (s.focusPart first).emptySlot.answer adm res st
    Emptied (s.focusPart first) t n ∧ StatusIs t n adm res st w ∧ t.mem = s.mem ∧ t.p.run = (s.focusPart first).p.run ∧
      t.p.records = (s.focusPart first).p.records ∧ t.p.armed = (s.focusPart first).p.armed := by
  have hact := State.emptySlot_acting h.2.2
  obtain ⟨a, hp⟩ := State.answer_p hact h.2.1 adm res st
  exact ⟨emptied_answer h hact rfl rfl _ _ _, statusIs_answer hact h.2.1 ha hr hst, by simp, by simp [hp], by simp [hp], by simp [hp]⟩

/-- R43: an invalid word answers 1. -/
theorem invalidLaunchWord_answers (h : Acting (s.focusPart first) first n w e) :
    ∃ t, exec (.invalidLaunchWord first) s = .next t ∧ Emptied (s.focusPart first) t n ∧ StatusIs t n 0 1 3 w ∧
      t.p.run = (s.focusPart first).p.run ∧ t.p.records = (s.focusPart first).p.records ∧ t.mem = s.mem := by
  obtain ⟨hempt, hstat, hmem, hrun, hrecords, -⟩ :=
    emptySlot_answer h (adm := 0) (res := 1) (st := 3) (by decide) (by decide) (by decide)
  refine ⟨_, ?_, hempt, hstat, hrun, hrecords, hmem⟩
  change execInvalidLaunchWord first s = _
  simp [execInvalidLaunchWord, h.1]

/-- R45: a drop of a handle without a record answers 2. -/
theorem drop_unknown (h : Acting (s.focusPart first) first n w e)
    (hrec : (s.focusPart first).p.records.toList[handleOf w]? = some none) :
    ∃ t, exec (.drop first) s = .next t ∧ Emptied (s.focusPart first) t n ∧ StatusIs t n 0 2 3 w ∧
      t.p.records = (s.focusPart first).p.records ∧ t.p.armed = (s.focusPart first).p.armed ∧
      t.p.run = (s.focusPart first).p.run ∧ t.mem = s.mem := by
  obtain ⟨hempt, hstat, hmem, hrun, hrecords, harmed⟩ :=
    emptySlot_answer h (adm := 0) (res := 2) (st := 3) (by decide) (by decide) (by decide)
  refine ⟨_, ?_, hempt, hstat, hrecords, harmed, hrun, hmem⟩
  change execDrop first s = _
  simp [execDrop, h.1, State.emptySlot_acting h.2.2, List.getD_eq_getElem?_getD, hrec]

/-- R45: what a drop leaves, from the state in which it has forgotten the record. -/
theorem dropped_answer {f u : State} {ar ag : Option Nat} (h : Acting f first n w e)
    (hu : u.p = { f.emptySlot.p with
      recent := f.p.recent.filter (· != handleOf w)
      records := f.p.records.set (handleOf w) none (handleOf_lt w)
      armed := ar
      arming := ag }) :
    let t := u.answer 0 0 2
    Emptied f t n ∧ StatusIs t n 0 0 2 w ∧ t.p.records.toList[handleOf w]? = some none ∧
      (∀ k, k ≠ handleOf w → t.p.records.toList[k]? = f.p.records.toList[k]?) ∧
      t.p.recent = f.p.recent.filter (· != handleOf w) ∧ t.p.run = f.p.run ∧ t.p.armed = ar ∧ t.p.arming = ag := by
  have hact : u.p.acting = some (n, w, true) := by rw [hu]; exact State.emptySlot_acting h.2.2
  obtain ⟨a, hp⟩ := State.answer_p hact h.2.1 0 0 2
  refine ⟨emptied_answer h hact (by rw [hu]) (by rw [hu]) _ _ _, statusIs_answer hact h.2.1 (by decide) (by decide) (by decide), ?_,
    fun k hk => ?_, ?_, ?_, ?_, ?_⟩ <;> rw [hp, hu]
  · rw [Vector.toList_set, List.getElem?_set_self (by simpa using handleOf_lt w)]
  · rw [Vector.toList_set, List.getElem?_set_ne (Ne.symm hk)]
  · exact f.emptySlot_run

variable {f : State} {a : Admitted}

/-- R45: the state in which a drop has forgotten its record. -/
theorem exec_drop_armed (hf : s.focusPart first = f) (h : Acting f first n w e)
    (hrec : f.p.records.toList[handleOf w]? = some (some a))
    (hc : (f.p.armed = some (handleOf w) ∨ f.p.arming = some (handleOf w)) ∧ f.p.run.active = false) :
    exec (.drop first) s = .next (((f.emptySlot.setRecord (handleOf w) none).armLater
      (f.p.recent.filter (· != handleOf w)).head?).answer 0 0 2) := by
  change execDrop first s = _
  simp [execDrop, hf, h.1, State.emptySlot_acting h.2.2, List.getD_eq_getElem?_getD, hrec,
    State.setRecord_none_p _ (handleOf_lt w), hc]

theorem exec_drop_other (hf : s.focusPart first = f) (h : Acting f first n w e)
    (hrec : f.p.records.toList[handleOf w]? = some (some a))
    (hc : ¬ ((f.p.armed = some (handleOf w) ∨ f.p.arming = some (handleOf w)) ∧ f.p.run.active = false)) :
    exec (.drop first) s = .next ((f.emptySlot.setRecord (handleOf w) none).answer 0 0 2) := by
  change execDrop first s = _
  simp [execDrop, hf, h.1, State.emptySlot_acting h.2.2, List.getD_eq_getElem?_getD, hrec,
    State.setRecord_none_p _ (handleOf_lt w), hc]

/-- R45: a drop forgets its record; where that was armed and no launch runs, the one used last is to be armed. -/
theorem drop_forgets (hf : s.focusPart first = f) (h : Acting f first n w e)
    (hrec : f.p.records.toList[handleOf w]? = some (some a)) {left : List Nat} (hl : f.p.recent.filter (· != handleOf w) = left) :
    ∃ t, exec (.drop first) s = .next t ∧ Emptied f t n ∧ StatusIs t n 0 0 2 w ∧ t.p.records.toList[handleOf w]? = some none ∧
      (∀ k, k ≠ handleOf w → t.p.records.toList[k]? = f.p.records.toList[k]?) ∧ t.p.recent = left ∧ t.p.run = f.p.run ∧ t.mem = s.mem ∧
      (f.p.armed ≠ some (handleOf w) → f.p.arming ≠ some (handleOf w) → t.p.armed = f.p.armed ∧ t.p.arming = f.p.arming) ∧
      (f.p.armed = some (handleOf w) → f.p.run.active = false → t.p.armed = none ∧ t.p.arming = left.head? ∧
        (left ≠ [] → ∃ c, s.now ≤ c ∧ Due t c (.rearmComplete first))) := by
  have hset := f.emptySlot.setRecord_none_p (handleOf_lt w)
  have hmem : f.mem = s.mem := by simp [← hf]
  have hnow : f.now = s.now := by simp [← hf]
  by_cases hc : (f.p.armed = some (handleOf w) ∨ f.p.arming = some (handleOf w)) ∧ f.p.run.active = false
  · obtain ⟨hempt, hstat, hgone, hkept, hrecent, hrun, harmed, harming⟩ := dropped_answer h
      (u := (f.emptySlot.setRecord (handleOf w) none).armLater left.head?) (ar := none) (ag := left.head?)
      (by rw [State.armLater_p, hset]; simp)
    refine ⟨_, (hl ▸ exec_drop_armed hf h hrec hc), hempt, hstat, hgone, hkept, hrecent.trans hl, hrun, by simp [hmem],
      fun h1 h2 => absurd hc.1 (by simp [h1, h2]), fun _ _ => ⟨harmed, harming, fun hleft => ?_⟩⟩
    obtain ⟨c, hle, hdue⟩ := State.due_armLater (f.emptySlot.setRecord (handleOf w) none) (h := left.head?) (by simpa using hleft)
    have hfirst : (f.emptySlot.setRecord (handleOf w) none).p.first = first := by rw [hset]; simpa using h.1
    rw [hfirst] at hdue
    exact ⟨c, by simpa [hnow] using hle, due_mono hdue (State.agenda_subset_answer _ _ _ _)⟩
  · obtain ⟨hempt, hstat, hgone, hkept, hrecent, hrun, harmed, harming⟩ := dropped_answer h
      (u := f.emptySlot.setRecord (handleOf w) none) (ar := f.p.armed) (ag := f.p.arming) (by rw [hset]; simp)
    exact ⟨_, exec_drop_other hf h hrec hc, hempt, hstat, hgone, hkept, hrecent.trans hl, hrun, by simp [hmem],
      fun _ _ => ⟨harmed, harming⟩, fun h1 h2 => absurd ⟨.inl h1, h2⟩ hc⟩

end

end Sys2Proof.Machine
end

section
/-! O52: the start of a launch, the words, threads and queue it puts on their way (R46, R93). -/

namespace Sys2Proof.Machine

open Sys2Proof.Claims

/-! The start of a launch (R46, R93). -/

/-- What putting words, threads and a preload on their way leaves: memory, and the partition but for its tiles and, of its
launch, the queue and the preload. -/
structure State.OnlyStarts (s t : State) : Prop where
  mem : t.mem = s.mem
  part : ∃ tiles tq pre got, t.p = { s.p with tiles := tiles, run := { s.p.run with tq := tq, preload := pre, preloaded := got } }

namespace State.OnlyStarts

theorem refl (s : State) : s.OnlyStarts s := ⟨rfl, _, _, _, _, rfl⟩

theorem of_p {s t : State} (hm : t.mem = s.mem) (hp : t.p = s.p) : s.OnlyStarts t := ⟨hm, _, _, _, _, hp⟩

theorem trans {s t u : State} (h : s.OnlyStarts t) (k : t.OnlyStarts u) : s.OnlyStarts u := by
  obtain ⟨hm, tiles, tq, pre, got, hp⟩ := h
  obtain ⟨km, tiles', tq', pre', got', kp⟩ := k
  exact ⟨km.trans hm, tiles', tq', pre', got', by rw [kp, hp]⟩

theorem foldl {α : Type} {g : State → α → State} (hg : ∀ (s : State) x, s.OnlyStarts (g s x)) (l : List α) (s : State) :
    s.OnlyStarts (l.foldl g s) := by
  induction l generalizing s with
  | nil => exact refl s
  | cons x l ih => exact (hg s x).trans (ih (g s x))

theorem dueAt (s : State) (c r : Nat) (w : Task) : s.OnlyStarts (s.dueAt c r w) := of_p rfl rfl

theorem duePlan (s : State) (k r : Nat) (w : Task) : s.OnlyStarts (s.duePlan k r w) := ⟨rfl, _, _, _, _, rfl⟩

theorem queueWord (s : State) (x : Nat) : s.OnlyStarts (s.queueWord x) := by
  unfold State.queueWord
  split
  · exact refl s
  · split
    · exact refl s
    · exact duePlan ..

theorem queueTile (s : State) (n : Nat) : s.OnlyStarts (s.queueTile n) :=
  (of_p rfl rfl : s.OnlyStarts (s.focusTile n)).trans (foldl queueWord _ _)

theorem loadBanks (s : State) (plan : Nat) : s.OnlyStarts (s.loadBanks plan) :=
  (⟨rfl, _, _, _, _, rfl⟩ :
    s.OnlyStarts { s with p := { s.p with tiles := s.p.tiles.map fun t => t.load s.p.run.block plan } }).trans (foldl queueTile _ _)

theorem watchTick (s : State) (plan : Nat) : s.OnlyStarts (s.watchTick plan) := by
  unfold State.watchTick; dsimp only; split
  · exact refl s
  · exact duePlan ..

theorem startPass (s : State) (plan : Nat) : s.OnlyStarts (s.startPass plan) := by
  have hbudget : s.OnlyStarts (s.loadBanks plan).startBudget := (loadBanks s plan).trans (duePlan ..)
  unfold State.startPass; dsimp only; split
  · exact hbudget.trans (watchTick ..)
  · exact hbudget

theorem startPreload (s : State) (k : Nat) : s.OnlyStarts (s.startPreload k) := by
  unfold State.startPreload State.preloadTime; dsimp only; split <;> exact ⟨rfl, _, _, _, _, rfl⟩

theorem lendFrom (s : State) (l : Loc) (c : Nat) : s.OnlyStarts (s.lendFrom l c) := by
  unfold State.lendFrom; dsimp only; split
  · exact refl s
  · split
    · exact refl s
    · exact of_p rfl rfl

theorem addThread (s : State) (t : Thread) (e : Nat) : s.OnlyStarts (s.addThread t e) := by
  refine trans (t := { s with
    threads := insertThread { t with slotAt := s.nextSlot t e } s.threads, nextUid := s.nextUid + 1 }) (of_p rfl rfl) ?_
  unfold State.addThread; dsimp only; split
  · exact lendFrom ..
  · exact (lendFrom ..).trans (dueAt ..)

theorem startRank (s : State) (cluster : Nat) (e : Entry) (i rank : Nat) (locs : List Loc) :
    s.OnlyStarts (s.startRank cluster e i rank locs) := foldl (fun _ _ => addThread ..) _ _

theorem startCluster (s : State) (cluster : Nat) : s.OnlyStarts (s.startCluster cluster) := foldl (fun _ _ => startRank ..) _ _

end State.OnlyStarts

/-- R37, R93: tick 0 of an overlay: its block is the running one, and the chain runs. -/
theorem State.startOverlay_starts (s : State) (k : Nat) (b : Words) (plan : Nat) : ∃ g : Run → Run,
    (∀ r, (g r).active = r.active ∧ (g r).handle = r.handle ∧ (g r).rec_ = r.rec_ ∧ (g r).slot = r.slot ∧ (g r).tick0 = r.tick0 ∧
      (g r).chain = .running ∧ (g r).ovl = k) ∧ (s.onRun g).OnlyStarts (s.startOverlay k b plan) := by
  unfold State.startOverlay
  dsimp only
  split
  · refine ⟨_, ?_, State.OnlyStarts.startPass _ _⟩
    exact fun r => ⟨rfl, rfl, rfl, rfl, rfl, rfl, rfl⟩
  · refine ⟨_, ?_, (State.OnlyStarts.startPass _ _).trans (.startPreload _ _)⟩
    exact fun r => ⟨rfl, rfl, rfl, rfl, rfl, rfl, rfl⟩

/-- R46: what the first bell finds and leaves of the partition. -/
theorem State.startRun_starts (s : State) (t0 : Nat) :
    (s.startRun t0).mem = s.mem ∧ ∃ tiles regions policies run, (s.startRun t0).p =
      { s.p with tiles := tiles, regions := regions, policies := policies, run := run } ∧
      run.active = s.p.run.active ∧ run.handle = s.p.run.handle ∧ run.rec_ = s.p.run.rec_ ∧ run.slot = s.p.run.slot ∧
      run.tick0 = t0 ∧ run.chain = .running ∧ run.ovl = 0 := by
  unfold State.startRun
  dsimp only
  generalize hu : State.onRun _ _ = u
  have hbell : u.mem = s.mem ∧ ∃ regions policies run, u.p = { s.p with regions := regions, policies := policies, run := run } ∧
      run.active = s.p.run.active ∧ run.handle = s.p.run.handle ∧ run.rec_ = s.p.run.rec_ ∧ run.slot = s.p.run.slot ∧
      run.tick0 = t0 := by
    rw [← hu]; exact ⟨rfl, _, _, _, rfl, rfl, rfl, rfl, rfl, rfl⟩
  obtain ⟨humem, regions, policies, run, hup, hactive, hhandle, hrec, hslot, htick⟩ := hbell
  obtain ⟨g, hg, hovl⟩ := u.startOverlay_starts 0 u.p.bank0 (t0 - s.p.planLag)
  have hthreads := hovl.trans (.foldl State.OnlyStarts.startCluster (List.range (recExtent s.p.run.rec_ 5 48)) _)
  generalize List.foldl State.startCluster _ _ = v at *
  have hend : (u.onRun g).OnlyStarts (if v.p.run.mreqs.isEmpty then v else v.watchHold (t0 - s.p.planLag)) := by
    split
    · exact hthreads
    · exact hthreads.trans (.duePlan _ _ _ _)
  obtain ⟨hmem, tiles, tq, pre, got, hp⟩ := hend
  obtain ⟨ga, gh, gr, gs, gt, gc, go⟩ := hg u.p.run
  refine ⟨hmem.trans humem, tiles, regions, policies, _, hp.trans (by rw [State.onRun, hup]), ?_⟩
  rw [hup] at ga gh gr gs gt gc go
  exact ⟨ga.trans hactive, gh.trans hhandle, gr.trans hrec, gs.trans hslot, gt.trans htick, gc, go⟩

end Sys2Proof.Machine
end

section
/-! O52: the words that launch a record, armed or not (R44, R46). -/

namespace Sys2Proof.Machine

open Sys2Proof.Claims

/-- R44, R46: the launch of a record that is no group's writes its status word and goes on to its first bell. -/
theorem State.acceptLaunch_starts (s : State) {n : Nat} (hn : n < 8) (w : Word) {a : Admitted} (ha : a.group = false) :
    (s.acceptLaunch n w a).mem = s.mem ∧ ∃ tiles regions policies recent run, (s.acceptLaunch n w a).p =
      { s.p with tiles := tiles, regions := regions, policies := policies, recent := recent, acting := none, run := run,
                 status := s.p.status.set n (statusWord 0 0 1 (launchTag w)) } ∧
      run.active = true ∧ run.handle = handleOf w ∧ run.rec_ = a.words ∧ run.slot = n ∧ run.chain = .running ∧ run.ovl = 0 ∧
      run.tick0 = (let t0 := s.tick + 40 + blkLead s.p.bank0; if recDet a.words then t0 / 8 * 8 else t0) := by
  unfold State.acceptLaunch
  simp only [ha, Bool.not_false, if_true]
  generalize hu : ({ s.setStatus n 0 0 1 (launchTag w) false with p := _ } : State) = u
  have hup : u.p = { s.p with
      recent := handleOf w :: s.p.recent.filter (· != handleOf w), acting := none, run := s.acceptedRun n (handleOf w) w a,
      status := s.p.status.set n (statusWord 0 0 1 (launchTag w)) } := by
    rw [← hu]; simp [State.setStatus_p, Part.useRecord, hn]
  have hmem : u.mem = s.mem := by rw [← hu]; simp
  have htick : u.firstTick = (let t0 := s.tick + 40 + blkLead s.p.bank0; if recDet a.words then t0 / 8 * 8 else t0) := by
    have ht : u.tick = s.tick := by rw [← hu]; simp [State.tick]
    rw [State.firstTick, hup, ht]; rfl
  obtain ⟨hm, tiles, regions, policies, run, hp, hactive, hhandle, hrec, hslot, htick0, hchain, hovl⟩ := u.startRun_starts u.firstTick
  rw [hup] at hp hactive hhandle hrec hslot
  exact ⟨hm.trans hmem, tiles, regions, policies, _, run, hp, hactive, hhandle, hrec, hslot, hchain, hovl, htick0.trans htick⟩

section
variable {first n : Nat} {w : Word} {s f : State} {a : Admitted}

/-- R44: a launch of a handle without a record answers 2. -/
theorem launch_unknown (hf : s.focusPart first = f) (h : Acting f first n w false) (hidle : f.p.run.active = false)
    (hrec : f.p.records.toList[handleOf w]? = some none) :
    ∃ t, exec (.launch first) s = .next t ∧ Emptied f t n ∧ StatusIs t n 0 2 3 w ∧ t.p.run = f.p.run ∧ t.mem = s.mem := by
  subst hf
  obtain ⟨hempt, hstat, hmem, hrun, -⟩ := emptySlot_answer h (adm := 0) (res := 2) (st := 3) (by decide) (by decide) (by decide)
  refine ⟨_, ?_, hempt, hstat, hrun, hmem⟩
  change execLaunch first s = _
  simp [execLaunch, h.1, hidle, h.2.2, List.getD_eq_getElem?_getD, hrec]

/-- R46: a launch of the armed record answers state 1, and tick 0 of overlay 0 comes 40 ticks plus its lead on. -/
theorem launch_armed (hf : s.focusPart first = f) (h : Acting f first n w false) (hidle : f.p.run.active = false)
    (hrec : f.p.records.toList[handleOf w]? = some (some a)) (hg : a.group = false) (hu : f.unsettled = false)
    (harmed : f.p.armed = some (handleOf w)) :
    ∃ t, exec (.launch first) s = .next t ∧ Emptied f t n ∧ StatusIs t n 0 0 1 w ∧ t.p.acting = none ∧ t.p.run.active = true ∧
      t.p.run.handle = handleOf w ∧ t.p.run.rec_ = a.words ∧ t.p.run.slot = n ∧ t.p.run.chain = .running ∧ t.p.run.ovl = 0 ∧
      t.mem = s.mem ∧ t.p.run.tick0 =
        (let t0 := s.tick + 40 + blkLead f.p.bank0; if recDet a.words then t0 / 8 * 8 else t0) := by
  obtain ⟨hmem, tiles, regions, policies, recent, run, hp, hactive, hhandle, hrec', hslot, hchain, hovl, htick⟩ :=
    f.emptySlot.acceptLaunch_starts h.2.1 w hg
  have hfmem : f.mem = s.mem := by simp [← hf]
  have hftick : f.tick = s.tick := by simp [← hf]
  refine ⟨_, ?_, emptied_of_emptySlot h (by rw [hp]) (by rw [hp]),
    statusIs_of_set (v := f.emptySlot.p.status) (tag := launchTag w) h.2.1 (by rw [hp]) (by decide) (by decide) (by decide) (Nat.mod_mod _ _),
    by rw [hp], by rw [hp]; exact hactive, by rw [hp]; exact hhandle, by rw [hp]; exact hrec', by rw [hp]; exact hslot,
    by rw [hp]; exact hchain, by rw [hp]; exact hovl, by simp [hmem, hfmem], ?_⟩
  · change execLaunch first s = _
    simp [execLaunch, hf, h.1, hidle, h.2.2, List.getD_eq_getElem?_getD, hrec, hg, hu, harmed]
  · rw [hp]; simpa [hftick] using htick

/-- R45: a launch of a record that is not armed leaves firmware to arm it first. -/
theorem launch_unarmed (hf : s.focusPart first = f) (h : Acting f first n w false) (hidle : f.p.run.active = false)
    (hrec : f.p.records.toList[handleOf w]? = some (some a)) (hg : a.group = false) (hu : f.unsettled = false)
    (harmed : f.p.armed ≠ some (handleOf w)) :
    ∃ t c, exec (.launch first) s = .next t ∧ Emptied f t n ∧ t.p.run = f.p.run ∧ s.now ≤ c ∧ Due t c (.launch first) := by
  obtain ⟨c, hc, hdue⟩ := f.emptySlot.due_actLater (.launch first)
  have hnow : f.now = s.now := by simp [← hf]
  refine ⟨f.emptySlot.actLater (.launch first), c, ?_, emptied_of_emptySlot h rfl rfl, by simp, by simpa [hnow] using hc, hdue⟩
  change execLaunch first s = _
  simp [execLaunch, hf, h.1, hidle, h.2.2, List.getD_eq_getElem?_getD, hrec, hg, hu, harmed]

end

end Sys2Proof.Machine
end

section
/-! O52: the threads and queues a stopped launch leaves, its abort and the end of a launch fault's tick (R48, R400). -/

namespace Sys2Proof.Machine

open Sys2Proof.Claims

/-! Threads and queues that go (R401, R413). -/

/-- What the end of threads and the discarding of queues leave: time, memory, what is on the agenda, and the partition but for its
clusters and wait lists. -/
structure State.OnlyClears (s t : State) : Prop where
  now : t.now = s.now
  tickOff : t.tickOff = s.tickOff
  mem : t.mem = s.mem
  agenda : s.agenda ⊆ t.agenda
  part : ∃ clusters waits unlisted, t.p = { s.p with clusters := clusters, waits := waits, unlisted := unlisted }

namespace State.OnlyClears

theorem refl (s : State) : s.OnlyClears s := ⟨rfl, rfl, rfl, fun _ h => h, _, _, _, rfl⟩

theorem trans {s t u : State} (h : s.OnlyClears t) (k : t.OnlyClears u) : s.OnlyClears u := by
  obtain ⟨clusters, waits, unlisted, hp⟩ := h.part
  obtain ⟨clusters', waits', unlisted', kp⟩ := k.part
  exact ⟨k.now.trans h.now, k.tickOff.trans h.tickOff, k.mem.trans h.mem, fun _ hx => k.agenda (h.agenda hx), clusters', waits', unlisted',
    by rw [kp, hp]⟩

theorem foldl {α : Type} {g : State → α → State} (hg : ∀ (s : State) x, s.OnlyClears (g s x)) (l : List α) (s : State) :
    s.OnlyClears (l.foldl g s) := by
  induction l generalizing s with
  | nil => exact refl s
  | cons x l ih => exact (hg s x).trans (ih (g s x))

theorem onCluster (s : State) (c : Nat) (g : ClusterPart → ClusterPart) : s.OnlyClears (s.onCluster c g) :=
  ⟨rfl, rfl, rfl, fun _ h => h, _, _, _, rfl⟩

theorem lookAtHead (s : State) (c : Nat) : s.OnlyClears (s.lookAtHead c) := by
  unfold State.lookAtHead; dsimp only; split
  · exact refl s
  · exact ⟨rfl, rfl, rfl, State.agenda_subset_dueAt .., _, _, _, rfl⟩

theorem unpin (s : State) (pins : List (Nat × Nat × Nat)) : s.OnlyClears (s.unpin pins) :=
  (foldl (fun _ _ => onCluster ..) _ _).trans (foldl lookAtHead _ _)

theorem dropThread (s : State) (t : Thread) : s.OnlyClears (s.dropThread t) :=
  (unpin s t.pins).trans ⟨rfl, rfl, rfl, fun _ h => h, _, _, _, rfl⟩

theorem storeThread (s : State) : s.OnlyClears s.storeThread := by
  refine ⟨by simp, by simp, by simp, ?_, s.p.clusters, s.p.waits, s.p.unlisted, by simp⟩
  rw [State.storeThread_agenda]; exact fun _ h => h

theorem endQueue (s : State) (c : Nat) : s.OnlyClears (s.endQueue c) := by
  unfold State.endQueue; dsimp only
  split
  · exact (unpin ..).trans (onCluster ..)
  · exact (unpin ..).trans (onCluster ..)
  · exact onCluster ..

theorem sweep (s : State) : s.OnlyClears s.sweep := (storeThread s).trans (foldl dropThread _ _)

theorem tick {s t : State} (h : s.OnlyClears t) : t.tick = s.tick := by rw [State.tick, State.tick, h.now, h.tickOff]

end State.OnlyClears

/-! Stopping a launch (R48, R400). -/

/-- R400, R401: a launch that stops keeps its faults, and nothing of it is left to issue or to land. -/
theorem State.stopLaunch_stops (s : State) : s.stopLaunch.now = s.now ∧ s.stopLaunch.mem = s.mem ∧
    s.stopLaunch.p.first = s.p.first ∧ s.stopLaunch.p.tiles = s.p.tiles.map Tile.endTile ∧
    s.stopLaunch.p.run.active = s.p.run.active ∧ s.stopLaunch.p.run.group = s.p.run.group ∧
    s.stopLaunch.p.run.faults = s.p.run.faults ∧ s.stopLaunch.p.run.tq = [] ∧ s.stopLaunch.p.run.chain = .retired ∧
    s.stopLaunch.p.run.ending = true := by
  unfold State.stopLaunch
  dsimp only
  generalize hu : (if (s.p.run.hold == .holding || s.p.run.hold == .resuming) = true then s.count 17 (s.tick - s.p.run.heldAt) else s) = u
  have hcount : u.now = s.now ∧ u.mem = s.mem ∧ u.p = { s.p with counters := u.p.counters } := by
    rw [← hu]; split <;> exact ⟨rfl, rfl, rfl⟩
  obtain ⟨hnow, hmem, hp⟩ := hcount
  have hclear := State.OnlyClears.foldl State.OnlyClears.endQueue (u.p.clusters.map (·.1))
    { u with p := { u.p with tiles := u.p.tiles.map Tile.endTile } }
  generalize List.foldl State.endQueue _ _ = v at *
  obtain ⟨clusters, waits, unlisted, hv⟩ := hclear.part
  refine ⟨hclear.now.trans hnow, hclear.mem.trans hmem, ?_, ?_, ?_, ?_, ?_, rfl, rfl, rfl⟩ <;>
    simp only [State.onRun, hv] <;> rw [hp]

/-- R401: a tile of a launch that has ended issues nothing, and nothing of it is open or on its way. -/
theorem Tile.endTile_still (x : Tile) : x.endTile.clearings = [] ∧ x.endTile.words = [] ∧
    ∀ y ∈ x.endTile.streams.toList, y.done = true := by
  refine ⟨rfl, rfl, fun y hy => ?_⟩
  simp only [Tile.endTile, Tile.unload, Vector.toList_map, List.mem_map] at hy
  obtain ⟨z, -, rfl⟩ := hy
  rfl

/-- R414: where the launch is active it is looked at, at the end of the tick. -/
theorem due_mayRetire {s : State} (h : s.p.run.active = true) :
    Due s.mayRetire (s.now / 2 * 2 + 1) (.launchRetires s.p.first) := by
  rw [State.mayRetire, if_pos h]; exact due_dueAt ..
@[simp] theorem State.mayRetire_p (s : State) : s.mayRetire.p = s.p := by unfold State.mayRetire; split <;> rfl
@[simp] theorem State.mayRetire_mem (s : State) : s.mayRetire.mem = s.mem := by unfold State.mayRetire; split <;> rfl
@[simp] theorem State.mayRetire_threads (s : State) : s.mayRetire.threads = s.threads := by unfold State.mayRetire; split <;> rfl

section
variable {vf : Nat} {s f : State}

/-- R48: an abort with no launch is dropped. -/
theorem abortLaunch_idle (hf : s.focusPart vf = f) (hfirst : f.p.first = vf) (hidle : f.p.run.active = false) :
    exec (.abortLaunch vf) s = .next f := by
  change execAbortLaunch vf s = _
  simp [execAbortLaunch, State.focusVf, hf, hfirst, hidle]

/-- R48: an abort lets the launch end with the current tick of its streams, or, where they stand still, of the package. -/
theorem abortLaunch_ends (hf : s.focusPart vf = f) (hfirst : f.p.first = vf) (hactive : f.p.run.active = true)
    (hending : f.p.run.ending = false) (haborted : f.p.run.aborted = false) :
    ∃ t, exec (.abortLaunch vf) s = .next t ∧ t.p.run.aborted = true ∧ t.p.run.active = true ∧ t.mem = s.mem ∧
      (if f.p.run.stopped = true ∨ s.tick < f.p.run.tick0 then Due t (s.now / 2 * 2 + 1) (.launchRetires vf)
       else ∃ r, (⟨f.plan, r, .ev (.launchRetires vf)⟩ : Item) ∈ t.p.run.tq) := by
  have hexec : exec (.abortLaunch vf) s = .next
      (if f.p.run.stopped = true ∨ f.tick < f.p.run.tick0 then
        (f.onRun fun r => { r with aborted := true }).dueAt f.tickLast (rankEnd + 50) (.ev (.launchRetires vf))
       else (f.onRun fun r => { r with aborted := true }).duePlan f.plan (rankEnd + 50) (.ev (.launchRetires vf))) := by
    change execAbortLaunch vf s = _
    simp only [execAbortLaunch, State.focusVf, hf, hfirst, hactive, hending, haborted, Bool.or_eq_true, decide_eq_true_eq,
      ne_eq, not_true_eq_false, Bool.not_true, Bool.false_eq_true, or_self, if_false]
    rfl
  have hmem : f.mem = s.mem := by simp [← hf]
  have hnow : f.now = s.now := by simp [← hf]
  have htick : f.tick = s.tick := by simp [← hf]
  rw [htick] at hexec
  refine ⟨_, hexec, ?_⟩
  by_cases hstill : f.p.run.stopped = true ∨ s.tick < f.p.run.tick0
  · simp only [if_pos hstill]
    exact ⟨rfl, hactive, hmem, by rw [← hnow]; exact due_dueAt ..⟩
  · simp only [if_neg hstill]
    exact ⟨rfl, hactive, hmem, _, mem_insertItem.2 (.inl rfl)⟩

/-- R400: at the end of the tick of a launch fault the launch of one package stops, and its fault is chosen. -/
theorem launchFaultEnd_stops (hf : s.focusPart vf = f) (hfirst : f.p.first = vf) (hactive : f.p.run.active = true)
    (hfinal : f.p.run.final = false) (hending : f.p.run.ending = false) (hgroup : f.p.run.group = false) :
    ∃ t, exec (.launchFaultEnd vf) s = .next t ∧ t.p.run.ending = true ∧ t.p.run.final = true ∧ t.p.run.faults = f.p.run.faults ∧
      t.p.run.tq = [] ∧ t.p.run.chain = .retired ∧
      (∀ x ∈ t.p.tiles, x.clearings = [] ∧ x.words = [] ∧ ∀ y ∈ x.streams.toList, y.done = true) ∧
      Due t (s.now / 2 * 2 + 1) (.launchRetires vf) ∧ t.mem = s.mem := by
  obtain ⟨hnow, hmem, hfst, htiles, hact, hgrp, hfaults, htq, hchain, hend⟩ := f.stopLaunch_stops
  have hfmem : f.mem = s.mem := by simp [← hf]
  have hfnow : f.now = s.now := by simp [← hf]
  have hdue := due_mayRetire (s := f.stopLaunch.onRun fun r => { r with final := true }) (hact.trans hactive)
  refine ⟨(f.stopLaunch.onRun fun r => { r with final := true }).mayRetire, ?_, by simpa using hend, by simp, by simpa using hfaults,
    by simpa using htq, by simpa using hchain, fun x hx => ?_, ?_, by simp [hmem, hfmem]⟩
  · change execLaunchFaultEnd vf s = _
    simp [execLaunchFaultEnd, hf, hfirst, hactive, hfinal, hending, State.groupLaunch, hgrp, hgroup]
  · rw [State.mayRetire_p] at hx
    have hx' : x ∈ f.stopLaunch.p.tiles := hx
    rw [htiles, List.mem_map] at hx'
    obtain ⟨y, -, rfl⟩ := hx'
    exact y.endTile_still
  · have hpf : (f.stopLaunch.onRun fun r => { r with final := true }).p.first = vf := hfst.trans hfirst
    rw [hpf] at hdue
    simpa [hnow, hfnow] using hdue

end

end Sys2Proof.Machine
end

section
/-! O52: the completion record of Table 18.1, the retirement of a launch and the re-arming of its record (R45, R414, R417). -/

namespace Sys2Proof.Machine

open Sys2Proof.Claims

/-! The completion record (Table 18.1). -/

theorem State.completionRecord_tick (s : State) : s.completionRecord.getD 5 0 = BitVec.ofNat 64 s.tick := rfl
theorem State.completionRecord_last (s : State) : s.completionRecord.getD 7 0 = 0 := rfl

/-- How a launch ended that was aborted or has a fault on record. -/
theorem State.completionRecord_how (s : State) (h : s.p.run.aborted = true ∨ s.p.run.faults ≠ []) :
    (s.completionRecord.getD 0 0).toNat % 256 = if s.p.run.aborted then 3 else 2 := by
  have hfaults : s.p.run.aborted = false → s.p.run.faults.isEmpty = false := by
    intro ha; simpa [ha] using h
  cases ha : s.p.run.aborted
  · simp only [State.completionRecord, ha, hfaults ha, List.getD_cons_zero, BitVec.toNat_ofNat, Bool.false_eq_true, if_false, if_true]
    omega
  · simp only [State.completionRecord, ha, List.getD_cons_zero, BitVec.toNat_ofNat, if_true]
    omega

/-- The record of a launch without a fault: its halt code, if it has one, and its last drain. -/
theorem State.completionRecord_clean (s : State) (ha : s.p.run.aborted = false) (hf : s.p.run.faults = []) (hn : s.p.run.nfault = 0) :
    s.completionRecord = [BitVec.ofNat 64 (match s.p.run.halted with | some c => 1 + c.toNat * 2 ^ 16 | none => 0), 0, 0, 0,
      BitVec.ofNat 64 (s.p.run.deDone - s.p.run.ovlPlan), BitVec.ofNat 64 s.tick, BitVec.ofNat 64 (s.p.run.ovl % 256), 0] := by
  cases hh : s.p.run.halted <;> simp [State.completionRecord, ha, hf, hn, hh]

theorem haltWord_eq (c : BitVec 16) : BitVec.ofNat 64 (1 + c.toNat * 2 ^ 16) = 1 ||| (c.setWidth 64 <<< 16) := by
  apply BitVec.eq_of_toNat_eq
  have hc := c.isLt
  have hor := Nat.two_pow_add_eq_or_of_lt (i := 16) (b := 1) (by decide) c.toNat
  simp only [BitVec.toNat_ofNat, BitVec.toNat_or, BitVec.toNat_shiftLeft, BitVec.toNat_setWidth, Nat.shiftLeft_eq]
  rw [Nat.mod_eq_of_lt (show c.toNat < 2 ^ 64 by omega), Nat.mod_eq_of_lt (show c.toNat * 2 ^ 16 < 2 ^ 64 by omega),
    Nat.mod_eq_of_lt (show 1 + c.toNat * 2 ^ 16 < 2 ^ 64 by omega), Nat.or_comm, Nat.mul_comm c.toNat, Nat.add_comm]
  exact hor

/-! The end of a launch (R414, R417). -/

/-- The state from which a launch that is over writes its completion record: its threads are gone, and it counts. -/
def State.launchGone (s : State) : State := (s.launchThreads.foldl State.dropThread s.storeThread).count 8

theorem State.launchGone_spec (s : State) : s.launchGone.now = s.now ∧ s.launchGone.tick = s.tick ∧ s.launchGone.mem = s.mem ∧
    ∃ clusters waits unlisted, s.launchGone.p = { s.p with
      clusters := clusters, waits := waits, unlisted := unlisted, counters := s.p.counters.set 8 (s.p.counters[8] + 1) } := by
  have h := (State.OnlyClears.storeThread s).trans (.foldl State.OnlyClears.dropThread s.launchThreads _)
  obtain ⟨clusters, waits, unlisted, hp⟩ := h.part
  exact ⟨h.now, h.tick, h.mem, clusters, waits, unlisted, by
    rw [State.launchGone]; generalize List.foldl State.dropThread _ _ = v at *; simp only [State.count, hp]; rfl⟩

/-- What the end of a launch leaves: nothing armed, its status word and completion record, and its record, or the one used last, to be
armed again. -/
structure State.Ended (f t : State) (res : Nat) : Prop where
  active : t.p.run.active = false
  armed : t.p.armed = none
  arming : t.p.arming = if f.p.run.handle ∈ f.p.recent then some f.p.run.handle else f.p.recent.head?
  status : StatusIs t f.p.run.slot 0 res 2 (f.p.run.tag <<< 12)
  mem : t.mem = f.mem
  count : t.p.counters[8] = f.p.counters[8] + 1
  rearm : f.p.recent ≠ [] → ∃ c, f.now ≤ c ∧ Due t c (.rearmComplete f.p.first)
  record : ∃ g : State, g.tick = f.tick ∧ g.p.run = f.p.run ∧ ∀ (k : Nat) (hk : k < 8), t.p.counters[k] = g.completionRecord.getD k 0

/-- Bits [63:18] of a status word carry the tag of the launch word. -/
theorem tag_of_shift (x : Word) : x.toNat % 2 ^ 46 = (x <<< 12).toNat / 2 ^ 12 % 2 ^ 46 := by
  rw [BitVec.toNat_shiftLeft, Nat.shiftLeft_eq]; omega

/-- R414: the completion record stands among the counters, and the launch is no more. -/
def State.recordWritten (s : State) : State :=
  let u := s.launchGone
  ({ u with p := { u.p with
      planLag := u.tick - u.plan
      counters := Vector.ofFn fun (i : Fin 23) => if i.val < 8 then u.completionRecord.getD i.val 0 else u.p.counters[i]
      clusters := u.p.clusters.map fun (c : Nat × ClusterPart) => (c.1, c.2.after)
      stamps := u.p.stamps.filter fun x => x.1 != u.ownPkg } } : State).onRun fun x => { x with active := false }

theorem State.recordWritten_spec (s : State) : s.recordWritten.now = s.now ∧ s.recordWritten.mem = s.mem ∧
    ∃ planLag stamps clusters waits unlisted, s.recordWritten.p = { s.p with
      planLag := planLag, stamps := stamps, clusters := clusters, waits := waits, unlisted := unlisted
      run := { s.p.run with active := false }
      counters := Vector.ofFn fun (i : Fin 23) =>
        if i.val < 8 then s.launchGone.completionRecord.getD i.val 0 else s.launchGone.p.counters[i] } := by
  obtain ⟨hnow, -, hmem, clusters, waits, unlisted, hp⟩ := s.launchGone_spec
  refine ⟨hnow, hmem, s.recordWritten.p.planLag, s.recordWritten.p.stamps, s.recordWritten.p.clusters, waits, unlisted, ?_⟩
  have hwritten : s.recordWritten.p = { s.launchGone.p with
      planLag := s.recordWritten.p.planLag, stamps := s.recordWritten.p.stamps, clusters := s.recordWritten.p.clusters
      run := { s.launchGone.p.run with active := false }
      counters := Vector.ofFn fun (i : Fin 23) =>
        if i.val < 8 then s.launchGone.completionRecord.getD i.val 0 else s.launchGone.p.counters[i] } := rfl
  refine hwritten.trans ?_
  rw [hp]

/-- R414, R417: then the status word, the arming of the record, and the proctor's next slot. -/
theorem State.finishLaunch_eq {s : State} (hpp : s.p.ppState = 0) : s.finishLaunch =
    ((s.recordWritten.setStatus s.p.run.slot 0 (if s.p.run.aborted then 5 else if s.p.run.faults.isEmpty then 0 else 4) 2
      s.p.run.tag.toNat s.p.run.irq).armLater
      (if s.p.run.handle ∈ s.p.recent then some s.p.run.handle else s.p.recent.head?)).kickProctor := by
  obtain ⟨-, -, _, _, _, _, _, hp⟩ := s.recordWritten_spec
  generalize hres : (if s.p.run.aborted then 5 else if s.p.run.faults.isEmpty then 0 else 4) = res
  have hset := s.recordWritten.setStatus_p s.p.run.slot 0 res 2 s.p.run.tag.toNat s.p.run.irq
  have hpp' : (s.recordWritten.setStatus s.p.run.slot 0 res 2 s.p.run.tag.toNat s.p.run.irq).p.ppState ≠ 1 := by
    rw [hset, hp]; simp [hpp]
  have hrecent : (s.recordWritten.setStatus s.p.run.slot 0 res 2 s.p.run.tag.toNat s.p.run.irq).p.recent = s.p.recent := by
    rw [hset, hp]
  have hunfold : s.finishLaunch =
      let v := s.recordWritten.setStatus s.p.run.slot 0 res 2 s.p.run.tag.toNat s.p.run.irq
      let v := if v.p.ppState = 1 then ({ v with p := { v.p with ppWant := false } } : State).setPreempt 0 else v
      (v.armLater (if v.p.recent.contains s.p.run.handle then some s.p.run.handle else v.p.recent.head?)).kickProctor := by
    rw [← hres]; rfl
  simp only [hunfold, if_neg hpp', hrecent, List.contains_iff_mem]

/-- What the end of a launch changes of a partition that is not pre-empted. -/
theorem State.finishLaunch_p {s : State} (hpp : s.p.ppState = 0) (hslot : s.p.run.slot < 8) :
    ∃ planLag stamps clusters waits unlisted acting, s.finishLaunch.p = { s.p with
      planLag := planLag, stamps := stamps, clusters := clusters, waits := waits, unlisted := unlisted, acting := acting
      armed := none
      arming := if s.p.run.handle ∈ s.p.recent then some s.p.run.handle else s.p.recent.head?
      run := { s.p.run with active := false }
      status := s.p.status.set s.p.run.slot
        (statusWord 0 (if s.p.run.aborted then 5 else if s.p.run.faults.isEmpty then 0 else 4) 2 s.p.run.tag.toNat)
      counters := Vector.ofFn fun (i : Fin 23) =>
        if i.val < 8 then s.launchGone.completionRecord.getD i.val 0 else s.launchGone.p.counters[i] } := by
  obtain ⟨-, -, planLag, stamps, clusters, waits, unlisted, hp⟩ := s.recordWritten_spec
  rw [State.finishLaunch_eq hpp]
  generalize (if s.p.run.aborted then 5 else if s.p.run.faults.isEmpty then 0 else 4) = res
  generalize (if s.p.run.handle ∈ s.p.recent then some s.p.run.handle else s.p.recent.head?) = again
  obtain ⟨acting, hk⟩ :=
    ((s.recordWritten.setStatus s.p.run.slot 0 res 2 s.p.run.tag.toNat s.p.run.irq).armLater again).kickProctor_p
  exact ⟨planLag, stamps, clusters, waits, unlisted, acting, by rw [hk, State.armLater_p, State.setStatus_p, dif_pos hslot, hp]⟩

/-- R417: after a launch the arming of a record comes to an end, where one is left. -/
theorem State.due_finishLaunch {s : State} (hpp : s.p.ppState = 0) (hrecent : s.p.recent ≠ []) :
    ∃ c, s.now ≤ c ∧ Due s.finishLaunch c (.rearmComplete s.p.first) := by
  obtain ⟨hnow, -, _, _, _, _, _, hp⟩ := s.recordWritten_spec
  rw [State.finishLaunch_eq hpp]
  generalize (if s.p.run.aborted then 5 else if s.p.run.faults.isEmpty then 0 else 4) = res
  have hsome : (if s.p.run.handle ∈ s.p.recent then some s.p.run.handle else s.p.recent.head?) ≠ none := by
    split_ifs <;> simp [hrecent]
  obtain ⟨c, hc, hdue⟩ := State.due_armLater (s.recordWritten.setStatus s.p.run.slot 0 res 2 s.p.run.tag.toNat s.p.run.irq) hsome
  rw [State.setStatus_now, hnow] at hc
  rw [State.setStatus_p, hp] at hdue
  exact ⟨c, hc, due_mono hdue (State.agenda_subset_kickProctor _)⟩

/-- R414, R417: a launch that is over, of a partition that is not pre-empted. -/
theorem State.finishLaunch_ends {s : State} (hpp : s.p.ppState = 0) (hslot : s.p.run.slot < 8) :
    s.Ended s.finishLaunch (if s.p.run.aborted then 5 else if s.p.run.faults.isEmpty then 0 else 4) := by
  obtain ⟨_, _, _, _, _, _, hp⟩ := State.finishLaunch_p hpp hslot
  obtain ⟨-, htick, -, _, _, _, hgone⟩ := s.launchGone_spec
  have hcounters : s.finishLaunch.p.counters = Vector.ofFn fun (i : Fin 23) =>
      if i.val < 8 then s.launchGone.completionRecord.getD i.val 0 else s.launchGone.p.counters[i] := by rw [hp]
  have hrun : s.launchGone.p.run = s.p.run := by rw [hgone]
  have hcount : s.launchGone.p.counters = s.p.counters.set 8 (s.p.counters[8] + 1) := by rw [hgone]
  refine ⟨by rw [hp], by rw [hp], by rw [hp],
    statusIs_of_set (v := s.p.status) hslot (by rw [hp]) (by decide) (by split_ifs <;> decide) (by decide) (tag_of_shift _),
    ?_, ?_, State.due_finishLaunch hpp, ⟨s.launchGone, htick, hrun, fun k hk => ?_⟩⟩
  · rw [State.finishLaunch_eq hpp]; simp [s.recordWritten_spec.2.1]
  · rw [hcounters]; simp [hcount]
  · rw [hcounters]; simp [hk]

/-- The end of a launch is the same where threads of it have gone before. -/
theorem State.Ended.of_clears {f u t : State} {res : Nat} (h : f.OnlyClears u) (e : u.Ended t res) : f.Ended t res := by
  obtain ⟨_, _, _, hp⟩ := h.part
  have hrun : u.p.run = f.p.run := by rw [hp]
  have hrecent : u.p.recent = f.p.recent := by rw [hp]
  have hfirst : u.p.first = f.p.first := by rw [hp]
  have hcounters : u.p.counters = f.p.counters := by rw [hp]
  obtain ⟨g, hgtick, hgrun, hg⟩ := e.record
  exact ⟨e.active, e.armed, by rw [e.arming, hrun, hrecent], hrun ▸ e.status, e.mem.trans h.mem,
    by rw [e.count]; simp only [hcounters], fun hr => by have := e.rearm (hrecent ▸ hr); rwa [h.now, hfirst] at this,
    ⟨g, hgtick.trans h.tick, hgrun.trans hrun, hg⟩⟩

section
variable {vf : Nat} {s f : State}

/-- R414: a launch that is over retires. -/
theorem exec_launchRetires_over (hf : s.focusPart vf = f) (hfirst : f.p.first = vf) (hactive : f.p.run.active = true)
    (hpaused : f.p.paused = false) (hending : f.p.run.ending = false) (haborted : f.p.run.aborted = false)
    (hover : f.launchOver = true) : exec (.launchRetires vf) s = .next f.finishLaunch := by
  change execLaunchRetires vf s = _
  simp [execLaunchRetires, hf, hfirst, hactive, hpaused, hending, haborted, hover]

/-- R414: one that is not goes on. -/
theorem exec_launchRetires_running (hf : s.focusPart vf = f) (hfirst : f.p.first = vf) (hactive : f.p.run.active = true)
    (hpaused : f.p.paused = false) (hending : f.p.run.ending = false) (haborted : f.p.run.aborted = false)
    (hover : f.launchOver = false) : exec (.launchRetires vf) s = .next f := by
  change execLaunchRetires vf s = _
  simp [execLaunchRetires, hf, hfirst, hactive, hpaused, hending, haborted, hover]

theorem exec_launchRetires_ending (hf : s.focusPart vf = f) (hfirst : f.p.first = vf) (hactive : f.p.run.active = true)
    (hpaused : f.p.paused = false) (hending : f.p.run.ending = true) (hfinal : f.p.run.final = true ∨ f.p.run.aborted = true) :
    exec (.launchRetires vf) s = .next (if f.sweep.launchThreads = [] ∧ f.p.jobs = [] then f.sweep.finishLaunch
      else f.sweep.dueAt (f.sweep.tickLast + 2) (rankEnd + 9) (.ev (.launchRetires vf))) := by
  obtain ⟨_, _, _, hp⟩ := (State.OnlyClears.sweep f).part
  have hjobs : f.sweep.p.jobs = f.p.jobs := by rw [hp]
  have hgo : ¬ (f.p.run.final = false ∧ f.p.run.aborted = false) := by
    rintro ⟨h1, h2⟩; simp [h1, h2] at hfinal
  change execLaunchRetires vf s = _
  simp [execLaunchRetires, hf, hfirst, hactive, hpaused, hending, hgo, hjobs, apply_ite Host.Outcome.next]

/-- R414, R417: what the end of a launch leaves, as the host sees it. -/
theorem State.Ended.visible {t : State} {res : Nat} (e : f.Ended t res) (hf : s.focusPart vf = f) (hfirst : f.p.first = vf) :
    t.p.run.active = false ∧ t.p.armed = none ∧
      t.p.arming = (if f.p.run.handle ∈ f.p.recent then some f.p.run.handle else f.p.recent.head?) ∧
      StatusIs t f.p.run.slot 0 res 2 (f.p.run.tag <<< 12) ∧ t.p.counters[5] = BitVec.ofNat 64 s.tick ∧ t.p.counters[7] = 0 ∧
      t.p.counters[8] = f.p.counters[8] + 1 ∧ t.mem = s.mem ∧
      (f.p.recent ≠ [] → ∃ c, s.now ≤ c ∧ Due t c (.rearmComplete vf)) := by
  have hmem : f.mem = s.mem := by simp [← hf]
  have hnow : f.now = s.now := by simp [← hf]
  have htick : f.tick = s.tick := by simp [← hf]
  obtain ⟨g, hg, -, hrec⟩ := e.record
  refine ⟨e.active, e.armed, e.arming, e.status, ?_, ?_, e.count, e.mem.trans hmem, ?_⟩
  · rw [hrec 5 (by decide), g.completionRecord_tick, hg, htick]
  · rw [hrec 7 (by decide), g.completionRecord_last]
  · rw [← hnow, ← hfirst]; exact e.rearm

/-- R414, Table 18.1: a launch that is over retires, with the halt code of its timetable or none. -/
theorem launchRetires_retires (hf : s.focusPart vf = f) (hfirst : f.p.first = vf) (hactive : f.p.run.active = true)
    (hpaused : f.p.paused = false) (hpp : f.p.ppState = 0) (hslot : f.p.run.slot < 8) (hending : f.p.run.ending = false)
    (haborted : f.p.run.aborted = false) (hfaults : f.p.run.faults = []) (hn : f.p.run.nfault = 0) (hover : f.launchOver = true) :
    ∃ t, exec (.launchRetires vf) s = .next t ∧ f.Ended t 0 ∧ t.p.counters[1] = 0 ∧ t.p.counters[2] = 0 ∧ t.p.counters[3] = 0 ∧
      t.p.counters[0] = (match f.p.run.halted with | some c => 1 ||| (c.setWidth 64 <<< 16) | none => 0) ∧
      t.p.counters[4] = BitVec.ofNat 64 (f.p.run.deDone - f.p.run.ovlPlan) ∧ t.p.counters[6] = BitVec.ofNat 64 (f.p.run.ovl % 256) := by
  have hend := State.finishLaunch_ends hpp hslot
  rw [haborted, hfaults] at hend
  obtain ⟨g, -, hrun, hrec⟩ := hend.record
  have hclean := g.completionRecord_clean (by rw [hrun]; exact haborted) (by rw [hrun]; exact hfaults) (by rw [hrun]; exact hn)
  rw [hrun] at hclean
  refine ⟨_, exec_launchRetires_over hf hfirst hactive hpaused hending haborted hover, hend, ?_, ?_, ?_, ?_, ?_, ?_⟩
  · rw [hrec 1 (by decide), hclean]; rfl
  · rw [hrec 2 (by decide), hclean]; rfl
  · rw [hrec 3 (by decide), hclean]; rfl
  · rw [hrec 0 (by decide), hclean]
    cases f.p.run.halted with
    | none => rfl
    | some c => exact haltWord_eq c
  · rw [hrec 4 (by decide), hclean]; rfl
  · rw [hrec 6 (by decide), hclean]; rfl

/-- R401, R414: a launch that ends, once its threads and jobs have stopped. -/
theorem launchRetires_ended (hf : s.focusPart vf = f) (hfirst : f.p.first = vf) (hactive : f.p.run.active = true)
    (hpaused : f.p.paused = false) (hpp : f.p.ppState = 0) (hslot : f.p.run.slot < 8) (hending : f.p.run.ending = true)
    (hfinal : f.p.run.final = true ∨ f.p.run.aborted = true) (hthreads : f.sweep.launchThreads = []) (hjobs : f.p.jobs = [])
    (hhow : f.p.run.aborted = true ∨ f.p.run.faults ≠ []) :
    ∃ t, exec (.launchRetires vf) s = .next t ∧ f.Ended t (if f.p.run.aborted then 5 else 4) ∧
      t.p.counters[0].toNat % 256 = (if f.p.run.aborted then 3 else 2) := by
  have hclears := State.OnlyClears.sweep f
  obtain ⟨_, _, _, hp⟩ := hclears.part
  have hend := State.finishLaunch_ends (s := f.sweep) (by rw [hp]; exact hpp) (by rw [hp]; exact hslot)
  have hres : (if f.p.run.aborted then 5 else if f.p.run.faults.isEmpty then 0 else 4) = if f.p.run.aborted then 5 else 4 := by
    cases ha : f.p.run.aborted <;> simp_all
  rw [show f.sweep.p.run = f.p.run by rw [hp], hres] at hend
  replace hend := hend.of_clears hclears
  obtain ⟨g, -, hrun, hrec⟩ := hend.record
  have hword := g.completionRecord_how (by rw [hrun]; exact hhow)
  rw [hrun] at hword
  exact ⟨_, (exec_launchRetires_ending hf hfirst hactive hpaused hending hfinal).trans (by rw [if_pos ⟨hthreads, hjobs⟩]),
    hend, by rw [hrec 0 (by decide)]; exact hword⟩

/-- R401, R414: a launch that ends waits for its threads. -/
theorem launchRetires_waits (hf : s.focusPart vf = f) (hfirst : f.p.first = vf) (hactive : f.p.run.active = true)
    (hpaused : f.p.paused = false) (hending : f.p.run.ending = true)
    (hfinal : f.p.run.final = true ∨ f.p.run.aborted = true) (hthreads : f.sweep.launchThreads ≠ []) :
    ∃ t, exec (.launchRetires vf) s = .next t ∧ t.p.run = f.p.run ∧ t.mem = s.mem ∧ Due t (s.now / 2 * 2 + 3) (.launchRetires vf) := by
  have hclears := State.OnlyClears.sweep f
  obtain ⟨_, _, _, hp⟩ := hclears.part
  have hmem : f.mem = s.mem := by simp [← hf]
  have hnow : f.now = s.now := by simp [← hf]
  refine ⟨f.sweep.dueAt (f.sweep.tickLast + 2) (rankEnd + 9) (.ev (.launchRetires vf)),
    (exec_launchRetires_ending hf hfirst hactive hpaused hending hfinal).trans (by rw [if_neg fun h => hthreads h.1]),
    by simp [hp], hclears.mem.trans hmem, ?_⟩
  have hlast : f.sweep.tickLast + 2 = s.now / 2 * 2 + 3 := by rw [State.tickLast, hclears.now, hnow]
  rw [← hlast]; exact due_dueAt ..

/-! Arming again (R417). -/

/-- R417: a record is armed in the background. -/
theorem rearmComplete_arms {h : Nat} {a : Admitted} (hf : s.focusPart vf = f) (hfirst : f.p.first = vf) (harming : f.p.arming = some h)
    (hidle : f.p.run.active = false) (hu : f.unsettled = false) (hrec : f.p.records.toList[h]? = some (some a)) :
    ∃ t, exec (.rearmComplete vf) s = .next t ∧ t.p.armed = some h ∧ t.p.arming = none ∧ t.p.records = f.p.records ∧
      t.p.tiles.length = f.p.tileCount := by
  obtain ⟨_, _, _, _, tiles, hp, hlen⟩ := State.arm_p hrec
  refine ⟨f.arm h, ?_, by rw [hp], by rw [hp], by rw [hp], by rw [hp]; exact hlen⟩
  change execRearmComplete vf s = _
  simp [execRearmComplete, hf, hfirst, hidle, harming, hu]

/-- R417: nothing is armed where the record has been dropped. -/
theorem rearmComplete_none {h : Nat} (hf : s.focusPart vf = f) (hfirst : f.p.first = vf) (harming : f.p.arming = some h)
    (hidle : f.p.run.active = false) (hu : f.unsettled = false) (hrec : f.p.records.toList[h]? = some none) :
    ∃ t, exec (.rearmComplete vf) s = .next t ∧ t.p.armed = none ∧ t.p.arming = none ∧ t.mem = s.mem := by
  have hmem : f.mem = s.mem := by simp [← hf]
  refine ⟨f.arm h, ?_, by rw [State.arm_none hrec], by rw [State.arm_none hrec], by rw [State.arm_none hrec]; exact hmem⟩
  change execRearmComplete vf s = _
  simp [execRearmComplete, hf, hfirst, hidle, harming, hu]

end

end Sys2Proof.Machine
end

section
/-! O52: the roll-call fence (R124, R403). -/

namespace Sys2Proof.Machine

open Sys2Proof.Claims

/-! The roll-call fence (R124, R403). -/

/-- What is put in a table is found there. -/
theorem Tab.find_put_self {α : Type} (k : Nat) (a : α) (t : Tab α) : Tab.find k (Tab.put k a t) = some a := by
  induction t with
  | nil => simp [Tab.put, Tab.find]
  | cons x t ih =>
    obtain ⟨j, b⟩ := x
    rw [Tab.put]
    split_ifs with hlt heq
    · simp [Tab.find]
    · simp [Tab.find]
    · rw [Tab.find, if_neg (fun h => heq h.symm), ih]
@[simp] theorem Tab.getD_put_self {α : Type} (d : α) (k : Nat) (a : α) (t : Tab α) : Tab.getD d k (Tab.put k a t) = a := by
  rw [Tab.getD, Tab.find_put_self, Option.getD_some]

@[simp] theorem State.cluster_onCluster_self (s : State) (c : Nat) (g : ClusterPart → ClusterPart) :
    (s.onCluster c g).cluster c = g (s.cluster c) := Tab.getD_put_self ..

@[simp] theorem State.lookAtHead_p (s : State) (c : Nat) : (s.lookAtHead c).p = s.p := by
  unfold State.lookAtHead; dsimp only; split <;> rfl
@[simp] theorem State.lookAtHead_now (s : State) (c : Nat) : (s.lookAtHead c).now = s.now := by
  unfold State.lookAtHead; dsimp only; split <;> rfl
@[simp] theorem State.lookAtHead_mem (s : State) (c : Nat) : (s.lookAtHead c).mem = s.mem := by
  unfold State.lookAtHead; dsimp only; split <;> rfl
@[simp] theorem State.lookAtHead_threads (s : State) (c : Nat) : (s.lookAtHead c).threads = s.threads := by
  unfold State.lookAtHead; dsimp only; split <;> rfl

/-- R124: a fenced context has no open packet and is out of rotation. -/
theorem Thread.fence_stops (t : Thread) : t.fence.openPkt = none ∧ t.fence.status ≠ .ready := by
  refine ⟨rfl, ?_⟩
  cases h : t.status <;> simp [Thread.fence, Thread.fencedNow, h]

/-- R124: the threads of a core with those of the partition fenced. -/
def State.fencedThreads (s : State) (first cluster core : Nat) : List Thread :=
  s.threads.map fun (t : Thread) => if t.standsOn first cluster core then t.fence else t

theorem State.fencedThreads_stop {s : State} {first cluster core : Nat} {x : Thread} (hx : x ∈ s.fencedThreads first cluster core)
    (hon : x.standsOn first cluster core = true) : x.openPkt = none ∧ x.status ≠ .ready := by
  obtain ⟨t, -, rfl⟩ := List.mem_map.1 hx
  split_ifs at hon ⊢ with ht
  · exact t.fence_stops
  · exact absurd hon ht

theorem State.mem_fencedThreads_of_off {s : State} {first cluster core : Nat} {x : Thread} (hx : x ∈ s.threads)
    (hoff : x.standsOn first cluster core = false) : x ∈ s.fencedThreads first cluster core :=
  List.mem_map.2 ⟨x, hx, by simp [hoff]⟩

/-- R124: a core's fence and its notice. -/
def ClusterPart.fenceCore (core : Nat) (c : ClusterPart) : ClusterPart :=
  let r : Roll := Tab.getD ⟨0, false, 0⟩ core c.rolls
  { c with
    notice := c.notice ||| (1#10 <<< core)
    rolls := Tab.put core { r with fenced := true } c.rolls }

theorem ClusterPart.notice_fenceCore {core : Nat} (h : core < 8) (c : ClusterPart) : (c.fenceCore core).notice.getLsbD core = true := by
  simp [ClusterPart.fenceCore, show core < 10 by omega]

section
variable {first cluster core : Nat} {s f : State}

theorem exec_rollCallFence (hf : s.storeThread.focusPart first = f) (hfirst : f.p.first = first) (h64 : first ≠ 64)
    (hactive : f.p.run.active = true) (hopen : f.coreFenced cluster core = false) :
    exec (.rollCallFence first cluster core) s = .next
      ((((({ f with threads := f.fencedThreads first cluster core } : State).onCluster cluster (ClusterPart.fenceCore core)).count 10
        (f.threads.filter fun x => x.standsOn first cluster core).length).count 22).lookAtHead cluster).mayRetire := by
  change execRollCallFence first cluster core s = _
  simp only [execRollCallFence, hf, hfirst, hactive, hopen, ne_eq, not_true_eq_false, h64, Bool.not_true, Bool.false_eq_true, or_self,
    if_false]
  rfl

/-- R124, R403: a fence takes every context of a core out of rotation and is counted. -/
theorem rollCallFence_fences (hf : s.storeThread.focusPart first = f) (hfirst : f.p.first = first) (h64 : first ≠ 64)
    (hactive : f.p.run.active = true) (hopen : f.coreFenced cluster core = false) (hcore : core < 8) :
    ∃ t, exec (.rollCallFence first cluster core) s = .next t ∧ t.coreFenced cluster core = true ∧
      (t.cluster cluster).notice.getLsbD core = true ∧ t.p.counters[22] = f.p.counters[22] + 1 ∧
      t.p.counters[10] = f.p.counters[10] + BitVec.ofNat 64 (f.threads.filter fun x => x.standsOn first cluster core).length ∧
      t.threads.length = f.threads.length ∧ t.mem = s.mem ∧ Due t (s.now / 2 * 2 + 1) (.launchRetires first) ∧
      (∀ x ∈ t.threads, x.standsOn first cluster core = true → x.openPkt = none ∧ x.status ≠ .ready) ∧
      ∀ x ∈ f.threads, x.standsOn first cluster core = false → x ∈ t.threads := by
  have hmem : f.mem = s.mem := by simp [← hf]
  have hnow : f.now = s.now := by simp [← hf]
  have hexec := exec_rollCallFence (cluster := cluster) (core := core) hf hfirst h64 hactive hopen
  generalize hu : ({ f with threads := f.fencedThreads first cluster core } : State).onCluster cluster (ClusterPart.fenceCore core) = u at hexec
  generalize (f.threads.filter fun x => x.standsOn first cluster core).length = n at *
  have hcl : u.cluster cluster = (f.cluster cluster).fenceCore core := by rw [← hu]; simp; rfl
  have hthreads : u.threads = f.fencedThreads first cluster core := by rw [← hu]; rfl
  have hcounters : u.p.counters = f.p.counters := by rw [← hu]; rfl
  have huactive : ((u.count 10 n).count 22).p.run.active = true := by rw [← hu]; exact hactive
  have hufirst : ((u.count 10 n).count 22).p.first = first := by rw [← hu]; exact hfirst
  have hunow : ((u.count 10 n).count 22).now = s.now := by rw [← hu]; exact hnow
  generalize ht : (((u.count 10 n).count 22).lookAtHead cluster).mayRetire = t at hexec
  have htp : t.p = ((u.count 10 n).count 22).p := by rw [← ht]; simp
  have htcl : t.cluster cluster = (f.cluster cluster).fenceCore core := by rw [State.cluster, htp, ← hcl]; rfl
  have htth : t.threads = f.fencedThreads first cluster core := by rw [← ht]; simp [hthreads]
  refine ⟨t, hexec, ?_, ?_, ?_, ?_, ?_, ?_, ?_, ?_, ?_⟩
  · rw [State.coreFenced, htcl]; simp [ClusterPart.fenceCore]
  · rw [htcl]; exact ClusterPart.notice_fenceCore hcore _
  · simp [htp, State.count, hcounters]
  · simp [htp, State.count, hcounters]
  · rw [htth, State.fencedThreads, List.length_map]
  · rw [← ht, ← hmem]; simp [← hu]
  · have hdue := due_mayRetire (s := ((u.count 10 n).count 22).lookAtHead cluster) (by rw [State.lookAtHead_p]; exact huactive)
    rwa [ht, State.lookAtHead_p, State.lookAtHead_now, hunow, hufirst] at hdue
  · rw [htth]; exact fun x hx => State.fencedThreads_stop hx
  · rw [htth]; exact fun x hx => State.mem_fencedThreads_of_off hx

end

end Sys2Proof.Machine
end

section
/-! O52 settled. -/

namespace Sys2Proof.Proofs

open Sys2Proof.Machine Sys2Proof.Claims

/-- Settles O52: each clause is the lemma about its one step; the outcomes of `launchRetires`, of which the statement speaks through
the state it leaves, come from `launchRetires_retires` and `launchRetires_ended`. -/
theorem launchesBeginAndEnd : Obligations.LaunchesBeginAndEnd := by
  unfold Obligations.LaunchesBeginAndEnd
  refine ⟨fun first n w s => ⟨admitRecord_empties, fun h hu => ⟨?_, ?_⟩, fun e h => invalidLaunchWord_answers h,
    fun e h => ⟨drop_unknown h, fun a hrec => drop_forgets rfl h hrec rfl⟩, fun e h hidle he => ?_⟩, ?_, ?_⟩
  · exact fun hc hlt => admitRecord_refused h hu rfl hc hlt
  · exact fun hc => admitRecord_kept h hu rfl hc
  · subst he
    exact ⟨launch_unknown rfl h hidle, fun a hrec hg hu harmed => launch_armed rfl h hidle hrec hg hu harmed,
      fun a hrec hg hu harmed => launch_unarmed rfl h hidle hrec hg hu harmed⟩
  · intro vf s f hfirst
    refine ⟨abortLaunch_idle rfl hfirst, abortLaunch_ends rfl hfirst, launchFaultEnd_stops rfl hfirst, ?_, ?_⟩
    · intro hactive hpaused hpp hslot run ends
      refine ⟨fun hending haborted hfaults hn hover => ?_, exec_launchRetires_running rfl hfirst hactive hpaused,
        fun hending hfinal hthreads hjobs hhow => ?_, launchRetires_waits rfl hfirst hactive hpaused⟩
      · obtain ⟨t, hexec, hend, hrecord⟩ :=
          launchRetires_retires rfl hfirst hactive hpaused hpp hslot hending haborted hfaults hn hover
        exact ⟨t, hexec, hend.visible rfl hfirst, hrecord⟩
      · obtain ⟨t, hexec, hend, hrecord⟩ :=
          launchRetires_ended rfl hfirst hactive hpaused hpp hslot hending hfinal hthreads hjobs hhow
        exact ⟨t, hexec, hend.visible rfl hfirst, hrecord⟩
    · exact fun h harming hidle hu => ⟨fun a => rearmComplete_arms rfl hfirst harming hidle hu,
        rearmComplete_none rfl hfirst harming hidle hu⟩
  · intro first cluster core s f hfirst h64 hactive hopen hcore
    exact rollCallFence_fences rfl hfirst h64 hactive hopen hcore

end Sys2Proof.Proofs
end

section
/-! O50: the commands of the firmware mailbox (R425, Table 19.4). First how a command runs and what it answers, and the partition it is
about. -/

namespace Sys2Proof.Machine

open Sys2Proof.Claims

/-! The mailbox (R425). -/

@[simp] theorem State.mailboxDone_mem (s : State) (r : Nat) (l : List Word) : (s.mailboxDone r l).mem = s.mem := rfl
@[simp] theorem State.mailboxDone_attr (s : State) (r : Nat) (l : List Word) : (s.mailboxDone r l).attr = s.attr := rfl
@[simp] theorem State.mailboxDone_cluster (s : State) (r : Nat) (l : List Word) (c : Nat) :
    (s.mailboxDone r l).cluster c = s.cluster c := rfl
@[simp] theorem State.mailboxDone_chan (s : State) (r : Nat) (l : List Word) (c : Nat) : (s.mailboxDone r l).chan c = s.chan c := rfl
@[simp] theorem State.mailboxDone_ctls (s : State) (r : Nat) (l : List Word) : (s.mailboxDone r l).ctls = s.ctls := rfl
@[simp] theorem State.mailboxDone_links (s : State) (r : Nat) (l : List Word) : (s.mailboxDone r l).links = s.links := rfl
@[simp] theorem State.mailboxDone_group (s : State) (r : Nat) (l : List Word) : (s.mailboxDone r l).group = s.group := rfl
@[simp] theorem State.mailboxDone_tick (s : State) (r : Nat) (l : List Word) : (s.mailboxDone r l).tick = s.tick := rfl

/-- R425: a command that ends with an answer, from the state in which it answers. -/
theorem commanded_of_mailbox {s u : State} {i : Instr} {g : State → State} {r : Nat} {l : List Word} {after : State → Prop}
    (hready : s.mgmt.ready = true) (hexec : exec i s = s.mailbox g) (hg : g s = u.mailboxDone r l) (hmem : u.mem = s.mem)
    (hattr : u.attr = s.attr) (hafter : after (u.mailboxDone r l)) : Commanded i s r l after := by
  refine ⟨u.mailboxDone r l, ?_, rfl, fun k hk => ?_, hmem, hattr, hafter⟩
  · rw [hexec, State.mailbox, if_pos hready, hg]
  · simp [State.mailboxDone, State.emit]

theorem commanded_mono {i : Instr} {s : State} {r : Nat} {l : List Word} {after after' : State → Prop} (h : Commanded i s r l after)
    (himp : ∀ t, after t → after' t) : Commanded i s r l after' := by
  obtain ⟨t, hexec, hstatus, hwords, hmem, hattr, hafter⟩ := h
  exact ⟨t, hexec, hstatus, hwords, hmem, hattr, himp t hafter⟩

@[simp] theorem State.focusPart_attr (s : State) (first : Nat) : (s.focusPart first).attr = s.attr := by
  obtain ⟨q, l, h⟩ := s.focusPart_eq first; rw [h]

/-- R425: a command about a partition that there is. -/
theorem commanded_of_partCommand {s u : State} {i : Instr} {first : Nat} {g : State → State} {r : Nat} {l : List Word}
    {after : State → Prop} (hready : s.mgmt.ready = true) (hfirst : (s.focusPart first).p.first = first) (h64 : first ≠ 64)
    (hexec : exec i s = s.mailbox fun s => s.partCommand first g) (hg : g (s.focusPart first) = u.mailboxDone r l)
    (hmem : u.mem = (s.focusPart first).mem) (hattr : u.attr = (s.focusPart first).attr) (hafter : after (u.mailboxDone r l)) :
    Commanded i s r l after :=
  commanded_of_mailbox hready hexec (by simp [State.partCommand, hfirst, h64, hg]) (by simpa using hmem) (by simpa using hattr) hafter

end Sys2Proof.Machine
end

section
/-! O50: homing entries, translation entries and host windows (R72, R309, R311, R312, R327). -/

namespace Sys2Proof.Machine

open Sys2Proof.Claims

/-! Homing entries (R72). -/

theorem homingOk_of {u : Word} (hlist : u.getLsbD 1 = true → ∃ c, c < 48 ∧ u.getLsbD (16 + c / 12) = true ∧ u.getLsbD (20 + c % 12) = true)
    (hclus : u.getLsbD 1 = false → u.toNat / 2 ^ 8 % 2 ^ 6 ≤ 47) (hlen : u.getLsbD 0 = true → u.toNat / 2 ^ 48 ≠ 0) :
    homingOk u = true := by
  have hlen' : (!u.getLsbD 0 || decide (field u 63 48 ≠ 0)) = true := by
    cases h0 : u.getLsbD 0
    · rfl
    · have hlt := u.isLt
      have hfield : field u 63 48 = u.toNat / 2 ^ 48 := Nat.mod_eq_of_lt (by omega)
      simpa [hfield] using hlen h0
  rw [homingOk, hlen', Bool.and_true]
  cases h1 : u.getLsbD 1
  · exact decide_eq_true (hclus h1)
  · obtain ⟨c, hc, hquad, hcol⟩ := hlist h1
    have hmem : c ∈ homeList u := by simp [homeList, hc, hquad, hcol]
    simpa [List.isEmpty_iff] using List.ne_nil_of_mem hmem

/-- What a table holds under a key after its values are changed one by one. -/
theorem Tab.find_map {α : Type} (g : α → α) (k : Nat) (t : Tab α) :
    Tab.find k (t.map fun c => (c.1, g c.2)) = (Tab.find k t).map g := by
  induction t with
  | nil => rfl
  | cons c t ih => simp only [List.map_cons, Tab.find, ih]; split <;> rfl

theorem TransEntry.invalid_invalid (e : TransEntry) : e.invalid.w0.getLsbD 53 = false := by
  simp [TransEntry.invalid]

@[simp] theorem Part.setHoming_homing (p : Part) {n : Nat} (h : n < 64) (v : Word) : (p.setHoming n v).homing = p.homing.set n v := by
  unfold Part.setHoming
  rw [dif_pos h]
  split_ifs with hv
  · rw [← hv, Vector.set_getElem_self]
  · rfl

/-- R72: a homing entry that changes leaves no valid translation keyed to it. -/
theorem Part.setHoming_invalidates (p : Part) {n : Nat} (h : n < 64) {v : Word} (hv : v ≠ p.homing[n]) {c : Nat} {e : TransEntry}
    (he : e ∈ (Tab.getD .rest c (p.setHoming n v).clusters).store) (hn : field e.w0 39 34 = n) : e.w0.getLsbD 53 = false := by
  rw [Part.setHoming, dif_pos h, if_neg (Ne.symm hv)] at he
  simp only [Part.mapStores, Tab.getD] at he
  rw [Tab.find_map (fun c : ClusterPart => { c with store := c.store.map _ })] at he
  cases hfind : Tab.find c p.clusters with
  | none => simp [hfind, ClusterPart.rest] at he
  | some k =>
    simp only [hfind, Option.map_some, Option.getD_some, List.mem_map] at he
    obtain ⟨d, -, rfl⟩ := he
    split_ifs at hn ⊢ with hd
    · exact d.invalid_invalid
    · exact absurd hn hd

section
variable {first : Nat} {s : State}

/-- R72: no homing entry is written while the partition runs a launch. -/
theorem homingEntry_refused (hready : s.mgmt.ready = true) (hfirst : (s.focusPart first).p.first = first) (h64 : first ≠ 64)
    (hactive : (s.focusPart first).p.run.active = true) (n : Nat) (v : Word) :
    Commanded (.homingEntry first n v) s 1 [] fun t => t.p = (s.focusPart first).p :=
  commanded_of_partCommand (u := s.focusPart first) hready hfirst h64 rfl (by simp [hactive]) rfl rfl rfl

/-- R72: an entry that is sound is written, with what was translated through the one it replaces. -/
theorem homingEntry_written (hready : s.mgmt.ready = true) (hfirst : (s.focusPart first).p.first = first) (h64 : first ≠ 64)
    (hidle : (s.focusPart first).p.run.active = false) {n : Nat} (hn : n < 64) {v : Word} (hok : homingOk (v &&& homingMask) = true) :
    Commanded (.homingEntry first n v) s 0 [] fun t => t.p = (s.focusPart first).p.setHoming n (v &&& homingMask) :=
  commanded_of_partCommand (u := { s.focusPart first with p := (s.focusPart first).p.setHoming n (v &&& homingMask) })
    hready hfirst h64 rfl (by simp [hidle, hn, hok]) rfl rfl rfl

end

end Sys2Proof.Machine
end

section
/-! O50: translation entries and host windows (R309, R311, R312, R327). -/

namespace Sys2Proof.Machine

open Sys2Proof.Claims

/-! Translation entries (R309, R311). -/

/-- R309: the key of an entry, as the bits of W0 that hold it. -/
theorem TransEntry.sameKey_eq (e : TransEntry) (w0 : Word) : e.sameKey w0 =
    (e.w0.getLsbD 53 && e.w0.extractLsb' 0 40 == w0.extractLsb' 0 40 && e.w0.extractLsb' 40 12 == w0.extractLsb' 40 12) := by
  rw [Bool.eq_iff_iff]
  simp only [TransEntry.sameKey, TransEntry.hits, field, Bool.and_eq_true, beq_iff_eq, ← BitVec.toNat_inj,
    BitVec.extractLsb'_toNat, Nat.shiftRight_eq_div_pow, Nat.reducePow, Nat.reduceAdd, Nat.reduceSub]
  have hlow (a b : Nat) : a % 1099511627776 = b % 1099511627776 ↔
      a / 17179869184 % 64 = b / 17179869184 % 64 ∧ a % 17179869184 = b % 17179869184 := by omega
  rw [hlow, Nat.div_one, Nat.div_one]
  tauto

theorem TransEntry.sameKey_of_invalid {e : TransEntry} (h : e.w0.getLsbD 53 = false) (w0 : Word) : e.sameKey w0 = false := by
  rw [TransEntry.sameKey_eq, h, Bool.false_and, Bool.false_and]

/-- R311: a sound entry is taken where its set has room and its key is new. -/
theorem Part.takesEntry_of {p : Part} {cl : Nat} {w0 w1 : Word}
    (hroom : ((Tab.getD .rest cl p.clusters).store.filter fun e => e.w0.getLsbD 53 && transSet p.units e.w0 == transSet p.units w0).length < 8)
    (hnew : ∀ e ∈ (Tab.getD .rest cl p.clusters).store, e.sameKey w0 = false) (hframe : p.frameOk w0 w1 = true)
    (hreg : ∀ h : field w0 39 34 < 64, p.homing[field w0 39 34].getLsbD 0 = true) : p.takesEntry cl w0 w1 = true := by
  have h64 : field w0 39 34 < 64 := Nat.mod_lt _ (by decide)
  have hvalid : (p.homing.toList.getD (field w0 39 34) 0).getLsbD 0 = true := by
    rw [← hreg h64, List.getD_eq_getElem _ _ (by simpa using h64)]; simp
  simp only [Part.takesEntry, hframe, hvalid, decide_eq_true hroom, Bool.true_and, Bool.and_true, Bool.not_eq_true',
    List.any_eq_false, Bool.not_eq_true]
  exact hnew

theorem Part.takesEntry_of_taken {p : Part} {cl : Nat} {w0 w1 : Word} {e : TransEntry}
    (he : e ∈ (Tab.getD .rest cl p.clusters).store) (hkey : e.sameKey w0 = true) : p.takesEntry cl w0 w1 = false := by
  have hany : ((Tab.getD .rest cl p.clusters).store.any fun e => e.sameKey w0) = true := List.any_eq_true.2 ⟨e, he, hkey⟩
  simp [Part.takesEntry, hany]

@[simp] theorem State.changeStore_store (s : State) (cl : Nat) (g : List TransEntry → List TransEntry) :
    ((s.changeStore cl g).cluster cl).store = g (s.cluster cl).store := by
  simp only [State.changeStore, State.cluster_onCluster_self]; rfl
@[simp] theorem State.changeStore_mem (s : State) (cl : Nat) (g : List TransEntry → List TransEntry) : (s.changeStore cl g).mem = s.mem := rfl
@[simp] theorem State.changeStore_attr (s : State) (cl : Nat) (g : List TransEntry → List TransEntry) : (s.changeStore cl g).attr = s.attr := rfl

/-- Table 13.1, W2: the three counts side by side. -/
theorem TransEntry.w2_eq (e : TransEntry) : e.w2 = BitVec.ofNat 64 (e.hn.toNat + e.hx.toNat * 2 ^ 16 + e.hy.toNat * 2 ^ 32) := by
  have hn := e.hn.isLt
  have hx := e.hx.isLt
  have hy := e.hy.isLt
  have hshift (x k : Nat) (h : x < 2 ^ 16) (hk : k ≤ 32) : x <<< k % 2 ^ 64 = x * 2 ^ k := by
    rw [Nat.shiftLeft_eq, Nat.mod_eq_of_lt]
    calc x * 2 ^ k < 2 ^ 16 * 2 ^ k := Nat.mul_lt_mul_of_pos_right h (by positivity)
      _ ≤ 2 ^ 16 * 2 ^ 32 := Nat.mul_le_mul_left _ (Nat.pow_le_pow_right (by decide) hk)
      _ < 2 ^ 64 := by decide
  apply BitVec.eq_of_toNat_eq
  simp only [TransEntry.w2, BitVec.toNat_or, BitVec.toNat_shiftLeft, BitVec.toNat_setWidth, BitVec.toNat_ofNat]
  rw [Nat.mod_eq_of_lt (a := e.hn.toNat) (by omega), Nat.mod_eq_of_lt (a := e.hx.toNat) (by omega),
    Nat.mod_eq_of_lt (a := e.hy.toNat) (by omega), hshift _ 16 hx (by decide), hshift _ 32 hy (by decide), Nat.or_comm e.hn.toNat,
    ← Nat.mul_comm (2 ^ 16), ← Nat.two_pow_add_eq_or_of_lt hn, Nat.or_comm, ← Nat.mul_comm (2 ^ 32),
    ← Nat.two_pow_add_eq_or_of_lt (by omega)]
  omega

section
variable {first cl : Nat} {s : State} (hready : s.mgmt.ready = true) (hfirst : (s.focusPart first).p.first = first) (h64 : first ≠ 64)
include hready hfirst h64

/-- R311: the entry of a key is invalidated; the others stay where they are. -/
theorem translationEntry_invalidates (hcl : cl < 48) {w0 : Word} (w1 : Word) (hw : w0.getLsbD 53 = false) :
    Commanded (.translationEntry first cl w0 w1) s 0 [] fun t =>
      (t.cluster cl).store.length = ((s.focusPart first).cluster cl).store.length ∧ ∀ e ∈ (t.cluster cl).store, e.sameKey w0 = false := by
  refine commanded_of_partCommand (u := (s.focusPart first).changeStore cl (·.map fun e => if e.sameKey w0 then e.invalid else e))
    hready hfirst h64 rfl ((if_neg (Nat.not_le.2 hcl)).trans (if_pos (by rw [hw]; rfl))) rfl rfl ⟨by simp, ?_⟩
  intro e he
  simp only [State.mailboxDone_cluster, State.changeStore_store, List.mem_map] at he
  obtain ⟨d, -, rfl⟩ := he
  split_ifs with hd
  · exact TransEntry.sameKey_of_invalid d.invalid_invalid w0
  · exact Bool.not_eq_true _ ▸ hd

/-- R311: an entry that the store takes stands in it beside the valid ones. -/
theorem translationEntry_written (hcl : cl < 48) {w0 w1 : Word} (hw : w0.getLsbD 53 = true)
    (htakes : (s.focusPart first).p.takesEntry cl w0 w1 = true) :
    Commanded (.translationEntry first cl w0 w1) s 0 [] fun t =>
      (⟨w0 &&& 0x3FFFFFFFFFFFFF, w1 &&& 0x3FFFFF, 0, 0, 0⟩ : TransEntry) ∈ (t.cluster cl).store ∧
      ∀ e ∈ ((s.focusPart first).cluster cl).store, e.w0.getLsbD 53 = true → e ∈ (t.cluster cl).store := by
  refine commanded_of_partCommand (u := (s.focusPart first).changeStore cl fun l => l.filter (fun x => x.w0.getLsbD 53) ++
      [⟨w0 &&& 0x3FFFFFFFFFFFFF, w1 &&& 0x3FFFFF, 0, 0, 0⟩]) hready hfirst h64 rfl
    ((if_neg (Nat.not_le.2 hcl)).trans ((if_neg (by rw [hw]; decide)).trans (if_neg (by rw [htakes]; decide)))) rfl rfl
    ⟨?_, fun e he hv => ?_⟩
  · simp
  · simp only [State.mailboxDone_cluster, State.changeStore_store, List.mem_append, List.mem_filter]
    exact .inl ⟨he, hv⟩

/-- R311: an entry that the store does not take is refused. -/
theorem translationEntry_refused (hcl : cl < 48) {w0 w1 : Word} (hw : w0.getLsbD 53 = true)
    (htakes : (s.focusPart first).p.takesEntry cl w0 w1 = false) :
    Commanded (.translationEntry first cl w0 w1) s 1 [] fun t => t.p = (s.focusPart first).p :=
  commanded_of_partCommand (u := s.focusPart first) hready hfirst h64 rfl
    ((if_neg (Nat.not_le.2 hcl)).trans ((if_neg (by rw [hw]; decide)).trans (if_pos (by rw [htakes]; rfl)))) rfl rfl rfl

/-- R327: the counts of the entry of a key are answered and cleared. -/
theorem readHotness_clears {w0 : Word} {e : TransEntry}
    (he : ((s.focusPart first).cluster cl).store.find? (fun e => e.sameKey w0) = some e) :
    Commanded (.readHotness first cl w0) s 0 [BitVec.ofNat 64 (e.hn.toNat + e.hx.toNat * 2 ^ 16 + e.hy.toNat * 2 ^ 32)]
      fun t => ∀ x ∈ (t.cluster cl).store, x.sameKey w0 = true → x.hn = 0 ∧ x.hx = 0 ∧ x.hy = 0 := by
  refine commanded_of_partCommand (u := (s.focusPart first).onCluster cl fun c => { c with
      store := c.store.map fun x => if x.sameKey w0 then { x with hn := 0, hx := 0, hy := 0 } else x })
    hready hfirst h64 rfl (by simp only [he, e.w2_eq]) rfl rfl fun x hx hkey => ?_
  simp only [State.mailboxDone_cluster, State.cluster_onCluster_self, List.mem_map] at hx
  obtain ⟨d, -, rfl⟩ := hx
  split_ifs at hkey ⊢ with hd
  · exact ⟨rfl, rfl, rfl⟩
  · exact absurd hkey hd

theorem readHotness_refused {w0 : Word} (he : ((s.focusPart first).cluster cl).store.find? (fun e => e.sameKey w0) = none) :
    Commanded (.readHotness first cl w0) s 1 [] fun t => t.p = (s.focusPart first).p :=
  commanded_of_partCommand (u := s.focusPart first) hready hfirst h64 rfl (by simp only [he]) rfl rfl rfl

/-! The host window (R312). -/

theorem hostWindow_written {base len : Word} (hbase : base.toNat % 4096 = 0) (hlen : len.toNat % 4096 = 0) :
    Commanded (.hostWindow first base len) s 0 [] fun t => t.p = { (s.focusPart first).p with hostBase := base, hostLen := len } :=
  commanded_of_partCommand (u := { s.focusPart first with p := { (s.focusPart first).p with hostBase := base, hostLen := len } })
    hready hfirst h64 rfl (by simp [field, hbase, hlen]) rfl rfl rfl

/-- R312: a window begins and ends on a page. -/
theorem hostWindow_refused {base len : Word} (h : base.toNat % 4096 ≠ 0 ∨ len.toNat % 4096 ≠ 0) :
    Commanded (.hostWindow first base len) s 1 [] fun t => t.p = (s.focusPart first).p :=
  commanded_of_partCommand (u := s.focusPart first) hready hfirst h64 rfl (by simp [field, h]) rfl rfl rfl

end

end Sys2Proof.Machine
end

section
/-! O50: controllers, firmware and what every package is asked (R255, R258, R261, R422, R423, R425). -/

namespace Sys2Proof.Machine

open Sys2Proof.Claims

/-! Retraining (R260). -/

/-- R260: what falls due, and the free value it takes, is all that the next retraining of a channel sets. -/
theorem State.nextRetrain_eq (s : State) (ch : Nat) : ∃ n l, s.nextRetrain ch = { s with fresh := n, agenda := l } := by
  unfold State.nextRetrain
  split
  · exact ⟨s.fresh, s.agenda, rfl⟩
  · exact ⟨_, _, rfl⟩

theorem State.foldl_nextRetrain_eq (s : State) (base : Nat) (l : List Nat) :
    ∃ n a, l.foldl (fun s ch => s.nextRetrain (base + ch)) s = { s with fresh := n, agenda := a } := by
  induction l generalizing s with
  | nil => exact ⟨s.fresh, s.agenda, rfl⟩
  | cons ch l ih =>
    obtain ⟨n, a, h⟩ := s.nextRetrain_eq (base + ch)
    obtain ⟨m, b, hl⟩ := ih { s with fresh := n, agenda := a }
    exact ⟨m, b, by rw [List.foldl_cons, h, hl]⟩

/-! The error log (R261). -/

/-- R261: an entry that joins a log stands last, and nothing else moves. -/
theorem State.logEntry_last (s : State) {ctl : Nat} (h : ctl < 48) (e : LogEntry) :
    ∃ c : Ctl, s.logEntry ctl e = { s with ctls := s.ctls.set ctl c } ∧ c.log.getLast? = some e := by
  rw [State.logEntry, dif_pos h]
  exact ⟨_, rfl, List.getLast?_concat ..⟩

theorem logW0_kind {kind : Nat} (hk : kind < 16) (p : HbmPlace) (word : Bool) : (logW0 kind p word).toNat % 16 = kind := by
  simp only [logW0, BitVec.toNat_ofNat]
  split <;> omega

/-! Soft repairs (R258). -/

@[simp] theorem State.chan_onChan_self (s : State) (ch : Nat) (g : Chan → Chan) : (s.onChan ch g).chan ch = g (s.chan ch) :=
  Tab.getD_put_self ..

/-- R258: whether a channel's spare of a bank is in use or about to be. -/
def Chan.spareTaken (c : Chan) (bank : Nat) : Bool := (Tab.find bank c.remaps).isSome || c.repairs.any (·.bank == bank)

theorem Chan.spareTaken_iff (c : Chan) (bank : Nat) :
    c.spareTaken bank = true ↔ (Tab.find bank c.remaps).isSome = true ∨ ∃ r ∈ c.repairs, r.bank = bank := by
  simp [Chan.spareTaken]

theorem State.startRepair_free (s : State) {ch bank : Nat} (row : Nat) (h : (s.chan ch).spareTaken bank = false) :
    s.startRepair ch bank row = (true, s.onChan ch fun c => { c with repairs := c.repairs ++ [⟨bank, row, 0⟩] }) :=
  if_neg (by rw [← Chan.spareTaken, h]; decide)

/-- R258, R261: the refusal of a repair is the last entry of its controller's log. -/
theorem State.startRepair_taken (s : State) {ctl ch bank : Nat} (hctl : ctl < 48) (hch : ch < 8) (row : Nat)
    (h : (s.chan (8 * ctl + ch)).spareTaken bank = true) :
    ∃ (c : Ctl) (e : LogEntry), s.startRepair (8 * ctl + ch) bank row = (false, { s with ctls := s.ctls.set ctl c }) ∧
      c.log.getLast? = some e ∧ e.w0.toNat % 16 = 5 := by
  have hctl' : (8 * ctl + ch) / 8 = ctl := by omega
  obtain ⟨c, hlog, hlast⟩ := s.logEntry_last hctl
    ⟨logW0 5 (hbmPlace (chanLine (8 * ctl + ch) (rowLine bank row))) false, BitVec.ofNat 64 s.tick, 0, 0⟩
  exact ⟨c, _, (if_pos h).trans (by rw [hctl', hlog]), hlast, logW0_kind (by decide) _ _⟩

section
variable {s : State} (hready : s.mgmt.ready = true)
include hready

theorem mcMaint_refused {ctl : Nat} (h : ctl < 48) {v : Word} (hv : s.launchRuns = true ∨ v.toNat / 2 ^ 16 % 2 ^ 12 < 64) :
    Commanded (.mcMaint ctl v) s 1 [] fun t => t.ctls = s.ctls :=
  commanded_of_mailbox (u := s) hready (show execMcMaint ctl v s = _ from rfl) ((dif_pos h).trans (if_pos hv)) rfl rfl rfl

/-- R255: with no launch, `mc.maint` is written, and the retraining of the controller's channels counts from now. -/
theorem mcMaint_written {ctl : Nat} (h : ctl < 48) {v : Word} (hidle : s.launchRuns = false) (hthr : 64 ≤ v.toNat / 2 ^ 16 % 2 ^ 12) :
    Commanded (.mcMaint ctl v) s 0 [] fun t => t.ctls = s.ctls.set ctl { s.ctls[ctl] with maint := v &&& 0xFFFFFFFFF } := by
  obtain ⟨n, a, hfold⟩ := State.foldl_nextRetrain_eq { s with
    ctls := s.ctls.set ctl { s.ctls[ctl] with maint := v &&& maintMask }
    agenda := s.agenda.filter fun i => !retrains ctl i } (8 * ctl) (List.range 8)
  have hv : ¬ (s.launchRuns = true ∨ field v 27 16 < 64) := by simp only [hidle, field]; simp; omega
  exact commanded_of_mailbox hready (show execMcMaint ctl v s = _ from rfl) ((dif_pos h).trans ((if_neg hv).trans (congrArg (State.mailboxDone · 0 []) hfold))) rfl rfl rfl

theorem readErrorLog_answers {ctl : Nat} (h : ctl < 48) {index : Nat} {e : LogEntry} (he : s.ctls[ctl].log[index]? = some e) :
    Commanded (.readErrorLog ctl index) s 0
      [e.w0, e.w1, e.w2, e.w3, BitVec.ofNat 64 s.ctls[ctl].overflow, BitVec.ofNat 64 s.ctls[ctl].log.length] fun t => t.ctls = s.ctls :=
  commanded_of_mailbox (u := s) hready (show execReadErrorLog ctl index s = _ from rfl) (by simp [h, he]) rfl rfl rfl

theorem readErrorLog_refused {ctl : Nat} (h : ctl < 48) {index : Nat} (hi : s.ctls[ctl].log.length ≤ index) :
    Commanded (.readErrorLog ctl index) s 1 [] fun t => t.ctls = s.ctls :=
  commanded_of_mailbox (u := s) hready (show execReadErrorLog ctl index s = _ from rfl) (by simp [h, hi]) rfl rfl rfl

section
variable {ctl ch bank row : Nat} (hctl : ctl < 48) (hch : ch < 8) (hbank : bank < 32) (hrow : row < 49152)
include hctl hch hbank hrow

/-- R258: a repair joins those of its channel while the bank's spare is free. -/
theorem requestSoftRepair_joins (hfree : (s.chan (8 * ctl + ch)).spareTaken bank = false) :
    Commanded (.requestSoftRepair ctl ch bank row) s 0 [] fun t =>
      (t.chan (8 * ctl + ch)).repairs = (s.chan (8 * ctl + ch)).repairs ++ [⟨bank, row, 0⟩] ∧ t.ctls = s.ctls := by
  refine commanded_of_mailbox (u := s.onChan (8 * ctl + ch) fun c => { c with repairs := c.repairs ++ [⟨bank, row, 0⟩] }) hready
    (show execRequestSoftRepair ctl ch bank row s = _ from rfl)
    ((if_neg (by omega)).trans (by rw [s.startRepair_free row hfree]; rfl)) rfl rfl ⟨?_, rfl⟩
  simp

/-- R258, R261: one whose spare is taken is refused, and logged as kind 5. -/
theorem requestSoftRepair_logs (htaken : (s.chan (8 * ctl + ch)).spareTaken bank = true) :
    Commanded (.requestSoftRepair ctl ch bank row) s 1 [] fun t =>
      t.chans = s.chans ∧ ∃ e, t.ctls[ctl].log.getLast? = some e ∧ e.w0.toNat % 16 = 5 := by
  obtain ⟨c, e, hstart, hlast, hkind⟩ := s.startRepair_taken hctl hch row htaken
  refine commanded_of_mailbox (u := { s with ctls := s.ctls.set ctl c }) hready
    (show execRequestSoftRepair ctl ch bank row s = _ from rfl)
    ((if_neg (by omega)).trans (by rw [hstart]; rfl)) rfl rfl ⟨rfl, e, ?_, hkind⟩
  simpa using hlast

end

/-- R423 -/
theorem readIdentity_answers : Commanded .readIdentity s 0 s.identity fun t => t.p = s.p ∧ t.parts = s.parts :=
  commanded_of_mailbox (u := s) hready (show execReadIdentity s = _ from rfl) rfl rfl rfl ⟨rfl, rfl⟩

/-! Firmware (R422). -/

theorem stageFirmware_stages {n : Nat} (hn : s.mgmt.rollback ≤ n) :
    Commanded (.stageFirmware n true false) s 0 [] fun t => t.mgmt.staged = some n ∧ t.mgmt.rollback = s.mgmt.rollback :=
  commanded_of_mailbox (u := { s with mgmt := { s.mgmt with staged := some n } }) hready (show execStageFirmware n true false s = _ from rfl) (by simp [hn]) rfl rfl ⟨rfl, rfl⟩

theorem stageFirmware_refused {n : Nat} {b : Bool} (h : b = false ∨ n < s.mgmt.rollback) :
    Commanded (.stageFirmware n b false) s 1 [] fun t => t.mgmt.staged = s.mgmt.staged :=
  commanded_of_mailbox (u := s) hready (show execStageFirmware n b false s = _ from rfl) (by simp [h]) rfl rfl rfl

theorem stageFirmware_commits (n : Nat) (b : Bool) {m : Nat} (hm : s.mgmt.staged = some m) :
    Commanded (.stageFirmware n b true) s 0 [] fun t => t.mgmt.rollback = max s.mgmt.rollback m :=
  commanded_of_mailbox (u := { s with mgmt := { s.mgmt with rollback := max s.mgmt.rollback m } }) hready (show execStageFirmware n b true s = _ from rfl) (by simp [hm]) rfl rfl rfl

theorem stageFirmware_nothing (n : Nat) (b : Bool) (hm : s.mgmt.staged = none) :
    Commanded (.stageFirmware n b true) s 1 [] fun t => t.mgmt.rollback = s.mgmt.rollback :=
  commanded_of_mailbox (u := s) hready (show execStageFirmware n b true s = _ from rfl) (by simp [hm]) rfl rfl rfl

theorem unknownMailboxCommand_answers (n : Nat) : Commanded (.unknownMailboxCommand n) s 2 []
    fun t => t.p = s.p ∧ t.parts = s.parts ∧ t.table = s.table ∧ t.links = s.links :=
  commanded_of_mailbox (u := s) hready (show execUnknownMailboxCommand n s = _ from rfl) rfl rfl rfl ⟨rfl, rfl, rfl, rfl⟩

end

end Sys2Proof.Machine
end

section
/-! O50: the group (R369-R371, R388). -/

namespace Sys2Proof.Machine

open Sys2Proof.Claims

/-- The largest of some numbers is no larger than a bound none of them passes. -/
theorem foldl_max_le_iff {l : List Nat} {a b : Nat} : l.foldl max a ≤ b ↔ a ≤ b ∧ ∀ x ∈ l, x ≤ b := by
  induction l generalizing a with
  | nil => simp
  | cons x l ih => simp [ih, and_assoc]

/-! Dissolving (R370). -/

/-- R392, R400: a launch fault changes the partition it belongs to, and the agenda. -/
theorem State.launchFault_eq (s : State) (e : LaunchFault) : ∃ q a, s.launchFault e = { s with p := q, agenda := a } := by
  unfold State.launchFault
  dsimp only
  split_ifs
  · exact ⟨s.p, s.agenda, rfl⟩
  · exact ⟨_, s.agenda, rfl⟩
  · exact ⟨_, s.agenda, rfl⟩
  · exact ⟨_, _, rfl⟩
  · exact ⟨_, s.agenda, rfl⟩

/-- What taking a partition as the one that acts and doing something with it keep, doing it with every partition keeps. -/
theorem State.eachPart_keeps {holds : State → Prop} {s : State} {g : State → State} (hs : holds s)
    (hg : ∀ u n, holds u → holds (g (u.focusPart n))) : holds (s.eachPart g) :=
  List.foldlRecOn _ _ hs fun u hu n _ => hg u n hu

/-- R370: the link fault of every group launch changes partitions and the agenda. -/
theorem State.linkFault_eq (s : State) : ∃ q l a, s.linkFault = { s with p := q, parts := l, agenda := a } := by
  refine State.eachPart_keeps (holds := fun u => ∃ q l a, u = { s with p := q, parts := l, agenda := a })
    ⟨s.p, s.parts, s.agenda, rfl⟩ ?_
  rintro u n ⟨q, l, a, rfl⟩
  obtain ⟨q', l', hfocus⟩ := ({ s with p := q, parts := l, agenda := a } : State).focusPart_eq n
  rw [hfocus]
  split_ifs
  · obtain ⟨q'', a', hfault⟩ := State.launchFault_eq _ _
    exact ⟨q'', l', a', hfault⟩
  · exact ⟨q', l', a, rfl⟩

/-- R370: the group word without `formed`; nothing of memory or time moves. -/
theorem State.breakGroup_eq (s : State) :
    ∃ q l o, s.breakGroup = { s with group := s.group &&& ~~~0x20000, p := q, parts := l, out := o } := by
  unfold State.breakGroup
  dsimp only
  split
  · exact ⟨_, _, _, rfl⟩
  · exact ⟨_, _, s.out, rfl⟩

@[simp] theorem State.linkFault_mem (s : State) : s.linkFault.mem = s.mem := by obtain ⟨q, l, a, h⟩ := s.linkFault_eq; rw [h]
@[simp] theorem State.linkFault_attr (s : State) : s.linkFault.attr = s.attr := by obtain ⟨q, l, a, h⟩ := s.linkFault_eq; rw [h]
@[simp] theorem State.linkFault_group (s : State) : s.linkFault.group = s.group := by obtain ⟨q, l, a, h⟩ := s.linkFault_eq; rw [h]

@[simp] theorem State.breakGroup_mem (s : State) : s.breakGroup.mem = s.mem := by obtain ⟨q, l, o, h⟩ := s.breakGroup_eq; rw [h]
@[simp] theorem State.breakGroup_attr (s : State) : s.breakGroup.attr = s.attr := by obtain ⟨q, l, o, h⟩ := s.breakGroup_eq; rw [h]
@[simp] theorem State.breakGroup_tick (s : State) : s.breakGroup.tick = s.tick := by obtain ⟨q, l, o, h⟩ := s.breakGroup_eq; rw [h]; rfl
@[simp] theorem State.breakGroup_group (s : State) : s.breakGroup.group = s.group &&& ~~~0x20000 := by
  obtain ⟨q, l, o, h⟩ := s.breakGroup_eq; rw [h]

/-! Forming (R370). -/

/-- R370: a port in use that leads to a member and leaves two ticks trains. -/
theorem LinkEntry.trains_of {l : LinkEntry} {extent : Nat} {measured : Option Nat}
    (h : l.w0.getLsbD 12 = true → ∃ m, measured = some m ∧ l.w0.toNat % 256 < extent ∧ m + 2 ≤ l.w0.toNat / 2 ^ 16 % 2 ^ 12) :
    l.trains extent measured = true := by
  cases hused : l.w0.getLsbD 12 with
  | false => simp only [LinkEntry.trains, LinkEntry.used, hused]; rfl
  | true =>
    obtain ⟨m, rfl, hpeer, hlat⟩ := h hused
    have hpeer' : field l.w0 7 0 < extent := by simpa [field] using hpeer
    have hlat' : m + 2 ≤ field l.w0 27 16 := hlat
    simp [LinkEntry.trains, hpeer', hlat']

/-- R370: a port in use that trained is up. -/
theorem LinkEntry.trained_up {l : LinkEntry} {extent : Nat} {measured : Option Nat} (formed : Bool) (hused : l.w0.getLsbD 12 = true)
    (hmeasured : measured.isSome = true) (hpeer : l.w0.toNat % 256 < extent) :
    (l.trained extent measured formed).w0.getLsbD 13 = true := by
  have hpeer' : field l.w0 7 0 < extent := by simpa [field] using hpeer
  simp only [LinkEntry.trained, LinkEntry.used, hused, hmeasured, decide_eq_true hpeer']
  simp

/-- R370: the group with its links as trained: `formed`, and one TICK for all of it. -/
def State.groupFormed (s : State) (links : Vector LinkEntry 16) (members : List (Nat × Nat)) : State :=
  let t := (members.map (·.1)).foldl max s.tick + (Config.unstated s.fresh).toNat % 2 ^ 32
  ({ s with
    links := links
    fresh := s.fresh + 1
    tickOff := t - s.now / 2
    group := s.group ||| 0x20000 } : State).planIsTick

/-- R370: whether a formation succeeds. -/
def State.groupTrains (s : State) (measured members : List (Nat × Nat)) : Bool :=
  (s.links.toList.zipIdx.all fun (l, n) => l.trains (field s.group 16 8) (Tab.find n measured)) &&
    decide (32 + (members.map (·.2)).foldl max 0 ≤ s.holdLead)

/-- R370: the links after training. -/
def State.trainedLinks (s : State) (measured : List (Nat × Nat)) (ok : Bool) : Vector LinkEntry 16 :=
  Vector.ofFn fun (i : Fin 16) => s.links[i].trained (field s.group 16 8) (Tab.find i.val measured) ok

/-- R370: the end of a formation: the group set up, or dissolved. -/
def State.endForming (s : State) (measured members : List (Nat × Nat)) (ok : Bool) : State :=
  if !ok then ({ s with links := s.trainedLinks measured ok } : State).breakGroup.mailboxDone 1 []
  else (s.groupFormed (s.trainedLinks measured ok) members).mailboxDone 0 []

theorem exec_formGroup (measured members : List (Nat × Nat)) (s : State) :
    exec (.formGroup measured members) s = s.mailbox fun s => if s.launchRuns then s.mailboxDone 1 [] else
      s.endForming measured members (s.groupTrains measured members) := rfl

/-- R370: the TICK of a formed group is no smaller than the package's or a member's. -/
theorem State.groupFormed_tick (s : State) (links : Vector LinkEntry 16) (members : List (Nat × Nat)) :
    s.tick ≤ (s.groupFormed links members).tick ∧ ∀ m ∈ members, m.1 ≤ (s.groupFormed links members).tick := by
  obtain ⟨hself, hmembers⟩ := foldl_max_le_iff.1 (le_refl ((members.map (·.1)).foldl max s.tick))
  have htick : (members.map (·.1)).foldl max s.tick ≤ (s.groupFormed links members).tick := by
    have hnow : s.now / 2 ≤ s.tick := Nat.le_add_right _ _
    change _ ≤ s.now / 2 + (_ - s.now / 2)
    omega
  exact ⟨hself.trans htick, fun m hm => (hmembers m.1 (List.mem_map_of_mem hm)).trans htick⟩

/-- R369: index and extent, and the leads that go with them. -/
theorem groupWordOk_iff (w : Word) : groupWordOk w = true ↔
    w.toNat % 256 < w.toNat / 2 ^ 8 % 2 ^ 9 ∧ w.toNat / 2 ^ 8 % 2 ^ 9 ≤ 256 ∧ 32 ≤ w.toNat / 2 ^ 32 % 2 ^ 16 ∧
      (if 2 ≤ w.toNat / 2 ^ 8 % 2 ^ 9 then 256 ≤ w.toNat / 2 ^ 48 else w.toNat / 2 ^ 48 = 0) := by
  have hlt := w.isLt
  have hplat : field w 63 48 = w.toNat / 2 ^ 48 := Nat.mod_eq_of_lt (by omega)
  have hindex : field w 7 0 = w.toNat % 256 := by simp [field]
  have hextent : field w 16 8 = w.toNat / 2 ^ 8 % 2 ^ 9 := rfl
  have hlead : field w 47 32 = w.toNat / 2 ^ 32 % 2 ^ 16 := rfl
  simp only [groupWordOk, hplat, hindex, hextent, hlead, Bool.and_eq_true, decide_eq_true_eq, and_assoc]
  split_ifs <;> simp

section
variable {s : State} (hready : s.mgmt.ready = true)
include hready

theorem formGroup_refused (measured members : List (Nat × Nat)) (hruns : s.launchRuns = true) :
    Commanded (.formGroup measured members) s 1 [] fun t => t.group = s.group ∧ t.tick = s.tick :=
  commanded_of_mailbox (u := s) hready (exec_formGroup ..) (if_pos hruns) rfl rfl ⟨rfl, rfl⟩

/-- R370: a hold lead too short for the longest way to a member leaves the group dissolved. -/
theorem formGroup_fails (measured : List (Nat × Nat)) {members : List (Nat × Nat)} (hidle : s.launchRuns = false)
    (hlead : s.holdLead < 32 ∨ ∃ m ∈ members, s.holdLead < 32 + m.2) :
    Commanded (.formGroup measured members) s 1 [] fun t => t.group = s.group &&& ~~~0x20000 ∧ t.tick = s.tick := by
  have hshort : ¬ 32 + (members.map (·.2)).foldl max 0 ≤ s.holdLead := by
    intro h
    have hlen := (foldl_max_le_iff.1 (le_refl ((members.map (·.2)).foldl max 0))).2
    rcases hlead with hlead | ⟨m, hm, hlead⟩
    · omega
    · have := hlen m.2 (List.mem_map_of_mem hm)
      omega
  have hfails : s.groupTrains measured members = false := by rw [State.groupTrains, decide_eq_false hshort, Bool.and_false]
  exact commanded_of_mailbox (u := ({ s with links := s.trainedLinks measured false } : State).breakGroup) hready (exec_formGroup ..)
    ((if_neg (by rw [hidle]; decide)).trans (by rw [hfails]; rfl)) (by simp) (by simp) ⟨by simp, by simp; rfl⟩

/-- R370: a formation in which every port in use trains and the hold lead reaches every member. -/
theorem formGroup_forms {measured members : List (Nat × Nat)} (hidle : s.launchRuns = false) (hlead : 32 ≤ s.holdLead)
    (hlat : ∀ m ∈ members, 32 + m.2 ≤ s.holdLead)
    (htrain : ∀ (n : Nat) (h : n < 16), s.links[n].w0.getLsbD 12 = true → ∃ m, Tab.find n measured = some m ∧
      s.links[n].w0.toNat % 256 < s.group.toNat / 2 ^ 8 % 2 ^ 9 ∧ m + 2 ≤ s.links[n].w0.toNat / 2 ^ 16 % 2 ^ 12) :
    Commanded (.formGroup measured members) s 0 [] fun t => t.group = s.group ||| 0x20000 ∧ t.now = s.now ∧ s.tick ≤ t.tick ∧
      (∀ m ∈ members, m.1 ≤ t.tick) ∧
      ∀ (n : Nat) (h : n < 16), t.links[n].w1 = 0 ∧ (s.links[n].w0.getLsbD 12 = true → t.links[n].w0.getLsbD 13 = true) := by
  have hlong : 32 + (members.map (·.2)).foldl max 0 ≤ s.holdLead := by
    have : (members.map (·.2)).foldl max 0 ≤ s.holdLead - 32 := foldl_max_le_iff.2 ⟨Nat.zero_le _, fun x hx => by
      obtain ⟨m, hm, rfl⟩ := List.mem_map.1 hx
      have := hlat m hm
      omega⟩
    omega
  have hall : (s.links.toList.zipIdx.all fun (l, n) => l.trains (field s.group 16 8) (Tab.find n measured)) = true := by
    refine List.all_eq_true.2 fun ⟨l, n⟩ hln => ?_
    obtain ⟨hn, hl⟩ := List.mem_zipIdx' hln
    have hn' : n < 16 := by simpa using hn
    have hl' : l = s.links[n] := by simpa using hl
    exact LinkEntry.trains_of (hl' ▸ htrain n hn')
  have hok : s.groupTrains measured members = true := by rw [State.groupTrains, hall, decide_eq_true hlong]; rfl
  obtain ⟨htick, hmembers⟩ := s.groupFormed_tick (s.trainedLinks measured true) members
  refine commanded_of_mailbox (u := s.groupFormed (s.trainedLinks measured true) members) hready (exec_formGroup ..)
    ((if_neg (by rw [hidle]; decide)).trans (by rw [hok]; rfl)) rfl rfl ⟨rfl, rfl, htick, hmembers, fun n hn => ?_⟩
  have hlink : ((s.groupFormed (s.trainedLinks measured true) members).mailboxDone 0 []).links[n] =
      s.links[n].trained (field s.group 16 8) (Tab.find n measured) true := by
    rw [State.mailboxDone_links]
    simp [State.groupFormed, State.planIsTick, State.trainedLinks]
  rw [hlink]
  refine ⟨rfl, fun hused => ?_⟩
  obtain ⟨m, hm, hpeer, -⟩ := htrain n hn hused
  exact LinkEntry.trained_up true hused (by rw [hm]; rfl) hpeer

theorem dissolveGroup_dissolves : Commanded .dissolveGroup s 0 [] fun t => t.group = s.group &&& ~~~0x20000 :=
  commanded_of_mailbox (u := s.linkFault.breakGroup) hready (show execDissolveGroup s = _ from rfl) rfl (by simp) (by simp) (by simp)

/-! The tables (R369, R371, R388). -/

section
variable {port : Nat} (h : port < 16) {w : Word}
include h

/-- R371: no entry is written while the group is formed, or with a latency out of range. -/
theorem linkTableEntry_refused (hbad : s.group.getLsbD 17 = true ∨ (w.getLsbD 12 = true ∧ w.toNat / 2 ^ 16 % 2 ^ 12 < 64)) :
    Commanded (.linkTableEntry port w) s 1 [] fun t => t.links = s.links :=
  commanded_of_mailbox (u := s) hready (show execLinkTableEntry port w s = _ from rfl) ((dif_pos h).trans (if_pos hbad)) rfl rfl rfl

theorem linkTableEntry_written (hformed : s.group.getLsbD 17 = false) (hlat : w.getLsbD 12 = true → 64 ≤ w.toNat / 2 ^ 16 % 2 ^ 12) :
    Commanded (.linkTableEntry port w) s 0 [] fun t =>
      t.links = s.links.set port { s.links[port] with w0 := (s.links[port].w0 &&& 0xFFFFFFFFF000E000) ||| (w &&& 0x0FFF1FFF) } := by
  have hgood : ¬ (s.formed = true ∨ (w.getLsbD 12 = true ∧ field w 27 16 < 64)) := by
    rintro (hf | ⟨hused, hlt⟩)
    · exact Bool.false_ne_true (hformed.symm.trans hf)
    · exact absurd (hlat hused) (Nat.not_le.2 hlt)
  exact commanded_of_mailbox hready (show execLinkTableEntry port w s = _ from rfl) ((dif_pos h).trans (if_neg hgood)) rfl rfl rfl

end

theorem groupWord_written {w : Word} (hidle : s.launchRuns = false) (hok : groupWordOk w = true) :
    Commanded (.groupWord w) s 0 [] fun t => t.group = (s.group &&& 0xFFFE0000) ||| (w &&& 0xFFFFFFFF0001FFFF) :=
  commanded_of_mailbox hready (show execGroupWord w s = _ from rfl) (if_neg (by rw [hidle, hok]; decide)) rfl rfl rfl

theorem groupWord_refused {w : Word} (hbad : s.launchRuns = true ∨ ¬ groupWordOk w = true) :
    Commanded (.groupWord w) s 1 [] fun t => t.group = s.group :=
  commanded_of_mailbox (u := s) hready (show execGroupWord w s = _ from rfl) (if_pos (by simpa using hbad)) rfl rfl rfl

theorem peerAddress_written {index : Nat} (h : index < 256) (v : Word) :
    Commanded (.peerAddress index v) s 0 [] fun t => t.peers = s.peers.set index v :=
  commanded_of_mailbox hready (show execPeerAddress index v s = _ from rfl) (dif_pos h) rfl rfl rfl

theorem peerAddress_refused {index : Nat} (h : 256 ≤ index) (v : Word) :
    Commanded (.peerAddress index v) s 1 [] fun t => t.peers = s.peers :=
  commanded_of_mailbox (u := s) hready (show execPeerAddress index v s = _ from rfl) (dif_neg (Nat.not_lt.2 h)) rfl rfl rfl

end

end Sys2Proof.Machine
end

section
/-! O50 settled. -/

namespace Sys2Proof.Proofs

open Sys2Proof.Machine Sys2Proof.Claims

/-- Settles O50: each clause is the lemma about its command. -/
theorem mailboxCommands : Obligations.MailboxCommands := by
  unfold Obligations.MailboxCommands
  intro s hready
  refine ⟨?partition, fun ctl hctl => ⟨?maint, ?errorLog, ?repair⟩, readIdentity_answers hready, fun n b => ?firmware,
    fun measured members => ⟨formGroup_refused hready measured members, formGroup_fails hready measured, formGroup_forms hready⟩,
    dissolveGroup_dissolves hready, fun port w h => ⟨linkTableEntry_refused hready h, linkTableEntry_written hready h⟩, ?groupWord,
    fun index v => ⟨fun h => peerAddress_written hready h v, fun h => peerAddress_refused hready h v⟩⟩
  case partition =>
    intro first f hfirst h64
    refine ⟨?homing, ?translation, fun base len => ⟨hostWindow_written hready hfirst h64, hostWindow_refused hready hfirst h64⟩⟩
    case homing =>
      intro n v h u
      refine ⟨fun hactive => homingEntry_refused hready hfirst h64 hactive n v, fun hidle hlist hclus hlen => ?_⟩
      refine commanded_mono (homingEntry_written hready hfirst h64 hidle h (homingOk_of hlist hclus hlen)) fun t ht =>
        ⟨?_, fun hne c e he => ?_⟩
      · rw [ht, Part.setHoming_homing _ h]; rfl
      · rw [State.cluster, ht] at he
        exact Part.setHoming_invalidates _ h hne he
    case translation =>
      intro cl w0 w1 hcl l key
      have hkey : key = fun e => e.sameKey w0 := funext fun e => (e.sameKey_eq w0).symm
      rw [hkey]
      refine ⟨translationEntry_invalidates hready hfirst h64 hcl w1, fun hw hroom hnew hframe hreg => ?_, fun hw ⟨e, he, hsame⟩ => ?_,
        fun e => readHotness_clears hready hfirst h64, readHotness_refused hready hfirst h64⟩
      · exact translationEntry_written hready hfirst h64 hcl hw (Part.takesEntry_of hroom hnew hframe hreg)
      · exact translationEntry_refused hready hfirst h64 hcl hw (Part.takesEntry_of_taken he hsame)
  case maint => exact fun v => ⟨mcMaint_refused hready hctl, mcMaint_written hready hctl⟩
  case errorLog => exact fun index => ⟨fun e => readErrorLog_answers hready hctl, readErrorLog_refused hready hctl⟩
  case repair =>
    intro ch bank row hch hbank hrow c taken
    have htaken : taken ↔ c.spareTaken bank = true := (c.spareTaken_iff bank).symm
    exact ⟨fun hfree => requestSoftRepair_joins hready hctl hch hbank hrow (eq_false_of_ne_true fun h => hfree (htaken.2 h)),
      fun h => requestSoftRepair_logs hready hctl hch hbank hrow (htaken.1 h)⟩
  case firmware =>
    exact ⟨stageFirmware_stages hready, stageFirmware_refused hready, fun m => stageFirmware_commits hready n b,
      stageFirmware_nothing hready n b, unknownMailboxCommand_answers hready n⟩
  case groupWord =>
    exact fun w => ⟨fun hidle hok => groupWord_written hready hidle ((groupWordOk_iff w).2 hok),
      fun hbad => groupWord_refused hready (hbad.imp_right fun hnot h => hnot ((groupWordOk_iff w).1 h))⟩

end Sys2Proof.Proofs
end

section
/-! O47: packets, posts and tasks at their destination. First the tables by number, and what a write of a whole word leaves (R16, R240,
R243, R348, R356). -/

namespace Sys2Proof.Machine

open Sys2Proof.Claims

/-! Tables by number. -/

section
variable {α : Type} {n : Nat} {e : α} {pre post : Tab α}

theorem Tab.find_put_ne {k j : Nat} (h : j ≠ k) (a : α) (t : Tab α) : Tab.find j (Tab.put k a t) = Tab.find j t := by
  induction t with
  | nil => simp [Tab.put, Tab.find, Ne.symm h]
  | cons x t ih =>
    obtain ⟨i, b⟩ := x
    rw [Tab.put]
    split_ifs with hlt heq
    · simp [Tab.find, Ne.symm h]
    · simp [Tab.find, Ne.symm h, ← heq]
    · simp only [Tab.find, ih]

theorem Tab.find_middle (h : ∀ x ∈ pre, x.1 ≠ n) : Tab.find n (pre ++ (n, e) :: post) = some e := by
  induction pre with
  | nil => simp [Tab.find]
  | cons x pre ih =>
    obtain ⟨hx, hpre⟩ := List.forall_mem_cons.1 h
    rw [List.cons_append, Tab.find, if_neg hx, ih hpre]

theorem Tab.drop_middle (h : ∀ x ∈ pre, x.1 ≠ n) : Tab.drop n (pre ++ (n, e) :: post) = pre ++ post := by
  induction pre with
  | nil => simp [Tab.drop]
  | cons x pre ih =>
    obtain ⟨hx, hpre⟩ := List.forall_mem_cons.1 h
    rw [List.cons_append, Tab.drop, if_neg hx, ih hpre, List.cons_append]

/-- With rising keys an entry is replaced where it stands. -/
theorem Tab.put_middle (h : ∀ x ∈ pre, x.1 < n) (a : α) : Tab.put n a (pre ++ (n, e) :: post) = pre ++ (n, a) :: post := by
  induction pre with
  | nil => simp [Tab.put]
  | cons x pre ih =>
    obtain ⟨hx, hpre⟩ := List.forall_mem_cons.1 h
    rw [List.cons_append, Tab.put, if_neg (by omega), if_neg (by omega), ih hpre, List.cons_append]

end

/-- What leaves the matching tables alone in one cluster leaves them alone in all. -/
theorem State.mtab_onCluster {g : ClusterPart → ClusterPart} (hg : ∀ k, (g k).mtab = k.mtab) (s : State) (cl c : Nat) :
    ((s.onCluster cl g).cluster c).mtab = (s.cluster c).mtab := by
  by_cases h : c = cl
  · subst h; rw [State.cluster_onCluster_self, hg]
  · simp only [State.cluster, State.onCluster, Tab.getD, Tab.find_put_ne h]

/-! A word is written. -/

/-- R348, R356, R357: what a write wakes is on the agenda, and in the monitors of threads. -/
theorem State.noted_eq (s : State) (flat : Nat) : ∃ a c l, s.noted flat = { s with agenda := a, cur := c, threads := l } := by
  obtain ⟨a, hnap⟩ : ∃ a, (s.nappers flat).foldl (fun s t =>
      s.dueAt (s.now + figure t.loc flat * s.dilOf t.part / 2) rankDone (.ev (.napWake t.uid))) s = { s with agenda := a } := by
    refine List.foldlRecOn (motive := fun (u : State) => ∃ a, u = { s with agenda := a }) _ _ ⟨s.agenda, rfl⟩ ?_
    rintro u ⟨a, rfl⟩ t -
    exact ⟨_, rfl⟩
  simp only [State.noted, hnap, State.wakeTurn, State.wakeList]
  split_ifs
  · exact ⟨a, _, _, rfl⟩
  · exact ⟨a, _, _, rfl⟩
  · exact ⟨_, _, _, rfl⟩

/-- R243: a write marks tag-table entries of the focused partition only. -/
theorem State.dirtySlot_cases (s : State) (flat : Nat) : s.dirtySlot flat = s ∨
    ∃ cl g, s.dirtySlot flat = s.onCluster cl g ∧ ∀ k, (g k).mtab = k.mtab := by
  unfold State.dirtySlot
  split
  · dsimp only
    split
    · exact .inl rfl
    · split
      · split
        · exact .inr ⟨_, _, rfl, fun _ => rfl⟩
        · exact .inl rfl
      · exact .inl rfl
  · exact .inl rfl

theorem State.dirtySlot_eq (s : State) (flat : Nat) : ∃ q, s.dirtySlot flat = { s with p := q } ∧ q.run = s.p.run ∧
    ∀ k, (Tab.getD .rest k q.clusters).mtab = (s.cluster k).mtab := by
  rcases s.dirtySlot_cases flat with h | ⟨cl, g, h, hg⟩
  · exact ⟨s.p, h, rfl, fun _ => rfl⟩
  · exact ⟨(s.onCluster cl g).p, h, rfl, State.mtab_onCluster hg s cl⟩

theorem State.setAttr_eq (s : State) (flat : Nat) (b : Byte) : s.setAttr flat b = { s with attr := (s.setAttr flat b).attr } := by
  unfold State.setAttr; split <;> rfl

section
variable (s : State) (flat : Nat) (w : Word)

/-- A whole word that is written full. -/
theorem State.storeWord_eq : ∃ q a c l, s.storeWord flat w true = { s with
      mem := s.mem.writeN flat 8 w.toNat
      attr := (s.setAttr flat 0).attr
      p := q
      agenda := a
      cur := c
      threads := l } ∧ q.run = s.p.run ∧ ∀ k, (Tab.getD .rest k q.clusters).mtab = (s.cluster k).mtab := by
  have hset : ({ s with mem := s.mem.writeN flat 8 w.toNat } : State).setAttr flat 0 =
      { s with mem := s.mem.writeN flat 8 w.toNat, attr := (s.setAttr flat 0).attr } := by
    rw [State.setAttr_eq]; unfold State.setAttr; split <;> rfl
  obtain ⟨q, hdirty, hrun, hmtab⟩ :=
    State.dirtySlot_eq { s with mem := s.mem.writeN flat 8 w.toNat, attr := (s.setAttr flat 0).attr } flat
  obtain ⟨a, c, l, hnoted⟩ :=
    State.noted_eq { s with mem := s.mem.writeN flat 8 w.toNat, attr := (s.setAttr flat 0).attr, p := q } flat
  refine ⟨q, a, c, l, ?_, hrun, hmtab⟩
  rw [State.storeWord, State.touched, if_pos rfl, hset, hdirty, hnoted]

@[simp] theorem State.storeWord_mem : (s.storeWord flat w true).mem = s.mem.writeN flat 8 w.toNat := by
  obtain ⟨q, a, c, l, h, -⟩ := s.storeWord_eq flat w; rw [h]
@[simp] theorem State.storeWord_attr : (s.storeWord flat w true).attr = (s.setAttr flat 0).attr := by
  obtain ⟨q, a, c, l, h, -⟩ := s.storeWord_eq flat w; rw [h]
@[simp] theorem State.storeWord_now : (s.storeWord flat w true).now = s.now := by
  obtain ⟨q, a, c, l, h, -⟩ := s.storeWord_eq flat w; rw [h]
@[simp] theorem State.storeWord_run : (s.storeWord flat w true).p.run = s.p.run := by
  obtain ⟨q, a, c, l, h, hrun, -⟩ := s.storeWord_eq flat w; rw [h]; exact hrun
@[simp] theorem State.storeWord_mtab (k : Nat) : ((s.storeWord flat w true).cluster k).mtab = (s.cluster k).mtab := by
  obtain ⟨q, a, c, l, h, -, hmtab⟩ := s.storeWord_eq flat w; rw [h]; exact hmtab k

end

section
variable {s f t : State} {flat : Nat} {w : Word}

/-- A word reads back as it was written, and nothing else changes. -/
theorem word_of_storeWord (hf : f.mem = s.mem) (hwf : s.mem.wf = true) (ht : t.mem = (f.storeWord flat w true).mem) :
    OnlyBytes s t flat 8 ∧ t.word flat = w := by
  rw [State.storeWord_mem, hf] at ht
  refine ⟨fun b hb => by rw [ht, Memory.read_writeN_outside hwf hb], ?_⟩
  rw [State.word, ht, Memory.readN_writeN hwf]
  apply BitVec.eq_of_toNat_eq
  have := w.isLt
  simp only [BitVec.toNat_ofNat]
  omega

/-- R16: and it is full. -/
theorem isFull_of_storeWord (hf : f.attr = s.attr) (hwf : s.attr.wf = true) (hflat : flat + 8 ≤ flatHostBase)
    (ht : t.attr = (f.storeWord flat w true).attr) : t.isFull flat = true := by
  have hlt : flat < flatHostBase := by omega
  have hattr : t.attrOf flat = 0 := by
    rw [State.attrOf, if_pos hlt, ht, State.storeWord_attr, State.setAttr, if_pos hlt]
    exact (Memory.read_write (hf ▸ hwf)).trans (if_pos rfl)
  rw [State.isFull, State.poisoned, hattr]
  rfl

end

end Sys2Proof.Machine
end

section
/-! O47: packets at their destination (R363, R402). -/

namespace Sys2Proof.Machine

open Sys2Proof.Claims

/-! A dropped packet (R402). -/

theorem ringFlush_eq (l : List (List Word)) (s : State) :
    ∃ r n w o, ringFlush s l = { s with ring := r, ringProd := n, ringWait := w, out := o } := by
  induction l generalizing s with
  | nil => exact ⟨_, _, _, _, rfl⟩
  | cons w l ih =>
    unfold ringFlush
    split
    · exact ⟨_, _, _, _, rfl⟩
    · dsimp only
      split
      · obtain ⟨r, n, w, o, h⟩ := ih _; exact ⟨r, n, w, o, h⟩
      · obtain ⟨r, n, w, o, h⟩ := ih _; exact ⟨r, n, w, o, h⟩

@[simp] theorem State.report_mem (s : State) (kind va home : Nat) : (s.report kind va home).mem = s.mem := by
  unfold State.report State.ringWrite
  dsimp only
  generalize s.ringWait ++ _ = l
  obtain ⟨r, n, w, o, h⟩ := ringFlush_eq l s
  rw [h]
@[simp] theorem State.report_p (s : State) (kind va home : Nat) : (s.report kind va home).p = s.p := by
  unfold State.report State.ringWrite
  dsimp only
  generalize s.ringWait ++ _ = l
  obtain ⟨r, n, w, o, h⟩ := ringFlush_eq l s
  rw [h]

/-- R402: what a dropped packet leaves: a count and a notice. -/
theorem State.dropPacket_spec (s : State) (p : Packet) : (s.dropPacket p).mem = s.mem ∧
    ((s.dropPacket p).cluster p.dest).mtab = (s.cluster p.dest).mtab ∧ ((s.dropPacket p).cluster p.dest).notice.getLsbD 8 = true ∧
    (s.dropPacket p).p.counters[14] = s.p.counters[14] + 1 := by
  unfold State.dropPacket
  refine ⟨by simp [State.count], ?_, by simp, by simp [State.onCluster, State.count]⟩
  refine (State.mtab_onCluster (by intro; rfl) _ _ _).trans ?_
  rw [State.cluster, State.report_p]
  rfl

/-! The words of a matched packet (R363). -/

/-- The rest of a packet comes a word at a time. -/
def State.deliverRest (s : State) (p : Packet) (n : Nat) (rest : List Word) : State :=
  if rest.isEmpty then s else s.deliverFrom { p with off := p.off + 1, words := rest } n (s.now + s.p.run.d)

section
variable (s : State) (p : Packet) (n : Nat) (rest : List Word)

@[simp] theorem State.deliverRest_mem : (s.deliverRest p n rest).mem = s.mem := by unfold State.deliverRest; split <;> rfl
@[simp] theorem State.deliverRest_attr : (s.deliverRest p n rest).attr = s.attr := by unfold State.deliverRest; split <;> rfl
@[simp] theorem State.deliverRest_cluster (c : Nat) : (s.deliverRest p n rest).cluster c = s.cluster c := by
  unfold State.deliverRest; split <;> rfl
theorem State.agenda_subset_deliverRest : s.agenda ⊆ (s.deliverRest p n rest).agenda := by
  unfold State.deliverRest
  split
  · exact fun _ h => h
  · exact State.agenda_subset_dueAt s _ _ _

end

theorem due_deliverRest (s : State) (p : Packet) (n : Nat) {rest : List Word} (h : rest ≠ []) :
    Due (s.deliverRest p n rest) (s.now + s.p.run.d)
      (.packetArrives { p with phase := .deliver n, off := p.off + 1, words := rest }) := by
  rw [State.deliverRest, if_neg (by simpa using h)]
  exact due_dueAt ..

/-- The entry counts its word: with the last one it is free, and fires. -/
def State.countWord (s : State) (p : Packet) (n : Nat) (e : MatchEntry) : State :=
  if e.got + 1 = e.nword then
    let u := s.onMatch p.dest fun m => { m with entries := Tab.drop n m.entries }
    u.dueIn u.p.run.d (rankEngine + p.srcKey) (.packetArrives { p with phase := .fire e.act e.target e.nword, words := [] })
  else s.onMatch p.dest fun m => { m with entries := Tab.put n { e with got := e.got + 1 } m.entries }

@[simp] theorem State.onMatch_mtab (s : State) (c : Nat) (g : MatchTable → MatchTable) :
    ((s.onMatch c g).cluster c).mtab = g (s.cluster c).mtab := by
  rw [State.onMatch, State.cluster_onCluster_self]

section
variable (s : State) (p : Packet) (n : Nat) (e : MatchEntry)

@[simp] theorem State.countWord_mem : (s.countWord p n e).mem = s.mem := by unfold State.countWord; split <;> rfl
@[simp] theorem State.countWord_attr : (s.countWord p n e).attr = s.attr := by unfold State.countWord; split <;> rfl
@[simp] theorem State.countWord_now : (s.countWord p n e).now = s.now := by unfold State.countWord; split <;> rfl
@[simp] theorem State.countWord_run : (s.countWord p n e).p.run = s.p.run := by unfold State.countWord; split <;> rfl
theorem State.countWord_last (h : e.got + 1 = e.nword) :
    ((s.countWord p n e).cluster p.dest).mtab.entries = Tab.drop n (s.cluster p.dest).mtab.entries := by
  rw [State.countWord, if_pos h]
  exact congrArg MatchTable.entries (State.onMatch_mtab s p.dest fun m => { m with entries := Tab.drop n m.entries })
theorem due_countWord (h : e.got + 1 = e.nword) : Due (s.countWord p n e) (s.now + s.p.run.d)
    (.packetArrives { p with phase := .fire e.act e.target e.nword, words := [] }) := by
  rw [State.countWord, if_pos h]
  exact due_dueAt ..
theorem State.countWord_more (h : e.got + 1 ≠ e.nword) : ((s.countWord p n e).cluster p.dest).mtab.entries =
    Tab.put n { e with got := e.got + 1 } (s.cluster p.dest).mtab.entries := by
  rw [State.countWord, if_neg h, State.onMatch_mtab]

end

section
variable {s f : State} {p : Packet} {n flat : Nat} {e : MatchEntry} {w : Word} {rest : List Word} {pre post : Tab MatchEntry}

/-- R363: a word of a packet goes to its place in the buffer of its entry. -/
theorem State.deliverWord_eq (hfind : Tab.find n (s.cluster p.dest).mtab.entries = some e) (htag : e.tag = p.tag) (hoff : p.off < e.nword)
    (hwords : p.words = w :: rest) (hflat : s.clusterWord p.dest (e.buf + BitVec.ofNat 64 (8 * p.off)) = .ok flat) :
    s.deliverWord p n = ((s.storeWord flat w true).countWord p n e).deliverRest p n rest := by
  have hfits : ¬ (e.tag ≠ p.tag ∨ e.nword ≤ p.off) := by simp [htag, hoff]
  simp only [State.deliverWord, hwords, hfind, if_neg hfits, hflat, State.countWord]
  split <;> rfl

/-- R363: a packet finds the entry of its tag. -/
theorem MatchTable.byTag_middle {m : MatchTable} (h : m.entries = pre ++ (n, e) :: post) (hpre : ∀ x ∈ pre, x.2.tag ≠ p.tag)
    (htag : e.tag = p.tag) : m.byTag p.tag = some n := by
  have hnone : pre.find? (fun x => x.2.tag == p.tag) = none := List.find?_eq_none.2 fun x hx => by simpa using hpre x hx
  simp [MatchTable.byTag, h, List.find?_append, hnone, htag]

theorem MatchTable.byTag_none {m : MatchTable} {tag : BitVec 16} (h : ∀ x ∈ m.entries, x.2.tag ≠ tag) : m.byTag tag = none := by
  rw [MatchTable.byTag, List.find?_eq_none.2 fun x hx => by simpa using h x hx, Option.map_none]

/-- What a packet leaves that is dropped. -/
theorem packetArrives_drops (hf : s.focusPart p.first = f) (hexec : exec (.packetArrives p) s = .next (f.dropPacket p)) :
    ∃ t, exec (.packetArrives p) s = .next t ∧ t.mem = s.mem ∧ (t.cluster p.dest).mtab = (f.cluster p.dest).mtab ∧
      (t.cluster p.dest).notice.getLsbD 8 = true ∧ t.p.counters[14] = f.p.counters[14] + 1 := by
  obtain ⟨hmem, hrest⟩ := f.dropPacket_spec p
  exact ⟨_, hexec, by rw [hmem, ← hf, State.focusPart_mem], hrest⟩

section
variable (hf : s.focusPart p.first = f) (hfirst : f.p.first = p.first) (hdest : p.dest < 48)
include hf hfirst hdest

theorem exec_packetArrives_fenced (hphase : p.phase = .arrive) (hfenced : f.allFenced p.dest = true) :
    exec (.packetArrives p) s = .next (f.dropPacket p) := by
  change execPacketArrives p s = _
  simp [execPacketArrives, hf, hfirst, hdest, hphase, hfenced]

theorem exec_packetArrives_unmatched (hphase : p.phase = .arrive) (hopen : f.allFenced p.dest = false)
    (hbyTag : (f.cluster p.dest).mtab.byTag p.tag = none) : exec (.packetArrives p) s =
      if (f.cluster p.dest).mtab.held.length < f.p.heldSize then .next (f.onMatch p.dest fun m => { m with held := m.held ++ [p] })
      else .next (f.dropPacket p) := by
  change execPacketArrives p s = _
  simp [execPacketArrives, hf, hfirst, hdest, hphase, hopen, hbyTag]

theorem exec_packetArrives_matched (hphase : p.phase = .arrive) (hopen : f.allFenced p.dest = false)
    (hbyTag : (f.cluster p.dest).mtab.byTag p.tag = some n) : exec (.packetArrives p) s = .next (f.deliverWord p n) := by
  change execPacketArrives p s = _
  simp [execPacketArrives, hf, hfirst, hdest, hphase, hopen, hbyTag]

/-- R363: a packet without an entry is held while the buffer has room. -/
theorem packetArrives_held (hphase : p.phase = .arrive) (hopen : f.allFenced p.dest = false)
    (htags : ∀ x ∈ (f.cluster p.dest).mtab.entries, x.2.tag ≠ p.tag) (hroom : (f.cluster p.dest).mtab.held.length < 16 * f.p.units) :
    ∃ t, exec (.packetArrives p) s = .next t ∧ t.mem = s.mem ∧
      (t.cluster p.dest).mtab = { (f.cluster p.dest).mtab with held := (f.cluster p.dest).mtab.held ++ [p] } :=
  ⟨_, (exec_packetArrives_unmatched hf hfirst hdest hphase hopen (MatchTable.byTag_none htags)).trans (if_pos hroom),
    by rw [← hf]; exact State.focusPart_mem .., State.onMatch_mtab ..⟩

/-- R363: a packet whose tag an entry holds: its first word is in the buffer, and the entry counts it, or fires. -/
theorem packetArrives_matched (hphase : p.phase = .arrive) (hopen : f.allFenced p.dest = false)
    (hentries : (f.cluster p.dest).mtab.entries = pre ++ (n, e) :: post) (hpre : ∀ x ∈ pre, x.1 ≠ n ∧ x.2.tag ≠ p.tag)
    (htag : e.tag = p.tag) (hwords : p.words = w :: rest) (hoff : p.off < e.nword)
    (hflat : f.clusterWord p.dest (e.buf + BitVec.ofNat 64 (8 * p.off)) = .ok flat) (hin : flat + 8 ≤ flatHostBase)
    (hmem : s.mem.wf = true) (hattr : s.attr.wf = true)
    (hsorted : (f.cluster p.dest).mtab.entries.Pairwise fun x y => x.1 < y.1) :
    ∃ t, exec (.packetArrives p) s = .next t ∧ OnlyBytes s t flat 8 ∧ t.word flat = w ∧ t.isFull flat = true ∧
      (e.got + 1 = e.nword → (t.cluster p.dest).mtab.entries = pre ++ post ∧ Due t (s.now + f.p.run.d)
        (.packetArrives { p with phase := .fire e.act e.target e.nword, words := [] })) ∧
      (e.got + 1 ≠ e.nword → (t.cluster p.dest).mtab.entries = pre ++ (n, { e with got := e.got + 1 }) :: post) ∧
      (rest ≠ [] → Due t (s.now + f.p.run.d)
        (.packetArrives { p with phase := .deliver n, off := p.off + 1, words := rest })) := by
  have hfmem : f.mem = s.mem := by rw [← hf, State.focusPart_mem]
  have hfattr : f.attr = s.attr := by rw [← hf, State.focusPart_attr]
  have hfnow : f.now = s.now := by rw [← hf, State.focusPart_now]
  have hne : ∀ x ∈ pre, x.1 ≠ n := fun x hx => (hpre x hx).1
  have hlt : ∀ x ∈ pre, x.1 < n := by
    rw [hentries, List.pairwise_append] at hsorted
    exact fun x hx => hsorted.2.2 x hx (n, e) List.mem_cons_self
  have hbyTag := MatchTable.byTag_middle hentries (fun x hx => (hpre x hx).2) htag
  have hexec := exec_packetArrives_matched hf hfirst hdest hphase hopen hbyTag
  rw [State.deliverWord_eq (by rw [hentries, Tab.find_middle hne]) htag hoff hwords hflat] at hexec
  generalize hu : (f.storeWord flat w true).countWord p n e = u at hexec
  have hunow : u.now = s.now := by rw [← hu, State.countWord_now, State.storeWord_now, hfnow]
  have hurun : u.p.run = f.p.run := by rw [← hu, State.countWord_run, State.storeWord_run]
  have humem : (u.deliverRest p n rest).mem = (f.storeWord flat w true).mem := by rw [State.deliverRest_mem, ← hu, State.countWord_mem]
  have huattr : (u.deliverRest p n rest).attr = (f.storeWord flat w true).attr := by rw [State.deliverRest_attr, ← hu, State.countWord_attr]
  obtain ⟨honly, hword⟩ := word_of_storeWord hfmem hmem humem
  refine ⟨_, hexec, honly, hword, isFull_of_storeWord hfattr hattr hin huattr, fun hlast => ⟨?_, ?_⟩, fun hmore => ?_, fun hrest => ?_⟩
  · rw [State.deliverRest_cluster, ← hu, State.countWord_last _ _ _ _ hlast, State.storeWord_mtab, hentries, Tab.drop_middle hne]
  · have hdue := due_countWord (f.storeWord flat w true) p n e hlast
    rw [hu, State.storeWord_now, State.storeWord_run, hfnow] at hdue
    exact due_mono hdue (State.agenda_subset_deliverRest ..)
  · rw [State.deliverRest_cluster, ← hu, State.countWord_more _ _ _ _ hmore, State.storeWord_mtab, hentries, Tab.put_middle hlt]
  · rw [← hunow, ← hurun]
    exact due_deliverRest u p n hrest

/-- R363: an entry that fires with a flag word fills it with the count. -/
theorem packetArrives_fires {target : Word} {count : Nat} (hphase : p.phase = .fire false target count)
    (hflat : f.clusterWord p.dest target = .ok flat) (hin : flat + 8 ≤ flatHostBase) (hmem : s.mem.wf = true) (hattr : s.attr.wf = true) :
    ∃ t, exec (.packetArrives p) s = .next t ∧ OnlyBytes s t flat 8 ∧ t.word flat = BitVec.ofNat 64 count ∧ t.isFull flat = true := by
  have hexec : exec (.packetArrives p) s = .next (f.storeWord flat (BitVec.ofNat 64 count) true) := by
    change execPacketArrives p s = _
    simp [execPacketArrives, hf, hfirst, hdest, hphase, State.fireEntry, hflat]
  obtain ⟨honly, hword⟩ := word_of_storeWord (f := f) (t := f.storeWord flat (BitVec.ofNat 64 count) true)
    (by rw [← hf, State.focusPart_mem]) hmem rfl
  exact ⟨_, hexec, honly, hword, isFull_of_storeWord (by rw [← hf, State.focusPart_attr]) hattr hin rfl⟩

end
end

end Sys2Proof.Machine
end

section
/-! O47: a post at its board and back (R381, Table 16.5). -/

namespace Sys2Proof.Machine

open Sys2Proof.Claims

/-! The thread that acts. -/

theorem State.storeThread_eq (s : State) : ∃ c l, s.storeThread = { s with cur := c, threads := l } := by
  unfold State.storeThread
  split
  · exact ⟨s.cur, s.threads, rfl⟩
  · exact ⟨_, _, rfl⟩

/-- The thread of a number acts; another goes back to its place. -/
def State.takeThread (s : State) (uid : Nat) : State :=
  if s.cur.uid = uid then s else match s.storeThread.threads.find? (·.uid = uid) with
    | some t => { s.storeThread with cur := t, threads := s.storeThread.threads.filter (·.uid ≠ uid) }
    | none => s.storeThread

theorem State.focusThread_takeThread (s : State) (uid : Nat) : s.focusThread uid =
    if (s.takeThread uid).cur.uid = 0 then s.takeThread uid else (s.takeThread uid).focusPart (s.takeThread uid).cur.part := rfl

theorem State.takeThread_eq (s : State) (uid : Nat) : ∃ c l, s.takeThread uid = { s with cur := c, threads := l } := by
  obtain ⟨c, l, h⟩ := s.storeThread_eq
  unfold State.takeThread
  split
  · exact ⟨s.cur, s.threads, rfl⟩
  · rw [h]; split <;> exact ⟨_, _, rfl⟩

/-- Taking a thread as the one that acts moves threads and partitions only. -/
theorem State.focusThread_eq (s : State) (uid : Nat) :
    ∃ c l q r, s.focusThread uid = { s with cur := c, threads := l, p := q, parts := r } := by
  obtain ⟨c, l, h⟩ := s.takeThread_eq uid
  obtain ⟨q, r, hp⟩ := (s.takeThread uid).focusPart_eq (s.takeThread uid).cur.part
  rw [State.focusThread_takeThread]
  split
  · exact ⟨c, l, s.p, s.parts, h⟩
  · exact ⟨c, l, q, r, by rw [hp, h]⟩

@[simp] theorem State.focusThread_mem (s : State) (uid : Nat) : (s.focusThread uid).mem = s.mem := by
  obtain ⟨c, l, q, r, h⟩ := s.focusThread_eq uid; rw [h]
@[simp] theorem State.focusThread_now (s : State) (uid : Nat) : (s.focusThread uid).now = s.now := by
  obtain ⟨c, l, q, r, h⟩ := s.focusThread_eq uid; rw [h]
@[simp] theorem State.focusThread_goto (s : State) (uid : Nat) : (s.focusThread uid).goto = s.goto := by
  obtain ⟨c, l, q, r, h⟩ := s.focusThread_eq uid; rw [h]

theorem State.focusPart_self {s : State} {n : Nat} (h : s.p.first = n) : s.focusPart n = s := if_pos h

theorem State.focusThread_self {s : State} {uid : Nat} (hcur : s.cur.uid = uid) (hpart : s.p.first = s.cur.part) : s.focusThread uid = s := by
  simp [State.focusThread, hcur, State.focusPart_self hpart]

/-- R110: a thread rejoins rotation in a slot of its own. -/
theorem State.rejoin_eq (s : State) (e : Nat) :
    ∃ n a, s.rejoin e = { s with cur := { s.cur with status := .ready, slotAt := n }, agenda := a } := by
  unfold State.rejoin
  dsimp only
  split
  · exact ⟨s.cur.slotAt, s.agenda, rfl⟩
  · exact ⟨_, _, rfl⟩

/-! The board (Table 16.5). -/

section
variable {s : State} {ltile slot t0 : Nat} {v : Word} {y : Tile} (hslot : slot < 16)

theorem State.boardPost_idle (htile : s.p.tileOf ltile = some t0) (hy : s.p.tiles[t0]? = some y) (h : y.board[slot].state = .idle) :
    s.boardPost ltile slot v = (none, s) := by
  simp [State.boardPost, htile, hslot, List.getD_eq_getElem?_getD, hy, h]

theorem State.boardPost_posted (htile : s.p.tileOf ltile = some t0) (hy : s.p.tiles[t0]? = some y) (h : y.board[slot].state = .posted) :
    s.boardPost ltile slot v = (some 2, s) := by
  simp [State.boardPost, htile, hslot, List.getD_eq_getElem?_getD, hy, h]

/-- Table 16.5: an open slot takes the value as the one to come. -/
theorem State.boardPost_opened (htile : s.p.tileOf ltile = some t0) (hy : s.p.tiles[t0]? = some y) (h : y.board[slot].state = .opened)
    (hopen : y.slotOpen slot s.plan = true) : s.boardPost ltile slot v =
      (some 0, s.onTile t0 fun y' => { y' with board := y'.board.set slot { y.board[slot] with state := .posted, pending := v } }) := by
  simp [State.boardPost, htile, hslot, List.getD_eq_getElem?_getD, hy, h, hopen]

@[simp] theorem State.onTile_now (s : State) (n : Nat) (g : Tile → Tile) : (s.onTile n g).now = s.now := by
  unfold State.onTile; dsimp only; split <;> rfl
@[simp] theorem State.onTile_mem (s : State) (n : Nat) (g : Tile → Tile) : (s.onTile n g).mem = s.mem := by
  unfold State.onTile; dsimp only; split <;> rfl
@[simp] theorem State.onTile_tiles (s : State) (n : Nat) (g : Tile → Tile) : (s.onTile n g).p.tiles = s.p.tiles.modify n g := by
  unfold State.onTile; dsimp only; split <;> rfl

end

/-! The post (R381). -/

section
variable {s f u : State} {uid tile slot d born : Nat} {v addr : Word} {r : Option Nat}

/-- R381: with nothing left to wait for, a post performs and comes back after as long as it took. -/
theorem postPerforms_performs (hf : s.focusThread uid = f) (huid : f.cur.uid = uid) (h0 : uid ≠ 0) (hout : ∃ k, f.cur.status = .access k)
    (hrelaxed : f.cur.relaxed = []) (hpushed : f.cur.pushed = true) (hwait : f.cur.waitTo ≤ f.now) (hasked : f.cur.asked = [])
    (hpost : f.boardPost tile slot v = (r, u)) (hnow : u.now = f.now) (hmem : u.mem = f.mem) :
    ∃ t, exec (.postPerforms uid tile slot d v addr born) s = .next t ∧
      (t.mem = s.mem ∧ Due t (s.now + (s.now - born)) (.accessComplete uid (.posted (d % 32) addr r s.now))) ∧ t.p = u.p := by
  have hsnow : f.now = s.now := by rw [← hf, State.focusThread_now]
  obtain ⟨k, hk⟩ := hout
  have haccess : f.outForAccess = true := by simp [State.outForAccess, hk]
  have hdrained : f.cur.syncDrained f.now (d / 32) = true := by simp [Thread.syncDrained, hrelaxed, hpushed, hwait, hasked]
  refine ⟨u.dueIn (u.now - born) rankDone (.accessComplete uid (.posted (d % 32) addr r u.now)), ?_, ⟨?_, ?_⟩, rfl⟩
  · change execPostPerforms uid tile slot d v addr born s = _
    simp [execPostPerforms, hf, huid, h0, haccess, hdrained, hpost]
  · rw [State.dueIn_mem, hmem, ← hf, State.focusThread_mem]
  · rw [hnow, hsnow, ← hsnow, ← hnow]
    exact due_dueAt ..

end

/-! The way back (R381). -/

theorem Thread.setReg_frame (t : Thread) (c : Nat) (v : Word) : ∃ a, t.setReg c v = { t with a := a } := by
  unfold Thread.setReg
  split
  · exact ⟨_, rfl⟩
  · exact ⟨t.a, rfl⟩

/-- R114: where the V slot held nothing back, nothing lands as the bundle retires. -/
theorem State.landEarlier_of_heldV {s : State} (h : s.cur.heldV = []) : s.landEarlier = s := by
  simp only [State.landEarlier, h, List.filter_nil, List.foldl_nil]
  rw [← h]

theorem State.releaseHeld_of_heldV {s : State} (h : s.cur.heldV = []) :
    ∃ l, s.releaseHeld = { s with cur := { s.cur with heldV := [], landed := l } } := by
  simp only [State.releaseHeld, State.landEarlier_of_heldV h, h, List.foldl_nil]
  exact ⟨_, rfl⟩

/-- R381: the outcome of a post is in its register as its bundle retires. -/
theorem State.endPost_some {s : State} {d r : Nat} (addr : Word) (hheld : s.cur.heldV = []) (hgoto : s.goto = none) :
    Retired s (s.endPost d addr (some r)) ∧ (s.endPost d addr (some r)).cur.a = (s.cur.setReg d (BitVec.ofNat 64 r)).a ∧
      (s.endPost d addr (some r)).mem = s.mem := by
  obtain ⟨a, hset⟩ := s.cur.setReg_frame d (BitVec.ofNat 64 r)
  obtain ⟨l, hrelease⟩ := State.releaseHeld_of_heldV (s := ({ s with cur := { s.cur with a := a } } : State).retire) hheld
  obtain ⟨n, g, hrejoin⟩ := (({ s with cur := { s.cur with a := a } } : State).retire.releaseHeld).rejoin_eq s.now
  have hend : s.endPost d addr (some r) = (({ s with cur := { s.cur with a := a } } : State).retire.releaseHeld).rejoin s.now := by
    simp only [State.endPost, State.landEarlier_of_heldV hheld, hset]
  rw [hend, hrejoin, hrelease, hset]
  refine ⟨⟨rfl, rfl, rfl, ?_⟩, rfl, rfl⟩
  simp [hgoto]

/-- R17, R208: what a bundle that does not retire gives back is its streams and pushes, and chunks of port queues. -/
theorem State.undoStreams_eq (s : State) : ∃ q st pu, s.undoStreams = { s with p := q, cur := { s.cur with streams := st, pushes := pu } } := by
  obtain ⟨q, h⟩ : ∃ q, (List.range 4).foldl State.undoPort s = { s with p := q } := by
    refine List.foldlRecOn (motive := fun (u : State) => ∃ q, u = { s with p := q }) _ _ ⟨s.p, rfl⟩ ?_
    rintro u ⟨q, rfl⟩ x -
    unfold State.undoPort
    split
    · split
      · exact ⟨_, rfl⟩
      · exact ⟨q, rfl⟩
    · exact ⟨q, rfl⟩
  simp only [State.undoStreams, h]
  exact ⟨q, _, _, rfl⟩

/-- R17, R391: a fault found as an access completes is on its way to its trap, and the bundle leaves no result. -/
theorem State.faultAccess_traps (s : State) {kind : Nat} (hkind : kind ≠ 7) (info : Word) : ∃ q, (s.faultAccess kind info).cur.raised = some q ∧
    (s.faultAccess kind info).cur.status = .trapping ∧ q.kind = kind ∧ q.info = info ∧ (s.faultAccess kind info).cur.a = s.cur.a ∧
    (s.faultAccess kind info).mem = s.mem := by
  obtain ⟨q, st, pu, h⟩ := s.undoStreams_eq
  simp only [State.faultAccess, h, if_neg hkind, State.startTrap]
  exact ⟨_, rfl, rfl, rfl, rfl, rfl, rfl⟩

section
variable {s f : State} {uid d born : Nat} {addr : Word} (hf : s.focusThread uid = f) (huid : f.cur.uid = uid) (h0 : uid ≠ 0)
  (hout : ∃ k, f.cur.status = .access k)
include hf huid h0 hout

theorem exec_accessComplete_posted (r : Option Nat) :
    exec (.accessComplete uid (.posted d addr r born)) s = .next (f.endPost d addr r) := by
  obtain ⟨k, hk⟩ := hout
  change execAccessComplete uid (.posted d addr r born) s = _
  simp [execAccessComplete, hf, huid, h0, State.outForAccess, hk]

theorem accessComplete_posted (hgoto : s.goto = none) (hheld : f.cur.heldV = []) (r : Nat) :
    ∃ t, exec (.accessComplete uid (.posted d addr (some r) born)) s = .next t ∧ Retired f t ∧
      t.cur.a = (f.cur.setReg d (BitVec.ofNat 64 r)).a ∧ t.mem = s.mem := by
  obtain ⟨hretired, ha, hmem⟩ := State.endPost_some (d := d) (r := r) addr hheld (by rw [← hf, State.focusThread_goto, hgoto])
  exact ⟨_, exec_accessComplete_posted hf huid h0 hout (some r), hretired, ha, by rw [hmem, ← hf, State.focusThread_mem]⟩

/-- R381: a post that was refused is a region fault. -/
theorem accessComplete_refused :
    ∃ t q, exec (.accessComplete uid (.posted d addr none born)) s = .next t ∧ t.cur.status = .trapping ∧ t.cur.raised = some q ∧
      q.kind = 6 ∧ q.info = addr ∧ t.cur.a = f.cur.a ∧ t.mem = s.mem := by
  obtain ⟨q, hraised, hstatus, hkind, hinfo, ha, hmem⟩ := f.faultAccess_traps (kind := 6) (by decide) addr
  exact ⟨_, q, exec_accessComplete_posted hf huid h0 hout none, hstatus, hraised, hkind, hinfo, ha,
    hmem.trans (by rw [← hf, State.focusThread_mem])⟩

end

end Sys2Proof.Machine
end

section
/-! O47: task queues and the placing of tasks (R73-R75, R355). -/

namespace Sys2Proof.Machine

open Sys2Proof.Claims

@[simp] theorem State.onQueue_queue (s : State) (c : Nat) (g : TaskQueue → TaskQueue) :
    ((s.onQueue c g).cluster c).queue = g (s.cluster c).queue := by
  rw [State.onQueue, State.cluster_onCluster_self]
@[simp] theorem State.onQueue_mem (s : State) (c : Nat) (g : TaskQueue → TaskQueue) : (s.onQueue c g).mem = s.mem := rfl
@[simp] theorem State.onQueue_threads (s : State) (c : Nat) (g : TaskQueue → TaskQueue) : (s.onQueue c g).threads = s.threads := rfl
@[simp] theorem State.lookAtHead_cur (s : State) (c : Nat) : (s.lookAtHead c).cur = s.cur := by
  unfold State.lookAtHead; dsimp only; split <;> rfl
@[simp] theorem State.lookAtHead_cluster (s : State) (c k : Nat) : (s.lookAtHead c).cluster k = s.cluster k := by
  rw [State.cluster, State.lookAtHead_p]; rfl
@[simp] theorem State.mayRetire_cluster (s : State) (k : Nat) : s.mayRetire.cluster k = s.cluster k := by
  rw [State.cluster, State.mayRetire_p]; rfl

@[simp] theorem State.dueIn_cluster (s : State) (d r : Nat) (i : Instr) (k : Nat) : (s.dueIn d r i).cluster k = s.cluster k := rfl
@[simp] theorem State.focusPart_nextUid (s : State) (first : Nat) : (s.focusPart first).nextUid = s.nextUid := by
  obtain ⟨q, l, h⟩ := s.focusPart_eq first; rw [h]

/-! Enqueues (R73, R355). -/

/-- R355: the thread that an enqueue holds. -/
def enqWaiter (e : Enq) : Option Nat :=
  match e.src with
  | .thread u => some u
  | .table => none

/-- R355: a thread that waits for its enqueue is in rotation again. -/
theorem State.enqueueDone_waiting {s : State} {u : Nat} (hcur : s.cur.uid = u) (h0 : u ≠ 0) (hpart : s.p.first = s.cur.part)
    (hwaits : s.cur.status = .waiting .enqueue) : s.enqueueDone u = s.rejoin s.now := by
  obtain ⟨n, a, hrejoin⟩ := s.rejoin_eq s.now
  simp only [State.enqueueDone, State.focusThread_self hcur hpart, hcur, h0, hwaits, ne_eq, not_false_eq_true, and_self, if_true]
  exact State.focusPart_self (by rw [hrejoin])

section
variable {s f : State} {e : Enq} (hf : s.focusPart e.first = f) (hfirst : f.p.first = e.first) (hactive : f.p.run.active = true)
  (hcluster : e.cluster < 48)
include hf hfirst hactive hcluster

/-- R73: a descriptor of a matching table joins a queue that has room and nobody waiting. -/
theorem enqueueReachesQueue_table (hroom : (f.cluster e.cluster).queue.items.length < 64) (hnone : (f.cluster e.cluster).queue.waiting = [])
    (hsrc : e.src = .table) : ∃ t, exec (.enqueueReachesQueue e) s = .next t ∧ t.mem = s.mem ∧
      (t.cluster e.cluster).queue = { (f.cluster e.cluster).queue with items := (f.cluster e.cluster).queue.items ++ [e.desc] } := by
  refine ⟨(f.onQueue e.cluster fun q => { q with items := q.items ++ [e.desc] }).lookAtHead e.cluster, ?_, ?_, ?_⟩
  · change execEnqueueReachesQueue e s = _
    simp [execEnqueueReachesQueue, hf, hfirst, hactive, hcluster, hroom, hnone, hsrc]
  · rw [State.lookAtHead_mem, State.onQueue_mem, ← hf, State.focusPart_mem]
  · rw [State.lookAtHead_cluster, State.onQueue_queue]

/-- R355: one of a thread joins it too, and the thread rejoins rotation. -/
theorem enqueueReachesQueue_thread {u : Nat} (hsrc : e.src = .thread u) (hroom : (f.cluster e.cluster).queue.items.length < 64)
    (hnone : (f.cluster e.cluster).queue.waiting = []) (hcur : f.cur.uid = u) (h0 : u ≠ 0) (hpart : f.cur.part = e.first)
    (hwaits : f.cur.status = .waiting .enqueue) : ∃ t, exec (.enqueueReachesQueue e) s = .next t ∧ t.mem = s.mem ∧ t.cur.status = .ready ∧
      (t.cluster e.cluster).queue = { (f.cluster e.cluster).queue with items := (f.cluster e.cluster).queue.items ++ [e.desc] } := by
  generalize hu : (f.onQueue e.cluster fun q => { q with items := q.items ++ [e.desc] }) = w
  have hdone : w.enqueueDone u = w.rejoin w.now := by
    subst hu
    exact State.enqueueDone_waiting (by exact hcur) h0 (hfirst.trans hpart.symm) (by exact hwaits)
  obtain ⟨n, a, hrejoin⟩ := w.rejoin_eq w.now
  have hqueue : (w.cluster e.cluster).queue = { (f.cluster e.cluster).queue with items := (f.cluster e.cluster).queue.items ++ [e.desc] } := by
    rw [← hu, State.onQueue_queue]
  have hmem : w.mem = s.mem := by rw [← hu, State.onQueue_mem, ← hf, State.focusPart_mem]
  refine ⟨(w.enqueueDone u).lookAtHead e.cluster, ?_, ?_, ?_, ?_⟩
  · change execEnqueueReachesQueue e s = _
    simp [execEnqueueReachesQueue, hf, hfirst, hactive, hcluster, hroom, hnone, hsrc, hu]
  · rw [State.lookAtHead_mem, hdone, hrejoin, ← hmem]
  · rw [State.lookAtHead_cur, hdone, hrejoin]
  · rw [State.lookAtHead_cluster, hdone, hrejoin, ← hqueue]; rfl

/-- R73: where the queue is full, or others wait already, it waits behind them. -/
theorem enqueueReachesQueue_waits
    (hfull : 64 ≤ (f.cluster e.cluster).queue.items.length ∨ (f.cluster e.cluster).queue.waiting ≠ []) :
    ∃ t, exec (.enqueueReachesQueue e) s = .next t ∧ t.mem = s.mem ∧ (t.cluster e.cluster).queue =
      { (f.cluster e.cluster).queue with waiting := (f.cluster e.cluster).queue.waiting ++ [(e.desc, enqWaiter e)] } := by
  have hroom : ¬ ((f.cluster e.cluster).queue.items.length < 64 ∧ (f.cluster e.cluster).queue.waiting.isEmpty = true) := by
    rintro ⟨hlt, hempty⟩
    exact hfull.elim (fun h => absurd hlt (Nat.not_lt.2 h)) (fun h => h (List.isEmpty_iff.1 hempty))
  have hhere : ¬ (f.p.first ≠ e.first ∨ (!f.p.run.active) = true ∨ 48 ≤ e.cluster) := by simp [hfirst, hactive, hcluster]
  refine ⟨f.onQueue e.cluster fun q => { q with waiting := q.waiting ++ [(e.desc, enqWaiter e)] }, ?_, ?_, State.onQueue_queue ..⟩
  · change execEnqueueReachesQueue e s = _
    simp only [execEnqueueReachesQueue, hf, if_neg hhere, if_neg hroom]
    rfl
  · rw [State.onQueue_mem, ← hf, State.focusPart_mem]

end

/-! Placing a task (R75). -/

/-- R112, R116: what a figure of the acting thread takes; only the count of draws moves. -/
theorem State.elapse_takes (s : State) (figure : Nat) :
    ∃ lat n, s.elapse figure = (lat, { s with p := { s.p with draws := n } }) ∧ Takes s figure lat := by
  unfold State.elapse State.elapseAt State.atLeast Takes
  split
  · exact ⟨_, s.p.draws, rfl, le_refl _, by omega, fun _ => rfl⟩
  · next hdet =>
    refine ⟨figure * s.dil + Config.extraDelay s.p.first s.p.draws % (63 * (figure * s.dil) + 1), _, rfl, Nat.le_add_right _ _, ?_,
      fun h => absurd h hdet⟩
    have := Nat.mod_lt (Config.extraDelay s.p.first s.p.draws) (show 63 * (figure * s.dil) + 1 > 0 by omega)
    omega

/-- R75 step 3: the head is placed, and its thread is to start. -/
theorem State.placeTask_eq (s : State) (l : Loc) (slots : List Nat) : ∃ lat n, s.placeTask l slots =
    (({ s with p := { s.p with draws := n } } : State).onQueue l.cluster fun q => { q with head := .placed l slots }).dueIn lat rankDispatch
      (.taskStaged s.p.first l.cluster) ∧ Takes s 12 lat := by
  obtain ⟨lat, n, helapse, htakes⟩ := s.elapse_takes 12
  exact ⟨lat, n, by rw [State.placeTask, helapse]; rfl, htakes⟩

theorem mem_insertThread (t : Thread) (l : List Thread) : t ∈ insertThread t l := by
  induction l with
  | nil => exact List.mem_singleton.2 rfl
  | cons u l ih => unfold insertThread; split_ifs <;> simp [ih]

/-- R75: a thread that starts stands among the threads, with a slot of its own; beside it only its number and the agenda move. -/
theorem State.addThread_eq (s : State) (t : Thread) (e : Nat) : ∃ n a, s.addThread t e = { s with
    threads := insertThread { t with slotAt := n } s.threads
    nextUid := s.nextUid + 1
    agenda := a } := by
  unfold State.addThread State.lendFrom
  dsimp only
  split_ifs <;> exact ⟨_, _, rfl⟩

/-- R355: the head has left its queue. -/
theorem State.leaveQueue_spec (s : State) (c : Nat) : (s.leaveQueue c).mem = s.mem ∧ (s.leaveQueue c).threads = s.threads ∧
    ((s.leaveQueue c).cluster c).queue = { (s.cluster c).queue with items := (s.cluster c).queue.items.drop 1, head := .wait } := by
  unfold State.leaveQueue
  dsimp only
  split
  · simp
  · refine ⟨by simp, by simp, ?_⟩
    rw [State.mayRetire_cluster, State.lookAtHead_cluster, State.dueIn_cluster, State.onQueue_queue]

/-- R75 step 3, R170: a task's thread. -/
def State.taskThread (s : State) (l : Loc) (slots : List Nat) (d : TaskDesc) : Thread :=
  let geom : Word := BitVec.ofNat 64 (l.cluster + 0xFF * 2 ^ 32)
  { s.newThread l (BitVec.ofNat 64 (field d.w0 31 0)) d.w1 geom (d.w0.getLsbD 32) 0 with
    rkey := randBits (s.threadKey geom) d.w1
    pins := slots.map fun n => (l.cluster, l.core, n) }

theorem State.startTask_eq (s : State) (l : Loc) (slots : List Nat) (d : TaskDesc) :
    s.startTask l slots d = ((s.addThread (s.taskThread l slots d) s.now).count 11).leaveQueue l.cluster := rfl

/-- R75: the pc and a0 of a task's thread, and whether it stays where it is. -/
theorem State.taskThread_starts (s : State) (l : Loc) (slots : List Nat) (d : TaskDesc) :
    (s.taskThread l slots d).pc = BitVec.ofNat 64 (d.w0.toNat % 2 ^ 32) ∧ (s.taskThread l slots d).a[0] = d.w1 ∧
      (s.taskThread l slots d).pw.getLsbD 16 = d.w0.getLsbD 32 := by
  refine ⟨?_, ?_, ?_⟩
  · simp [State.taskThread, State.newThread, field]
  · simp [State.taskThread, State.newThread]
  · simp only [State.taskThread, State.newThread]
    cases d.w0.getLsbD 32 <;> rfl

section
variable {s f : State} {first cluster : Nat} (hf : s.focusPart first = f) (hfirst : f.p.first = first)
include hf hfirst

/-- R355: the oldest waiting enqueue takes the room there is. -/
theorem enqueueAccepted_takes {d : TaskDesc} {r : List (TaskDesc × Option Nat)} (hwaiting : (f.cluster cluster).queue.waiting = (d, none) :: r)
    (hroom : (f.cluster cluster).queue.items.length < 64) : ∃ t, exec (.enqueueAccepted first cluster) s = .next t ∧ t.mem = s.mem ∧
      (t.cluster cluster).queue = { (f.cluster cluster).queue with items := (f.cluster cluster).queue.items ++ [d], waiting := r } := by
  refine ⟨f.onQueue cluster fun q => { q with items := q.items ++ [d], waiting := r }, ?_, ?_, State.onQueue_queue ..⟩
  · change execEnqueueAccepted first cluster s = _
    simp [execEnqueueAccepted, hf, hfirst, hwaiting, hroom]
  · rw [State.onQueue_mem, ← hf, State.focusPart_mem]

/-- R75: a head with no footprint takes the first free context, and starts 12 cycles later. -/
theorem taskDispatch_places {d : TaskDesc} {l : List TaskDesc} {at_ : Loc} {more : List Loc} (hactive : f.p.run.active = true)
    (hending : f.p.run.ending = false) (hpp : f.p.ppState = 0) (hhead : (f.cluster cluster).queue.head = .wait)
    (hitems : (f.cluster cluster).queue.items = d :: l) (hok : f.taskOk d = true) (hfoot : nfoot d = 0)
    (hfree : f.freeContexts cluster = at_ :: more) : ∃ t lat, exec (.taskDispatch first cluster) s = .next t ∧ t.mem = s.mem ∧
      (t.cluster at_.cluster).queue.head = .placed at_ [] ∧ Takes f 12 lat ∧ Due t (s.now + lat) (.taskStaged first at_.cluster) := by
  obtain ⟨lat, n, hplace, htakes⟩ := f.placeTask_eq at_ []
  have hexec : exec (.taskDispatch first cluster) s = .next (f.placeTask at_ []) := by
    change execTaskDispatch first cluster s = _
    simp [execTaskDispatch, hf, hfirst, hactive, hending, Part.paused, hpp, hhead, hitems, hok, hfoot, hfree]
  rw [hplace] at hexec
  refine ⟨_, lat, hexec, ?_, ?_, htakes, ?_⟩
  · rw [State.dueIn_mem, State.onQueue_mem, ← hf]; exact State.focusPart_mem ..
  · rw [State.dueIn_cluster, State.onQueue_queue]
  · have hnow : f.now = s.now := by rw [← hf, State.focusPart_now]
    rw [← hnow, ← hfirst]
    exact due_dueAt ..

/-- R75: the thread of a placed task starts at its pc, with its a0, and the task leaves the queue. -/
theorem taskStaged_starts {d : TaskDesc} {l : List TaskDesc} {at_ : Loc} {pins : List Nat}
    (hhead : (f.cluster cluster).queue.head = .placed at_ pins) (hitems : (f.cluster cluster).queue.items = d :: l)
    (hat : at_.cluster = cluster) : ∃ t x, exec (.taskStaged first cluster) s = .next t ∧ t.mem = s.mem ∧ x ∈ t.threads ∧
      x.uid = s.nextUid ∧ x.loc = at_ ∧ x.pc = BitVec.ofNat 64 (d.w0.toNat % 2 ^ 32) ∧ x.a[0] = d.w1 ∧
      x.pw.getLsbD 16 = d.w0.getLsbD 32 ∧ x.status = .ready ∧
      (t.cluster cluster).queue.items = l ∧ (t.cluster cluster).queue.head = .wait := by
  have hexec : exec (.taskStaged first cluster) s = .next (f.startTask at_ pins d) := by
    change execTaskStaged first cluster s = _
    simp [execTaskStaged, hf, hfirst, hhead, hitems]
  obtain ⟨n, a, hadd⟩ := f.addThread_eq (f.taskThread at_ pins d) f.now
  obtain ⟨hmem, hthreads, hqueue⟩ := ((f.addThread (f.taskThread at_ pins d) f.now).count 11).leaveQueue_spec at_.cluster
  obtain ⟨hpc, ha0, hanch⟩ := f.taskThread_starts at_ pins d
  have hsame : ((f.addThread (f.taskThread at_ pins d) f.now).count 11).cluster at_.cluster = f.cluster cluster := by rw [hadd, hat]; rfl
  rw [f.startTask_eq] at hexec
  refine ⟨_, { f.taskThread at_ pins d with slotAt := n }, hexec, ?_, ?_, ?_, rfl, hpc, ha0, hanch, rfl, ?_, ?_⟩
  · rw [hmem, State.count_mem, hadd, ← hf]; exact State.focusPart_mem ..
  · rw [hthreads, State.count_threads, hadd]; exact mem_insertThread ..
  · rw [← State.focusPart_nextUid s first, hf]; rfl
  · rw [← hat, hqueue, hsame, hitems]; rfl
  · rw [← hat, hqueue]

end

end Sys2Proof.Machine
end

section
/-! O47 settled. -/

namespace Sys2Proof.Proofs

open Sys2Proof.Machine Sys2Proof.Claims

/-- Settles O47: each clause is the lemma about its one step; a post's three outcomes are those of its board. -/
theorem packetsPostsAndTasksArrive : Obligations.PacketsPostsAndTasksArrive := by
  unfold Obligations.PacketsPostsAndTasksArrive
  refine ⟨?packet, ?fire, ?post, ?back, ?enqueue, ?queue⟩
  case packet =>
    intro p s f hfirst hdest hphase m dropped
    refine ⟨fun hfenced => packetArrives_drops rfl (exec_packetArrives_fenced rfl hfirst hdest hphase hfenced), fun hopen htags =>
      ⟨packetArrives_held rfl hfirst hdest hphase hopen htags, fun hfull => packetArrives_drops rfl ?_⟩, ?_⟩
    · exact (exec_packetArrives_unmatched rfl hfirst hdest hphase hopen (MatchTable.byTag_none htags)).trans (if_neg (Nat.not_lt.2 hfull))
    · exact fun pre post n e w rest flat hopen hentries hpre htag hwords hoff hflat _ hin hmem hattr hsorted =>
        packetArrives_matched rfl hfirst hdest hphase hopen hentries hpre htag hwords hoff hflat hin hmem hattr hsorted
  case fire =>
    exact fun p s target n flat hfirst hdest hphase hflat _ hin hmem hattr => packetArrives_fires rfl hfirst hdest hphase hflat hin hmem hattr
  case post =>
    intro uid tile slot d born v addr s f huid h0 hout hrelaxed hpushed hwait hasked t0 y hslot htile hy back
    have hperforms {r : Option Nat} {u : State} (hpost : f.boardPost tile slot v = (r, u)) :=
      postPerforms_performs (d := d) (born := born) (addr := addr) rfl huid h0 hout hrelaxed hpushed hwait hasked hpost
    refine ⟨fun h => hperforms (State.boardPost_idle hslot htile hy h) rfl rfl, fun h => hperforms (f.boardPost_posted hslot htile hy h) rfl rfl,
      fun h hopen => ?_⟩
    obtain ⟨t, hexec, hback, hp⟩ := hperforms (State.boardPost_opened hslot htile hy h hopen) (State.onTile_now ..) (State.onTile_mem ..)
    refine ⟨t, { y with board := y.board.set slot { y.board[slot] with state := .posted, pending := v } }, hexec, hback, ?_, ?_, ?_⟩
    · rw [hp, State.onTile_tiles, List.getElem?_modify_eq, hy]; rfl
    · simp
    · exact fun i hi hne => Vector.getElem_set_ne hslot hi (Ne.symm hne)
  case back =>
    exact fun uid d addr r born s huid h0 hout hgoto hheld =>
      ⟨accessComplete_posted rfl huid h0 hout hgoto hheld r, accessComplete_refused rfl huid h0 hout⟩
  case enqueue =>
    intro e s f hfirst hactive hcluster q
    exact ⟨enqueueReachesQueue_table rfl hfirst hactive hcluster,
      fun u hsrc hroom hnone => enqueueReachesQueue_thread rfl hfirst hactive hcluster hsrc hroom hnone,
      enqueueReachesQueue_waits rfl hfirst hactive hcluster⟩
  case queue =>
    intro first cluster s f hfirst q
    exact ⟨fun d r hwaiting hroom => enqueueAccepted_takes rfl hfirst hwaiting hroom,
      fun d l at_ more hactive hending hpp hhead hitems hok hfoot hfree =>
        taskDispatch_places rfl hfirst hactive hending hpp hhead hitems hok hfoot hfree,
      fun d l at_ pins hhead hitems hat => taskStaged_starts rfl hfirst hhead hitems hat⟩

end Sys2Proof.Proofs
end

section
/-! O58, O59: words as concatenations of fields, and the masks of their unused bits (R81). -/

namespace Sys2Proof

open BitVec

/-- A word is a concatenation just where each part is the bits in its place; stated of the values, so that the width of the word
need not be read as a sum. -/
theorem toNat_append_eq_iff {m n : Nat} (x : BitVec m) (y : BitVec n) (o : BitVec (m + n)) :
    (x ++ y).toNat = o.toNat ↔ x.toNat = (o.extractLsb' n m).toNat ∧ y.toNat = (o.extractLsb' 0 n).toNat := by
  simp only [toNat_inj]
  constructor
  · rintro rfl
    simp [extractLsb'_append_eq_of_le, extractLsb'_append_eq_of_add_le]
  · rintro ⟨rfl, rfl⟩
    rw [extractLsb'_append_extractLsb'_eq_extractLsb' (by simp), extractLsb'_eq_self]

theorem extractLsb'_extractLsb'_of_le {w a b c d : Nat} (o : BitVec w) (h : c + d ≤ b) :
    (o.extractLsb' a b).extractLsb' c d = o.extractLsb' (a + c) d := by
  ext i hi
  simp [Nat.add_assoc, show c + i < b by omega]

theorem extractLsb'_whole {w a : Nat} (x : BitVec w) (h : a = 0) : x.extractLsb' a w = x := by
  rw [h, extractLsb'_eq_self]

theorem eq_ofNat_of_toNat_eq {w n : Nat} {x : BitVec w} (h : x.toNat = n) : x = BitVec.ofNat w n := by simp [← h]

/-- A word has no bit of a mask of unused fields (R81). -/
def keepsClear {w : Nat} (o k : BitVec w) : Bool := o &&& k == 0

theorem and_beq_zero {w : Nat} (o k : BitVec w) : (o &&& k == 0) = keepsClear o k := rfl

theorem keepsClear_append {m n : Nat} (x : BitVec m) (y : BitVec n) (k : BitVec (m + n)) :
    keepsClear (x ++ y) k = (keepsClear x (k.extractLsb' n m) && keepsClear y (k.extractLsb' 0 n)) := by
  have hk : k = k.extractLsb' n m ++ k.extractLsb' 0 n := (toNat_inj.1 ((toNat_append_eq_iff ..).2 ⟨rfl, rfl⟩)).symm
  have h0 : (0 : BitVec (m + n)) = (0 : BitVec m) ++ (0 : BitVec n) := by simp
  unfold keepsClear
  conv_lhs => rw [hk, and_append, h0]
  rw [Bool.eq_iff_iff, Bool.and_eq_true, beq_iff_eq, beq_iff_eq, beq_iff_eq, ← toNat_inj, toNat_append_eq_iff, toNat_inj, toNat_inj]
  simp only [extractLsb'_append_eq_of_le (Nat.le_refl n), extractLsb'_append_eq_of_add_le (Nat.zero_add n).le, Nat.sub_self,
    extractLsb'_eq_self]

/-- Whatever the bits of a field are, it keeps clear of a mask that does not reach it. -/
theorem keepsClear_of_eq_zero {w : Nat} {k : BitVec w} (x : BitVec w) (hk : k = 0) : keepsClear x k = true := by
  simp [keepsClear, hk]

theorem keepsClear_zero {w : Nat} (k : BitVec w) : keepsClear 0 k = true := by simp [keepsClear]

section
variable {w : Nat} {o k : BitVec w} (h : keepsClear o k = true)
include h

/-- The bits that a mask of ones covers are zero in a word that keeps clear of the mask. -/
theorem toNat_extractLsb'_of_keepsClear {a b : Nat} (hk : k.extractLsb' a b = allOnes b) :
    (o.extractLsb' a b).toNat = (0#b).toNat := by
  have hz := congrArg (extractLsb' a b) (beq_iff_eq.1 h)
  rw [extractLsb'_and, hk, and_allOnes] at hz
  simp [hz]

theorem toNat_of_keepsClear (hk : k = allOnes w) : o.toNat = (0#w).toNat := by
  have hz := beq_iff_eq.1 h
  rw [hk, and_allOnes] at hz
  rw [hz]; rfl

end

end Sys2Proof
end

section
/-! O59: the stream encodings (R86, R87, Tables 4.9 and 4.10). -/

namespace Sys2Proof

open BitVec

theorem unused_eq_some {b : Bool} {i j : Instr} : unused b i = some j ↔ b = true ∧ i = j := by
  cases b <;> simp [unused]

/-- A row that uses every bit keeps clear of the empty mask. -/
theorem unused_true (o : BitVec 46) (i : Instr) : unused true i = unused (keepsClear o 0) i := by
  rw [keepsClear_of_eq_zero o rfl]

/-- The engine whose row 0x10 of Table 4.10 holds an instruction; the control engine for row 0x00, which every engine has. -/
def engineOf : Instr → Fin 7
  | .tld .. | .tldg .. | .tldr .. => 1
  | .mma .. | .mmag .. | .mspill .. | .mfill .. | .madd .. | .mmov .. => 2
  | .eadd .. | .esub .. | .emul .. | .ema .. | .emax .. | .emin .. | .ecvt .. | .eexp .. | .ercp .. | .ersq .. | .etanh ..
  | .esel .. | .ecmp .. | .escale .. | .elog2 .. => 3
  | .sred .. | .strn .. | .sperm .. | .sbc .. | .sslice .. | .sscan .. | .sroll .. => 4
  | .sendt .. | .recvt .. => 5
  | .tst .. => 6
  | _ => 0

/-- Table 4.10 from the instruction to its row: each field is read back from its place, and the unused bits are zero. -/
theorem TFields.raw_of_tFields {i : Instr} {op : BitVec 8} {o : BitVec 46} (idle : BitVec 10) (h : i.tFields = some (op, o)) :
    TFields.raw (engineOf i) ⟨idle, op, o⟩ = some i := by
  cases i <;> cases h <;> conv_lhs => enter [1]; whnf
  all_goals
    simp (disch := decide) only [TFields.raw, TFields.common, TFields.control, TFields.fetch, TFields.matrix, TFields.vector,
      TFields.shape, TFields.link, TFields.store, unused, BitVec.reduceToNat, Nat.reduceLT, ↓reduceIte,
      extractLsb'_append_eq_of_le, extractLsb'_append_eq_of_add_le, extractLsb'_whole, and_beq_zero, keepsClear_append,
      keepsClear_of_eq_zero, keepsClear_zero, Bool.and_self]

/-- Table 4.10 from the row to the instruction: the fields taken, with zeros for the unused bits, are the whole word. -/
theorem TFields.tFields_of_raw {eng : Nat} {f : TFields} {i : Instr} (h : f.raw eng = some i) : i.tFields = some (f.op, f.o) := by
  simp only [TFields.raw, TFields.common, TFields.control, TFields.fetch, TFields.matrix, TFields.vector, TFields.shape,
    TFields.link, TFields.store, and_beq_zero, unused_true f.o] at h
  repeat' split at h
  any_goals cases h
  all_goals
    rename_i hop
    obtain ⟨hz, rfl⟩ := unused_eq_some.1 h
    conv_lhs => whnf
    simp (disch := decide) only [eq_ofNat_of_toNat_eq hop, ofNat_eq_ofNat, Option.some.injEq, Prod.mk.injEq,
      ← toNat_inj, toNat_append_eq_iff, extractLsb'_extractLsb'_of_le, toNat_extractLsb'_of_keepsClear hz,
      toNat_of_keepsClear hz, Nat.zero_add, and_true]

theorem TFields.ofBits_toBits (f : TFields) : TFields.ofBits f.toBits = f := by
  simp (disch := decide) only [TFields.ofBits, TFields.toBits, extractLsb'_append_eq_of_le, extractLsb'_append_eq_of_add_le,
    extractLsb'_whole]

theorem TFields.toBits_ofBits (w : BitVec 64) : (TFields.ofBits w).toBits = w := by
  rw [← toNat_inj]
  simp (disch := decide) only [TFields.toBits, TFields.ofBits, toNat_append_eq_iff, extractLsb'_extractLsb'_of_le, Nat.zero_add,
    and_true]

theorem encodeStream_eq_some {x : StreamWord} {w : BitVec 64} : encodeStream x = some w ↔
    ∃ op o, x.instr.tFields = some (op, o) ∧ TFields.toBits ⟨x.idle, op, o⟩ = w := by
  unfold encodeStream
  split <;> simp_all

/-- What a stream decodes to: the instruction of the word's row, or a reserved cell. -/
theorem decodeT_eq_ok {eng : Nat} {w : BitVec 64} {x : StreamWord} (h : decodeT eng w = .ok x) :
    (TFields.ofBits w).raw eng = some x.instr ∧ x.idle = (TFields.ofBits w).idle ∨ x.instr = .resSlotNop .stream w := by
  unfold decodeT at h
  dsimp only at h
  split at h <;> split at h <;> cases h
  case h_1.isTrue.refl hraw _ => exact .inl ⟨hraw, rfl⟩
  case h_2.isTrue.refl => exact .inr rfl

end Sys2Proof
end

section
/-! O58: the encodings of the S slot, the V slot and the long bundle (R77, R78, Tables 4.1 to 4.8). -/

namespace Sys2Proof

open BitVec

/-- Bits [31:4] and [3:0] of an S slot hold imm9 between them (R78). -/
theorem imm9_parts (imm : BitVec 9) : imm.extractLsb' 4 5 ++ imm.extractLsb' 0 4 = imm :=
  (extractLsb'_append_extractLsb'_eq_extractLsb' (Nat.zero_add 4).symm).trans extractLsb'_eq_self

/-- Table 4.5 read both ways, row by row. -/
theorem SFields.raw_of_sFields {i : Instr} {f : SFields} (h : i.sFields = some f) : f.raw = some i := by
  cases i <;> cases h <;> conv_lhs => whnf
  all_goals simp only [SFields.g, SFields.imm, imm9_parts]

/-- Table 4.8 read both ways, row by row. -/
theorem LFields.raw_of_lFields {i : Instr} {f : LFields} (h : i.lFields = some f) : f.raw = some i := by
  cases i <;> cases h <;> rfl

/-- Table 4.6 read both ways, row by row. -/
theorem VFields.raw_of_vFields {i : Instr} {f : VFields} (h : i.vFields = some f) : f.raw = some i := by
  cases i <;> cases h <;> rfl

/-- No instruction has both an S-slot and a long encoding. -/
theorem lFields_eq_none_of_sFields {i : Instr} {f : SFields} (h : i.sFields = some f) : i.lFields = none := by
  cases i <;> cases h <;> rfl

theorem SFields.ofBits_toBits (f : SFields) : SFields.ofBits f.toBits = f := by
  simp (disch := decide) only [SFields.ofBits, SFields.toBits, extractLsb'_append_eq_of_le, extractLsb'_append_eq_of_add_le,
    extractLsb'_whole]

theorem VFields.ofBits_toBits (f : VFields) : VFields.ofBits f.toBits = f := by
  simp (disch := decide) only [VFields.ofBits, VFields.toBits, extractLsb'_append_eq_of_le, extractLsb'_append_eq_of_add_le,
    extractLsb'_whole]

theorem LFields.ofBits_toBits (f : LFields) : LFields.ofBits f.toBits = f := by
  simp (disch := decide) only [LFields.ofBits, LFields.toBits, extractLsb'_append_eq_of_le, extractLsb'_append_eq_of_add_le,
    extractLsb'_whole]

/-- A cell that holds an instruction with legal operands answers it. -/
theorem checked_some {k : SlotKind} {nv : Nat} {ops : List Nat} {res : Bool} {op : Nat} {bits : BitVec 64} {i : Instr}
    (hwf : i.WF nv = true) : checked k nv ops res op bits (some i) = .ok i := if_pos hwf

theorem decodeS_toBits {i : Instr} {f : SFields} (h : i.sFields = some f) (hwf : i.WF 128 = true) :
    decodeS f.toBits = .ok i := by
  rw [decodeS, SFields.ofBits_toBits, SFields.raw_of_sFields h]
  exact checked_some hwf

theorem decodeV_toBits {i : Instr} {f : VFields} {nv : Nat} (h : i.vFields = some f) (hwf : i.WF nv = true) :
    decodeV nv f.toBits = .ok i := by
  rw [decodeV, VFields.ofBits_toBits, VFields.raw_of_vFields h]
  exact checked_some hwf

/-- In a proctor context the proctor's four decode as every other long instruction does (R84). -/
theorem decodeL_toBits {i : Instr} {f : LFields} {nv : Nat} (h : i.lFields = some f) (hwf : i.WF nv = true) :
    decodeL nv true f.toBits = .ok i := by
  rw [decodeL, LFields.ofBits_toBits, LFields.raw_of_lFields h]
  simp only [checked_some hwf, Bool.not_true, Bool.and_false, Bool.false_eq_true, if_false]

/-- A word with bit 63 clear decodes slot by slot (R77). -/
theorem decodeBundle_pairBits {i j : Instr} {f : SFields} {h : VFields} {proctor : Bool} (hi : i.sFields = some f)
    (hj : j.vFields = some h) (hiwf : i.WF 128 = true) (hjwf : j.WF 128 = true) :
    decodeBundle 128 proctor (pairBits f h) = if scalarClash i j then .error .sameScalar else .ok (.paired i j) := by
  have htop : (pairBits f h).getLsbD 63 = false := by rw [pairBits, getLsbD_append]; rfl
  have hs : (pairBits f h).extractLsb' 32 31 = f.toBits := by
    simp (disch := decide) only [pairBits, extractLsb'_append_eq_of_le, extractLsb'_append_eq_of_add_le, extractLsb'_whole]
  have hv : (pairBits f h).extractLsb' 0 32 = h.toBits := by
    simp (disch := decide) only [pairBits, extractLsb'_append_eq_of_add_le, extractLsb'_whole]
  simp only [decodeBundle, htop, hs, hv, decodeS_toBits hi hiwf, decodeV_toBits hj hjwf, Bool.false_eq_true, if_false]

/-- A word with bit 63 set decodes as one long instruction (R77). -/
theorem decodeBundle_longBits {i : Instr} {f : LFields} (h : i.lFields = some f) (hwf : i.WF 128 = true) :
    decodeBundle 128 true (longBits f) = .ok (.long i) := by
  have htop : (longBits f).getLsbD 63 = true := by rw [longBits, getLsbD_append]; rfl
  have hl : (longBits f).extractLsb' 0 63 = f.toBits := by
    simp (disch := decide) only [longBits, extractLsb'_append_eq_of_add_le, extractLsb'_whole]
  simp only [decodeBundle, htop, hl, decodeL_toBits h hwf, if_true]

@[simp] theorem scalarClash_vnop (i : Instr) : scalarClash i .vnop = false := rfl

@[simp] theorem scalarClash_nop (g : Guard) (j : Instr) : scalarClash (.nop g) j = false := by
  unfold scalarClash
  split <;> rfl

end Sys2Proof
end

section
/-! O58 and O59 settled. -/

namespace Sys2Proof.Proofs

/-- Settles O58: `encode` puts an instruction beside the no-op of the other slot, or alone, and each slot's decoder reads its own
fields back. -/
theorem bundlesDecodeAsEncoded : Obligations.BundlesDecodeAsEncoded := by
  unfold Obligations.BundlesDecodeAsEncoded
  refine ⟨fun i w hwf henc => ?_, fun i j f h hi hj hs hv => decodeBundle_pairBits hs hv hi hj⟩
  unfold encode at henc
  split at henc <;> cases henc
  case h_1 f _ _ hs =>
    rw [decodeBundle_pairBits (j := .vnop) (h := .vnop) hs rfl hwf rfl, scalarClash_vnop, lFields_eq_none_of_sFields hs, hs]
    rfl
  case h_2 f _ _ hl =>
    rw [decodeBundle_longBits hl hwf, hl]
    rfl
  case h_3 f hs hl hv =>
    rw [decodeBundle_pairBits (i := .nop ⟨0, 0⟩) (f := .nop) rfl hv rfl hwf, scalarClash_nop, hl, hs]
    rfl

/-- Settles O59: Table 4.10 read both ways, with the idle count beside it. -/
theorem streamWordsDecodeAsEncoded : Obligations.StreamWordsDecodeAsEncoded := by
  unfold Obligations.StreamWordsDecodeAsEncoded
  refine ⟨fun x w hwf henc => ⟨engineOf x.instr, (engineOf x.instr).isLt, ?_⟩, fun eng w v x hdec henc => ?_⟩
  · obtain ⟨op, o, hfields, rfl⟩ := encodeStream_eq_some.1 henc
    rw [decodeT, TFields.ofBits_toBits, TFields.raw_of_tFields _ hfields]
    exact if_pos hwf
  · obtain ⟨op, o, hfields, rfl⟩ := encodeStream_eq_some.1 henc
    obtain ⟨hraw, hidle⟩ | hres := decodeT_eq_ok hdec
    · obtain ⟨rfl, rfl⟩ : _ = op ∧ _ = o := by simpa [TFields.tFields_of_raw hraw] using hfields
      rw [hidle]
      exact TFields.toBits_ofBits w
    · rw [hres] at hfields
      cases hfields

end Sys2Proof.Proofs
end

section
/-! O1: what a guard that fails leaves of an instruction (R80). -/

namespace Sys2Proof.Machine

section
variable {b : Bool} (h : b = false) (s : State)
include h

/-- The shape of a meaning that does one thing where its guard holds. -/
theorem next_of_guard_off (t : State) : (.next (if b then t else s) : Res) = .next s := by
  rw [h]; rfl

/-- The shape of a meaning that can answer in several ways where its guard holds. -/
theorem ite_of_guard_off (r : Res) : (if !b then .next s else r) = .next s := by
  rw [h]; rfl

end

/-- Where no leader's guard is in force a transfer is decided by its own (R96). -/
theorem transferGuard_of_force_none {s : State} (h : s.force = none) (g : Guard) : s.transferGuard g = s.guard g := by
  rw [State.transferGuard, h]; rfl

section
variable {s : State} {g : Guard} (h : s.guard g = false) {imm : BitVec 32} (hreg : (s.creg (imm.toNat % 4096)).isSome = true)
include h hreg

/-- A register that exists is not read. -/
theorem execCrd_of_guard_off (d : BitVec 5) : execCrd g d imm s = .next s := by
  obtain ⟨v, hv⟩ := Option.isSome_iff_exists.1 hreg
  rw [execCrd, hv]
  exact next_of_guard_off h s _

/-- A register that exists is not written. -/
theorem execCwr_of_guard_off (rs : BitVec 5) : execCwr g rs imm s = .next s := by
  obtain ⟨v, hv⟩ := Option.isSome_iff_exists.1 hreg
  unfold execCwr
  dsimp only
  rw [hv]
  exact ite_of_guard_off h s _

end

end Sys2Proof.Machine
end

section
/-! O1 settled. -/

namespace Sys2Proof.Proofs

open Sys2Proof.Machine

/-- Settles O1: each meaning asks its guard before it does anything. -/
theorem guardOffHasNoEffect : Obligations.GuardOffHasNoEffect := by
  unfold Obligations.GuardOffHasNoEffect
  intro g s h
  have off := next_of_guard_off h s
  have offs := ite_of_guard_off h s
  refine ⟨fun d rs t => ?registers, fun d rs t fn => ?functions, fun d rs x f imm => ?long, fun hforce d rs imm => ?transfers⟩
  case registers =>
    exact ⟨off _, off _, off _, off _, off _, off _, off _, off _, off _, off _, off _, off _, off _⟩
  case functions =>
    exact ⟨off _, off _, off _, off _, off _, off _, off _, off _, off _⟩
  case long =>
    exact ⟨off _, off _, off _, off _, off _, offs _, offs _,
      fun hreg => ⟨execCrd_of_guard_off h hreg d, execCwr_of_guard_off h hreg rs⟩⟩
  case transfers =>
    have hown := (transferGuard_of_force_none hforce g).trans h
    have off := next_of_guard_off hown s
    exact ⟨off _, ite_of_guard_off hown s _, off _, off _, off _, off _⟩

end Sys2Proof.Proofs
end

section
/-! O17, O48: launch faults, as they are kept for the end of the tick (R392, R400). -/

namespace Sys2Proof.Machine

/-- R400: a launch that runs on keeps the fault after those of the tick. -/
theorem State.launchFault_faults {s : State} (hactive : s.p.run.active = true) (hending : s.p.run.ending = false) (e : LaunchFault) :
    (s.launchFault e).p.run.faults = s.p.run.faults ++ [e] := by
  simp only [State.launchFault, hactive, hending, Bool.not_true, Bool.false_eq_true, if_false]
  split_ifs <;> rfl

@[simp] theorem State.launchFault_mem (s : State) (e : LaunchFault) : (s.launchFault e).mem = s.mem := by
  obtain ⟨q, a, h⟩ := s.launchFault_eq e
  rw [h]

end Sys2Proof.Machine
end

section
/-! O17 settled. -/

namespace Sys2Proof.Proofs

open Sys2Proof.Machine

/-- Settles O17: a no-op answers the state it began in, a fault is raised or kept, and nothing else is touched. -/
theorem faultingEncodings : Obligations.FaultingEncodings := by
  unfold Obligations.FaultingEncodings
  intro s k bits
  refine ⟨rfl, rfl, rfl, ?illegal, ⟨_, _, rfl, rfl, rfl, rfl, rfl⟩, fun hactive hending => ?streamWord⟩
  case illegal =>
    refine ⟨_, _, rfl, rfl, rfl, rfl, ?_, rfl, rfl⟩
    cases k <;> rfl
  case streamWord =>
    exact ⟨_, _, rfl, State.launchFault_faults hactive hending _, rfl, rfl, rfl, State.launchFault_mem ..⟩

end Sys2Proof.Proofs
end

section
/-! O48: the proctor's instructions (R84, R379, R387, Table 16.6). -/

namespace Sys2Proof.Machine

open Sys2Proof.Claims

/-! Who may issue them (R84). -/

theorem State.asProctor_refuses {s : State} (h : s.cur.proctor = false) (g : Guard) (f : State → State) :
    s.asProctor g f = .next (s.raise 2 s.cur.pc) := by
  rw [State.asProctor, h]; rfl

theorem State.asProctor_does {s : State} {g : Guard} (h : s.cur.proctor = true) (hg : s.guard g = true) (f : State → State) :
    s.asProctor g f = .next (f s) := by
  rw [State.asProctor, h, hg]; rfl

theorem field_low_byte (w : Word) : field w 7 0 = w.toNat % 256 := by
  simp [field]

/-- The trim of the acting proctor's die is kept (R379). -/
def State.trimDie (s : State) (v : Word) : State :=
  { s with
    fresh := s.fresh + 1
    mgmt := { s.mgmt with
      trimmed := if h : s.ownDie < 4 then s.mgmt.trimmed.set s.ownDie (v.setWidth 13) else s.mgmt.trimmed } }

theorem State.trimDie_trimmed (s : State) (v : Word) (h : s.cur.loc.cluster - 48 < 4) :
    (s.trimDie v).mgmt.trimmed = s.mgmt.trimmed.set (s.cur.loc.cluster - 48) (v.setWidth 13) := dif_pos h

section
variable {s : State} {g : Guard} (h : s.cur.proctor = true) (hg : s.guard g = true)
include h hg

theorem exec_pbell (rs x : BitVec 5) :
    exec (.pbell g rs x) s = .next (s.ringBell ((s.ra rs).toNat % 256) (s.ra x).toNat) := by
  rw [← field_low_byte]
  change execPbell g rs x s = _
  rw [execPbell, State.asProctor_does h hg]

theorem exec_pload (d rs : BitVec 5) : exec (.pload g d rs) s = .next (if s.p.run.preload.isSome then s.landA 4 d 1
    else (if s.p.run.active then s.startPreload ((s.ra rs).toNat % 256) else s).landA 4 d 0) := by
  rw [← field_low_byte]
  change execPload g d rs s = _
  rw [execPload, State.asProctor_does h hg]

theorem exec_phold (rs x : BitVec 5) : exec (.phold g rs x) s = .next (if s.ra rs = 1 then s.addHold ((s.ra x).toNat % 256)
    else if s.ra rs = 2 then s.dropHold ((s.ra x).toNat % 256) else s) := by
  rw [← field_low_byte]
  change execPhold g rs x s = _
  rw [execPhold, State.asProctor_does h hg]

/-- A word of more than 13 bits is no trim (R379). -/
theorem exec_pdrift_outside (d : BitVec 5) {rs : BitVec 5} (hbig : 2 ^ 13 ≤ (s.ra rs).toNat) :
    exec (.pdrift g d rs) s = .next (s.raise 4 (s.ra rs)) := by
  have hfield : field (s.ra rs) 63 13 ≠ 0 := by
    have := (s.ra rs).isLt
    simp only [field]; omega
  change execPdrift g d rs s = _
  rw [execPdrift, State.asProctor_does h hg]
  exact congrArg _ (if_pos hfield)

/-- R379: the die keeps its trim, and the answer is the largest phase. -/
theorem exec_pdrift_trims (d : BitVec 5) {rs : BitVec 5} (hsmall : (s.ra rs).toNat < 2 ^ 13) :
    exec (.pdrift g d rs) s = .next ((s.trimDie (s.ra rs)).landA 4 d (s.largestPhase (Config.unstated s.fresh).toNat)) := by
  have hfield : ¬ field (s.ra rs) 63 13 ≠ 0 := by
    simp only [field]; omega
  change execPdrift g d rs s = _
  rw [execPdrift, State.asProctor_does h hg]
  exact congrArg _ (if_neg hfield)

end

/-! `pbell` (R387, R411). -/

/-- R411: the swap bell goes on the agenda in the place of an earlier one. -/
theorem State.ringSwap_rings (s : State) (k at_ : Nat) : (s.ringSwap k at_).p.run.bellAt = some at_ ∧
    (s.ringSwap k at_).p.run.chainNext = k ∧ (s.ringSwap k at_).mem = s.mem ∧
    Due (s.ringSwap k at_) (s.cycleOfTick at_) (.overlaySwapBell s.p.first) := by
  unfold State.ringSwap
  dsimp only
  split <;> exact ⟨rfl, rfl, rfl, due_dueAt _ _ _ _⟩

section
variable {s : State} {k target : Nat}

theorem State.ringBell_late (h0 : target ≠ 0) (hlate : target < s.tick + 16) : s.ringBell k target = s.runFault 17 := by
  simp only [State.ringBell, if_pos h0, if_pos hlate]

theorem State.ringBell_swap (hactive : s.p.run.active = true) (hchain : s.p.run.chain = .swapping)
    (hloaded : s.p.run.preloaded = some k) (htime : s.tick + 16 ≤ target) : s.ringBell k target = s.ringSwap k target := by
  have h0 : target ≠ 0 := by omega
  simp [State.ringBell, h0, Nat.not_lt.2 htime, hactive, hchain, hloaded]

theorem State.ringBell_first (hactive : s.p.run.active = true) (hchain : s.p.run.chain = .none) (hk : k = 0)
    (htime : s.tick + 16 ≤ target) : s.ringBell k target = s.startRun target := by
  have h0 : target ≠ 0 := by omega
  simp [State.ringBell, h0, Nat.not_lt.2 htime, hactive, hchain, hk]

end

/-! `phold` (R385). -/

/-- Memory and the management reasons in force stay as they are. -/
def State.SameHolds (s t : State) : Prop := t.mem = s.mem ∧ t.p.holds = s.p.holds

theorem State.SameHolds.trans {s t u : State} (h : s.SameHolds t) (k : t.SameHolds u) : s.SameHolds u :=
  ⟨k.1.trans h.1, k.2.trans h.2⟩

theorem State.sameHolds_onRun (s : State) (f : Run → Run) : s.SameHolds (s.onRun f) := ⟨rfl, rfl⟩

theorem State.sameHolds_watchHold (s : State) (plan : Nat) : s.SameHolds (s.watchHold plan) := ⟨rfl, rfl⟩

theorem State.sameHolds_tellMembers (s : State) (m : GroupMsg) : s.SameHolds (s.tellMembers m) := by
  unfold State.tellMembers; split <;> exact ⟨rfl, rfl⟩

theorem State.sameHolds_startLimit (s : State) (r : Reason) : s.SameHolds (s.startLimit r) := by
  unfold State.startLimit
  split
  · exact ⟨rfl, rfl⟩
  · split
    · exact ⟨rfl, rfl⟩
    · split <;> exact ⟨rfl, rfl⟩

theorem State.sameHolds_addReason (s : State) (r : Reason) : s.SameHolds (s.addReason r) := by
  unfold State.addReason
  dsimp only
  generalize hu : s.onRun _ = u
  have hsu : s.SameHolds u := by rw [← hu]; exact s.sameHolds_onRun _
  split
  · exact hsu.trans ((u.sameHolds_onRun _).trans (State.sameHolds_watchHold ..))
  · split
    · exact hsu.trans ((u.sameHolds_onRun _).trans (State.sameHolds_watchHold ..))
    · exact hsu
  · exact hsu.trans ((u.sameHolds_onRun _).trans (State.sameHolds_startLimit ..))

theorem State.sameHolds_requestHold (s : State) (c at_ : Nat) : s.SameHolds (s.requestHold c at_) := by
  unfold State.requestHold
  dsimp only
  split_ifs
  · exact ⟨rfl, rfl⟩
  · exact State.sameHolds_addReason ..
  · exact ⟨rfl, rfl⟩
  · exact ⟨rfl, rfl⟩

theorem State.sameHolds_dropReason (s : State) (pkg key tick : Nat) : s.SameHolds (s.dropReason pkg key tick) := by
  unfold State.dropReason
  dsimp only
  split_ifs
  · exact ⟨rfl, rfl⟩
  · exact ⟨rfl, rfl⟩
  · split <;> exact ⟨rfl, rfl⟩

/-- R385: the reason is in force afterwards. -/
theorem State.addHold_holds (s : State) (r : Nat) : r ∈ (s.addHold r).p.holds ∧ (s.addHold r).mem = s.mem := by
  unfold State.addHold
  split
  case isTrue h => exact ⟨List.contains_iff_mem.1 h, rfl⟩
  case isFalse h =>
    obtain ⟨hmem, hholds⟩ := s.sameHolds_tellMembers (.reason s.p.first s.ownPkg (mgmtKey r) s.requestFrom s.tick)
    dsimp only
    generalize s.tellMembers _ = t at *
    rw [State.recordHold, if_neg (hholds ▸ h)]
    obtain ⟨hmem', hholds'⟩ := State.sameHolds_requestHold { t with p := { t.p with holds := t.p.holds ++ [r] } } r s.requestFrom
    exact ⟨hholds' ▸ by simp, hmem'.trans hmem⟩

/-- R385: the reason is not in force afterwards. -/
theorem State.dropHold_drops (s : State) (r : Nat) : r ∉ (s.dropHold r).p.holds ∧ (s.dropHold r).mem = s.mem := by
  unfold State.dropHold
  split
  case isTrue h => exact ⟨by simpa using h, rfl⟩
  case isFalse h =>
    obtain ⟨hmem, -⟩ := s.sameHolds_tellMembers (.removal s.p.first s.ownPkg (mgmtKey r) s.tick)
    generalize s.tellMembers _ = t at *
    unfold State.removeHold
    dsimp only
    generalize hu : State.onRun _ _ = u
    have hgone : u.mem = s.mem ∧ r ∉ u.p.holds := by rw [← hu]; exact ⟨hmem, by simp [State.onRun]⟩
    obtain ⟨hmem', hholds'⟩ := u.sameHolds_dropReason (u.mgmtPkg r) (mgmtKey (r % 256)) s.tick
    exact ⟨hholds' ▸ hgone.2, hmem'.trans hgone.1⟩

/-! `pdrift` (R379). -/

/-- Of a list that is not empty some value has the largest magnitude. -/
theorem filter_natAbs_max_ne_nil {l : List Int} (hl : l ≠ []) : l.filter (fun x => x.natAbs = (l.map Int.natAbs).foldl max 0) ≠ [] := by
  set m := (l.map Int.natAbs).foldl max 0 with hm
  intro hnil
  have hle : ∀ x ∈ l, x.natAbs ≤ m := fun x hx => (foldl_max_le_iff.1 hm.ge).2 _ (List.mem_map_of_mem hx)
  have hlt : ∀ x ∈ l, x.natAbs ≤ m - 1 := by
    intro x hx
    have hne : x.natAbs ≠ m := by simpa using List.filter_eq_nil_iff.1 hnil x hx
    have := hle x hx
    omega
  have hm1 : m ≤ m - 1 := foldl_max_le_iff.2 ⟨Nat.zero_le _, by simpa using hlt⟩
  obtain ⟨x, hx⟩ := List.exists_mem_of_ne_nil l hl
  have hx0 : x.natAbs ≠ m := by simpa using List.filter_eq_nil_iff.1 hnil x hx
  have := hle x hx
  omega

/-- R379: the phase that is answered is that of one of the die's four ports, and no port of the die has a larger one. -/
theorem State.largestPhase_of_die (s : State) (free : Nat) (hdie : s.cur.loc.cluster - 48 < 4) : ∃ (i : Nat) (hi : i < 4),
    s.largestPhase free = BitVec.ofInt 64 (s.links[4 * (s.cur.loc.cluster - 48) + i]'(by omega)).phase ∧
    ∀ (j : Nat) (hj : j < 4), (s.links[4 * (s.cur.loc.cluster - 48) + j]'(by omega)).phase.natAbs ≤
      (s.links[4 * (s.cur.loc.cluster - 48) + i]'(by omega)).phase.natAbs := by
  have hport (i : Nat) (hi : i < 4) : (s.links.toList.getD (4 * s.ownDie + i) ⟨0, 0⟩).phase =
      (s.links[4 * (s.cur.loc.cluster - 48) + i]'(by omega)).phase := by
    have h16 : 4 * s.ownDie + i < s.links.toList.length := by simp [State.ownDie]; omega
    rw [List.getD_eq_getElem _ _ h16, Vector.getElem_toList]; rfl
  unfold State.largestPhase
  dsimp only
  generalize hl : List.map (fun i => (s.links.toList.getD (4 * s.ownDie + i) ⟨0, 0⟩).phase) (List.range 4) = l
  have hmem (x : Int) : x ∈ l ↔ ∃ i, ∃ hi : i < 4, (s.links[4 * (s.cur.loc.cluster - 48) + i]'(by omega)).phase = x := by
    rw [← hl]
    simp only [List.mem_map, List.mem_range]
    exact exists_congr fun i => ⟨fun ⟨hi, h⟩ => ⟨hi, (hport i hi).symm.trans h⟩, fun ⟨hi, h⟩ => ⟨hi, (hport i hi).trans h⟩⟩
  have hne : l.filter (fun x => x.natAbs = (l.map Int.natAbs).foldl max 0) ≠ [] :=
    filter_natAbs_max_ne_nil (List.ne_nil_of_mem ((hmem _).2 ⟨0, by omega, rfl⟩))
  have hidx := Nat.mod_lt free (List.length_pos_iff.2 hne)
  rw [List.getD_eq_getElem _ _ hidx]
  obtain ⟨hin, hmax⟩ := List.mem_filter.1 (List.getElem_mem hidx)
  obtain ⟨i, hi, hphase⟩ := (hmem _).1 hin
  refine ⟨i, hi, by rw [hphase], fun j hj => ?_⟩
  rw [hphase, of_decide_eq_true hmax]
  exact (foldl_max_le_iff.1 le_rfl).2 _ (List.mem_map_of_mem ((hmem _).2 ⟨j, hj, rfl⟩))

end Sys2Proof.Machine
end

section
/-! O48 settled. -/

namespace Sys2Proof.Proofs

open Sys2Proof.Machine Sys2Proof.Claims

/-- Settles O48: outside a proctor context all four are refused; in one each is the state function of its clause. -/
theorem proctorInstructions : Obligations.ProctorInstructions := by
  unfold Obligations.ProctorInstructions
  intro g d rs x s
  refine ⟨fun hno i hi => ?_, fun hproctor hg => ?_⟩
  · simp only [List.mem_cons, List.not_mem_nil, or_false] at hi
    obtain rfl | rfl | rfl | rfl := hi
    · exact (State.asProctor_refuses hno g _ : execPbell g rs x s = _)
    · exact (State.asProctor_refuses hno g _ : execPload g d rs s = _)
    · exact (State.asProctor_refuses hno g _ : execPhold g rs x s = _)
    · exact (State.asProctor_refuses hno g _ : execPdrift g d rs s = _)
  have hbell := exec_pbell hproctor hg rs x
  have hload := exec_pload hproctor hg d rs
  have hhold := exec_phold hproctor hg rs x
  refine ⟨fun hactive hending h0 hlate => ?late, fun hactive _ hchain hloaded htime => ?swap, fun hactive hchain hk htime => ?first,
    fun hpre => ?loading, fun hpre hactive => ⟨?load, rfl, (State.OnlyStarts.startPreload ..).mem⟩, ?hold,
    fun hbig => exec_pdrift_outside hproctor hg d hbig,
    fun hsmall hdie => ?trim⟩
  case late =>
    exact ⟨_, _, hbell.trans (congrArg _ (State.ringBell_late h0 hlate)), State.launchFault_faults hactive hending _, rfl,
      State.launchFault_mem ..⟩
  case swap =>
    exact ⟨_, hbell.trans (congrArg _ (State.ringBell_swap hactive hchain hloaded htime)), State.ringSwap_rings ..⟩
  case first => exact hbell.trans (congrArg _ (State.ringBell_first hactive hchain hk htime))
  case loading => exact hload.trans (congrArg _ (if_pos hpre))
  case load =>
    rw [hload, hpre, hactive]; rfl
  case hold =>
    rintro r rfl
    refine ⟨fun h1 => ⟨_, hhold.trans (congrArg _ (if_pos h1)), State.addHold_holds ..⟩,
      fun h2 => ⟨_, hhold.trans (congrArg _ ?_), State.dropHold_drops ..⟩,
      fun h1 h2 => hhold.trans (congrArg _ ?_)⟩
    · rw [if_neg (h2 ▸ by decide), if_pos h2]
    · rw [if_neg h1, if_neg h2]
  case trim =>
    obtain ⟨i, hi, hphase, hmax⟩ := s.largestPhase_of_die (Config.unstated s.fresh).toNat hdie
    exact ⟨s.trimDie (s.ra rs), i, hi, rfl, rfl, s.trimDie_trimmed _ hdie, hphase ▸ exec_pdrift_trims hproctor hg d hsmall, hmax⟩

end Sys2Proof.Proofs
end

section
/-! O56 settled. -/

namespace Sys2Proof.Proofs

/-- Settles O56: the decoder computes on a word that is given. -/
theorem wordsDecodeAsTheEncodingsSay : Obligations.WordsDecodeAsTheEncodingsSay := by
  unfold Obligations.WordsDecodeAsTheEncodingsSay
  exact ⟨rfl, rfl, rfl, rfl, rfl, rfl, rfl, rfl, rfl⟩

end Sys2Proof.Proofs
end

section
/-! O57: a step takes the earliest thing due and runs it (R87, R110); the end of a bundle (R17, R113, R394). -/

namespace Sys2Proof.Machine

theorem step_of_not_powered {s : State} (h : s.mgmt.powered = false) : step s = .fault .powerIsOff := by
  rw [step, h]; rfl

/-- With power, a step runs the task that is due at the state with time passed to it. -/
theorem step_of_powered {s : State} (h : s.mgmt.powered = true) :
    step s = runTask (s.settleWaits.takePick s.settleWaits.pick).1 (s.settleWaits.takePick s.settleWaits.pick).2 := by
  simp only [step, h, Bool.not_true, Bool.false_eq_true, if_false]

/-! A thread's issue slot. -/

section
variable {u v : State} {uid : Nat}

theorem runTask_issue_taken (h : u.takeSlot uid false = (true, v)) :
    runTask (.issue uid) u = runBundle exec (bundleOf (v.fetch.map (decodeBundle v.vectors v.cur.proctor))) v := by
  rw [runTask, issueStep, h]

theorem runTask_issue_left (h : u.takeSlot uid false = (false, v)) : runTask (.issue uid) u = .next v := by
  rw [runTask, issueStep, h]

end

/-- A stream's word is the instruction it decodes to, or its fault, at the state with the stream moved on (R87, R89). -/
theorem runTask_word {u v t : State} {first tile stream : Nat} {w : Word} (h : u.takeWord first tile stream = (some w, v))
    (hexec : exec (wordOfDecoded (decodeT stream w)) { v.advanceStream with bundle := w } = .next t) :
    runTask (.word first tile stream) u = .next t.settleWord := by
  simp only [runTask, wordStep, h, hexec]

/-! Waits and the agenda. -/

theorem State.settleWaits_of_none {s : State} (h : ∀ t ∈ s.rest.threads, t.waits = false) : s.settleWaits = s.rest := by
  have hnone : s.rest.threads.filter Thread.waits = [] := List.filter_eq_nil_iff.2 fun t ht => by simp [h t ht]
  simp only [State.settleWaits, hnone, List.map_nil, List.foldl_nil]

/-- Time that passes to a cycle stops there and leaves the agenda and memory. -/
theorem State.advance_spec {s : State} {c : Nat} (h : s.now ≤ c) :
    (s.advance c).now = c ∧ (s.advance c).agenda = s.agenda ∧ (s.advance c).mem = s.mem := by
  unfold State.advance
  split
  case isTrue hle => exact ⟨Nat.le_antisymm h hle, rfl, rfl⟩
  case isFalse => exact ⟨rfl, rfl, rfl⟩

/-! The end of a bundle of a thread in no recitation group. -/

@[simp] theorem State.noteIssue_cur (s : State) : s.noteIssue.cur = s.cur := by
  unfold State.noteIssue; split <;> rfl

@[simp] theorem State.noteIssue_mem (s : State) : s.noteIssue.mem = s.mem := by
  unfold State.noteIssue; split <;> rfl

/-- The state that the slots of a bundle read, in a thread that no leader has forwarded a bundle to. -/
def State.beginBundle (v : State) : State :=
  ({ v with
    goto := none, slotV := false, force := none
    cur := { v.cur with
      back := v.cur.streams, raised := none, lastIssue := v.now, issueTvec := v.trapTvec, done := 0,
      fwd := none } } : State).noteIssue

@[simp] theorem State.beginBundle_cur (v : State) : v.beginBundle.cur = { v.cur with
    back := v.cur.streams, raised := none, lastIssue := v.now, issueTvec := v.trapTvec, done := 0, fwd := none } :=
  State.noteIssue_cur _

@[simp] theorem State.beginBundle_mem (v : State) : v.beginBundle.mem = v.mem := State.noteIssue_mem _

section
variable {v : State} (hrecite : v.cur.recite = 0)
include hrecite

section
variable (hfwd : v.cur.fwd = none)
include hfwd

theorem runBundle_long {i : Instr} {t : State} (h : exec i v.beginBundle = .next t) :
    runBundle exec (.long i) v = .next (State.settle (.long i) v v.beginBundle t t.cur.raised) := by
  have hmember : (v.cur.recite != 0) = false := by simp [hrecite]
  simp only [runBundle, hfwd, hmember, Bool.and_false, Bool.false_eq_true, if_false]
  split
  case h_1 s1 hs1 =>
    obtain rfl : s1 = t := Host.Outcome.next.inj (hs1.symm.trans h)
    rfl
  case h_2 hf => cases hf.symm.trans h
  case h_3 hr => cases hr.symm.trans h

/-- S slot before V slot, on the same registers; the lower fault is raised (R77, R391). -/
theorem runBundle_paired {i j : Instr} {t x : State} (h : exec i v.beginBundle = .next t) (hmigrating : t.cur.status ≠ .migrating)
    (hheld : t.cur.status.isHeld = false) (hj : exec j { t with slotV := true, cur := { t.cur with raised := none } } = .next x) :
    runBundle exec (.paired i j) v =
      .next (State.settle (.paired i j) v v.beginBundle x (lowerFault t.cur.raised x.cur.raised)) := by
  have hmember : (v.cur.recite != 0) = false := by simp [hrecite]
  simp only [runBundle, hfwd, hmember, Bool.and_false, Bool.false_eq_true, if_false]
  split
  case h_1 s1 hs1 =>
    obtain rfl : s1 = t := Host.Outcome.next.inj (hs1.symm.trans h)
    simp only [beq_false_of_ne hmigrating, hheld, hj, Bool.or_self, Bool.false_eq_true, if_false]
    rfl
  case h_2 hf => cases hf.symm.trans h
  case h_3 hr => cases hr.symm.trans h

end

/-- Without a fault the thread retires the bundle and its pc moves (R110, R113). -/
theorem State.settle_ready (b : Bundle) {t : State} (hready : t.cur.status = .ready) (ht : t.cur.recite = 0) :
    State.settle b v v.beginBundle t none = t.retire.scheduleIssue (t.nextIssue b) := by
  simp [State.settle, State.settleOk, State.again, hready, hrecite, ht, Status.isHeld]

/-- A bundle held back is to issue again, and leaves what it began with (R205). -/
theorem State.settle_held (b : Bundle) {t : State} (hheld : t.cur.status.isHeld = true) :
    State.settle b v v.beginBundle t none = (({ v.beginBundle with
      p := v.p
      cur := { v.beginBundle.cur with
        status := t.cur.status, lastIssue := v.cur.lastIssue } } : State).scheduleIssue (t.now + 1)) := by
  have hmember : v.beginBundle.cur.recite = 0 := by simp [hrecite]
  simp only [State.settle, hheld, if_true]
  exact if_pos hmember

/-- A fault of a kind that comes before retirement leaves nothing of the bundle (R17, R394). -/
theorem State.settle_fault (b : Bundle) {t : State} {f : Raised} (hheld : t.cur.status.isHeld = false) (h7 : f.kind ≠ 7)
    (h8 : f.kind ≠ 8) (h9 : f.kind ≠ 9) :
    State.settle b v v.beginBundle t (some f) = ({ v.beginBundle with fresh := t.fresh } : State).startTrap f := by
  simp [State.settle, State.settleFault, hheld, hrecite, h7, h8, h9]

end

end Sys2Proof.Machine
end

section
/-! O57 settled. -/

namespace Sys2Proof.Proofs

open Sys2Proof.Machine

/-- Settles O57: a step is its task at the state time has passed to, and each task of the statement is the lemma about it. -/
theorem aStepRunsWhatIsDue : Obligations.AStepRunsWhatIsDue := by
  unfold Obligations.AStepRunsWhatIsDue
  refine ⟨fun s => step_of_not_powered, fun s hpower => ?due, fun s => State.settleWaits_of_none,
    fun s c rank w rest hpick hnow => ?agenda, fun v hrecite hfwd => ?bundle⟩
  case due =>
    have hstep := step_of_powered hpower
    dsimp only
    generalize (s.settleWaits.takePick s.settleWaits.pick).1 = due at *
    generalize (s.settleWaits.takePick s.settleWaits.pick).2 = u at *
    refine ⟨fun i hi => ?event, fun uid v hdue hslot => ?issue, fun uid v hdue hslot => ?left,
      fun first tile stream v w x hdue hword hx t ht => ?word, fun first tile stream v w e hdue hword he t ht => ?noWord⟩
    case event => rw [hstep, hi]; rfl
    case issue =>
      rw [hstep, hdue, runTask_issue_taken hslot]
      refine ⟨fun w b hw hb => ?_, fun w e hw he => ?_, fun hno => ?_⟩
      · rw [hw, Option.map_some, hb]; rfl
      · rw [hw, Option.map_some, he]; rfl
      · rw [hno]; rfl
    case left => rw [hstep, hdue, runTask_issue_left hslot]
    case word =>
      rw [hstep, hdue]
      exact runTask_word hword (by rw [hx]; exact ht)
    case noWord =>
      rw [hstep, hdue]
      exact runTask_word hword (by rw [he]; exact ht)
  case agenda =>
    rw [hpick]
    obtain ⟨htime, hagenda, hmem⟩ := State.advance_spec (s := { s with agenda := rest }) (c := c) hnow
    exact ⟨rfl, hagenda, htime, hmem⟩
  case bundle =>
    refine ⟨fun i t ht => runBundle_long hrecite hfwd ht, fun i j t x ht hm hh hx => runBundle_paired hrecite hfwd ht hm hh hx,
      fun b t hready ht => ⟨_, State.settle_ready hrecite b hready ht, hready, rfl, rfl, rfl, rfl, rfl⟩,
      fun b t hheld => ⟨_, State.settle_held hrecite b hheld, by simp [State.scheduleIssue, State.dueAt]⟩,
      fun b t f hheld h7 h8 h9 => State.settle_fault hrecite b hheld h7 h8 h9⟩

end Sys2Proof.Proofs
end

section
/-! O7, O8: a result on its way, and what its landing leaves (R112, R114, R118, R139, R204). -/

namespace Sys2Proof.Machine

/-! On its way (R112, R114). -/

/-- An item joins the agenda in front of the first one that is due later; the others keep their order. -/
theorem insertItem_split (x : Item) (l : List Item) : ∃ front back, l = front ++ back ∧ insertItem x l = front ++ x :: back ∧
    ∀ i ∈ back.head?, x.cycle < i.cycle ∨ (x.cycle = i.cycle ∧ x.rank < i.rank) := by
  induction l with
  | nil => exact ⟨[], [], rfl, rfl, by simp⟩
  | cons y l ih =>
    by_cases h : x.cycle < y.cycle ∨ (x.cycle = y.cycle ∧ x.rank < y.rank)
    · exact ⟨[], y :: l, rfl, if_pos h, by simpa using h⟩
    · obtain ⟨front, back, hl, hins, hhead⟩ := ih
      exact ⟨y :: front, back, by rw [hl]; rfl, by rw [insertItem, if_neg h, hins]; rfl, hhead⟩

/-- R17: only the V slot of a bundle that waits holds its results back. -/
theorem State.land_of_issuing {s : State} (h : s.slotV = false ∨ s.cur.status = .ready) (lat : Nat) (w : RegWrite) :
    s.land lat w = s.dueIn (lat * s.dil) (landRank (lat * s.dil)) (.registerResultLands s.cur.uid s.now w) := by
  rcases h with h | h <;> simp [State.land, h]

/-- R114: of two results that land together, that with the shorter delay is the later one. -/
theorem landRank_lt {m n : Nat} (h : m < n) (hn : n < 100000) : landRank n < landRank m := by
  unfold landRank; omega

/-- R79: a result for a scalar register is sent there. -/
theorem State.landA_reg {d : BitVec 5} (h : d.toNat < 24) (s : State) (lat : Nat) (v : Word) :
    s.landA lat d v = s.land lat (.a d.toNat v) := if_pos h

/-- R79: `zr` discards its result. -/
theorem State.landA_zr {d : BitVec 5} (h : 24 ≤ d.toNat) (s : State) (lat : Nat) (v : Word) : s.landA lat d v = s :=
  if_neg (by omega)

/-! Landed (R114). -/

/-- Whether a result is for a register of the thread itself: not for a stream, nor for a control register. -/
def landsInThread : RegWrite → Bool
  | .push _ _ _ _ => false
  | .creg _ _ => false
  | _ => true

/-- A vector or mask result replaces the bits under its mask. -/
theorem getLsbD_setBits {n i : Nat} (old val mask : BitVec n) (h : i < n) :
    (setBits old val mask).getLsbD i = if mask.getLsbD i then val.getLsbD i else old.getLsbD i := by
  simp only [setBits, BitVec.getLsbD_or, BitVec.getLsbD_and, BitVec.getLsbD_not, h, decide_true, Bool.true_and]
  cases mask.getLsbD i <;> simp

/-- A predicate result is one bit of `pw`. -/
theorem getLsbD_setBit {n i : Nat} (hn : n < 32) (hi : i < 32) (pw : BitVec 32) (v : Bool) :
    (if v then pw ||| (1#32 <<< n) else pw &&& ~~~(1#32 <<< n)).getLsbD i = if i = n then v else pw.getLsbD i := by
  have hbit : (1#32 <<< n).getLsbD i = decide (i = n) := by
    by_cases h : i = n
    · simp [h, hn]
    · simp [h, BitVec.getLsbD_shiftLeft]; omega
  cases v
  · rw [if_neg Bool.false_ne_true, BitVec.getLsbD_and, BitVec.getLsbD_not, hbit]
    by_cases h : i = n <;> simp [h, hi]
  · rw [if_pos rfl, BitVec.getLsbD_or, hbit]
    by_cases h : i = n <;> simp [h]

/-- Table 5.4: the RW fields of `pw`. -/
theorem getLsbD_pwRw : ∀ i, i < 32 → pwRw.getLsbD i = decide ((1 ≤ i ∧ i ≤ 15) ∨ i = 20) := by decide

/-- Table 5.4: the RS fields of `pw`. -/
theorem getLsbD_pwRs : ∀ i, i < 32 → pwRs.getLsbD i = decide ((17 ≤ i ∧ i ≤ 19) ∨ (21 ≤ i ∧ i ≤ 26)) := by decide

/-- R118: a `pwr` writes RW fields, clears RS fields where it writes 0, and keeps the others. -/
theorem getLsbD_pwWrite {i : Nat} (hi : i < 32) (pw : BitVec 32) (v : Word) : (pwWrite pw v).getLsbD i =
    if (1 ≤ i ∧ i ≤ 15) ∨ i = 20 then v.getLsbD i
    else if (17 ≤ i ∧ i ≤ 19) ∨ (21 ≤ i ∧ i ≤ 26) then pw.getLsbD i && v.getLsbD i
    else pw.getLsbD i := by
  simp only [pwWrite, BitVec.getLsbD_and, BitVec.getLsbD_or, BitVec.getLsbD_not, getLsbD_setBits _ _ _ hi, getLsbD_pwRw i hi,
    getLsbD_pwRs i hi, BitVec.getLsbD_setWidth, hi, decide_true, Bool.true_and, decide_eq_true_eq]
  by_cases hrw : (1 ≤ i ∧ i ≤ 15) ∨ i = 20
  · have hrs : ¬((17 ≤ i ∧ i ≤ 19) ∨ (21 ≤ i ∧ i ≤ 26)) := by omega
    simp [hrw, hrs]
  · by_cases hrs : (17 ≤ i ∧ i ≤ 19) ∨ (21 ≤ i ∧ i ≤ 26) <;> simp [hrw, hrs]

/-- R206: a register is bound to no stream, and its result lands there. -/
theorem Thread.landWrite_v {t : Thread} {n : Nat} (h : n < 128) (hfree : ∀ q ∈ t.streams.toList, q.bound = true → q.reg ≠ n)
    (val mask : Vec) : t.landWrite (.v n val mask) = { t with v := t.v.set n (setBits t.v[n] val mask) } := by
  have hany : (t.streams.toList.any fun st => st.bound && st.reg == n) = false :=
    List.any_eq_false.2 fun q hq => by simpa using hfree q hq
  simp only [Thread.landWrite, hany, dif_pos h]
  rfl

/-- R206: a register that a stream is bound to keeps its value. -/
theorem Thread.landWrite_bound {t : Thread} {n : Nat} (hbound : ∃ q ∈ t.streams.toList, q.bound = true ∧ q.reg = n)
    (val mask : Vec) : t.landWrite (.v n val mask) = t := by
  have hany : (t.streams.toList.any fun st => st.bound && st.reg == n) = true :=
    List.any_eq_true.2 (hbound.imp fun q hq => by simpa using hq)
  simp only [Thread.landWrite, hany, if_true]

/-- R195: the larger of two magnitudes is kept, and a NaN is marked. -/
theorem Thread.landWrite_amax (t : Thread) (code : BitVec 32) (nan : Bool) : t.landWrite (.amax code nan) = { t with
    amax := BitVec.ofNat 32 (max t.amax.toNat code.toNat)
    pw := if nan then t.pw ||| 0x00040000 else t.pw } := by
  have hmax : (if t.amax.toNat < code.toNat then code else t.amax) = BitVec.ofNat 32 (max t.amax.toNat code.toNat) := by
    split
    · next h => rw [max_eq_right h.le]; simp
    · next h => rw [max_eq_left (by omega)]; simp
  simp only [Thread.landWrite, hmax]

section
variable {s f : State} {uid : Nat} (hf : s.focusThread uid = f)
include hf

/-- R114: a result of a thread lands in it. -/
theorem exec_registerResultLands_own (huid : f.cur.uid = uid) (born : Nat) {w : RegWrite} (hw : landsInThread w = true) :
    exec (.registerResultLands uid born w) s = .next { f with cur := (f.cur.landWrite w).noteLanded f.now born w } := by
  change execRegisterResultLands uid born w s = _
  cases w with
  | push => cases hw
  | creg => cases hw
  | _ => simp [execRegisterResultLands, hf, huid]

/-- R114, R206: a push that has its value is due in the cycle that was fixed as it was claimed. -/
theorem exec_registerResultLands_push (huid : f.cur.uid = uid) (born : Nat) {sq pos : Nat} (val mask : Vec) {y : Push}
    (hy : f.cur.pushes.find? (fun z => z.sq == sq && z.pos == pos) = some y) :
    exec (.registerResultLands uid born (.push sq pos val mask)) s =
      .next (f.dueAt (max f.now y.due) (rankThread - 3) (.ev (.streamPushLands f.cur.uid sq pos val mask))) := by
  change execRegisterResultLands uid born (.push sq pos val mask) s = _
  simp only [execRegisterResultLands, hf, huid, ne_eq, not_true, if_false, State.sendPush, hy]

/-- A result of a thread that has ended goes nowhere. -/
theorem exec_registerResultLands_gone (huid : f.cur.uid ≠ uid) (born : Nat) (w : RegWrite) :
    exec (.registerResultLands uid born w) s = .next f := by
  change execRegisterResultLands uid born w s = _
  simp only [execRegisterResultLands, hf]
  exact if_pos huid

end

end Sys2Proof.Machine
end

section
/-! O7, O8 settled. -/

namespace Sys2Proof.Proofs

open Sys2Proof.Machine

/-- Settles O8: a result of a slot that does not wait is one item more of the agenda. -/
theorem resultIsScheduledAtItsLatency : Obligations.ResultIsScheduledAtItsLatency := by
  unfold Obligations.ResultIsScheduledAtItsLatency
  intro s lat w hissuing
  refine ⟨?_, fun d v hd => State.landA_reg hd s lat v, fun d v hd => State.landA_zr hd s lat v⟩
  obtain ⟨front, back, hagenda, hinsert, hlater⟩ := insertItem_split
    ⟨s.now + lat * s.dil, landRank (lat * s.dil), .ev (.registerResultLands s.cur.uid s.now w)⟩ s.agenda
  refine ⟨front, back, hagenda, ?_, hlater, fun m => landRank_lt⟩
  rw [State.land_of_issuing hissuing, State.dueIn, State.dueAt, hinsert]

/-- Settles O7: each kind of result is one case of what a landing leaves of its thread. -/
theorem landingWritesOneRegister : Obligations.LandingWritesOneRegister := by
  unfold Obligations.LandingWritesOneRegister
  intro uid born s f lands
  refine ⟨fun c w => rfl, fun huid => ?_, fun huid w => exec_registerResultLands_gone rfl huid born w⟩
  have landed {w : RegWrite} {c : Thread} (hw : landsInThread w = true) (hc : f.cur.landWrite w = c) : lands w c := by
    subst hc; exact exec_registerResultLands_own rfl huid born hw
  refine ⟨fun n h v => ?scalar, fun n v h => ?zero, fun n hn v => ?predicate, fun b => landed rfl rfl, fun v => ?pwr,
    fun n h val mask hfree => ?vector, fun n val mask hbound => landed rfl (Thread.landWrite_bound hbound val mask),
    fun n h val mask => ?mask, fun code nan => ?amax, fun v => landed rfl rfl,
    fun sq pos val mask y hy => exec_registerResultLands_push rfl huid born val mask hy⟩
  case scalar => exact landed rfl (dif_pos h)
  case zero => exact landed rfl (dif_neg (by omega))
  case predicate => exact ⟨_, landed rfl rfl, fun i hi => getLsbD_setBit hn hi f.cur.pw v⟩
  case pwr => exact ⟨_, landed rfl rfl, fun i hi => getLsbD_pwWrite hi f.cur.pw v⟩
  case vector => exact ⟨_, landed rfl (Thread.landWrite_v h hfree val mask), fun i hi => getLsbD_setBits _ _ _ hi⟩
  case mask => exact ⟨_, landed rfl (dif_pos h), fun i hi => getLsbD_setBits _ _ _ hi⟩
  case amax =>
    refine ⟨_, landed rfl (Thread.landWrite_amax _ code nan), fun i hi => ?_⟩
    have hbit : ∀ i, i < 32 → (0x00040000 : BitVec 32).getLsbD i = (i == 18) := by decide
    cases nan
    · simp
    · rw [if_pos rfl, BitVec.getLsbD_or, hbit i hi, Bool.and_true]

end Sys2Proof.Proofs
end

section
/-! O10, O44, O46: a thread leaves rotation for a descriptor in its own core's store (R67, R110, R204). -/

namespace Sys2Proof.Machine

open Sys2Proof.Claims

/-! A guard that holds (R80). -/

section
variable {b : Bool} (h : b = true) (s : State)
include h

/-- The shape of a meaning that does one thing where its guard holds. -/
theorem next_of_guard_on (t : State) : (.next (if b then t else s) : Res) = .next t := by
  rw [h]; rfl

/-- The same with the guard asked the other way round. -/
theorem next_of_guard_not_off (t : State) : (.next (if !b then s else t) : Res) = .next t := by
  rw [h]; rfl

end

/-- R80, R153: a register-form operation whose guard holds sends its result. -/
theorem scalarOp_of_guard {s : State} {g : Guard} (hg : s.guard g = true) (lat : Nat) (d : BitVec 5) (v : State → Word) :
    scalarOp lat g d v s = .next (s.landA lat d (v s)) := next_of_guard_on hg s _

/-! The own core's window (R67, R204). -/

/-- R67: the local window gives cluster and core as the address names them. -/
theorem Part.routeLocal_loc {p : Part} {off n cl co b : Nat} (h : p.routeLocal off n = .ok (.loc cl co b)) :
    off / 2 ^ 40 = cl ∧ off / 2 ^ 37 % 8 = co := by
  simp only [Part.routeLocal] at h
  split_ifs at h
  simp only [Except.ok.injEq, Target.loc.injEq] at h
  exact ⟨h.1, h.2.1⟩

/-- R69: control space holds no local store. -/
theorem Part.routeControl_ne_loc (p : Part) (off n cl co b : Nat) : p.routeControl off n ≠ .ok (.loc cl co b) := by
  intro h
  unfold Part.routeControl at h
  dsimp only at h
  split at h
  · split_ifs at h
    cases h
  · split_ifs at h
    cases h
  · split_ifs at h
    cases h
  · cases h

/-- R67: a local-window address names the cluster and the core it leads to. -/
theorem State.route_loc {s : State} {va : Word} {n cl co b : Nat} (h : s.route va n = .ok (.loc cl co b)) :
    field va 45 40 = cl ∧ field va 39 37 = co := by
  unfold State.route at h
  dsimp only at h
  split at h
  · cases h
  split at h
  · split at h <;> cases h
  split at h
  · split at h <;> cases h
  · split at h <;> cases h
  · obtain ⟨hcl, hco⟩ := Part.routeLocal_loc h
    unfold field at *
    omega
  · exact (Part.routeControl_ne_loc _ _ _ _ _ _ h).elim

section
variable {s : State} {va : Word} {n align : Nat}

theorem State.ownWindow_misaligned (h : va.toNat % align ≠ 0) : s.ownWindow va n align = .error 4 := if_pos h

theorem State.ownWindow_own {b : Nat} (haligned : va.toNat % align = 0)
    (hroute : s.route va n = .ok (.loc s.cur.loc.cluster s.cur.loc.core b)) : s.ownWindow va n align = .ok b := by
  obtain ⟨hcl, hco⟩ := State.route_loc hroute
  simp [State.ownWindow, haligned, hroute, State.ownCore, hcl, hco]

end

/-! Descriptor reads (R110, R204). -/

/-- R204: the thread is out of rotation until its descriptor has been read. -/
theorem State.readDesc_eq (s : State) (va : Word) (b : Nat) (use : DescUse) : ∃ lat n, s.readDesc va b use =
    ({ s with p := { s.p with draws := n }, nextId := s.nextId + 1, cur := { s.cur with status := .access s.nextId } } : State).dueIn lat
      (rankThread + s.cur.loc.key) (.accessComplete s.cur.uid (.desc use va s.now)) ∧ Takes s (if b < 0x80000 then 8 else 10) lat := by
  obtain ⟨lat, n, helapse, htakes⟩ := s.elapse_takes (if b < 0x80000 then 8 else 10)
  exact ⟨lat, n, by rw [State.readDesc, helapse], htakes⟩

/-- R110: nothing else of the thread or of memory changes as it leaves. -/
theorem State.readDesc_leaves (s : State) (va : Word) (b : Nat) (use : DescUse) : ∃ t lat, s.readDesc va b use = t ∧ Left s t ∧
    Takes s (if b < 0x80000 then 8 else 10) lat ∧ Due t (s.now + lat) (.accessComplete s.cur.uid (.desc use va s.now)) := by
  obtain ⟨lat, n, h, htakes⟩ := s.readDesc_eq va b use
  refine ⟨_, lat, h, ?_, htakes, due_dueAt ..⟩
  exact ⟨rfl, rfl, rfl, rfl, rfl, rfl, rfl, rfl, rfl, rfl, rfl, rfl, rfl⟩

end Sys2Proof.Machine
end

section
/-! O10, O41: how a bundle that waited ends: held results, retirement, rotation (R110, R113, R114). -/

namespace Sys2Proof.Machine

open Sys2Proof.Claims

/-! What landing results can change of a thread (R114). -/

/-- `u` is `t` after results have landed: registers of results only, and the model's lists of them. -/
def Thread.OnlyLands (t u : Thread) : Prop := ∃ a pw v vm m r h l, u = { t with
  a := a, pw := pw, v := v, vm := vm, amax := m, rctrSeen := r, heldV := h, landed := l }

theorem Thread.OnlyLands.refl (t : Thread) : t.OnlyLands t := ⟨_, _, _, _, _, _, _, _, rfl⟩

theorem Thread.OnlyLands.trans {t u w : Thread} (h : t.OnlyLands u) (k : u.OnlyLands w) : t.OnlyLands w := by
  obtain ⟨_, _, _, _, _, _, _, _, rfl⟩ := h
  obtain ⟨_, _, _, _, _, _, _, _, rfl⟩ := k
  exact ⟨_, _, _, _, _, _, _, _, rfl⟩

theorem Thread.onlyLands_landWrite (t : Thread) (w : RegWrite) : t.OnlyLands (t.landWrite w) := by
  have refl : t.OnlyLands t := .refl t
  cases w with
  | a n v =>
    obtain ⟨a, h⟩ := t.setReg_frame n v
    exact ⟨a, _, _, _, _, _, _, _, h⟩
  | v n val mask =>
    simp only [Thread.landWrite]
    split_ifs
    · exact refl
    · exact ⟨_, _, _, _, _, _, _, _, rfl⟩
    · exact refl
  | vm n val mask =>
    simp only [Thread.landWrite]
    split_ifs
    · exact ⟨_, _, _, _, _, _, _, _, rfl⟩
    · exact refl
  | push sq pos val mask => exact refl
  | creg n v => exact refl
  | _ => exact ⟨_, _, _, _, _, _, _, _, rfl⟩

/-- `t` is `s` after results of the acting thread have landed, or are on their way. -/
def State.OnlyLands (s t : State) : Prop := ∃ c a, t = { s with cur := c, agenda := a } ∧ s.cur.OnlyLands c

theorem State.OnlyLands.refl (s : State) : s.OnlyLands s := ⟨_, _, rfl, .refl _⟩

theorem State.OnlyLands.trans {s t u : State} (h : s.OnlyLands t) (k : t.OnlyLands u) : s.OnlyLands u := by
  obtain ⟨_, _, rfl, hc⟩ := h
  obtain ⟨_, _, rfl, kc⟩ := k
  exact ⟨_, _, rfl, hc.trans kc⟩

theorem State.OnlyLands.foldl {α : Type} {g : State → α → State} (hg : ∀ (s : State) x, s.OnlyLands (g s x)) (l : List α) (s : State) :
    s.OnlyLands (l.foldl g s) := by
  induction l generalizing s with
  | nil => exact .refl s
  | cons x l ih => exact (hg s x).trans (ih _)

theorem State.onlyLands_dueAt (s : State) (c r : Nat) (w : Task) : s.OnlyLands (s.dueAt c r w) := ⟨_, _, rfl, .refl _⟩

theorem State.onlyLands_landHeld (s : State) (c : Nat) (w : RegWrite) : s.OnlyLands (s.landHeld c w) := by
  have lands (t : Thread) (l : List (Nat × Nat × RegWrite)) : t.OnlyLands (l.foldl (fun t x => t.landWrite x.2.2) t) := by
    induction l generalizing t with
    | nil => exact .refl t
    | cons x l ih => exact (t.onlyLands_landWrite _).trans (ih _)
  cases w with
  | push sq pos val mask =>
    simp only [State.landHeld, State.sendPush]
    split
    · exact .refl s
    · exact s.onlyLands_dueAt ..
  | _ => exact ⟨_, _, rfl, (s.cur.onlyLands_landWrite _).trans (lands _ _)⟩

/-- R114: as a bundle retires, what its V slot held back reaches its registers, or is on its way there. -/
theorem State.onlyLands_releaseHeld (s : State) : s.OnlyLands s.releaseHeld := by
  have held (s : State) (h : List (Nat × RegWrite)) (l : List (Nat × Nat × RegWrite)) :
      s.OnlyLands { s with cur := { s.cur with heldV := h, landed := l } } := ⟨_, _, rfl, _, _, _, _, _, _, _, _, rfl⟩
  have hearlier : s.OnlyLands s.landEarlier :=
    (held s _ _).trans (.foldl (fun s (x : Nat × RegWrite) => s.onlyLands_landHeld x.1 x.2) _ _)
  refine hearlier.trans ((held s.landEarlier _ _).trans (.foldl (fun u x => ?_) _ _))
  dsimp only
  split
  · exact u.onlyLands_landHeld ..
  · exact u.onlyLands_dueAt ..

/-! Retirement and rotation (R110, R113, R125). -/

/-- R110, R113: the acting thread's bundle has retired, what it held back has landed, and the thread is in rotation. -/
theorem State.retired_rejoin {s : State} (hgoto : s.goto = none) : Retired s (s.retire.releaseHeld.rejoin s.now) ∧
    (s.retire.releaseHeld.rejoin s.now).cur.streams = s.cur.streams ∧ (s.retire.releaseHeld.rejoin s.now).mem = s.mem ∧
    (s.retire.releaseHeld.rejoin s.now).attr = s.attr := by
  obtain ⟨c, a, hrelease, _, _, _, _, _, _, _, _, rfl⟩ := s.retire.onlyLands_releaseHeld
  obtain ⟨n, g, hrejoin⟩ := s.retire.releaseHeld.rejoin_eq s.now
  rw [hrejoin, hrelease]
  refine ⟨⟨rfl, rfl, rfl, ?_⟩, rfl, rfl, rfl⟩
  simp [hgoto]

/-- And with nothing held back every register keeps its value. -/
theorem State.registers_rejoin {s : State} (hheld : s.cur.heldV = []) : (s.retire.releaseHeld.rejoin s.now).cur.a = s.cur.a ∧
    (s.retire.releaseHeld.rejoin s.now).cur.pw = s.cur.pw ∧ (s.retire.releaseHeld.rejoin s.now).cur.v = s.cur.v := by
  obtain ⟨l, hrelease⟩ := State.releaseHeld_of_heldV (s := s.retire) hheld
  obtain ⟨n, g, hrejoin⟩ := s.retire.releaseHeld.rejoin_eq s.now
  rw [hrejoin, hrelease]
  exact ⟨rfl, rfl, rfl⟩

/-! Clean words (R240). -/

@[simp] theorem State.focusThread_attr (s : State) (uid : Nat) : (s.focusThread uid).attr = s.attr := by
  obtain ⟨c, l, q, r, h⟩ := s.focusThread_eq uid; rw [h]

section
variable {s : State} {flat : Nat} (h : Clean s flat)
include h

theorem State.poisoned_of_clean : s.poisoned flat = false := by
  rcases h with h | h <;> simp [State.poisoned, h]

/-- R244: a read of a clean word finds no error. -/
theorem State.noteErrors_of_clean : s.noteErrors flat = s := by
  rcases h with h | h <;> simp [State.noteErrors, h]

end

end Sys2Proof.Machine
end

section
/-! O10: the thread's own instructions (R121, R125, R171-R178). -/

namespace Sys2Proof.Machine

open Sys2Proof.Claims

/-! The roll-call count (R177). -/

theorem Tab.getD_put {α : Type} (d : α) (k j : Nat) (a : α) (t : Tab α) :
    Tab.getD d j (Tab.put k a t) = if j = k then a else Tab.getD d j t := by
  split
  · next h => rw [h, Tab.getD_put_self]
  · next h => rw [Tab.getD, Tab.find_put_ne h, Tab.getD]

theorem State.cluster_onCluster (s : State) (c k : Nat) (g : ClusterPart → ClusterPart) :
    (s.onCluster c g).cluster k = if k = c then g (s.cluster k) else s.cluster k := by
  rw [State.cluster, State.onCluster, Tab.getD_put]
  split
  · next h => rw [h]; rfl
  · rfl

/-- R177: the count of one core of a cluster restarts. -/
def ClusterPart.zeroRoll (core : Nat) (c : ClusterPart) : ClusterPart :=
  { c with rolls := Tab.put core { Tab.getD ⟨0, false, 0⟩ core c.rolls with count := 0 } c.rolls }

theorem ClusterPart.rolls_zeroRoll (core co : Nat) (c : ClusterPart) : Tab.getD ⟨0, false, 0⟩ co (c.zeroRoll core).rolls =
    if co = core then { Tab.getD ⟨0, false, 0⟩ co c.rolls with count := 0 } else Tab.getD ⟨0, false, 0⟩ co c.rolls := by
  rw [ClusterPart.zeroRoll, Tab.getD_put]
  split
  · next h => rw [h]
  · rfl

/-- R177: the count of the acting thread's core restarts, and no other. -/
theorem exec_roll {s : State} {g : Guard} (hg : s.guard g = true) :
    exec (.roll g) s = .next (s.onCluster s.cur.loc.cluster (ClusterPart.zeroRoll s.cur.loc.core)) := next_of_guard_on hg s _

theorem State.rolls_onCluster_zeroRoll (s : State) (c core cl co : Nat) :
    Tab.getD ⟨0, false, 0⟩ co ((s.onCluster c (ClusterPart.zeroRoll core)).cluster cl).rolls =
      if cl = c ∧ co = core then { Tab.getD ⟨0, false, 0⟩ co (s.cluster cl).rolls with count := 0 }
      else Tab.getD ⟨0, false, 0⟩ co (s.cluster cl).rolls := by
  rw [State.cluster_onCluster]
  by_cases hcl : cl = c
  · rw [if_pos hcl, ClusterPart.rolls_zeroRoll]
    simp only [hcl, true_and]
  · simp only [hcl, false_and, if_false]

/-- R178: the anchor bit, and no other bit of `pw`. -/
theorem anchor_getLsbD (pw : BitVec 32) (set : Bool) {i : Nat} (hi : i < 32) :
    (if set then pw ||| 0x00010000 else pw &&& ~~~0x00010000).getLsbD i = if i = 16 then set else pw.getLsbD i := by
  have hbit : ∀ i, i < 32 → (0x00010000 : BitVec 32).getLsbD i = decide (i = 16) := by decide
  cases set
  · simp only [Bool.false_eq_true, if_false, BitVec.getLsbD_and, BitVec.getLsbD_not, hi, hbit i hi]
    split <;> simp [*]
  · simp only [if_true, BitVec.getLsbD_or, hbit i hi]
    split <;> simp [*]

/-! `spawn` (R173). -/

/-- R173: the first word of the descriptor that a `spawn` sends. -/
def spawnWord (pc : Word) (imm : BitVec 32) (anch : Bool) : Word := relTarget pc imm ||| (if anch then 0x1_0000_0000#64 else 0)

/-- R165: a direct target is a 32-bit offset. -/
theorem relTarget_setWidth (pc : Word) (imm : BitVec 32) :
    relTarget pc imm = (BitVec.ofInt 32 (pc.toNat + 8 * imm.toInt)).setWidth 64 := by
  have hlow : (imm.signExtend 64).setWidth 32 = imm := by
    apply BitVec.eq_of_getLsbD_eq
    intro i hi
    rw [BitVec.getLsbD_setWidth, BitVec.getLsbD_signExtend]
    simp [hi, show i < 64 by omega]
  have hpc : (pc.setWidth 32) = BitVec.ofInt 32 pc.toNat := by
    apply BitVec.eq_of_toNat_eq
    rw [BitVec.ofInt_natCast]
    rfl
  rw [relTarget, imm32s, BitVec.setWidth_add _ _ (by decide), BitVec.setWidth_mul _ _ (by decide), hlow, hpc, BitVec.ofInt_add,
    BitVec.ofInt_mul, BitVec.ofInt_toInt]
  rfl

/-- R173: its pc, its anchor bit, and nothing else. -/
theorem spawnWord_fields (pc : Word) (imm : BitVec 32) (anch : Bool) :
    (spawnWord pc imm anch).extractLsb' 0 32 = BitVec.ofInt 32 (pc.toNat + 8 * imm.toInt) ∧
    (spawnWord pc imm anch).getLsbD 32 = anch ∧ (spawnWord pc imm anch).extractLsb' 33 31 = 0 := by
  have hanch : ∀ i, i < 64 → (if anch then 0x1_0000_0000#64 else 0).getLsbD i = (decide (i = 32) && anch) := by
    cases anch <;> decide
  have hbit : ∀ i, i < 64 → (spawnWord pc imm anch).getLsbD i =
      ((BitVec.ofInt 32 (pc.toNat + 8 * imm.toInt)).getLsbD i || (decide (i = 32) && anch)) := by
    intro i hi
    rw [spawnWord, relTarget_setWidth, BitVec.getLsbD_or, hanch i hi, BitVec.getLsbD_setWidth]
    simp [hi]
  refine ⟨BitVec.eq_of_getLsbD_eq fun i hi => ?_, ?_, BitVec.eq_of_getLsbD_eq fun i hi => ?_⟩
  · rw [BitVec.getLsbD_extractLsb', hbit _ (by omega)]
    simp [hi, show i ≠ 32 by omega]
  · rw [hbit 32 (by decide), BitVec.getLsbD_of_ge _ _ (by decide)]
    simp
  · rw [BitVec.getLsbD_extractLsb', hbit _ (by omega), BitVec.getLsbD_of_ge _ _ (by omega)]
    simp [show 33 + i ≠ 32 by omega]

/-- R112, R173: in deterministic mode an enqueue reaches its queue at its exact time. -/
theorem State.sendEnqueue_det {s : State} (hdet : s.p.run.det = true) (cluster : Nat) (d : TaskDesc) (cycles : Nat) :
    s.sendEnqueue cluster d cycles = ({ s with cur := { s.cur with status := .waiting .enqueue } } : State).dueIn (cycles * s.dil)
      (rankEnqueue + s.cur.loc.key) (.enqueueReachesQueue ⟨s.p.first, cluster, d, .thread s.cur.uid⟩) := by
  simp only [State.sendEnqueue, State.elapse, State.elapseAt, State.atLeast, State.det, hdet, if_true]

section
variable {s : State} {g : Guard} (hg : s.guard g = true)
include hg

theorem exec_spawn_det (rs x : BitVec 5) (f : BitVec 2) (imm : BitVec 32) (hdet : s.p.run.det = true) {c : Nat}
    (hc : (if f.getLsbD 0 then (s.ra x).toNat else s.cur.loc.cluster) = c) (h48 : c < 48) (hown : s.cur.loc.cluster < 48) :
    exec (.spawn g rs x f imm) s = .next (({ s with cur := { s.cur with status := .waiting .enqueue } } : State).dueIn
      ((if c = s.cur.loc.cluster then 24 else 392) * s.dil) (rankEnqueue + s.cur.loc.key)
      (.enqueueReachesQueue ⟨s.p.first, c, ⟨spawnWord s.cur.pc imm (f.getLsbD 1), s.ra rs, 0, 0⟩, .thread s.cur.uid⟩)) := by
  have htarget : (if f.getLsbD 0 then s.ra x else BitVec.ofNat 64 s.cur.loc.cluster).toNat = c := by
    subst hc; split
    · rfl
    · rw [BitVec.toNat_ofNat]; omega
  refine (next_of_guard_on hg s _).trans ?_
  dsimp only
  rw [htarget, if_neg (by omega), State.sendEnqueue_det hdet]
  rfl

/-! Engine binding (R121). -/

section
variable (hclosed : s.cur.openPkt = none) (x : BitVec 5)
include hclosed

theorem exec_ebind_binds (h : ∀ c ∈ s.cur.parkedCmd, c.eng ≠ s.cur.bound.toNat) :
    exec (.ebind g x) s = .next { s with cur := { s.cur with bound := x.setWidth 3 } } := by
  have hdone : s.waitDone (.bind x.toNat) = true := by
    unfold State.waitDone
    dsimp only
    split
    · next c hc => simpa using h c hc
    · rfl
  refine (next_of_guard_on hg s _).trans ?_
  simp [hclosed, hdone]

theorem exec_ebind_waits (h : ∃ c ∈ s.cur.parkedCmd, c.eng = s.cur.bound.toNat) :
    exec (.ebind g x) s = .next { s with cur := { s.cur with status := .waiting (.bind x.toNat) } } := by
  obtain ⟨c, hc, heng⟩ := h
  have hdone : s.waitDone (.bind x.toNat) = false := by
    simp only [State.waitDone, Option.mem_def.1 hc, heng]
    exact bne_self_eq_false _
  refine (next_of_guard_on hg s _).trans ?_
  simp [hclosed, hdone]

end

/-! Time (R125). -/

theorem exec_tick (d : BitVec 5) : exec (.tick g d) s = .next (s.landA 2 d
    (BitVec.ofNat 64 (if s.p.run.det then s.plan - s.p.run.plan0 else s.now / 2 + s.tickOff))) :=
  scalarOp_of_guard hg 2 d fun s => BitVec.ofNat 64 (if s.det then s.plan - s.p.run.plan0 else s.tick)

theorem exec_cycl (d : BitVec 5) : exec (.cycl g d) s = .next (s.landA 2 d
    (if s.p.run.det then s.cur.retired else BitVec.ofNat 64 (s.now + 2 * s.tickOff))) := by
  have hcycles : 2 * s.tick + s.now % 2 = s.now + 2 * s.tickOff := by unfold State.tick; omega
  refine (scalarOp_of_guard hg 2 d fun s => if s.det then s.cur.retired else BitVec.ofNat 64 (2 * s.tick + s.now % 2)).trans ?_
  rw [hcycles]
  rfl

end

/-! Random bits (R171, R172). -/

/-- A result on its way changes the agenda, or what the V slot holds back. -/
theorem State.land_eq (s : State) (l : Nat) (w : RegWrite) :
    ∃ h a, s.land l w = { s with cur := { s.cur with heldV := h }, agenda := a } ∧ s.agenda ⊆ a := by
  rcases s.land_cases l w with h | h
  · exact ⟨_, s.agenda, h, List.Subset.refl _⟩
  · exact ⟨s.cur.heldV, _, h, s.agenda_subset_dueAt ..⟩

theorem State.landA_eq (s : State) (l : Nat) (d : BitVec 5) (v : Word) :
    ∃ h a, s.landA l d v = { s with cur := { s.cur with heldV := h }, agenda := a } ∧ s.agenda ⊆ a := by
  unfold State.landA
  split
  · exact s.land_eq ..
  · exact ⟨s.cur.heldV, s.agenda, rfl, List.Subset.refl _⟩

/-- R171: the results of a draw are on their way. -/
def State.drawn (s : State) (d rs : BitVec 5) : State :=
  (s.landA 6 d (randBits s.cur.rkey ((s.ra rs).setWidth 32 ++ s.cur.rctr))).land 4 (.rctr (s.cur.rctr + 1))

/-- R114, R171: the drawn bits land in their register, unless that is `zr`. -/
theorem State.drawn_eq (s : State) (d rs : BitVec 5) : ∃ h a, s.drawn d rs = { s with cur := { s.cur with heldV := h }, agenda := a } ∧
    (s.slotV = false → ⟨s.now + 6 * s.dil, landRank (6 * s.dil), .ev (.registerResultLands s.cur.uid s.now
      (.a d.toNat (randBits s.cur.rkey ((s.ra rs).setWidth 32 ++ s.cur.rctr))))⟩ ∈ a ∨ 24 ≤ d.toNat) := by
  generalize hv : randBits s.cur.rkey ((s.ra rs).setWidth 32 ++ s.cur.rctr) = v
  obtain ⟨h, a, hland, -⟩ := s.landA_eq 6 d v
  obtain ⟨h', b, hland', hsub⟩ := (s.landA 6 d v).land_eq 4 (.rctr (s.cur.rctr + 1))
  refine ⟨h', b, by rw [State.drawn, hv, hland', hland], fun hslot => ?_⟩
  by_cases hd : d.toNat < 24
  · refine .inl (hsub ?_)
    rw [State.landA_reg hd, State.land_of_issuing (.inl hslot)]
    exact mem_insertItem.2 (.inl rfl)
  · exact .inr (by omega)

/-- R171: and the counter has advanced by one. -/
def State.drawnOn (s : State) (d rs : BitVec 5) : State :=
  { s.drawn d rs with cur := { (s.drawn d rs).cur with rctr := s.cur.rctr + 1 } }

/-- R172: what the wrap of the counter does besides. -/
def State.drawWraps (s : State) : State :=
  let s := { s with cur := { s.cur with pw := s.cur.pw ||| 0x00080000 } }
  if s.cur.pw.getLsbD 20 then s.raise 8 0 else s

theorem exec_rnd {s : State} {g : Guard} (hg : s.guard g = true) (d rs : BitVec 5) : exec (.rnd g d rs) s =
    .next (if s.cur.rctr + 1 = 0 then (s.drawnOn d rs).drawWraps else s.drawnOn d rs) := by
  have hctr (v : Word) : (s.landA 6 d v).cur.rctr = s.cur.rctr := by
    obtain ⟨h, a, hland, -⟩ := s.landA_eq 6 d v
    rw [hland]
  refine (next_of_guard_on hg s _).trans ?_
  dsimp only
  rw [hctr]
  rfl

/-- R172: a wrap says so in `pw`, and faults only where `pw.rndtrap` is set. -/
theorem State.drawWraps_eq (s : State) : ∃ f, s.drawWraps = { s with cur := { s.cur with
      pw := s.cur.pw ||| 0x00080000, raised := f } } ∧ (f ≠ s.cur.raised → s.cur.pw.getLsbD 20 = true) := by
  have hbit : (s.cur.pw ||| 0x00080000).getLsbD 20 = s.cur.pw.getLsbD 20 := by simp
  simp only [State.drawWraps, hbit]
  split
  · next htrap => exact ⟨_, rfl, fun _ => htrap⟩
  · exact ⟨_, rfl, fun h => absurd rfl h⟩

/-- R171, R172: one draw: the counter, the bits on their way, the wrap. -/
theorem rnd_draws {s : State} {g : Guard} (hg : s.guard g = true) (d rs : BitVec 5) : ∃ t, exec (.rnd g d rs) s = .next t ∧
    t.cur.rctr = s.cur.rctr + 1 ∧ t.mem = s.mem ∧ t.cur.a = s.cur.a ∧
    (s.slotV = false → ⟨s.now + 6 * s.dil, landRank (6 * s.dil), .ev (.registerResultLands s.cur.uid s.now
      (.a d.toNat (randBits s.cur.rkey ((s.ra rs).setWidth 32 ++ s.cur.rctr))))⟩ ∈ t.agenda ∨ 24 ≤ d.toNat) ∧
    (t.cur.raised ≠ s.cur.raised → s.cur.rctr = BitVec.allOnes 32 ∧ s.cur.pw.getLsbD 20 = true) ∧
    (s.cur.rctr = BitVec.allOnes 32 → t.cur.pw.getLsbD 19 = true) ∧
    (∀ i, i < 32 → i ≠ 19 → t.cur.pw.getLsbD i = s.cur.pw.getLsbD i) := by
  obtain ⟨h, a, hdrawn, hlands⟩ := s.drawn_eq d rs
  have hlast : s.cur.rctr + 1 = 0 ↔ s.cur.rctr = BitVec.allOnes 32 := by
    rw [show BitVec.allOnes 32 = 4294967295#32 from rfl]
    constructor <;> intro h <;> bv_omega
  simp only [exec_rnd hg, hlast]
  by_cases hwrap : s.cur.rctr = BitVec.allOnes 32
  · have hbit : ∀ i, i < 32 → (0x00080000 : BitVec 32).getLsbD i = decide (i = 19) := by decide
    obtain ⟨f, hwraps, htrap⟩ := (s.drawnOn d rs).drawWraps_eq
    rw [if_pos hwrap, hwraps, State.drawnOn, hdrawn]
    refine ⟨_, rfl, rfl, rfl, rfl, hlands, fun hf => ⟨hwrap, ?_⟩, fun _ => ?_, fun i hi hne => ?_⟩
    · simpa only [State.drawnOn, hdrawn] using htrap (by simpa only [State.drawnOn, hdrawn] using hf)
    · rw [BitVec.getLsbD_or, hbit 19 (by decide)]; simp
    · rw [BitVec.getLsbD_or, hbit i hi]; simp [hne]
  · rw [if_neg hwrap, State.drawnOn, hdrawn]
    exact ⟨_, rfl, rfl, rfl, rfl, hlands, fun hf => absurd rfl hf, fun h => absurd h hwrap, fun i _ _ => rfl⟩

end Sys2Proof.Machine
end

section
/-! O10: `sbind`, and the binding of a stream as its descriptor has been read (R202, R204). -/

namespace Sys2Proof.Machine

open Sys2Proof.Claims

/-! At issue (R202, R204). -/

theorem State.streamOf_isSome (s : State) (n : Nat) :
    (s.streamOf n).isSome = true ↔ ∃ q ∈ s.cur.streams.toList, q.bound = true ∧ q.reg = n := by
  rw [State.streamOf, List.find?_isSome]
  constructor
  · rintro ⟨x, -, hx⟩
    split at hx
    · next q hq => exact ⟨q, List.mem_of_getElem? hq, by simpa using hx⟩
    · cases hx
  · rintro ⟨q, hq, hbound, hreg⟩
    obtain ⟨x, hx, hget⟩ := List.getElem_of_mem hq
    refine ⟨x, List.mem_range.2 (by simpa using hx), ?_⟩
    rw [List.getElem?_eq_getElem hx, hget]
    simp [hbound, hreg]

section
variable {s : State} {g : Guard} (hg : s.guard g = true) (rs x : BitVec 5) {f : BitVec 2} (imm : BitVec 32) (h : x.toNat % 4 < 4)
include hg

theorem exec_sbind_free (hfree : f.getLsbD 1 = true) : exec (.sbind g rs x f imm) s = .next
    (if s.cur.streams[x.toNat % 4].bound = false then s
    else if s.cur.streams[x.toNat % 4].flight = 0 then
      { s with cur := { s.cur with streams := s.cur.streams.set (x.toNat % 4) s.cur.streams[x.toNat % 4].freed } }
    else { s with cur := { s.cur with status := .waiting (.freed (x.toNat % 4)) } }) := by
  change execSbind g rs x f imm s = _
  have hget : s.cur.streams.toList[x.toNat % 4]? = some s.cur.streams[x.toNat % 4] := by simp [h]
  simp only [execSbind, hg, hget, hfree, h, Bool.not_true, Bool.false_eq_true, if_false, if_true, dif_pos]
  cases s.cur.streams[x.toNat % 4].bound
  · rfl
  · simp only [Bool.not_true, Bool.false_eq_true, if_false, Bool.true_eq_false]
    split <;> rfl

section
variable (hbinds : f.getLsbD 1 = false)
include hbinds

/-- R204: a stream or a register that is bound already. -/
theorem exec_sbind_taken (htaken : s.cur.streams[x.toNat % 4].bound = true ∨ ∃ q ∈ s.cur.streams.toList, q.bound = true ∧ q.reg = imm.toNat) :
    exec (.sbind g rs x f imm) s = .next (s.raise 2 s.cur.pc) := by
  change execSbind g rs x f imm s = _
  have hget : s.cur.streams.toList[x.toNat % 4]? = some s.cur.streams[x.toNat % 4] := by simp [h]
  rw [← State.streamOf_isSome] at htaken
  simp only [execSbind, hg, hget, hbinds, Bool.not_true, Bool.false_eq_true, if_false, Bool.or_eq_true, htaken, if_true]

/-- R204: the descriptor of a stream that may be bound is read. -/
theorem exec_sbind_reads (htaken : ¬(s.cur.streams[x.toNat % 4].bound = true ∨
      ∃ q ∈ s.cur.streams.toList, q.bound = true ∧ q.reg = imm.toNat))
    {b : Nat} (haligned : (s.ra rs).toNat % 32 = 0) (hroute : s.route (s.ra rs) 32 = .ok (.loc s.cur.loc.cluster s.cur.loc.core b)) :
    exec (.sbind g rs x f imm) s = .next (s.readDesc (s.ra rs) b (.sbind (x.toNat % 4) (f.getLsbD 0) imm.toNat)) := by
  change execSbind g rs x f imm s = _
  have hget : s.cur.streams.toList[x.toNat % 4]? = some s.cur.streams[x.toNat % 4] := by simp [h]
  rw [← State.streamOf_isSome] at htaken
  simp only [execSbind, hg, hget, hbinds, Bool.not_true, Bool.false_eq_true, if_false, Bool.or_eq_true, htaken,
    State.ownWindow_own haligned hroute]

end

end

/-! At completion (R204). -/

/-- R205: what a pop stream is to sample is on the agenda. -/
theorem State.expectElem_eq (s : State) (x k : Nat) : ∃ a, s.expectElem x k = { s with agenda := a } := by
  unfold State.expectElem
  split
  · exact ⟨s.agenda, rfl⟩
  · split
    · exact ⟨s.agenda, rfl⟩
    · split
      · exact ⟨_, rfl⟩
      · exact ⟨s.agenda, rfl⟩

/-- R204, R205: a stream as it is bound, its ready times counted from a cycle. -/
def StreamReg.asBound (old : StreamReg) (push : Bool) (reg : Nat) (w0 w1 w2 w3 : Word) (base : Nat) : StreamReg :=
  ⟨true, push, w0.getLsbD 22, old.exh, reg, w0, w1, w2, w3, 0, base, [], [], 0⟩

/-- R204: one stream of the acting thread is bound; in deterministic mode its ready times count from now. -/
theorem State.bindStream_eq (s : State) {x : Nat} (h : x < 4) (push : Bool) (reg : Nat) (w0 w1 w2 w3 : Word) : ∃ n base a,
    s.bindStream x push reg w0 w1 w2 w3 = { s with
      p := { s.p with draws := n }
      cur := { s.cur with streams := s.cur.streams.set x (s.cur.streams[x].asBound push reg w0 w1 w2 w3 base) }
      agenda := a } ∧ (s.p.run.det = true → base = s.now) := by
  have hexpect (u : State) (l : List Nat) : ∃ a, l.foldl (fun s k => s.expectElem x k) u = { u with agenda := a } := by
    refine List.foldlRecOn (motive := fun (t : State) => ∃ a, t = { u with agenda := a }) _ _ ⟨u.agenda, rfl⟩ ?_
    rintro t ⟨a, rfl⟩ k -
    exact State.expectElem_eq ..
  have hget : s.cur.streams.toList[x]? = some s.cur.streams[x] := by simp [h]
  obtain ⟨n, base, hlate, hdet⟩ : ∃ n base, (if s.det then (0, s) else s.draw (63 * 8 * s.dil)) =
      (base - s.now, { s with p := { s.p with draws := n } }) ∧ s.now ≤ base ∧ (s.p.run.det = true → base = s.now) := by
    unfold State.det
    split
    · exact ⟨s.p.draws, s.now, by simp, le_refl _, fun _ => rfl⟩
    · next hdet => exact ⟨_, s.now + _, by rw [Nat.add_sub_cancel_left]; rfl, Nat.le_add_right _ _, fun h => absurd h hdet⟩
  simp only [State.bindStream, hlate, hget, dif_pos h]
  rw [Nat.add_sub_cancel' hdet.1]
  split
  · exact ⟨n, base, s.agenda, rfl, hdet.2⟩
  · obtain ⟨a, ha⟩ := hexpect _ _
    exact ⟨n, base, a, ha, hdet.2⟩

section
variable {s f : State} {uid : Nat} (hf : s.focusThread uid = f) (huid : f.cur.uid = uid) (h0 : uid ≠ 0)
include hf huid h0

/-- R116: a descriptor read of a thread that waits for it completes. -/
theorem exec_accessComplete_desc {id : Nat} (hout : f.cur.status = .access id) (use : DescUse) (va : Word) (born : Nat) :
    exec (.accessComplete uid (.desc use va born)) s = .next (f.endDesc use va) := by
  change execAccessComplete uid (.desc use va born) s = _
  simp [execAccessComplete, hf, huid, h0, State.outForAccess, hout]

end

/-- R204, R281, R287, R362: a descriptor without an error is taken as it stands. -/
theorem State.desc_clean {s : State} {f n : Nat} (hclean : ∀ i, i < n → Clean s (f + 8 * i)) :
    ((List.range n).find? fun i => s.poisoned (f + 8 * i)) = none ∧ (List.range n).foldl (fun s i => s.noteErrors (f + 8 * i)) s = s := by
  refine ⟨List.find?_eq_none.2 fun i hi => by simp [State.poisoned_of_clean (hclean i (List.mem_range.1 hi))], ?_⟩
  refine List.foldlRecOn (motive := fun u => u = s) _ _ rfl ?_
  rintro _ rfl i hi
  exact State.noteErrors_of_clean (hclean i (List.mem_range.1 hi))

/-- What a target on the package's own side makes of a match. -/
theorem match_loc {α : Type} {r : Except Nat Target} {cl co b : Nat} (f : Nat → Nat → Nat → α) (x : α) : r = .ok (.loc cl co b) →
    (match r with | .ok (.loc cl co b) => f cl co b | _ => x) = f cl co b := by
  rintro rfl
  rfl

/-- One local definition put in: the kernel checks the steps one by one, and not all of them at once. -/
theorem have_eq {α β : Type} (v : α) (f : α → β) : (have x := v; f x) = f v := rfl

section
variable {s : State} {va : Word} {cl co b : Nat} {w : Nat → Word} (hw : ∀ i, s.word (flatLocal cl co b + 8 * i) = w i)
  (hroute : s.route va 1 = .ok (.loc cl co b)) (hclean : ∀ i, i < 4 → Clean s (flatLocal cl co b + 8 * i))
include hw hroute hclean

/-- R204: a good descriptor binds the stream, and the bundle ends. -/
theorem State.endDesc_sbind (hgood : descFault s.p cl co va (w 0) (w 1) (w 2) (w 3) = none)
    (hport : (w 0).getLsbD 22 = true → s.cur.bound = 3) (x : Nat) (push : Bool) (reg : Nat) :
    s.endDesc (.sbind x push reg) va = (s.bindStream x push reg (w 0) (w 1) (w 2) (w 3)).descDone := by
  obtain ⟨hfind, hfold⟩ := State.desc_clean hclean
  have hbound : ((w 0).getLsbD 22 && s.cur.bound != 3) = false := by
    cases hbit : (w 0).getLsbD 22
    · rfl
    · simp [hport hbit]
  unfold State.endDesc
  refine (match_loc _ _ hroute).trans <| (have_eq _ _).trans <| (have_eq _ _).trans <| (have_eq _ _).trans <|
    (have_eq _ _).trans <| (have_eq _ _).trans <| (have_eq _ _).trans ?_
  rw [show descWords (.sbind x push reg) = 4 from rfl, hfold]
  generalize List.find? _ _ = bad at hfind
  subst hfind
  simp only [hw, hbound, hgood]
  rfl

end

/-- R110: a bundle that waited for its descriptor retires. -/
theorem State.descDone_eq {s : State} {id : Nat} (h : s.cur.status = .access id) : s.descDone = s.retire.releaseHeld.rejoin s.now := by
  obtain ⟨c, a, hrelease, _, _, _, _, _, _, _, _, rfl⟩ := s.retire.onlyLands_releaseHeld
  simp only [State.descDone, hrelease, State.retire_cur, h]
  rfl

end Sys2Proof.Machine
end

section
/-! O10 settled. -/

namespace Sys2Proof.Proofs

open Sys2Proof.Machine Sys2Proof.Claims

/-- R204: a descriptor that has been read binds its stream, and its bundle retires. -/
theorem streamIsBound {uid sq reg id cl co b born : Nat} {push : Bool} {va : Word} (h : sq < 4) {s u : State}
    (hu : s.focusThread uid = u) (huid : u.cur.uid = uid) (h0 : uid ≠ 0) (hout : u.cur.status = .access id)
    (hroute : u.route va 1 = .ok (.loc cl co b)) {w : Nat → Word} (hw : ∀ i, u.word (flatLocal cl co b + 8 * i) = w i)
    (hclean : ∀ i, i < 4 → Clean u (flatLocal cl co b + 8 * i)) (hgood : descFault u.p cl co va (w 0) (w 1) (w 2) (w 3) = none)
    (hport : (w 0).getLsbD 22 = true → u.cur.bound = 3) (hgoto : s.goto = none) :
    ∃ t base, exec (.accessComplete uid (.desc (.sbind sq push reg) va born)) s = .next t ∧ Retired u t ∧
      (u.cur.heldV = [] → t.cur.v = u.cur.v) ∧ t.mem = s.mem ∧ (u.p.run.det = true → base = s.now) ∧
      t.cur.streams = u.cur.streams.set sq (u.cur.streams[sq].asBound push reg (w 0) (w 1) (w 2) (w 3) base) := by
  obtain ⟨n, base, a, hbind, hbase⟩ := u.bindStream_eq h push reg (w 0) (w 1) (w 2) (w 3)
  have hexec := exec_accessComplete_desc hu huid h0 hout (.sbind sq push reg) va born
  rw [State.endDesc_sbind hw hroute hclean hgood hport] at hexec
  generalize u.bindStream sq push reg (w 0) (w 1) (w 2) (w 3) = v at hbind hexec
  have hstatus : v.cur.status = .access id := by rw [hbind]; exact hout
  have hvgoto : v.goto = none := by rw [hbind]; exact (by rw [← hu, State.focusThread_goto, hgoto])
  obtain ⟨⟨hvuid, hready, hretired, hpc⟩, hstreams, hmem, -⟩ := State.retired_rejoin hvgoto
  rw [State.descDone_eq hstatus] at hexec
  refine ⟨_, base, hexec, ⟨?_, hready, ?_, ?_⟩, fun hheld => ?_, ?_, fun hdet => ?_, ?_⟩
  · rw [hvuid, hbind]
  · rw [hretired, hbind]
  · rw [hpc, hbind]
  · rw [(State.registers_rejoin (s := v) (by rw [hbind]; exact hheld)).2.2, hbind]
  · rw [hmem, hbind, ← hu]; exact State.focusThread_mem ..
  · rw [hbase hdet, ← hu, State.focusThread_now]
  · rw [hstreams, hbind]

/-- Settles O10: each clause is its instruction's equation under a guard that holds; `sbind` is settled at issue and at the end
of its descriptor read. -/
theorem threadInstructionResults : Obligations.ThreadInstructionResults := by
  unfold Obligations.ThreadInstructionResults
  intro g d rs x s
  refine ⟨fun hg hclosed => ?texit, fun hg => ⟨next_of_guard_on hg s _, ⟨_, exec_roll hg, rfl, rfl, fun cl => ?rolls,
    fun cl co => State.rolls_onCluster_zeroRoll ..⟩, fun fn => ⟨_, next_of_guard_on hg s _, fun i hi => anchor_getLsbD _ _ hi⟩,
    ?spawn, fun hclosed h => exec_ebind_binds hg hclosed x h,
    fun hclosed h => exec_ebind_waits hg hclosed x h, exec_tick hg d, exec_cycl hg d, rnd_draws hg d rs, fun f imm h => ?sbind⟩, ?bound⟩
  case texit =>
    refine (next_of_guard_on hg s _).trans ?_
    rw [hclosed]
    rfl
  case rolls =>
    rw [State.cluster_onCluster]
    split <;> rfl
  case spawn =>
    intro f imm hdet c hc hown
    obtain ⟨hpc, hanch, hrest⟩ := spawnWord_fields s.cur.pc imm (f.getLsbD 1)
    exact ⟨_, hpc, hanch, hrest, exec_spawn_det hg rs x f imm hdet rfl hc hown⟩
  case sbind =>
    refine ⟨fun hfree => ?_, fun hbinds htaken => exec_sbind_taken hg rs x imm h hbinds htaken,
      fun b hbinds htaken hdet haligned hroute => ?_⟩
    · rw [exec_sbind_free hg rs x imm h hfree]
      refine ⟨fun hb => by rw [if_pos hb], fun hb hflight => ?_, fun hb hflight => ?_⟩
      · rw [if_neg (by simp [hb]), if_pos hflight]; rfl
      · rw [if_neg (by simp [hb]), if_neg hflight]
    · obtain ⟨lat, n, hread, -, -, hexact⟩ := s.readDesc_eq (s.ra rs) b (.sbind (x.toNat % 4) (f.getLsbD 0) imm.toNat)
      refine ⟨_, (exec_sbind_reads hg rs x imm h hbinds htaken haligned hroute).trans (congrArg _ hread), rfl, rfl, rfl, rfl, ?_⟩
      rw [← hexact hdet]
      exact due_dueAt ..
  case bound =>
    intro uid sq reg id cl co b born push va h u w huid h0 hout hroute hclean hgood hport hgoto
    obtain ⟨t, base, hexec, hretired, hv, hmem, hbase, hstreams⟩ :=
      streamIsBound h rfl huid h0 hout hroute (fun _ => rfl) hclean hgood hport hgoto
    refine ⟨t, hexec, hretired, hv, hmem, ?_⟩
    have hself : t.cur.streams[sq] = u.cur.streams[sq].asBound push reg (w 0) (w 1) (w 2) (w 3) base := by
      simp only [hstreams, Vector.getElem_set_self]; rfl
    rw [hself]
    refine ⟨rfl, rfl, rfl, rfl, rfl, rfl, rfl, rfl, rfl, rfl, hbase, fun y hy hne => ?_⟩
    simp only [hstreams, Vector.getElem_set_ne h hy hne.symm]
    rfl

end Sys2Proof.Proofs
end

section
/-! O41, O44: what a write to a word can change besides the word (R348, R356, R357). -/

namespace Sys2Proof.Machine

open Sys2Proof.Claims

/-- R356: a write shows in a thread's monitor, and ends its `nap`. -/
theorem Thread.noteWrite_frame (t : Thread) (flat : Nat) : ∃ m n, t.noteWrite flat = { t with monitor := m, napAt := n } := by
  unfold Thread.noteWrite
  split
  · exact ⟨_, _, rfl⟩
  · exact ⟨t.monitor, t.napAt, rfl⟩

/-- R348, R356, R357: of the acting thread a write changes the monitor only. -/
theorem State.noted_frame (s : State) (flat : Nat) : ∃ a m n l,
    s.noted flat = { s with agenda := a, cur := { s.cur with monitor := m, napAt := n }, threads := l } := by
  obtain ⟨a, c, l, h⟩ := s.noted_eq flat
  obtain ⟨m, n, hcur⟩ := s.cur.noteWrite_frame flat
  have hc : c = s.cur.noteWrite flat := by
    have hkeep (l : List Thread) (u : State) : (l.foldl (fun s t =>
        s.dueAt (s.now + figure t.loc flat * s.dilOf t.part / 2) rankDone (.ev (.napWake t.uid))) u).cur = u.cur :=
      List.foldlRecOn (motive := fun (v : State) => v.cur = u.cur) _ _ rfl fun _ hv _ _ => hv
    have := congrArg State.cur h
    simp only [State.noted, State.wakeTurn, State.wakeList] at this
    split_ifs at this <;> simpa [hkeep] using this.symm
  exact ⟨a, m, n, l, by rw [h, hc, hcur]⟩

/-- R243: a full/empty bit that is set. -/
theorem State.setFull_frame (s : State) (flat : Nat) (full : Bool) : ∃ b a m n l, s.setFull flat full =
    { s with attr := b, agenda := a, cur := { s.cur with monitor := m, napAt := n }, threads := l } := by
  unfold State.setFull
  dsimp only
  rw [State.setAttr_eq]
  obtain ⟨a, m, n, l, h⟩ := State.noted_frame _ _
  exact ⟨_, a, m, n, l, h⟩

theorem State.setFulls_frame (s : State) (full : Bool) (dests : List Nat) : ∃ b a m n l, dests.foldl (fun s f => s.setFull f full) s =
    { s with attr := b, agenda := a, cur := { s.cur with monitor := m, napAt := n }, threads := l } := by
  refine List.foldlRecOn (motive := fun (u : State) => ∃ b a m n l, u =
    { s with attr := b, agenda := a, cur := { s.cur with monitor := m, napAt := n }, threads := l }) _ _ ⟨_, _, _, _, _, rfl⟩ ?_
  rintro _ ⟨b, a, m, n, l, rfl⟩ f -
  obtain ⟨b', a', m', n', l', h⟩ := State.setFull_frame _ f full
  exact ⟨b', a', m', n', l', h⟩

end Sys2Proof.Machine
end

section
/-! O44, O46: the binding of an engine (R120). -/

namespace Sys2Proof.Machine

section
variable {s : State} {eng : Nat} (f : State → State)

theorem State.bound_fault (h : s.cur.bound.toNat ≠ eng) : s.bound eng f = s.raise 3 (BitVec.ofNat 64 eng) := if_pos h

theorem State.bound_does (h : s.cur.bound.toNat = eng) : s.bound eng f = f s := if_neg (not_not.2 h)

/-- R120: an instruction of a bound engine, as the shape of its meaning has it. -/
theorem next_of_bound {g : Guard} (hg : s.guard g = true) (h : s.cur.bound.toNat = eng) :
    (.next (if s.guard g then s.bound eng f else s) : Res) = .next (f s) := by
  rw [next_of_guard_on hg, State.bound_does f h]

theorem next_of_not_bound {g : Guard} (hg : s.guard g = true) (h : s.cur.bound.toNat ≠ eng) :
    (.next (if s.guard g then s.bound eng f else s) : Res) = .next (s.raise 3 (BitVec.ofNat 64 eng)) := by
  rw [next_of_guard_on hg, State.bound_fault f h]

end

theorem State.bound_toNat_ne {s : State} {b : BitVec 3} (h : s.cur.bound ≠ b) : s.cur.bound.toNat ≠ b.toNat :=
  fun he => h (BitVec.eq_of_toNat_eq he)

end Sys2Proof.Machine
end

section
/-! O44: commands to the engines at issue (R270-R272, R276, R277, R281, R284, R287). -/

namespace Sys2Proof.Machine

open Sys2Proof.Claims

/-! Descriptors of commands (R281, R287). -/

section
variable {s : State} {g : Guard} (hg : s.guard g = true) (d rs : BitVec 5) {b : Nat} (haligned : (s.ra rs).toNat % 64 = 0)
include hg haligned

theorem exec_cjob_reads (hbound : s.cur.bound = 2) (hroute : s.route (s.ra rs) 192 = .ok (.loc s.cur.loc.cluster s.cur.loc.core b)) :
    exec (.cjob g d rs) s = .next (s.readDesc (s.ra rs) b (.cjob d.toNat)) := by
  refine (next_of_bound _ hg (by rw [hbound]; rfl)).trans ?_
  rw [State.ownWindow_own haligned hroute]

theorem exec_gjob_reads (hbound : s.cur.bound = 3) (hroute : s.route (s.ra rs) 64 = .ok (.loc s.cur.loc.cluster s.cur.loc.core b)) :
    exec (.gjob g d rs) s = .next (s.readDesc (s.ra rs) b (.gjob d.toNat)) := by
  refine (next_of_bound _ hg (by rw [hbound]; rfl)).trans ?_
  rw [State.ownWindow_own haligned hroute]

end

/-! Matrix commands (R276, R277). -/

/-- R276: the command of a matrix instruction, with its registers read. -/
def State.matCmdOf (s : State) (gather : Bool) (rs x : BitVec 5) (imm : BitVec 32) : Command :=
  .mat gather (s.ra rs) (s.ra (rs + 1)) (s.ra x) (s.ra (x + 1)) (s.ra (imm.extractLsb' 27 5)) (s.ra (imm.extractLsb' 27 5 + 1))
    (if gather then s.ra (imm.extractLsb' 22 5) else 0) imm

/-- The same as the engine takes it apart. -/
def State.matOf (s : State) (gather : Bool) (rs x : BitVec 5) (imm : BitVec 32) : MatCmd :=
  matCmd gather (s.ra rs) (s.ra (rs + 1)) (s.ra x) (s.ra (x + 1)) (s.ra (imm.extractLsb' 27 5)) (s.ra (imm.extractLsb' 27 5 + 1))
    (if gather then s.ra (imm.extractLsb' 22 5) else 0) imm

section
variable {s : State} {gather : Bool} (d : BitVec 5) {rs x : BitVec 5} {imm : BitVec 32}

theorem exec_mat {g : Guard} (hg : s.guard g = true) (hbound : s.cur.bound = 1) {i : Instr}
    (hi : (i, gather) ∈ [(Instr.mjob g d rs x imm, false), (Instr.mjobG g d rs x imm, true)]) :
    exec i s = .next (s.matCommand gather d rs x imm) := by
  rcases List.mem_pair.1 hi with h | h
  · cases h
    exact next_of_bound _ hg (by rw [hbound]; rfl)
  · cases h
    exact next_of_bound _ hg (by rw [hbound]; rfl)

theorem State.matCommand_fault {k : Nat} {a : Word} (h : s.matFault s.cur.loc.cluster (s.matOf gather rs x imm) = some (k, a)) :
    s.matCommand gather d rs x imm = s.raise k a := by
  unfold State.matOf at h
  simp only [State.matCommand, h]

theorem State.matCommand_accept (h : s.matFault s.cur.loc.cluster (s.matOf gather rs x imm) = none) :
    s.matCommand gather d rs x imm = s.accept ⟨1, d.toNat, s.matCmdOf gather rs x imm, s.fetch.getD 0⟩ := by
  unfold State.matOf at h
  simp only [State.matCommand, h]
  rfl

end

section
variable {s : State} {c : Parked} (hparked : s.cur.parkedCmd = none)
include hparked

/-- R270: a fifth command of a thread on an engine is parked. -/
theorem State.accept_parks (h : 4 ≤ s.unfinished s.cur.uid c.eng) : s.accept c = { s with cur := { s.cur with parkedCmd := some c } } := by
  rw [State.accept, if_neg (by simp [hparked]), if_neg (by omega)]

theorem State.accept_takes (h : s.unfinished s.cur.uid c.eng < 4) : s.accept c = s.take c := by
  rw [State.accept, if_neg (by simp [hparked]), if_pos h]

end

/-! Acceptance (R270, R271). -/

/-- R272: a job that is first of its line has its first step on the agenda. -/
theorem State.startJob_eq (s : State) (j : Job) : ∃ a, s.startJob j = { s with agenda := a } ∧ s.agenda ⊆ a := by
  unfold State.startJob
  split
  · exact ⟨s.agenda, rfl, List.Subset.refl _⟩
  · exact ⟨_, rfl, s.agenda_subset_dueAt ..⟩

/-- R271: the sequence number after the last one. -/
def nextSeq (last : Nat) : Nat := last % 0xFFFFFFFF + 1

/-- R270, R271: what the acceptance of a matrix command adds: a job, a sequence number, an ID on its way. -/
theorem State.acceptJob_mat (s : State) {cmd : Command} (hcmd : ∀ j : Job, j.cmd = cmd → ∀ t : State, t.askBits j 0 .empty = t) (d : Nat)
    (bundle : Word) (steps : Nat) (dests : Dests) : ∃ t j, s.acceptJob 1 d cmd bundle steps dests = t ∧ t.p.jobs = s.p.jobs ++ [j] ∧
      j.uid = s.cur.uid ∧ j.eng = 1 ∧ j.cmd = cmd ∧ j.key = s.nextId ∧ j.started = false ∧ t.mem = s.mem ∧ t.cur.a = s.cur.a ∧
      j.bundle = bundle ∧ j.seq = nextSeq s.cur.seqs[0] ∧ t.cur.seqs[0] = s.cur.seqs[0] + 1 ∧ t.cur.seqs[1] = s.cur.seqs[1] ∧
      t.cur.seqs[2] = s.cur.seqs[2] ∧ t.cur.status = s.cur.status ∧
      Due t (s.now + 4 * s.dil + 1) (.jobIdReturn s.cur.uid d (BitVec.ofNat 64 (1 + 256 * j.seq))) := by
  have hlast : s.cur.seqs.toList.getD (1 - 1) 0 = s.cur.seqs[0] := by simp
  obtain ⟨b, a, m, n, l, hfull⟩ := s.setFulls_frame false dests
  unfold State.acceptJob
  rw [hlast]
  dsimp only
  rw [hcmd _ rfl, hfull]
  obtain ⟨a', hstart, hsub⟩ := State.startJob_eq _ _
  rw [hstart]
  refine ⟨_, _, rfl, rfl, rfl, rfl, rfl, rfl, rfl, rfl, rfl, rfl, rfl, ?_, ?_, ?_, rfl, ?_⟩
  · simp
  · simp
  · simp
  · exact ⟨rankLand, hsub (mem_insertItem.2 (.inl rfl))⟩

/-! Waiting for jobs (R284). -/

/-- R284: of ID 0, whether nothing is parked and every ID has landed. -/
theorem State.pollJob_eq (s : State) (id : Word) : s.pollJob id =
    if id = 0 then (if s.cur.parkedCmd = none ∧ s.cur.idsDue = 0 then 1 else 0) else s.cur.jobStatus id := by
  simp [State.pollJob, Thread.idsLanded]

section
variable {s : State} {g : Guard} (hg : s.guard g = true) (d rs : BitVec 5)
include hg

theorem exec_jpoll : exec (.jpoll g d rs) s = .next (s.landA 4 d (s.pollJob (s.ra rs))) := next_of_guard_on hg s _

theorem exec_jwait_over (h : (s.pollJob (s.ra rs)).toNat % 256 ≠ 0) :
    exec (.jwait g d rs) s = .next (s.landA 4 d (s.pollJob (s.ra rs))) := by
  refine (next_of_guard_not_off hg s _).trans ?_
  dsimp only
  rw [field_low_byte, if_pos h]

theorem exec_jwait_waits (h : (s.pollJob (s.ra rs)).toNat % 256 = 0) : exec (.jwait g d rs) s = .next { s with cur := { s.cur with
    status := .waiting (if s.ra rs = 0 then .ids d.toNat else .job (s.ra rs) d.toNat) } } := by
  refine (next_of_guard_not_off hg s _).trans ?_
  dsimp only
  rw [field_low_byte, if_neg (not_not.2 h)]

end

end Sys2Proof.Machine
end

section
/-! O44 settled. -/

namespace Sys2Proof.Proofs

open Sys2Proof.Machine Sys2Proof.Claims

/-- Settles O44: a binding fault, a descriptor read, or an acceptance, each by its lemma; the waits by what `jpoll` gives. -/
theorem engineCommandsIssue : Obligations.EngineCommandsIssue := by
  unfold Obligations.EngineCommandsIssue
  intro g d rs x imm s hg c cmd cmdOf
  refine ⟨fun h => ?mat, fun h => next_of_not_bound _ hg (State.bound_toNat_ne h),
    fun h => next_of_not_bound _ hg (State.bound_toNat_ne h), fun b => ⟨fun hbound hroute haligned => ?cjob,
    fun hbound hroute haligned => ?gjob⟩, fun gather i hi hbound => ?_, fun id v hid hv => ?wait⟩
  case mat =>
    have hne := State.bound_toNat_ne h
    exact ⟨next_of_not_bound _ hg hne, next_of_not_bound _ hg hne⟩
  case cjob =>
    obtain ⟨t, lat, hread, hleft⟩ := s.readDesc_leaves (s.ra rs) b (.cjob d.toNat)
    exact ⟨t, lat, (exec_cjob_reads hg d rs haligned hbound hroute).trans (congrArg _ hread), hleft⟩
  case gjob =>
    obtain ⟨t, lat, hread, hleft⟩ := s.readDesc_leaves (s.ra rs) b (.gjob d.toNat)
    exact ⟨t, lat, (exec_gjob_reads hg d rs haligned hbound hroute).trans (congrArg _ hread), hleft⟩
  case wait =>
    subst hid
    rw [← State.pollJob_eq] at hv
    subst hv
    exact ⟨exec_jpoll hg d rs, exec_jwait_over hg d rs, exec_jwait_waits hg d rs⟩
  rw [exec_mat d hg hbound hi]
  refine ⟨fun k a h => congrArg _ (State.matCommand_fault d h), fun h hparked => ?_⟩
  rw [State.matCommand_accept d h]
  refine ⟨fun hfull => congrArg _ (State.accept_parks hparked hfull), fun hroom => ?_⟩
  have htakes := State.accept_takes (c := ⟨1, d.toNat, cmd gather, s.fetch.getD 0⟩) hparked hroom
  obtain ⟨t, j, ht, hrest⟩ := s.acceptJob_mat (cmd := cmd gather) (by rintro j hj t; rw [State.askBits, hj]) d.toNat
    (s.fetch.getD 0) _ _
  exact ⟨t, j, congrArg _ (htakes.trans ht), hrest⟩

end Sys2Proof.Proofs
end

section
/-! O46: packets, match descriptors and posts as a thread issues them (R120, R360-R362, R381). -/

namespace Sys2Proof.Machine

open Sys2Proof.Claims

/-- R120: the same where the meaning asks for the guard the other way round. -/
theorem next_of_bound_not_off {s : State} {eng : Nat} (f : State → State) {g : Guard} (hg : s.guard g = true)
    (h : s.cur.bound.toNat = eng) : (.next (if !s.guard g then s else s.bound eng f) : Res) = .next (f s) := by
  rw [next_of_guard_not_off hg, State.bound_does f h]

theorem next_of_not_bound_not_off {s : State} {eng : Nat} (f : State → State) {g : Guard} (hg : s.guard g = true)
    (h : s.cur.bound.toNat ≠ eng) :
    (.next (if !s.guard g then s else s.bound eng f) : Res) = .next (s.raise 3 (BitVec.ofNat 64 eng)) := by
  rw [next_of_guard_not_off hg, State.bound_fault f h]

/-! Opening (R360). -/

/-- R360: whether a packet may be opened for a destination. -/
def State.PacketOk (s : State) (a : Word) : Prop :=
  a.toNat < 2 ^ 32 ∧ a.toNat / 64 % 4 = 0 ∧ a.toNat % 64 < 48 ∧ (a.toNat / 256 % 256 = s.ownPkg ∨ a.toNat / 256 % 256 < s.extent)

theorem State.packetOk_iff (s : State) (a : Word) :
    ¬(field a 63 32 ≠ 0 ∨ field a 7 6 ≠ 0 ∨ 48 ≤ field a 5 0 ∨ (!s.validPkg (field a 15 8)) = true) ↔ s.PacketOk a := by
  have hpkg : (!s.validPkg (field a 15 8)) = true ↔ ¬(a.toNat / 256 % 256 = s.ownPkg ∨ a.toNat / 256 % 256 < s.extent) := by
    rw [show field a 15 8 = a.toNat / 256 % 256 from rfl, State.validPkg]
    simp only [Bool.not_eq_true', ← Bool.not_eq_true, Bool.or_eq_true, beq_iff_eq, decide_eq_true_iff]
  have ha := a.isLt
  rw [hpkg, State.PacketOk]
  unfold field
  omega

theorem State.packetGone_iff (s : State) : s.packetGone = true ↔ s.cur.unsent = none ∧ s.cur.pktLeaves ≤ s.now := by
  simp [State.packetGone]

/-- Table 15.5: the words of a form. -/
theorem State.payload_eq (s : State) (rs x : BitVec 5) (f : BitVec 2) :
    s.payload rs x f = if f = 0 then [s.ra rs] else if f = 1 then [s.ra rs, s.ra x] else [] := by
  have hcases : ∀ f : BitVec 2, f = 0 ∨ f = 1 ∨ f = 2 ∨ f = 3 := by decide
  rcases hcases f with rfl | rfl | rfl | rfl <;> rfl

section
variable {s : State} {g : Guard} (hg : s.guard g = true) (hbound : s.cur.bound = 4)
include hg hbound

section
variable (rs : BitVec 5) (imm : BitVec 32)

theorem exec_pktOpen_second (hopen : s.cur.openPkt.isSome = true) : exec (.pktOpen g rs imm) s = .next (s.raise 3 4) :=
  (next_of_bound_not_off _ hg (by rw [hbound]; rfl)).trans (congrArg _ (if_pos hopen))

section
variable (hclosed : s.cur.openPkt = none)
include hclosed

theorem exec_pktOpen_wrong (h : ¬s.PacketOk (s.ra rs)) : exec (.pktOpen g rs imm) s = .next (s.raise 4 (s.ra rs)) := by
  rw [← State.packetOk_iff, not_not] at h
  refine (next_of_bound_not_off _ hg (by rw [hbound]; rfl)).trans ?_
  dsimp only
  rw [if_neg (by simp [hclosed]), if_pos h]

theorem exec_pktOpen_ok (h : s.PacketOk (s.ra rs)) : exec (.pktOpen g rs imm) s = .next (if s.packetGone
    then { s with cur := { s.cur with openPkt := some ⟨s.ra rs, imm.setWidth 16, []⟩ } }
    else { s with cur := { s.cur with status := .waiting (.packetLeft (s.ra rs) (imm.setWidth 16)) } }) := by
  rw [← State.packetOk_iff] at h
  refine (next_of_bound_not_off _ hg (by rw [hbound]; rfl)).trans ?_
  dsimp only
  rw [if_neg (by simp [hclosed]), if_neg h]

end

end

/-! Adding and ending (R360, R361). -/

section
variable (rs x : BitVec 5) (f : BitVec 2)

theorem exec_pktAdd : exec (.pktAdd g rs x f) s = .next (s.addWords (s.payload rs x f) fun _ s => s) :=
  next_of_bound_not_off _ hg (by rw [hbound]; rfl)

theorem exec_pktEnd : exec (.pktEnd g rs x f) s = .next (s.addWords (s.payload rs x f) fun p s =>
    if p.words.isEmpty then s.raise 3 4 else s.closePacket p) :=
  next_of_bound_not_off _ hg (by rw [hbound]; rfl)

end

end

section
variable {s : State} (l : List Word) (k : OpenPkt → State → State)

theorem State.addWords_none (h : s.cur.openPkt = none) : s.addWords l k = s.raise 3 4 := by
  rw [State.addWords, h]

section
variable {p : OpenPkt} (h : s.cur.openPkt = some p)
include h

theorem State.addWords_full (hfull : 32 < (p.words ++ l).length) : s.addWords l k = s.raise 3 4 := by
  rw [List.length_append] at hfull
  simp only [State.addWords, h, if_pos hfull]

theorem State.addWords_fits (hfits : (p.words ++ l).length ≤ 32) : s.addWords l k =
    k { p with words := p.words ++ l } { s with cur := { s.cur with openPkt := some { p with words := p.words ++ l } } } := by
  rw [List.length_append] at hfits
  simp only [State.addWords, h, if_neg (not_lt.2 hfits)]

end

end

/-- R360: the packet that is sent of one that was open. -/
def State.packetOf (s : State) (o : OpenPkt) (phase : PktPhase) : Packet :=
  ⟨phase, s.p.first, o.dest.toNat / 256 % 256, o.dest.toNat % 64, o.tag, o.dest.toNat / 2 ^ 16 % 2 ^ 16, o.words, s.cur.loc.key⟩

/-- R361: where a packet of the own package goes on the agenda, and one of a peer leaves. -/
theorem State.launchPacket_eq (s : State) (p : Packet) : ∃ n a o, s.launchPacket p s.now =
      { s with p := { s.p with draws := n }, agenda := a, out := o } ∧
    (p.pkg = s.ownPkg → ∃ lat r, Takes s (if p.dest = s.cur.loc.cluster then 12 else 196) lat ∧
      (⟨s.now + lat, r, .ev (.packetArrives p)⟩ : Item) ∈ a) ∧
    (p.pkg ≠ s.ownPkg → o = .packet (s.peerAddr p.pkg) { p with phase := .fromPeer (s.sendStamp 0) } :: s.out) := by
  unfold State.launchPacket
  split
  · next hpeer => exact ⟨s.p.draws, s.agenda, _, rfl, fun h => absurd h hpeer, fun _ => by rw [Nat.sub_self]⟩
  · next hown =>
    obtain ⟨lat, n, helapse, htakes⟩ := s.elapse_takes (if p.dest = s.cur.loc.cluster then 12 else 196)
    rw [helapse]
    exact ⟨n, _, s.out, rfl, fun _ => ⟨lat, _, htakes, mem_insertItem.2 (.inl rfl)⟩, fun h => absurd (not_not.1 hown) h⟩

theorem State.drained_iff (s : State) : s.drained = true ↔ s.cur.relaxed = [] ∧ s.cur.pushed = true := by
  simp [State.drained]

theorem State.packetOf_eq (s : State) (o : OpenPkt) : ({
    phase := .arrive
    first := s.p.first
    pkg := field o.dest 15 8
    dest := field o.dest 5 0
    tag := o.tag
    off := field o.dest 31 16
    words := o.words
    srcKey := s.cur.loc.key } : Packet) = s.packetOf o .arrive := by
  simp [State.packetOf, field]

section
variable {s : State} (o : OpenPkt)

/-- R361: with nothing of earlier bundles outstanding a closed packet leaves at once. -/
theorem State.closePacket_leaves (h : s.drained = true) : s.closePacket o =
    ({ s with cur := { s.cur with openPkt := none, pktLeaves := s.now } } : State).launchPacket (s.packetOf o .arrive) s.now := by
  rw [← State.packetOf_eq]
  exact if_pos h

theorem State.closePacket_waits (h : s.drained = false) : s.closePacket o = { s with cur := { s.cur with
    openPkt := none, unsent := some (s.packetOf o .arrive, s.nextId, s.cur.pushes.length) } } := by
  rw [← State.packetOf_eq]
  exact if_neg fun hd => Bool.false_ne_true (h.symm.trans hd)

end

/-! Match descriptors (R362). -/

section
variable {s : State} {g : Guard} (hg : s.guard g = true) (d rs : BitVec 5)
include hg

theorem exec_matchTag_reads (hbound : s.cur.bound = 4) {b : Nat} (haligned : (s.ra rs).toNat % 32 = 0)
    (hroute : s.route (s.ra rs) 32 = .ok (.loc s.cur.loc.cluster s.cur.loc.core b)) :
    exec (.matchTag g d rs) s = .next (s.readDesc (s.ra rs) b (.matchTag d.toNat)) := by
  refine (next_of_bound_not_off _ hg (by rw [hbound]; rfl)).trans ?_
  simp only [State.ownWindow_own haligned hroute]

theorem exec_matchTag_misaligned (hbound : s.cur.bound = 4) (h : (s.ra rs).toNat % 32 ≠ 0) :
    exec (.matchTag g d rs) s = .next (s.raise 4 (s.ra rs)) := by
  refine (next_of_bound_not_off _ hg (by rw [hbound]; rfl)).trans ?_
  simp only [State.ownWindow_misaligned h]

/-! Posts (R381). -/

section
variable (x : BitVec 5) (imm : BitVec 32) (hbound : s.cur.bound = 5)
include hbound

theorem exec_post_board {tile slot : Nat} (hroute : s.route (s.ra rs) 8 = .ok (.board tile slot)) :
    exec (.post g d rs x imm) s = .next (s.sendPost tile slot d.toNat (s.ra rs) (s.ra x) (imm.toNat % 16)) := by
  refine (next_of_bound _ hg (by rw [hbound]; rfl)).trans ?_
  simp only [hroute]

theorem exec_post_elsewhere {target : Target} (hroute : s.route (s.ra rs) 8 = .ok target)
    (h : ∀ tile slot, target ≠ .board tile slot) : exec (.post g d rs x imm) s = .next (s.raise 4 (s.ra rs)) := by
  refine (next_of_bound _ hg (by rw [hbound]; rfl)).trans ?_
  simp only [hroute]
  split
  · next t n ht => exact absurd (Except.ok.inj ht) (h t n)
  · rfl

end

end

/-- R344: the read of host memory that a scope waits for. -/
theorem State.waitHost_eq (s : State) (sc : Nat) : ∃ w n a, s.waitHost sc =
    { s with cur := { s.cur with waitTo := w }, fresh := n, agenda := a } := by
  unfold State.waitHost
  split
  · exact ⟨_, _, _, rfl⟩
  · exact ⟨s.cur.waitTo, s.fresh, s.agenda, rfl⟩

/-- R381: a post is half its time on its way to the board. -/
theorem State.sendPost_leaves (s : State) (tile slot d : Nat) (va v : Word) (sc : Nat) : ∃ t lat, s.sendPost tile slot d va v sc = t ∧
    Left s t ∧ Takes s 392 lat ∧ Due t (s.now + lat / 2) (.postPerforms s.cur.uid tile slot (d + 32 * sc) v va s.now) := by
  obtain ⟨lat, n, helapse, htakes⟩ := s.elapse_takes 392
  unfold State.sendPost
  rw [helapse]
  dsimp only
  obtain ⟨w, k, a, hwait⟩ := ({ s with p := { s.p with draws := n } } : State).waitHost_eq sc
  rw [hwait]
  exact ⟨_, lat, rfl, ⟨rfl, rfl, rfl, rfl, rfl, rfl, rfl, rfl, rfl, rfl, rfl, rfl, rfl⟩, htakes, due_dueAt ..⟩

end Sys2Proof.Machine
end

section
/-! O46 settled. -/

namespace Sys2Proof.Proofs

open Sys2Proof.Machine Sys2Proof.Claims

/-- R360, R361: what `pkt.end` does with a packet that has words: it is closed, and leaves or waits to. -/
theorem packetCloses {s : State} {o : OpenPkt} : ∃ t, s.closePacket o = t ∧ t.cur.openPkt = none ∧ t.mem = s.mem ∧ t.cur.a = s.cur.a ∧
    (s.cur.relaxed = [] → s.cur.pushed = true → t.cur.pktLeaves = s.now ∧
      (o.dest.toNat / 256 % 256 = s.ownPkg → ∃ lat, Takes s (if o.dest.toNat % 64 = s.cur.loc.cluster then 12 else 196) lat ∧
        Due t (s.now + lat) (.packetArrives (s.packetOf o .arrive))) ∧
      (o.dest.toNat / 256 % 256 ≠ s.ownPkg →
        t.out = .packet (s.peerAddr (o.dest.toNat / 256 % 256)) (s.packetOf o (.fromPeer (s.sendStamp 0))) :: s.out)) ∧
    ((s.cur.relaxed ≠ [] ∨ s.cur.pushed = false) → t.cur.unsent = some (s.packetOf o .arrive, s.nextId, s.cur.pushes.length) ∧
      t.agenda = s.agenda ∧ t.out = s.out) := by
  by_cases hdrained : s.drained = true
  · obtain ⟨hrelaxed, hpushed⟩ := s.drained_iff.1 hdrained
    obtain ⟨n, a, out, hlaunch, hown, hpeer⟩ :=
      State.launchPacket_eq { s with cur := { s.cur with openPkt := none, pktLeaves := s.now } } (s.packetOf o .arrive)
    rw [State.closePacket_leaves o hdrained, hlaunch]
    refine ⟨_, rfl, rfl, rfl, rfl, fun _ _ => ⟨rfl, fun h => ?_, hpeer⟩, fun h => ?_⟩
    · obtain ⟨lat, r, htakes, hdue⟩ := hown h
      exact ⟨lat, htakes, r, hdue⟩
    · simp [hrelaxed, hpushed] at h
  · rw [State.closePacket_waits o (by simpa using hdrained)]
    exact ⟨_, rfl, rfl, rfl, rfl, fun hr hp => absurd (s.drained_iff.2 ⟨hr, hp⟩) hdrained, fun _ => ⟨rfl, rfl, rfl⟩⟩

/-- Settles O46: each clause is its instruction's equation; a closed packet goes by `packetCloses`. -/
theorem packetsAndPosts : Obligations.PacketsAndPosts := by
  unfold Obligations.PacketsAndPosts
  intro g d rs x f imm s hg a
  refine ⟨fun h i hi => ?unbound, fun h => next_of_not_bound _ hg (State.bound_toNat_ne h), fun hb => exec_pktOpen_second hg hb rs imm,
    fun hb hclosed => ⟨exec_pktOpen_wrong hg hb rs imm hclosed, fun hok hunsent hleft => ?opens, fun hok hgone => ?waits, ?add, ?fin⟩,
    fun p hb hopen => ?packet, fun b hb hroute => ⟨fun haligned => ?reads, exec_matchTag_misaligned hg d rs hb⟩,
    fun tile slot hb hroute => ?board, fun target hb => exec_post_elsewhere hg d rs x imm hb⟩
  case unbound =>
    have hne := State.bound_toNat_ne h
    simp only [List.mem_cons, List.not_mem_nil, or_false] at hi
    rcases hi with rfl | rfl | rfl | rfl <;> exact next_of_not_bound_not_off _ hg hne
  case opens => rw [exec_pktOpen_ok hg hb rs imm hclosed hok, if_pos (s.packetGone_iff.2 ⟨hunsent, hleft⟩)]
  case waits => rw [exec_pktOpen_ok hg hb rs imm hclosed hok, if_neg (by rwa [State.packetGone_iff])]
  case add => rw [exec_pktAdd hg hb rs x f, State.addWords_none _ _ hclosed]
  case fin => rw [exec_pktEnd hg hb rs x f, State.addWords_none _ _ hclosed]
  case reads =>
    obtain ⟨t, lat, hread, hleft⟩ := s.readDesc_leaves a b (.matchTag d.toNat)
    exact ⟨t, lat, (exec_matchTag_reads hg d rs hb haligned hroute).trans (congrArg _ hread), hleft⟩
  case board =>
    obtain ⟨t, lat, hsend, hleft⟩ := s.sendPost_leaves tile slot d.toNat a (s.ra x) (imm.toNat % 16)
    exact ⟨t, lat, (exec_post_board hg d rs x imm hb hroute).trans (congrArg _ hsend), hleft⟩
  case packet =>
    intro l
    rw [exec_pktAdd hg hb rs x f, exec_pktEnd hg hb rs x f, State.payload_eq]
    refine ⟨fun hfull => ?_, fun hfits => congrArg _ (State.addWords_fits _ _ hopen hfits), fun hne hfits => ?_⟩
    · rw [State.addWords_full _ _ hopen hfull, State.addWords_full _ _ hopen hfull]
      exact ⟨rfl, rfl⟩
    · rw [State.addWords_fits _ _ hopen hfits, if_neg fun he => hne (List.isEmpty_iff.1 he)]
      obtain ⟨t, ht, hrest⟩ := packetCloses (s := { s with cur := { s.cur with openPkt := some { p with words := l } } })
        (o := { p with words := l })
      exact ⟨t, congrArg _ ht, hrest⟩

end Sys2Proof.Proofs
end

section
/-! O41: loads and stores at issue (R110, R116, R263, R264, R313, R316, R332). -/

namespace Sys2Proof.Machine

open Sys2Proof.Claims

/-! The instruction forms (R263). -/

theorem fnBytes_eq (fn : BitVec 4) : fnBytes fn = 2 ^ (fn.toNat / 2 % 4) := by
  simp [fnBytes, BitVec.extractLsb'_toNat, Nat.shiftRight_eq_div_pow]

/-- R263: the address of the long form. -/
theorem ofInt_add_imm (a : Word) (imm : BitVec 32) : BitVec.ofInt 64 (a.toNat + imm.toInt) = a + imm32s imm := by
  have ha : BitVec.ofInt 64 a.toNat = a := by rw [BitVec.ofInt_natCast, BitVec.ofNat_toNat, BitVec.setWidth_eq]
  rw [BitVec.ofInt_add, ha]
  rfl

/-- What the loads and stores ask for: operation, address, bytes, sign extension, destination, data, relaxed. -/
def State.memoryForms (s : State) (g : Guard) (d rs x : BitVec 5) (fn : BitVec 4) (f : BitVec 2) (imm : BitVec 32) :
    List (Instr × AccOp × Word × Nat × Bool × Nat × Word × Bool) := [
  (.ld g d rs x fn, .load, s.ra rs + s.ra x, 2 ^ (fn.toNat / 2 % 4), fn.getLsbD 0, d.toNat, 0, fn.getLsbD 3),
  (.st g d rs x fn, .store, s.ra rs + s.ra x, 2 ^ (fn.toNat / 2 % 4), false, 24, s.ra d, fn.getLsbD 3),
  (.ldl g d rs x f imm, .load, BitVec.ofInt 64 ((s.ra rs).toNat + imm.toInt), 2 ^ f.toNat, x.getLsbD 3, d.toNat, 0, x.getLsbD 4),
  (.stl g d rs x f imm, .store, BitVec.ofInt 64 ((s.ra rs).toNat + imm.toInt), 2 ^ f.toNat, false, 24, s.ra d, x.getLsbD 4)]

theorem exec_memory {s : State} {g : Guard} {d rs x : BitVec 5} {fn : BitVec 4} {f : BitVec 2} {imm : BitVec 32} {i : Instr} {op : AccOp}
    {a : Word} {n dest : Nat} {sx asked : Bool} {data : Word}
    (hi : (i, op, a, n, sx, dest, data, asked) ∈ s.memoryForms g d rs x fn f imm) :
    (exec i s = .next (if s.guard g then s.access op a n sx dest data asked else s)) ∧ (op = .load ∨ op = .store) := by
  simp only [State.memoryForms, ofInt_add_imm, ← fnBytes_eq, List.mem_cons, List.not_mem_nil, or_false, Prod.mk.injEq] at hi
  rcases hi with h | h | h | h
  · obtain ⟨rfl, rfl, rfl, rfl, rfl, rfl, rfl, rfl⟩ := h; exact ⟨rfl, .inl rfl⟩
  · obtain ⟨rfl, rfl, rfl, rfl, rfl, rfl, rfl, rfl⟩ := h; exact ⟨rfl, .inr rfl⟩
  · obtain ⟨rfl, rfl, rfl, rfl, rfl, rfl, rfl, rfl⟩ := h; exact ⟨rfl, .inl rfl⟩
  · obtain ⟨rfl, rfl, rfl, rfl, rfl, rfl, rfl, rfl⟩ := h; exact ⟨rfl, .inr rfl⟩

/-! The checks at issue (R263, R391). -/

section
variable {s : State} {op : AccOp} {va : Word} {n : Nat} (sx : Bool) (d : Nat) (data : Word) (rlx : Bool)

/-- R263, R391: an access that fails a check is a fault with its address. -/
theorem State.access_fault {k : Nat} (h : s.checkAccess op va n = .error k) : s.access op va n sx d data rlx = s.raise k va := by
  rw [State.access, h]

theorem State.checkAccess_misaligned (op : AccOp) (h : va.toNat % n ≠ 0) : s.checkAccess op va n = .error 4 := if_pos h

section
variable (haligned : va.toNat % n = 0)
include haligned

/-- R263: boards have no loads and stores, counters no stores. -/
theorem State.checkAccess_ok {t : Target} (hroute : s.route va n = .ok t) (hboard : ∀ l m, t ≠ .board l m)
    (hcounters : ∀ b, t = .counters b → op ≠ .store) : s.checkAccess op va n = .ok t := by
  unfold State.checkAccess
  rw [if_neg (not_not.2 haligned), hroute]
  cases t with
  | board l m => exact absurd rfl (hboard l m)
  | counters b => exact if_neg (hcounters b rfl)
  | _ => rfl

theorem State.checkAccess_error {k : Nat} (op : AccOp) (hroute : s.route va n = .error k) : s.checkAccess op va n = .error k := by
  unfold State.checkAccess
  rw [if_neg (not_not.2 haligned), hroute]

theorem State.checkAccess_board {l m : Nat} (op : AccOp) (hroute : s.route va n = .ok (.board l m)) : s.checkAccess op va n = .error 4 := by
  unfold State.checkAccess
  rw [if_neg (not_not.2 haligned), hroute]

theorem State.checkAccess_counters {b : Nat} (hroute : s.route va n = .ok (.counters b)) : s.checkAccess .store va n = .error 5 := by
  unfold State.checkAccess
  rw [if_neg (not_not.2 haligned), hroute]
  rfl

/-- Whether an access to a target leaves as one: not to a board, no store to a counter, not one that moves the thread. -/
def State.Sends (s : State) (op : AccOp) (t : Target) : Prop :=
  (∀ l m, t ≠ .board l m) ∧ (∀ b, t = .counters b → op ≠ .store) ∧
  (∀ home off, t = .hbm home off → home = s.cur.loc.cluster ∨ s.roams = false)

/-- R263: an access as it leaves. -/
theorem State.access_sends {t : Target} (hroute : s.route va n = .ok t) (h : s.Sends op t) : ∃ r,
    s.access op va n sx d data rlx = s.sendAccess { s.newAcc op va n sx d data (rlx && !s.moved) 0 with remote := r } t := by
  obtain ⟨hboard, hcounters, hhome⟩ := h
  rw [State.access, State.checkAccess_ok haligned hroute hboard hcounters]
  cases t with
  | hbm home off =>
    have hstays : ¬(decide (home ≠ s.cur.loc.cluster) && s.roams) = true := by
      rcases hhome home off rfl with h | h <;> simp [h]
    exact ⟨_, if_neg hstays⟩
  | _ => exact ⟨_, rfl⟩

/-- R316: an access homed elsewhere, of a thread that roams. -/
theorem State.access_migrates {home off : Nat} (hroute : s.route va n = .ok (.hbm home off)) (hhome : home ≠ s.cur.loc.cluster)
    (hroams : s.roams = true) : s.access op va n sx d data rlx = s.migrate home (s.newAcc op va n sx d data (rlx && !s.moved) 0) := by
  have hmoves : (decide (home ≠ s.cur.loc.cluster) && s.roams) = true := by simp [hhome, hroams]
  rw [State.access, State.checkAccess_ok haligned hroute (by simp) (by simp)]
  exact if_pos hmoves

end

end

/-- R317: the thread leaves rotation, and is sent when its results have landed. -/
theorem State.migrate_migrates (s : State) (home : Nat) (a : Acc) : Migrates s (s.migrate home a) home := by
  obtain ⟨q, st, pu, hundo⟩ := s.undoStreams_eq
  unfold State.migrate
  rw [hundo]
  dsimp only
  refine ⟨rfl, rfl, rfl, rfl, rfl, rfl, _, ?_, due_dueAt ..⟩
  refine List.foldlRecOn (motive := fun m => s.now ≤ m) _ _ (le_refl _) fun m hm i _ => ?_
  split
  · exact hm
  · exact hm
  · split
    · exact le_max_of_le_left hm
    · exact hm
  · split
    · exact le_max_of_le_left hm
    · exact hm
  · exact hm

/-! The way to the target (R110, R116, R264, R332). -/

/-- R116: what the time of an access to a target is. -/
def TripTakes (s : State) (t : Target) (lat : Nat) : Prop :=
  ((∀ o, t ≠ .host o) → Takes s (s.figureOf s.cur.loc t) lat) ∧ (∀ o, t = .host o → 0 < lat)

/-- R116: the time of an access is a figure of Table 5.3, or, to host memory, the host's. -/
theorem State.accessTime_eq (s : State) (t : Target) : ∃ lat n k,
    s.accessTime t = (lat, { s with p := { s.p with draws := n }, fresh := k }) ∧
    TripTakes s t lat := by
  have felapse (t : Target) : ∃ lat n k, s.elapse (s.figureOf s.cur.loc t) = (lat, { s with p := { s.p with draws := n }, fresh := k }) ∧
      Takes s (s.figureOf s.cur.loc t) lat := by
    obtain ⟨lat, n, h, htakes⟩ := s.elapse_takes (s.figureOf s.cur.loc t)
    exact ⟨lat, n, s.fresh, h, htakes⟩
  cases t with
  | host o => exact ⟨_, s.p.draws, _, rfl, fun h => absurd rfl (h o), fun _ _ => Nat.add_pos_left Nat.one_pos _⟩
  | _ =>
    obtain ⟨lat, n, k, h, htakes⟩ := felapse _
    exact ⟨lat, n, k, h, fun _ => htakes, fun o ho => by cases ho⟩

/-- The access as it is on its way. -/
def State.accSent (s : State) (a : Acc) (t : Target) (lat stage : Nat) : Acc :=
  { a with id := s.nextId, lat := lat, due := s.dueAfter s.cur a.va t lat, stage := stage }

/-- What the time and the number of an access use up. -/
def State.numbered (s : State) (n k : Nat) : State := { s with p := { s.p with draws := n }, fresh := k, nextId := s.nextId + 1 }

section
variable (s : State) {a : Acc} (t : Target)

/-- R110: a plain access takes the thread out of rotation. -/
theorem State.sendAccess_plain (ha : a.rlx = false) : ∃ lat n k, TripTakes s t lat ∧ s.sendAccess a t =
    { (s.numbered n k).startAccess (s.accSent a t lat 0) t with
      cur := { ((s.numbered n k).startAccess (s.accSent a t lat 0) t).cur with status := .access s.nextId } } := by
  obtain ⟨lat, n, k, htime, htakes⟩ := s.accessTime_eq t
  refine ⟨lat, n, k, htakes, ?_⟩
  unfold State.sendAccess
  rw [htime]
  cases t <;> (simp only [State.accSent, ha, Bool.false_and, Bool.false_eq_true, if_false]; rfl)

section
variable (ha : a.rlx = true)
include ha

/-- R110, R264: a relaxed one does not, while there are fewer than eight. -/
theorem State.sendAccess_relaxed (hroom : s.cur.relaxed.length < 8) : ∃ lat n k, ((∀ pkg, t ≠ .peer pkg) → TripTakes s t lat) ∧
    s.sendAccess a t = { (s.numbered n k).startAccess (s.accSent a t lat 0) t with
      cur := { ((s.numbered n k).startAccess (s.accSent a t lat 0) t).cur with
        relaxed := ((s.numbered n k).startAccess (s.accSent a t lat 0) t).cur.relaxed ++ [s.accSent a t lat 0] } } := by
  obtain ⟨lat, n, k, htime, htakes⟩ := s.accessTime_eq t
  have hfull : decide (8 ≤ s.cur.relaxed.length) = false := decide_eq_false (by omega)
  unfold State.sendAccess
  rw [htime]
  cases t with
  | peer pkg =>
    refine ⟨if a.op == .store then 196 * s.dil else lat, n, k, fun h => absurd rfl (h pkg), ?_⟩
    simp only [State.accSent, ha, hfull, Bool.true_and, Bool.false_eq_true, if_false, if_true]
    rfl
  | _ =>
    refine ⟨lat, n, k, fun _ => htakes, ?_⟩
    simp only [State.accSent, ha, hfull, Bool.true_and, Bool.false_eq_true, if_false, if_true]
    rfl

/-- R110: a ninth relaxed access has not started, and the thread waits. -/
theorem State.sendAccess_ninth (hfull : 8 ≤ s.cur.relaxed.length) : ∃ lat n k, s.sendAccess a t = { s.numbered n k with
    cur := { s.cur with relaxed := s.cur.relaxed ++ [s.accSent a t lat 2], status := .waiting .relaxed } } := by
  obtain ⟨lat, n, k, htime, -⟩ := s.accessTime_eq t
  unfold State.sendAccess
  rw [htime]
  cases t with
  | peer pkg =>
    refine ⟨if a.op == .store then 196 * s.dil else lat, n, k, ?_⟩
    simp only [State.accSent, ha, hfull, Bool.true_and, decide_true, if_true]
    rfl
  | _ =>
    refine ⟨lat, n, k, ?_⟩
    simp only [State.accSent, ha, hfull, Bool.true_and, decide_true, if_true]
    rfl

end

end

/-! What starts an access (R313, R330). -/

theorem State.startAccess_here (s : State) (a : Acc) {t : Target} (ht : ∀ pkg, t ≠ .peer pkg) : s.startAccess a t =
    s.dueAt (a.due - (a.lat - a.lat / 2)) (accessRank s.cur.loc t) (.ev (.accessComplete s.cur.uid (.acc a))) := by
  cases t with
  | peer pkg => exact absurd rfl (ht pkg)
  | _ => rfl

/-- R313: an access to a peer leaves the package; a relaxed store is over when it is due. -/
theorem State.startAccess_peer (s : State) (a : Acc) (pkg : Nat) : ∃ ag, s.startAccess a (.peer pkg) = { s with
      agenda := ag
      out := .request (s.peerAddr pkg) pkg (s.sendStamp 0) a :: s.out
      cur := { s.cur with asked := s.cur.asked ++ [a] } } ∧
    ((a.rlx && a.op == .store) = true → Due { s with agenda := ag } a.due (.accessComplete s.cur.uid (.acc a))) := by
  unfold State.startAccess
  dsimp only
  split
  · exact ⟨_, rfl, fun _ => due_dueAt ..⟩
  · next h => exact ⟨s.agenda, rfl, fun h' => absurd h' h⟩

/-! What leaves (R110, R264, R313). -/

section
variable (s : State) {a : Acc} {t : Target} (hscope : a.scope = 0)
include hscope

theorem State.sendAccess_plainSent (ha : a.rlx = false) (ht : ∀ pkg, t ≠ .peer pkg) : ∃ lat, TripTakes s t lat ∧
    PlainSent s (s.sendAccess a t) t a.op a.va a.bytes a.sx a.d a.data lat := by
  obtain ⟨lat, n, k, htakes, hsend⟩ := s.sendAccess_plain t ha
  rw [State.startAccess_here _ _ ht] at hsend
  refine ⟨lat, htakes, ?_⟩
  rw [hsend]
  refine ⟨⟨rfl, rfl, rfl, rfl, rfl, rfl, rfl, rfl, rfl, rfl, rfl, rfl, rfl⟩, s.accSent a t lat 0,
    ⟨rfl, rfl, rfl, rfl, rfl, rfl, hscope, rfl, rfl, rfl⟩, ha, rfl, due_dueAt (s.numbered n k) _ _ _⟩

theorem State.sendAccess_peerAsked (ha : a.rlx = false) (pkg : Nat) :
    PeerAsked s (s.sendAccess a (.peer pkg)) pkg a.op a.va a.bytes a.sx a.d a.data 0 := by
  obtain ⟨lat, n, k, htakes, hsend⟩ := s.sendAccess_plain (.peer pkg) ha
  obtain ⟨ag, hstart, -⟩ := (s.numbered n k).startAccess_peer (s.accSent a (.peer pkg) lat 0) pkg
  rw [hstart] at hsend
  rw [hsend]
  exact ⟨⟨rfl, rfl, rfl, rfl, rfl, rfl, rfl, rfl, rfl, rfl, rfl, rfl, rfl⟩, lat, htakes.1 (by simp), s.accSent a (.peer pkg) lat 0,
    ⟨rfl, rfl, rfl, rfl, rfl, rfl, hscope, rfl, rfl, rfl⟩, ha, rfl, rfl⟩

theorem State.sendAccess_relaxedSent (ha : a.rlx = true) (hroom : s.cur.relaxed.length < 8) (ht : ∀ pkg, t ≠ .peer pkg) : ∃ u c lat,
    s.sendAccess a t = u ∧ TripTakes s t lat ∧ Carries c a.op a.va a.bytes a.sx a.d a.data 0 lat s.nextId ∧ c.rlx = true ∧
    c.due = s.dueAfter s.cur a.va t lat ∧ u.mem = s.mem ∧ u.cur = { s.cur with relaxed := s.cur.relaxed ++ [c] } ∧
    Due u (c.due - (lat - lat / 2)) (.accessComplete s.cur.uid (.acc c)) := by
  obtain ⟨lat, n, k, htakes, hsend⟩ := s.sendAccess_relaxed t ha hroom
  rw [State.startAccess_here _ _ ht] at hsend
  exact ⟨_, s.accSent a t lat 0, lat, hsend, htakes ht, ⟨rfl, rfl, rfl, rfl, rfl, rfl, hscope, rfl, rfl, rfl⟩, ha, rfl, rfl, rfl,
    due_dueAt (s.numbered n k) _ _ _⟩

end

theorem State.sendAccess_relaxedAsked (s : State) {a : Acc} (ha : a.rlx = true) (hroom : s.cur.relaxed.length < 8) (pkg : Nat) : ∃ u c,
    s.sendAccess a (.peer pkg) = u ∧ c.op = a.op ∧ c.va = a.va ∧ c.data = a.data ∧ c.rlx = true ∧
    u.out = .request (s.peerAddr pkg) pkg (s.sendStamp 0) c :: s.out ∧ u.mem = s.mem ∧
    u.cur = { s.cur with relaxed := s.cur.relaxed ++ [c], asked := s.cur.asked ++ [c] } ∧
    (a.op = .store → Due u c.due (.accessComplete s.cur.uid (.acc c))) := by
  obtain ⟨lat, n, k, -, hsend⟩ := s.sendAccess_relaxed (.peer pkg) ha hroom
  obtain ⟨ag, hstart, hdue⟩ := (s.numbered n k).startAccess_peer (s.accSent a (.peer pkg) lat 0) pkg
  rw [hstart] at hsend
  exact ⟨_, s.accSent a (.peer pkg) lat 0, hsend, rfl, rfl, rfl, ha, rfl, rfl, rfl,
    fun hop => hdue (by simp [State.accSent, ha, hop])⟩

/-! The access of an instruction on its way (R110, R264, R313). -/

/-- Table 5.3: the completion figure of a load or store, where it leaves as an access and no other agent sets its time. -/
def State.memFigure (s : State) (op : AccOp) : Target → Option Nat
  | .sram _ _ => some 392
  | .counters _ => if op = .load then some 392 else none
  | t => tripOf s t

theorem State.sends_of_memFigure {s : State} {op : AccOp} {t : Target} {k : Nat} (h : s.memFigure op t = some k) :
    s.Sends op t ∧ (∀ o, t ≠ .host o) ∧ (∀ pkg, t ≠ .peer pkg) ∧ s.figureOf s.cur.loc t = k := by
  cases t with
  | loc cl co b => exact ⟨⟨by simp, by simp, by simp⟩, by simp, by simp, Option.some.inj h⟩
  | hbm home off =>
    simp only [State.memFigure, tripOf] at h
    by_cases hhome : home = s.cur.loc.cluster
    · rw [if_pos hhome] at h
      refine ⟨⟨by simp, by simp, fun home' off' ht => .inl ?_⟩, by simp, by simp, ?_⟩
      · cases ht; exact hhome
      · rw [State.figureOf, if_pos hhome]; exact Option.some.inj h
    · rw [if_neg hhome] at h
      by_cases hroams : s.roams = true
      · rw [if_pos hroams] at h; cases h
      · rw [if_neg hroams] at h
        refine ⟨⟨by simp, by simp, fun _ _ _ => .inr (by simpa using hroams)⟩, by simp, by simp, ?_⟩
        rw [State.figureOf, if_neg hhome]; exact Option.some.inj h
  | host o => cases h
  | sram l b => exact ⟨⟨by simp, by simp, by simp⟩, by simp, by simp, Option.some.inj h⟩
  | counters b =>
    by_cases hop : op = .load
    · subst hop
      exact ⟨⟨by simp, by simp, by simp⟩, by simp, by simp, Option.some.inj h⟩
    · rw [State.memFigure, if_neg hop] at h; cases h
  | board l m => cases h
  | peer pkg => cases h

section
variable {s : State} {op : AccOp} {va : Word} {n : Nat} (sx : Bool) (d : Nat) (data : Word) {asked : Bool}
  (haligned : va.toNat % n = 0)
include haligned

section
variable (hplain : (asked && !s.moved) = false)
include hplain

theorem State.access_plainSent {t : Target} (hroute : s.route va n = .ok t) (hsends : s.Sends op t) (ht : ∀ pkg, t ≠ .peer pkg) : ∃ u lat,
    s.access op va n sx d data asked = u ∧ TripTakes s t lat ∧ PlainSent s u t op va n sx d data lat := by
  obtain ⟨r, hsend⟩ := State.access_sends sx d data asked haligned hroute hsends
  obtain ⟨lat, htakes, hsent⟩ := s.sendAccess_plainSent (a := { s.newAcc op va n sx d data (asked && !s.moved) 0 with remote := r })
    rfl hplain ht
  exact ⟨_, lat, hsend, htakes, hsent⟩

theorem State.access_peerAsked {pkg : Nat} (hroute : s.route va n = .ok (.peer pkg)) : ∃ u,
    s.access op va n sx d data asked = u ∧ PeerAsked s u pkg op va n sx d data 0 := by
  obtain ⟨r, hsend⟩ := State.access_sends (op := op) sx d data asked haligned hroute ⟨by simp, by simp, by simp⟩
  exact ⟨_, hsend, s.sendAccess_peerAsked (a := { s.newAcc op va n sx d data (asked && !s.moved) 0 with remote := r }) rfl hplain pkg⟩

end

section
variable (hrelaxed : (asked && !s.moved) = true)
include hrelaxed

theorem State.access_relaxedSent {t : Target} (hroom : s.cur.relaxed.length < 8) (hroute : s.route va n = .ok t) (hsends : s.Sends op t)
    (ht : ∀ pkg, t ≠ .peer pkg) : ∃ u c lat, s.access op va n sx d data asked = u ∧ TripTakes s t lat ∧
      Carries c op va n sx d data 0 lat s.nextId ∧ c.rlx = true ∧ c.due = s.dueAfter s.cur va t lat ∧ u.mem = s.mem ∧
      u.cur = { s.cur with relaxed := s.cur.relaxed ++ [c] } ∧ Due u (c.due - (lat - lat / 2)) (.accessComplete s.cur.uid (.acc c)) := by
  obtain ⟨r, hsend⟩ := State.access_sends sx d data asked haligned hroute hsends
  obtain ⟨u, c, lat, hu, hrest⟩ := s.sendAccess_relaxedSent (a := { s.newAcc op va n sx d data (asked && !s.moved) 0 with remote := r })
    rfl hrelaxed hroom ht
  exact ⟨u, c, lat, hsend.trans hu, hrest⟩

theorem State.access_relaxedAsked {pkg : Nat} (hroom : s.cur.relaxed.length < 8) (hroute : s.route va n = .ok (.peer pkg)) : ∃ u c,
    s.access op va n sx d data asked = u ∧ c.op = op ∧ c.va = va ∧ c.data = data ∧ c.rlx = true ∧
    u.out = .request (s.peerAddr pkg) pkg (s.sendStamp 0) c :: s.out ∧ u.mem = s.mem ∧
    u.cur = { s.cur with relaxed := s.cur.relaxed ++ [c], asked := s.cur.asked ++ [c] } ∧
    (op = .store → Due u c.due (.accessComplete s.cur.uid (.acc c))) := by
  obtain ⟨r, hsend⟩ := State.access_sends (op := op) sx d data asked haligned hroute ⟨by simp, by simp, by simp⟩
  obtain ⟨u, c, hu, hrest⟩ := s.sendAccess_relaxedAsked (a := { s.newAcc op va n sx d data (asked && !s.moved) 0 with remote := r })
    hrelaxed hroom pkg
  exact ⟨u, c, hsend.trans hu, hrest⟩

theorem State.access_ninth {t : Target} (hfull : 8 ≤ s.cur.relaxed.length) (hroute : s.route va n = .ok t) (hsends : s.Sends op t) : ∃ u c,
    s.access op va n sx d data asked = u ∧ c.op = op ∧ c.va = va ∧ c.stage = 2 ∧ u.mem = s.mem ∧
    u.cur = { s.cur with relaxed := s.cur.relaxed ++ [c], status := .waiting .relaxed } := by
  obtain ⟨r, hsend⟩ := State.access_sends sx d data asked haligned hroute hsends
  obtain ⟨lat, k, m, hninth⟩ := s.sendAccess_ninth (a := { s.newAcc op va n sx d data (asked && !s.moved) 0 with remote := r })
    t hrelaxed hfull
  exact ⟨_, _, hsend.trans hninth, rfl, rfl, rfl, rfl, rfl⟩

end

end

end Sys2Proof.Machine
end

section
/-! O41: where loads and stores perform (R3, R250, R263, R308, R310, R330). -/

namespace Sys2Proof.Machine

open Sys2Proof.Claims

/-! Arrival (R116, R330). -/

section
variable {s f : State} {uid : Nat} {a : Acc} (hf : s.focusThread uid = f) (huid : f.cur.uid = uid) (h0 : uid ≠ 0)
include hf huid h0

theorem exec_accessComplete_acc : exec (.accessComplete uid (.acc a)) s = .next (f.arriveAccess a) := by
  change execAccessComplete uid (.acc a) s = _
  simp [execAccessComplete, hf, huid, h0]

end

/-- What an access finds where it is served in this cycle. -/
def Perf.Served (r : Perf) : Prop := (∀ c, r ≠ .later c) ∧ r ≠ .queued

/-- No peer's address; in tensor SRAM nothing of the thread to the word comes before. -/
def State.ServesHere (s : State) (a : Acc) : Prop :=
  (∀ pkg, s.route a.va a.bytes ≠ .ok (.peer pkg)) ∧ (∀ l b, s.route a.va a.bytes = .ok (.sram l b) → s.waitsBehind a = none)

section
variable {s : State} {a : Acc} (hlive : s.liveAccess a = true) (hstage : a.stage = 0)
include hlive hstage

/-- R330: what was served at its instant comes back with what it found. -/
theorem State.arriveAccess_served (h : s.ServesHere a) {u : State} {r : Perf} (hperform : s.perform a = (u, r)) (hr : r.Served) :
    s.arriveAccess a = u.comeBack a r := by
  obtain ⟨hpeer, hsram⟩ := h
  obtain ⟨hlater, hqueued⟩ := hr
  unfold State.arriveAccess
  rw [if_neg (by simp [hlive]), if_neg (by omega), if_neg (by omega), hperform]
  split
  · next pkg h => exact absurd h (hpeer pkg)
  · next l b h =>
    rw [hsram l b h]
    cases r with
    | later c => exact absurd rfl (hlater c)
    | _ => rfl
  · cases r with
    | queued => exact absurd rfl hqueued
    | _ => rfl

/-- R250: an access that its channel has not served waits there. -/
theorem State.arriveAccess_queued {home off : Nat} (hroute : s.route a.va a.bytes = .ok (.hbm home off)) {u : State}
    (hperform : s.perform a = (u, .queued)) : s.arriveAccess a = u := by
  unfold State.arriveAccess
  rw [if_neg (by simp [hlive]), if_neg (by omega), if_neg (by omega), hperform, hroute]

end

/-- R330: an access comes back not before its own time. -/
theorem State.comeBack_back {s u : State} {uid : Nat} (huid : u.cur.uid = uid) (hnow : u.now = s.now) (a : Acc) (r : Perf) :
    BackWith s (u.comeBack a r) uid a (accFound a r) := by
  subst huid
  have h := due_dueAt u (u.now + max (a.lat - a.lat / 2) (a.due - u.now)) rankDone (.accessComplete u.cur.uid (.acc (accFound a r)))
  rw [BackWith, ← hnow]
  exact h

/-! Channels (R250, R254, R258). -/

theorem State.now_lt_cycleOfTick (s : State) (k : Nat) : s.now < s.cycleOfTick (s.tick + 1 + k) := by
  simp only [State.cycleOfTick, State.tick]
  omega

/-- R250: a request that waits is to ask again in a later position. -/
theorem State.waitPosition_waits (s : State) (flat lo hi : Nat) (i : Instr) : ∃ c ag ch,
    s.waitPosition flat lo hi (.ev i) = { s with agenda := ag, chans := ch } ∧ s.now < c ∧ Due { s with agenda := ag } c i := by
  have hlater := s.now_lt_cycleOfTick (positionFrom lo hi (s.tick + 1) - (s.tick + 1))
  have hle : s.tick + 1 ≤ positionFrom lo hi (s.tick + 1) := Nat.le_add_right _ _
  rw [Nat.add_sub_cancel' hle] at hlater
  unfold State.waitPosition
  dsimp only
  split
  · next h => exact ⟨_, _, _, rfl, hlater, rankPosition, List.contains_iff_mem.1 h⟩
  · exact ⟨_, _, _, rfl, hlater, due_dueAt s _ rankPosition i⟩

theorem State.repairUnit_eq (s : State) (ch : Nat) : ∃ ag c, s.repairUnit ch = { s with agenda := ag, chans := c } := by
  unfold State.repairUnit
  split
  · exact ⟨s.agenda, s.chans, rfl⟩
  · dsimp only
    split
    · exact ⟨s.agenda, _, rfl⟩
    · exact ⟨_, _, rfl⟩

/-- R250, R254, R258: whether a channel serves a request of these units at once, in throughput mode. -/
def State.channelFree (s : State) (flat lo hi : Nat) : Bool :=
  s.positionServes (channelOf flat) lo hi && (s.chan (channelOf flat)).bursts.isEmpty &&
    !(s.chan (channelOf flat)).copying (hbmPlace flat).bank

/-- A position that is used does not end a repair. -/
theorem State.copying_served (s : State) (ch k bank : Nat) :
    ((s.onChan ch fun c => { c with served := k }).chan ch).copying bank = (s.chan ch).copying bank := by
  rw [State.chan, State.onChan, Tab.getD_put_self]
  rfl

section
variable {s : State} {flat lo hi : Nat} (i : Instr)

theorem State.askChannel_serves (h : s.channelFree flat lo hi = true) :
    ∃ c, s.askChannel flat lo hi (.ev i) = (true, { s with chans := c }) := by
  simp only [State.channelFree, Bool.and_eq_true, Bool.not_eq_true'] at h
  obtain ⟨⟨hserves, hbursts⟩, hcopying⟩ := h
  simp only [State.askChannel, hserves, hbursts, State.copying_served, hcopying, Bool.not_true, Bool.or_self, Bool.false_eq_true,
    if_false, Bool.and_false]
  exact ⟨_, rfl⟩

theorem State.askChannel_waits (hdet : s.p.run.det = false) (h : s.channelFree flat lo hi = false) : ∃ c ag ch,
    s.askChannel flat lo hi (.ev i) = (false, { s with agenda := ag, chans := ch }) ∧ s.now < c ∧ Due { s with agenda := ag } c i := by
  unfold State.askChannel
  dsimp only
  split
  · obtain ⟨c, ag, ch, hwait, hlater, hdue⟩ := s.waitPosition_waits flat lo hi i
    exact ⟨c, ag, ch, by rw [hwait], hlater, hdue⟩
  · next hfirst =>
    have hcopying : (s.chan (channelOf flat)).copying (hbmPlace flat).bank = true := by
      simp only [State.channelFree, Bool.or_eq_true, not_or, Bool.not_eq_true, Bool.not_eq_false'] at h hfirst
      simpa [hfirst] using h
    have hfree (g : Chan → Chan) : (s.onChan (channelOf flat) g).det = false := hdet
    simp only [State.copying_served, hcopying, hfree, Bool.not_false, Bool.and_self, if_true]
    obtain ⟨ag, k, hrepair⟩ := (s.onChan (channelOf flat) fun c => { c with served := s.tick + 1 }).repairUnit_eq (channelOf flat)
    rw [hrepair]
    obtain ⟨c, ag', ch, hwait, hlater, hdue⟩ := ({ s with agenda := ag, chans := k } : State).waitPosition_waits flat lo hi i
    exact ⟨c, ag', ch, congrArg (Prod.mk false) hwait, hlater, hdue⟩

end

section
variable {s : State} {flat : Nat} (i : Instr)

theorem State.channelTurn_serves (h : servedNow s flat = true) : ∃ c, s.channelTurn flat i = (true, { s with chans := c }) := by
  unfold State.channelTurn
  split
  · exact ⟨s.chans, rfl⟩
  · next hdet =>
    rw [State.det, Bool.not_eq_true] at hdet
    rw [servedNow, hdet, Bool.false_or] at h
    exact State.askChannel_serves i h

theorem State.channelTurn_waits (h : servedNow s flat = false) : ∃ c ag ch,
    s.channelTurn flat i = (false, { s with agenda := ag, chans := ch }) ∧ s.now < c ∧ Due { s with agenda := ag } c i := by
  rw [servedNow, Bool.or_eq_false_iff] at h
  obtain ⟨hdet, hfree⟩ := h
  unfold State.channelTurn
  rw [if_neg (by simp [State.det, hdet])]
  exact State.askChannel_waits i hdet hfree

end

/-! HBM at its home (R32, R308, R310, R327). -/

/-- R327: counting an access changes the clusters' counts only. -/
theorem State.counted_eq (s : State) (a : Acc) (off : Nat) : ∃ k,
    (if a.remote then s.countHot off a.asid.toNat a.quad else s) = { s with p := { s.p with clusters := k } } := by
  unfold State.countHot
  split
  · split
    · exact ⟨s.p.clusters, rfl⟩
    · exact ⟨_, rfl⟩
  · exact ⟨s.p.clusters, rfl⟩

section
variable {s : State} {a : Acc} {off flat : Nat}

theorem State.performHbm_miss {why : Nat} (h : s.translated a off = .error why) : s.performHbm a off = (s, .miss why) := by
  rw [State.performHbm, h]

section
variable (htranslated : s.translated a off = .ok flat)
include htranslated

/-- R32: a store into a region of another writer. -/
theorem State.performHbm_refused (hop : a.op = .store) (hopen : s.p.hbmOpen off a.bytes 7 = false) :
    ∃ k, s.performHbm a off = ({ s with p := { s.p with clusters := k } }, .bad 6) := by
  obtain ⟨k, hcount⟩ := s.counted_eq a off
  refine ⟨k, ?_⟩
  simp only [State.performHbm, htranslated, hcount]
  exact if_pos (show (decide (a.op = .store) && !s.p.hbmOpen off a.bytes 7) = true by simp [hop, hopen])

section
variable (hopen : (a.op = .store ∧ s.p.hbmOpen off a.bytes 7 = false) → False)
include hopen

/-- R310: an access that no region refuses asks its channel. -/
theorem State.performHbm_asks : ∃ k u, u = { s with p := { s.p with clusters := k } } ∧
    s.performHbm a off = match u.channelTurn flat (.accessComplete s.cur.uid (.acc { a with phys := some flat, remote := false })) with
      | (true, s) => (s.count 19).performAt a flat
      | (false, s) => (s, .queued) := by
  obtain ⟨k, hcount⟩ := s.counted_eq a off
  refine ⟨k, _, rfl, ?_⟩
  simp only [State.performHbm, htranslated, hcount]
  exact if_neg (show ¬(decide (a.op = .store) && !s.p.hbmOpen off a.bytes 7) = true by simpa using hopen)

/-- R250: in a position that serves the partition it performs there. -/
theorem State.performHbm_served (h : servedNow s flat = true) :
    ∃ q c, s.performHbm a off = ({ s with p := q, chans := c } : State).performAt a flat := by
  obtain ⟨k, u, hu, hask⟩ := State.performHbm_asks htranslated hopen
  obtain ⟨c, hserves⟩ := State.channelTurn_serves (s := u)
    (.accessComplete s.cur.uid (.acc { a with phys := some flat, remote := false })) (by rw [hu]; exact h)
  rw [hask, hserves, hu]
  exact ⟨_, c, rfl⟩

/-- R250: else it waits at its channel. -/
theorem State.performHbm_queued (h : servedNow s flat = false) : ∃ u c, s.performHbm a off = (u, .queued) ∧ u.cur = s.cur ∧
    u.mem = s.mem ∧ s.now < c ∧ Due u c (.accessComplete s.cur.uid (.acc { a with phys := some flat, remote := false })) := by
  obtain ⟨k, u, hu, hask⟩ := State.performHbm_asks htranslated hopen
  obtain ⟨c, ag, ch, hwaits, hlater, hdue⟩ := State.channelTurn_waits (s := u)
    (.accessComplete s.cur.uid (.acc { a with phys := some flat, remote := false })) (by rw [hu]; exact h)
  rw [hask, hwaits]
  subst hu
  exact ⟨_, c, rfl, rfl, rfl, hlater, hdue⟩

end

end

end

/-! Where an access performs (R3, R212, R263). -/

section
variable {s : State} {a : Acc} {flat : Nat}

theorem State.servesHere_of_route {t : Target} (hroute : s.route a.va a.bytes = .ok t) (hpeer : ∀ pkg, t ≠ .peer pkg)
    (hsram : ∀ l b, t ≠ .sram l b) : s.ServesHere a := by
  rw [State.ServesHere, hroute]
  exact ⟨fun pkg h => hpeer pkg (Except.ok.inj h), fun l b h => absurd (Except.ok.inj h) (hsram l b)⟩

/-- R308, R32: HBM where it translates and no region refuses the access. -/
theorem placed_hbm {home off : Nat} (hroute : s.route a.va a.bytes = .ok (.hbm home off)) (h : placed s a = some flat) :
    s.translated a off = .ok flat ∧ ((a.op = .store ∧ s.p.hbmOpen off a.bytes 7 = false) → False) := by
  simp only [placed, hroute] at h
  split at h
  · next f hf =>
    split at h
    · cases h
    · next hopen =>
      cases h
      refine ⟨hf, fun ⟨hop, hrefused⟩ => hopen ?_⟩
      rw [hop, hrefused]
      rfl
  · cases h

/-- Of local store, host memory, tensor SRAM and HBM, the model's own place is the flat address. -/
theorem State.perform_memPlace (h : memPlace s a = some flat) :
    s.ServesHere a ∧ ∃ q c, s.perform a = ({ s with p := q, chans := c } : State).performAt a flat := by
  cases hroute : s.route a.va a.bytes with
  | error k => simp [memPlace, placeOf, placed, hroute] at h
  | ok t =>
    cases t with
    | loc cl co b =>
      simp only [memPlace, placeOf, placed, hroute, Option.filter_some, if_true, Option.some.injEq] at h
      exact ⟨State.servesHere_of_route hroute (by simp) (by simp), s.p, s.chans, by rw [State.perform, hroute, ← h]⟩
    | hbm home off =>
      simp only [memPlace, placeOf, hroute, Option.filter_eq_some_iff] at h
      obtain ⟨hplaced, hserved⟩ := h
      obtain ⟨htranslated, hopen⟩ := placed_hbm hroute hplaced
      obtain ⟨q, c, hperform⟩ := State.performHbm_served htranslated hopen hserved
      exact ⟨State.servesHere_of_route hroute (by simp) (by simp), q, c, by rw [State.perform, hroute]; exact hperform⟩
    | host off =>
      simp only [memPlace, hroute, Option.some.injEq] at h
      exact ⟨State.servesHere_of_route hroute (by simp) (by simp), s.p, s.chans, by rw [State.perform, hroute, ← h]⟩
    | sram l b =>
      simp only [memPlace, hroute, Option.ite_none_right_eq_some, Option.some.injEq] at h
      obtain ⟨⟨hwait, hcovers, hport⟩, hflat⟩ := h
      refine ⟨⟨by simp [hroute], fun _ _ _ => hwait⟩, s.p, s.chans, ?_⟩
      simp only [State.perform, hroute, State.performSram, hcovers, hport, Bool.not_true, Bool.false_eq_true, if_false, ← hflat]
    | counters b => simp [memPlace, placeOf, placed, hroute] at h
    | board l m => simp [memPlace, placeOf, placed, hroute] at h
    | peer pkg => simp [memPlace, placeOf, placed, hroute] at h

/-! What a load reads and a store writes (R263). -/

theorem State.performAt_load (hop : a.op = .load) (hclean : Clean s flat) :
    s.performAt a flat = (s, .ok (loadValue a.sx a.bytes (s.mem.readN flat a.bytes))) := by
  simp [State.performAt, State.loadStore, hop, State.noteErrors_of_clean hclean, State.poisoned_of_clean hclean, State.bytes]

theorem State.performAt_store (hop : a.op = .store) (hclean : Clean s flat) :
    s.performAt a flat = (s.store flat a.bytes (a.data.toNat % 2 ^ (8 * a.bytes)), .ok 0) := by
  simp [State.performAt, State.loadStore, hop, State.poisoned_of_clean hclean]

/-- Thread, memory and time as they were. -/
def State.Keeps (s t : State) : Prop := t.cur = s.cur ∧ t.mem = s.mem ∧ t.now = s.now

theorem State.Keeps.trans {s t u : State} (h : s.Keeps t) (k : t.Keeps u) : s.Keeps u :=
  ⟨k.1.trans h.1, k.2.1.trans h.2.1, k.2.2.trans h.2.2⟩

theorem State.keeps_setAttr (s : State) (flat : Nat) (b : Byte) : s.Keeps (s.setAttr flat b) := by
  rw [State.setAttr_eq]
  exact ⟨rfl, rfl, rfl⟩

theorem State.keeps_countTile (s : State) (l : Nat) : s.Keeps (s.countTile l) := by
  unfold State.countTile
  split
  · unfold State.onTile
    dsimp only
    split <;> exact ⟨rfl, rfl, rfl⟩
  · exact ⟨rfl, rfl, rfl⟩

theorem State.keeps_wakeTurn (s : State) (flat : Nat) : s.Keeps (s.wakeTurn flat) := by
  unfold State.wakeTurn State.wakeList
  split
  · exact ⟨rfl, rfl, rfl⟩
  · dsimp only
    split <;> exact ⟨rfl, rfl, rfl⟩

/-- R240: a single-bit error that a read corrects is counted. -/
theorem State.keeps_corrected (s : State) (flat : Nat) (b : Byte) (single sram : Prop) [Decidable single] [Decidable sram] (l : Nat) :
    ∃ u, (if single then if sram then (s.setAttr flat b).countTile l else (s.setAttr flat b).count 21 else s) = u ∧ s.Keeps u := by
  refine ⟨_, rfl, ?_⟩
  split
  · split
    · exact (s.keeps_setAttr flat b).trans (State.keeps_countTile _ l)
    · exact s.keeps_setAttr flat b
  · exact ⟨rfl, rfl, rfl⟩

/-- R244, R261: what a read of a word in error leaves behind. -/
theorem State.keeps_noteErrors (s : State) (flat : Nat) : s.Keeps (s.noteErrors flat) := by
  obtain ⟨u, hcorrected, hu⟩ := s.keeps_corrected flat (s.attrOf flat &&& 0xFB) ((s.attrOf flat &&& 4 != 0) = true)
    (flatSramBase ≤ flat ∧ flat < flatAccBase) ((flat - flatSramBase) / 2 ^ 23 % 1024)
  unfold State.noteErrors
  dsimp only
  rw [hcorrected]
  split
  · split <;> exact hu
  · split
    · exact hu.trans ((u.keeps_setAttr flat _).trans (State.keeps_wakeTurn _ _))
    · exact hu

theorem State.keeps_logWord (s : State) (flat kind : Nat) : s.Keeps (s.logWord flat kind) := by
  unfold State.logWord
  split
  · unfold State.logEntry
    split <;> exact ⟨rfl, rfl, rfl⟩
  · exact ⟨rfl, rfl, rfl⟩

/-- R263: poison ends a load or a narrow store. -/
theorem State.performAt_poisoned (hpois : s.poisoned flat = true) (hop : a.op = .load ∨ a.op = .store ∧ a.bytes < 8) :
    ∃ u, s.performAt a flat = (u, .bad 7) ∧ s.Keeps u := by
  rcases hop with h | ⟨h, hnarrow⟩
  · refine ⟨(s.noteErrors flat).logWord flat 3, ?_, (s.keeps_noteErrors flat).trans (State.keeps_logWord _ flat 3)⟩
    simp [State.performAt, State.loadStore, h, hpois]
  · refine ⟨s.noteErrors flat, ?_, s.keeps_noteErrors flat⟩
    simp [State.performAt, State.loadStore, h, hpois, hnarrow]

end

/-- R263, R348, R356: of the acting thread a store changes its monitor only. -/
theorem State.store_frame (s : State) (flat n v : Nat) : ∃ b q a m k l, s.store flat n v = { s with
    mem := s.mem.writeN flat n v
    attr := b
    p := q
    agenda := a
    cur := { s.cur with monitor := m, napAt := k }
    threads := l } := by
  have htouched (u : State) : ∃ q a m k l, u.touched (wordOf flat) = { u with
      p := q, agenda := a, cur := { u.cur with monitor := m, napAt := k }, threads := l } := by
    obtain ⟨q, hdirty, -, -⟩ := u.dirtySlot_eq (wordOf flat)
    obtain ⟨a, m, k, l, h⟩ := ({ u with p := q } : State).noted_frame (wordOf flat)
    exact ⟨q, a, m, k, l, by rw [State.touched, hdirty, h]⟩
  unfold State.store
  dsimp only
  split
  · rw [State.setAttr_eq]
    obtain ⟨q, a, m, k, l, h⟩ := htouched _
    exact ⟨_, q, a, m, k, l, h⟩
  · obtain ⟨q, a, m, k, l, h⟩ := htouched _
    exact ⟨s.attr, q, a, m, k, l, h⟩

/-! Values (R12, R263). -/

theorem Memory.readN_lt (m : Memory) (a n : Nat) : m.readN a n < 2 ^ (8 * n) := by
  induction n generalizing a with
  | zero => simp [Memory.readN]
  | succ n ih =>
    have hbyte := (m.read a).isLt
    have hrest := ih (a + 1)
    rw [Memory.readN, Nat.mul_succ, Nat.pow_add]
    omega

section
variable {n v : Nat} (hn : n ∈ [1, 2, 4, 8]) (hv : v < 2 ^ (8 * n))
include hn hv

theorem loadValue_unsigned : (loadValue false n v).toNat = v := by
  have hle : 2 ^ (8 * n) ≤ 2 ^ 64 := Nat.pow_le_pow_right (by omega) (by simp at hn; omega)
  rw [loadValue, if_neg Bool.false_ne_true, BitVec.toNat_ofNat, Nat.mod_eq_of_lt (by omega)]

theorem loadValue_signed : (loadValue true n v).toInt = (BitVec.ofNat (8 * n) v).toInt := by
  have hword : v < 2 ^ 64 := hv.trans_le (Nat.pow_le_pow_right (by omega) (by simp at hn; omega))
  rw [loadValue, if_pos rfl, signExt, BitVec.toNat_ofNat, Nat.mod_eq_of_lt hword, Nat.mod_eq_of_lt hv,
    BitVec.toInt_eq_toNat_cond (BitVec.ofNat (8 * n) v),
    BitVec.toNat_ofNat, Nat.mod_eq_of_lt hv, BitVec.toInt_ofInt_eq_self (by omega)]
  all_goals
    simp only [List.mem_cons, List.not_mem_nil, or_false] at hn
    rcases hn with rfl | rfl | rfl | rfl <;> norm_num at hv ⊢ <;> split <;> omega

end

/-- R12: byte k of a value of n bytes. -/
theorem ofNat_byte (data : Word) {n k : Nat} (hk : k < n) :
    BitVec.ofNat 8 (data.toNat % 2 ^ (8 * n) / 256 ^ k) = data.extractLsb' (8 * k) 8 := by
  have hpow : 256 ^ k = 2 ^ (8 * k) := by rw [Nat.pow_mul]
  apply BitVec.eq_of_toNat_eq
  rw [BitVec.toNat_ofNat, BitVec.extractLsb'_toNat, Nat.shiftRight_eq_div_pow, hpow, show 8 * n = 8 * k + 8 * (n - k) by omega, Nat.pow_add,
    Nat.mod_mul_right_div_self, Nat.mod_mod_of_dvd]
  exact Nat.pow_dvd_pow 2 (by omega)

end Sys2Proof.Machine
end

section
/-! O41: how loads and stores end (R17, R110, R113, R114, R264, R330). -/

namespace Sys2Proof.Machine

open Sys2Proof.Claims

/-! What has performed completes (R330). -/

theorem State.arriveAccess_ends {s : State} {a : Acc} (hlive : s.liveAccess a = true) (hstage : a.stage = 1) :
    s.arriveAccess a = s.endAccess a (accBrings a) := by
  unfold State.arriveAccess
  rw [if_neg (by simp [hlive]), if_neg (by omega), if_pos hstage]

theorem State.liveAccess_of_status {s : State} {a : Acc} (h : s.cur.status = .access a.id) : s.liveAccess a = true := by
  simp [State.liveAccess, h]

/-! A plain access (R17, R110). -/

/-- R110, R350: the registers that the completion of a plain access leaves. -/
def State.received (s : State) (a : Acc) (v : Word) : State := { s with cur := { s.cur with
  a := (if accReads a.op then s.cur.setReg a.d v else s.cur).a
  pw := if a.op = .semGive ∧ v.toNat % 2 ^ 32 = 0xFFFFFFFF then s.cur.pw ||| 0x04000000 else s.cur.pw } }

section
variable {s : State} {a : Acc}

theorem State.completeAccess_plain (hrlx : a.rlx = false) (hheld : s.cur.heldV = [])
    (henqueued : a.op = .dctr → s.enqueuing s.cur.uid = false) (v : Word) :
    s.completeAccess a v = (s.received a v).retire.releaseHeld.rejoin s.now := by
  obtain ⟨r, hset⟩ := s.cur.setReg_frame a.d v
  obtain ⟨l, hrelease⟩ := State.releaseHeld_of_heldV (s := (s.received a v).retire) hheld
  have hcur : (s.received a v).retire.releaseHeld.cur.uid = s.cur.uid := by rw [hrelease]; rfl
  have hnow : (s.received a v).retire.releaseHeld.now = s.now := by rw [hrelease]; rfl
  have hlow : (v.extractLsb' 0 32 == 0xFFFFFFFF#32) = decide (v.toNat % 2 ^ 32 = 0xFFFFFFFF) := by
    rw [Bool.eq_iff_iff, beq_iff_eq, decide_eq_true_iff, ← BitVec.toNat_inj, BitVec.extractLsb'_toNat]
    rfl
  have henqueuing : (decide (a.op = .dctr) && (s.received a v).retire.releaseHeld.enqueuing s.cur.uid) = false := by
    by_cases hop : a.op = .dctr
    · rw [hrelease, Bool.and_eq_false_imp]
      exact fun _ => henqueued hop
    · simp [hop]
  have hretires (u : State) (hu : u = s.received a v) : (if decide (a.op = .dctr) && u.retire.releaseHeld.enqueuing
        u.retire.releaseHeld.cur.uid then { u.retire.releaseHeld with cur := { u.retire.releaseHeld.cur with status := .waiting .enqueue } }
      else u.retire.releaseHeld.rejoin u.retire.releaseHeld.now) = (s.received a v).retire.releaseHeld.rejoin s.now := by
    rw [hu, if_neg (by rw [hcur, henqueuing]; exact Bool.false_ne_true), hnow]
  unfold State.completeAccess
  simp only [hrlx, Bool.false_eq_true, if_false, State.landEarlier_of_heldV hheld]
  refine hretires _ ?_
  simp only [hlow, State.received, hset]
  cases accReads a.op <;> simp <;> split <;> rfl

/-- R17, R391: a fault found as an access completes is on its way to its trap, and the bundle leaves no result. -/
theorem State.faultAccess_leaves (s : State) (kind : Nat) (info : Word) : ∃ t r, s.faultAccess kind info = t ∧ t.cur.status = .trapping ∧
    t.cur.raised = some r ∧ r.kind = kind ∧ r.info = info ∧ r.pc = s.cur.pc ∧ t.cur.a = s.cur.a ∧ t.cur.heldV = [] ∧
    t.cur.retired = s.cur.retired ∧ t.mem = s.mem := by
  obtain ⟨q, st, pu, h⟩ := s.undoStreams_eq
  simp only [State.faultAccess, h, State.startTrap]
  split <;> exact ⟨_, _, rfl, rfl, rfl, rfl, rfl, rfl, rfl, rfl, rfl, rfl⟩

/-- R17, R110: a plain access that has performed ends with its value or with its fault. -/
theorem endsAs_of_stage_one {uid : Nat} (huid : (s.focusThread uid).cur.uid = uid) (h0 : uid ≠ 0)
    (hstatus : (s.focusThread uid).cur.status = .access a.id) (hstage : a.stage = 1) (hrlx : a.rlx = false) : EndsAs s uid a := by
  have hexec := exec_accessComplete_acc rfl huid h0 (a := a)
  rw [State.arriveAccess_ends (State.liveAccess_of_status hstatus) hstage] at hexec
  rw [EndsAs, hexec, accBrings]
  refine ⟨fun hbad hheld hgoto henqueued => ?_, fun hbad hfault => ?_⟩
  · rw [if_pos hbad, State.endAccess, State.completeAccess_plain hrlx hheld (by rwa [huid])]
    obtain ⟨⟨hu, hready, hretired, hpc⟩, -, hmem, hattr⟩ :=
      State.retired_rejoin (s := (s.focusThread uid).received a a.res) (by rw [← hgoto]; exact s.focusThread_goto uid)
    obtain ⟨ha, hpw, -⟩ := State.registers_rejoin (s := (s.focusThread uid).received a a.res) hheld
    exact ⟨_, rfl, ⟨hu, hready, hretired, hpc⟩, hmem.trans (s.focusThread_mem uid), hattr.trans (s.focusThread_attr uid), ha, hpw⟩
  · rw [if_neg (by omega), if_pos hfault, State.endAccess, hrlx]
    obtain ⟨t, r, ht, hstatus, hraised, hkind, hinfo, hpc, ha, hheld, hretired, hmem⟩ :=
      (s.focusThread uid).faultAccess_leaves a.bad a.va
    exact ⟨t, r, congrArg _ ht, hstatus, hraised, hkind, hinfo, hpc, ha, hheld, hretired, hmem.trans (s.focusThread_mem uid)⟩

end

/-! A relaxed access (R110, R114, R264). -/

/-- R114: with nothing landed in this cycle a relaxed load writes its register. -/
theorem Thread.landLoad_of_landed {t : Thread} (h : t.landed = []) (now born d : Nat) (v : Word) :
    ∃ l, t.landLoad now born d v = { t.setReg d v with landed := l } := by
  rw [Thread.landLoad, h]
  exact ⟨_, rfl⟩

theorem State.startAccess_frame (s : State) (a : Acc) (t : Target) : ∃ ag o k, s.startAccess a t =
    { s with agenda := ag, out := o, cur := { s.cur with asked := k } } := by
  cases t with
  | peer pkg =>
    obtain ⟨ag, h, -⟩ := s.startAccess_peer a pkg
    exact ⟨ag, _, _, h⟩
  | _ => exact ⟨_, s.out, s.cur.asked, rfl⟩

theorem State.wakeListed_eq (s : State) : ∃ ag, s.wakeListed = { s with agenda := ag } := by
  unfold State.wakeListed State.wakeList
  split
  · split
    · dsimp only
      split
      · exact ⟨s.agenda, rfl⟩
      · exact ⟨_, rfl⟩
    · exact ⟨s.agenda, rfl⟩
  · exact ⟨s.agenda, rfl⟩

/-- R110, R264: a relaxed access that is over is no longer outstanding. -/
theorem State.relaxedDone_frame {s : State} (hunsent : s.cur.unsent = none) (id : Nat) : ∃ ag o k l, s.relaxedDone id =
    { s with agenda := ag, out := o, cur := { s.cur with asked := k, relaxed := l } } ∧ ∀ y ∈ l, y.id ≠ id := by
  have hgone : ∀ y ∈ s.cur.relaxed.filter (·.id ≠ id), y.id ≠ id := fun y hy => by simpa using List.of_mem_filter hy
  unfold State.relaxedDone
  dsimp only
  split
  · obtain ⟨ag, h⟩ := ({ s with cur := { s.cur with relaxed := s.cur.relaxed.filter (·.id ≠ id) } } : State).wakeListed_eq
    refine ⟨ag, s.out, s.cur.asked, _, ?_, hgone⟩
    rw [← h, State.sendUnsent]
    dsimp only
    rw [hunsent]
  · next a ha =>
    split
    · obtain ⟨ag, o, k, h⟩ := State.startAccess_frame _ _ _
      refine ⟨ag, o, k, _, h, fun y hy => ?_⟩
      obtain ⟨x, hx, rfl⟩ := List.mem_map.1 hy
      split
      · exact hgone a (List.mem_of_find?_eq_some ha)
      · exact hgone x hx
    · exact ⟨s.agenda, s.out, s.cur.asked, _, rfl, hgone⟩

/-- R114, R264: a relaxed load or store that has performed. -/
theorem State.completeAccess_relaxed {s : State} {a : Acc} (hrlx : a.rlx = true) (hop : a.op ∈ [AccOp.load, AccOp.store])
    (hlanded : s.cur.landed = []) (hunsent : s.cur.unsent = none) (v : Word) : ∃ t, s.completeAccess a v = t ∧
      t.cur.a = (if a.op = .load then s.cur.setReg a.d v else s.cur).a ∧ t.cur.status = s.cur.status ∧ t.mem = s.mem ∧
      t.cur.retired = s.cur.retired ∧ ∀ y ∈ t.cur.relaxed, y.id ≠ a.id := by
  obtain ⟨l, hland⟩ := Thread.landLoad_of_landed hlanded s.now a.born a.d v
  obtain ⟨r, hset⟩ := s.cur.setReg_frame a.d v
  simp only [List.mem_cons, List.not_mem_nil, or_false] at hop
  rcases hop with hop | hop
  · obtain ⟨ag, o, k, w, hdone, hgone⟩ :=
      State.relaxedDone_frame (s := { s with cur := { s.cur.setReg a.d v with landed := l } }) (by rw [hset]; exact hunsent) a.id
    simp only [State.completeAccess, hrlx, hop, accReads, hland, if_true, Bool.not_true, Bool.false_eq_true, if_false, reduceCtorEq,
      decide_false, Bool.false_and]
    rw [hdone, hset]
    exact ⟨_, rfl, rfl, rfl, rfl, rfl, hgone⟩
  · obtain ⟨ag, o, k, w, hdone, hgone⟩ := State.relaxedDone_frame hunsent a.id
    simp only [State.completeAccess, hrlx, hop, accReads, if_true, Bool.not_false, Bool.false_eq_true, if_false, reduceCtorEq,
      decide_false, Bool.false_and]
    rw [hdone]
    exact ⟨_, rfl, rfl, rfl, rfl, rfl, hgone⟩

end Sys2Proof.Machine
end

section
/-! O41 settled. -/

namespace Sys2Proof.Proofs

open Sys2Proof.Machine Sys2Proof.Claims

section
variable {uid : Nat} {a : Acc} {s f : State} (hf : s.focusThread uid = f) (huid : f.cur.uid = uid) (h0 : uid ≠ 0)
  (hlive : f.liveAccess a = true) (hstage : a.stage = 0)
include hf huid h0 hlive hstage

/-- R330: an access that has been served is on its way back. -/
theorem servedComesBack {u : State} {r : Perf} (hhere : f.ServesHere a) (hperform : f.perform a = (u, r)) (hr : r.Served)
    (hcur : u.cur.uid = f.cur.uid) (hnow : u.now = f.now) :
    exec (.accessComplete uid (.acc a)) s = .next (u.comeBack a r) ∧ BackWith s (u.comeBack a r) uid a (accFound a r) := by
  rw [exec_accessComplete_acc hf huid h0, State.arriveAccess_served hlive hstage hhere hperform hr]
  exact ⟨rfl, State.comeBack_back (hcur.trans huid) (by rw [hnow, ← hf, State.focusThread_now]) a r⟩

/-- R263: what an access finds at its flat address. -/
theorem placedComesBack {flat : Nat} (hplace : memPlace f a = some flat) : ∃ q c, ∀ u r,
    ({ f with p := q, chans := c } : State).performAt a flat = (u, r) → r.Served → u.cur.uid = f.cur.uid → u.now = f.now →
    exec (.accessComplete uid (.acc a)) s = .next (u.comeBack a r) ∧ BackWith s (u.comeBack a r) uid a (accFound a r) := by
  obtain ⟨hhere, q, c, hperform⟩ := State.perform_memPlace hplace
  exact ⟨q, c, fun u r hat hr hcur hnow => servedComesBack hf huid h0 hlive hstage hhere (hperform.trans hat) hr hcur hnow⟩

theorem loadPerforms {flat : Nat} (hplace : memPlace f a = some flat) (hbytes : a.bytes ∈ [1, 2, 4, 8]) (hclean : Clean s flat)
    (hop : a.op = .load) : ∃ t v, exec (.accessComplete uid (.acc a)) s = .next t ∧ t.cur = f.cur ∧ t.mem = s.mem ∧ t.attr = s.attr ∧
      BackWith s t uid a { a with stage := 1, res := v } ∧ (a.sx = false → v.toNat = s.mem.readN flat a.bytes) ∧
      (a.sx = true → v.toInt = (BitVec.ofNat (8 * a.bytes) (s.mem.readN flat a.bytes)).toInt) := by
  have hmem : f.mem = s.mem := by rw [← hf]; exact s.focusThread_mem uid
  have hattr : f.attr = s.attr := by rw [← hf]; exact s.focusThread_attr uid
  have hfclean : Clean f flat := by rw [Clean, State.attrOf, hattr]; exact hclean
  obtain ⟨q, c, hback⟩ := placedComesBack hf huid h0 hlive hstage hplace
  obtain ⟨hexec, hback⟩ := hback _ _ (State.performAt_load (s := { f with p := q, chans := c }) hop hfclean)
    ⟨by simp, by simp⟩ rfl rfl
  have hlt := s.mem.readN_lt flat a.bytes
  refine ⟨_, _, hexec, rfl, hmem, hattr, hback, fun hsx => ?_, fun hsx => ?_⟩
  · rw [hsx, hmem]; exact loadValue_unsigned hbytes hlt
  · rw [hsx, hmem]; exact loadValue_signed hbytes hlt

theorem storePerforms {flat : Nat} (hplace : memPlace f a = some flat) (hclean : Clean s flat) (hop : a.op = .store)
    (hwf : s.mem.wf = true) : ∃ t, exec (.accessComplete uid (.acc a)) s = .next t ∧ t.cur.a = f.cur.a ∧ t.cur.pw = f.cur.pw ∧
      t.cur.status = f.cur.status ∧ OnlyBytes s t flat a.bytes ∧ BackWith s t uid a { a with stage := 1, res := 0 } ∧
      (∀ k, k < a.bytes → t.mem.read (flat + k) = a.data.extractLsb' (8 * k) 8) := by
  have hmem : f.mem = s.mem := by rw [← hf]; exact s.focusThread_mem uid
  have hattr : f.attr = s.attr := by rw [← hf]; exact s.focusThread_attr uid
  have hfclean : Clean f flat := by rw [Clean, State.attrOf, hattr]; exact hclean
  obtain ⟨q, c, hback⟩ := placedComesBack hf huid h0 hlive hstage hplace
  obtain ⟨b, q', ag, m, k, l, hstore⟩ :=
    ({ f with p := q, chans := c } : State).store_frame flat a.bytes (a.data.toNat % 2 ^ (8 * a.bytes))
  obtain ⟨hexec, hback⟩ := hback _ _ ((State.performAt_store (s := { f with p := q, chans := c }) hop hfclean).trans
    (congrArg (·, Perf.ok 0) hstore)) ⟨by simp, by simp⟩ rfl rfl
  refine ⟨_, hexec, rfl, rfl, rfl, fun b hb => ?_, hback, fun k hk => ?_⟩
  · exact (Memory.read_writeN_outside (by rw [hmem]; exact hwf) hb).trans (congrArg (·.read b) hmem)
  · refine (Memory.read_writeN (by rw [hmem]; exact hwf)).trans ?_
    rw [if_pos (by omega), Nat.add_sub_cancel_left, ofNat_byte a.data hk]

theorem poisonEnds {flat : Nat} (hplace : memPlace f a = some flat) (hpois : s.poisoned flat = true)
    (hop : a.op = .load ∨ a.op = .store ∧ a.bytes < 8) : ∃ t, exec (.accessComplete uid (.acc a)) s = .next t ∧ t.cur = f.cur ∧
      t.mem = s.mem ∧ BackWith s t uid a { a with stage := 1, bad := 7 } := by
  have hmem : f.mem = s.mem := by rw [← hf]; exact s.focusThread_mem uid
  have hattr : f.attr = s.attr := by rw [← hf]; exact s.focusThread_attr uid
  have hfpois : f.poisoned flat = true := by rw [State.poisoned, State.attrOf, hattr]; exact hpois
  obtain ⟨q, c, hback⟩ := placedComesBack hf huid h0 hlive hstage hplace
  obtain ⟨u, hat, hcur, humem, hnow⟩ := State.performAt_poisoned (s := { f with p := q, chans := c }) hfpois hop
  obtain ⟨hexec, hback⟩ := hback u _ hat ⟨by simp, by simp⟩ (by rw [hcur]) hnow
  exact ⟨_, hexec, hcur, humem.trans hmem, hback⟩

/-- R250: an access that its channel does not serve asks again later. -/
theorem channelHoldsBack {home off flat : Nat} (hroute : f.route a.va a.bytes = .ok (.hbm home off)) (hplaced : placed f a = some flat)
    (hserved : servedNow f flat = false) : ∃ t c, exec (.accessComplete uid (.acc a)) s = .next t ∧ t.cur = f.cur ∧ t.mem = s.mem ∧
      s.now < c ∧ Due t c (.accessComplete uid (.acc { a with phys := some flat, remote := false })) := by
  obtain ⟨htranslated, hopen⟩ := placed_hbm hroute hplaced
  obtain ⟨u, c, hqueued, hcur, hmem, hlater, hdue⟩ := State.performHbm_queued htranslated hopen hserved
  rw [huid] at hdue
  rw [← hf, State.focusThread_now] at hlater
  refine ⟨u, c, ?_, hcur, hmem.trans (by rw [← hf]; exact s.focusThread_mem uid), hlater, hdue⟩
  rw [exec_accessComplete_acc hf huid h0, State.arriveAccess_queued hlive hstage hroute (by rw [State.perform, hroute]; exact hqueued)]

end

/-- Settles O41: an instruction's access is checked, and leaves, or moves its thread; where it performs its place decides what it
finds; what comes back ends it. -/
theorem loadsAndStores : Obligations.LoadsAndStores := by
  unfold Obligations.LoadsAndStores
  refine ⟨?issue, ?perform, ?ends⟩
  case issue =>
    intro g d rs x fn f imm s va vl n3 nl forms i op a n sx dest data asked hi rlx figure
    obtain ⟨hexec, hop⟩ := exec_memory hi
    have hrelaxed : (asked && !s.moved) = rlx := by simp [rlx, State.moved, bne]
    have hfigure (target : Target) (k : Nat) (h : figure target = some k) :=
      State.sends_of_memFigure (s := s) (op := op) (t := target) (k := k) h
    refine ⟨fun hg => ?off, fun hg hmisaligned => ?misaligned, fun hg haligned => ?_⟩
    case off => rw [hexec, if_neg (by simp [hg])]
    case misaligned => rw [hexec, if_pos hg, State.access_fault _ _ _ _ (State.checkAccess_misaligned op hmisaligned)]
    rw [hexec, if_pos hg]
    refine ⟨fun k hroute => ?error, fun l m hroute => ?board, fun o hroute hstore => ?counters, fun home off hroute hhome hroams => ?moves,
      fun hplain => ⟨fun target k hroute hk => ?sent, fun o hroute => ?host, fun pkg hroute => ?asked⟩,
      fun hrlx hroom => ⟨fun target k hroute hk => ?relaxed, fun pkg hroute => ?relaxedAsked⟩, fun hrlx hfull target k hroute hk => ?ninth⟩
    case error => rw [State.access_fault _ _ _ _ (State.checkAccess_error haligned op hroute)]
    case board => rw [State.access_fault _ _ _ _ (State.checkAccess_board haligned op hroute)]
    case counters => rw [hstore, State.access_fault _ _ _ _ (State.checkAccess_counters haligned hroute)]
    case moves => exact ⟨_, congrArg _ (State.access_migrates sx dest data asked haligned hroute hhome hroams), s.migrate_migrates home _⟩
    case sent =>
      obtain ⟨hsends, hhost, hpeer, rfl⟩ := hfigure target k hk
      obtain ⟨u, lat, hu, ⟨htakes, -⟩, hsent⟩ :=
        State.access_plainSent sx dest data haligned (hrelaxed.trans hplain) hroute hsends hpeer
      exact ⟨u, lat, congrArg _ hu, htakes hhost, hsent⟩
    case host =>
      obtain ⟨u, lat, hu, ⟨-, hpos⟩, hsent⟩ := State.access_plainSent (op := op) sx dest data haligned (hrelaxed.trans hplain) hroute
        ⟨by simp, by simp, by simp⟩ (by simp)
      exact ⟨u, lat, congrArg _ hu, hpos o rfl, hsent⟩
    case asked =>
      obtain ⟨u, hu, hasked⟩ := State.access_peerAsked (op := op) sx dest data haligned (hrelaxed.trans hplain) hroute
      exact ⟨u, congrArg _ hu, hasked⟩
    case relaxed =>
      obtain ⟨hsends, hhost, hpeer, rfl⟩ := hfigure target k hk
      obtain ⟨u, c, lat, hu, ⟨htakes, -⟩, hrest⟩ :=
        State.access_relaxedSent sx dest data haligned (hrelaxed.trans hrlx) hroom hroute hsends hpeer
      exact ⟨u, c, lat, congrArg _ hu, htakes hhost, hrest⟩
    case relaxedAsked =>
      obtain ⟨u, c, hu, hrest⟩ := State.access_relaxedAsked (op := op) sx dest data haligned (hrelaxed.trans hrlx) hroom hroute
      exact ⟨u, c, congrArg _ hu, hrest⟩
    case ninth =>
      obtain ⟨hsends, -⟩ := hfigure target k hk
      obtain ⟨u, c, hu, hrest⟩ := State.access_ninth sx dest data haligned (hrelaxed.trans hrlx) hfull hroute hsends
      exact ⟨u, c, congrArg _ hu, hrest⟩
  case perform =>
    intro uid a s f huid h0 hlive hstage hop
    have hmem : f.mem = s.mem := s.focusThread_mem uid
    refine ⟨fun flat hplace hbytes _ hclean => ⟨loadPerforms rfl huid h0 hlive hstage hplace hbytes hclean,
      storePerforms rfl huid h0 hlive hstage hplace hclean⟩, fun flat hplace hpois hnarrow => ?poison, fun o hroute hload => ?counter,
      fun home off hroute => ?hbm⟩
    case poison =>
      refine poisonEnds rfl huid h0 hlive hstage hplace hpois ?_
      simp only [List.mem_cons, List.not_mem_nil, or_false] at hop
      tauto
    case counter =>
      obtain ⟨hexec, hback⟩ := servedComesBack rfl huid h0 hlive hstage (State.servesHere_of_route hroute (by simp) (by simp))
        (by rw [State.perform, hroute]) ⟨by simp, by simp⟩ rfl rfl
      exact ⟨_, hexec, rfl, hmem, hback⟩
    case hbm =>
      have hhere : f.ServesHere a := State.servesHere_of_route hroute (by simp) (by simp)
      have hperform : f.perform a = f.performHbm a off := by rw [State.perform, hroute]
      refine ⟨fun why hmiss => ?miss, fun flat htranslated hstore hrefused => ?refused,
        fun flat => channelHoldsBack rfl huid h0 hlive hstage hroute⟩
      case miss =>
        obtain ⟨hexec, hback⟩ := servedComesBack rfl huid h0 hlive hstage hhere (hperform.trans (State.performHbm_miss hmiss))
          ⟨by simp, by simp⟩ rfl rfl
        exact ⟨_, hexec, rfl, hmem, hback⟩
      case refused =>
        obtain ⟨k, hbad⟩ := State.performHbm_refused htranslated hstore hrefused
        obtain ⟨hexec, hback⟩ := servedComesBack rfl huid h0 hlive hstage hhere (hperform.trans hbad) ⟨by simp, by simp⟩ rfl rfl
        exact ⟨_, hexec, rfl, hmem, hback⟩
  case ends =>
    intro uid a s f huid h0 hlive hstage hop
    refine ⟨fun hrlx hstatus => endsAs_of_stage_one huid h0 hstatus hstage hrlx, fun hrlx hbad hlanded hunsent => ?_⟩
    obtain ⟨t, ht, ha, hstatus, hmem, hretired, hgone⟩ := State.completeAccess_relaxed hrlx hop hlanded hunsent a.res
    refine ⟨t, ?_, ha, hstatus, hmem.trans (s.focusThread_mem uid), hretired, hgone⟩
    rw [exec_accessComplete_acc rfl huid h0, State.arriveAccess_ends hlive hstage, accBrings, if_pos hbad, State.endAccess, ht]

end Sys2Proof.Proofs
end

section
/-! Effects of timed words (R213-R215): what an effect that reads for its word finds in tensor SRAM, what the word keeps, and what becomes
due. -/

namespace Sys2Proof.Machine

open Sys2Proof.Claims

/-! What acts. -/

@[simp] theorem atTile_mem (s : State) (first tile : Nat) : (atTile s first tile).mem = s.mem := by simp [atTile]

/-- R213: the state in which an effect acts in the name of its word's stream. -/
def State.actsFor (s : State) (w : WordRun) : State := { s with tstream := w.stream }

@[simp] theorem State.actsFor_p (s : State) (w : WordRun) : (s.actsFor w).p = s.p := rfl
@[simp] theorem State.actsFor_tl (s : State) (w : WordRun) : (s.actsFor w).tl = s.tl := rfl
@[simp] theorem State.actsFor_wordRun (s : State) (w : WordRun) (key : Nat) : (s.actsFor w).wordRun key = s.wordRun key := rfl
@[simp] theorem State.actsFor_bytes (s : State) (w : WordRun) (flat n : Nat) : (s.actsFor w).bytes flat n = s.bytes flat n := rfl
@[simp] theorem State.actsFor_sramFlat (s : State) (w : WordRun) (off : Nat) : (s.actsFor w).sramFlat off = s.sramFlat off := rfl

/-- R213: an effect of a word that is kept acts in the name of the word's stream. -/
theorem exec_timedEffectLands {s f : State} {first tile key : Nat} {e : TEff} {w : WordRun} (hf : atTile s first tile = f)
    (hfirst : f.p.first = first) (hword : f.wordRun key = some w) (heff : wordOfEff e = some key) :
    exec (.timedEffectLands first tile e) s = .next ((f.actsFor w).timedEffect e).storeTile := by
  subst hf
  have hpart : (s.focusPart first).p.first = first := hfirst
  change execTimedEffectLands first tile e s = _
  simp only [execTimedEffectLands, hpart, ne_eq, not_true, if_false, heff, Option.bind_some]
  rw [show ((s.focusPart first).focusTile tile).wordRun key = some w from hword]
  rfl

/-! What becomes due. -/

theorem State.onStream_eq (s : State) (n : Nat) (g : TStream → TStream) : ∃ x,
    s.onStream n g = { s with tl := { s.tl with streams := x } } := by
  unfold State.onStream; split <;> exact ⟨_, rfl⟩

/-- More may be due in `t` than in `s`, and its streams may know of it; nothing else differs. -/
def State.AddsDue (s t : State) : Prop := ∃ q x, s.p.run.tq ⊆ q ∧
  t = { s with p := { s.p with run := { s.p.run with tq := q } }, tl := { s.tl with streams := x } }

namespace State.AddsDue

theorem refl (s : State) : s.AddsDue s := ⟨_, _, fun _ h => h, rfl⟩

theorem trans {s t u : State} (h : s.AddsDue t) (k : t.AddsDue u) : s.AddsDue u := by
  obtain ⟨q, x, hq, rfl⟩ := h
  obtain ⟨q', x', hq', rfl⟩ := k
  exact ⟨q', x', fun _ h => hq' (hq h), rfl⟩

theorem effect (s : State) (tick rank : Nat) (e : TEff) : s.AddsDue (s.effect tick rank e) := by
  unfold State.effect
  obtain ⟨x, h⟩ := s.onStream_eq s.tstream fun t => { t with lands := max t.lands tick }
  rw [h]
  exact ⟨_, _, fun _ h => mem_insertItem.2 (.inr h), rfl⟩

theorem foldl {α : Type} {g : State → α → State} (hg : ∀ (s : State) x, s.AddsDue (g s x)) (l : List α) (s : State) :
    s.AddsDue (l.foldl g s) := by
  induction l generalizing s with
  | nil => exact refl s
  | cons x l ih => exact (hg s x).trans (ih _)

/-- What each element makes true, and more being due leaves true, is true in the end. -/
theorem foldl_reaches {α : Type} {g : State → α → State} {P : α → State → Prop} (hg : ∀ (s : State) x, s.AddsDue (g s x))
    (hP : ∀ (s : State) x, P x (g s x)) (hmono : ∀ {s t : State} {x}, s.AddsDue t → P x s → P x t) (l : List α) (s : State) :
    ∀ x ∈ l, P x (l.foldl g s) := by
  induction l generalizing s with
  | nil => simp
  | cons y l ih =>
    intro x hx
    rcases List.mem_cons.1 hx with rfl | hx
    · exact hmono (foldl hg l _) (hP s x)
    · exact ih _ x hx

section
variable {s t : State} (h : s.AddsDue t)
include h

theorem mem : t.mem = s.mem := by obtain ⟨q, x, -, rfl⟩ := h; rfl
theorem faults : t.p.run.faults = s.p.run.faults := by obtain ⟨q, x, -, rfl⟩ := h; rfl
theorem wordRun (key : Nat) : t.wordRun key = s.wordRun key := by obtain ⟨q, x, -, rfl⟩ := h; rfl

theorem due {tick : Nat} {e : TEff} (hdue : DueEffect s tick e) : DueEffect t tick e := by
  obtain ⟨q, x, hq, rfl⟩ := h
  exact hdue.imp fun _ hr => hq hr

theorem groupDue {tick j width writer : Nat} {w : WordRun} {elem : Nat → Nat} (hdue : GroupDue s tick w j width writer elem) :
    GroupDue t tick w j width writer elem :=
  hdue.imp fun _ hv => hv.imp_left h.due

end
end State.AddsDue

theorem State.due_effect (s : State) (tick rank : Nat) (e : TEff) : DueEffect (s.effect tick rank e) tick e := by
  unfold State.effect
  obtain ⟨x, h⟩ := s.onStream_eq s.tstream fun t => { t with lands := max t.lands tick }
  rw [h]
  exact ⟨rank, mem_insertItem.2 (.inl rfl)⟩

/-- What is due stays due as the tile goes back to its place. -/
theorem State.due_storeTile {s : State} {tick : Nat} {e : TEff} (h : DueEffect s tick e) : DueEffect s.storeTile tick e := h

theorem State.groupDue_storeTile {s : State} {tick j width writer : Nat} {w : WordRun} {elem : Nat → Nat}
    (h : GroupDue s tick w j width writer elem) : GroupDue s.storeTile tick w j width writer elem := h

/-! The kept word. -/

theorem State.key_of_wordRun {s : State} {key : Nat} {w : WordRun} (h : s.wordRun key = some w) : w.key = key := by
  simpa using List.find?_some h

theorem State.wordRun_onWord {s : State} {key : Nat} {w : WordRun} {g : WordRun → WordRun} (h : s.wordRun key = some w)
    (hg : ∀ x, x.key = key → (g x).key = key) : (s.onWord key g).wordRun key = some (g w) := by
  have hkey (x : WordRun) : decide ((if x.key = key then g x else x).key = key) = decide (x.key = key) := by
    split
    · next hx => simp [hg x hx, hx]
    · rfl
  have hfind : s.tl.words.find? (fun x => decide (x.key = key)) = some w := h
  simp only [State.wordRun, State.onWord, List.find?_map, Function.comp_def, hkey, hfind, Option.map_some, State.key_of_wordRun h, if_true]

/-- A word that is over is kept no longer. -/
@[simp] theorem State.wordRun_dropWord (s : State) (key : Nat) : (s.dropWord key).wordRun key = none := by
  simp [State.wordRun, State.dropWord]

theorem State.onWord_onWord (s : State) {key : Nat} {g h : WordRun → WordRun} (hg : ∀ x, x.key = key → (g x).key = key) :
    (s.onWord key g).onWord key h = s.onWord key (h ∘ g) := by
  simp only [State.onWord, List.map_map, Function.comp_def]
  congr 3
  funext x
  split <;> simp_all

section
variable (w : WordRun) (j v tick : Nat)

theorem WordRun.lineAt_withGroup : (w.withGroup j v tick).lineAt j = BitVec.ofNat 1024 v := by
  simp [WordRun.lineAt, WordRun.withGroup]

theorem WordRun.lineAt_withGroup_of_ne {k : Nat} (h : k ≠ j) : (w.withGroup j v tick).lineAt k = w.lineAt k := by
  have hkeep (x : Nat × Nat × Token) : decide ((x.1 != j) = true ∧ (x.1 == k) = true) = (x.1 == k) := by
    rw [Bool.eq_iff_iff]; simp; omega
  have hj : (j == k) = false := beq_false_of_ne h.symm
  simp only [WordRun.lineAt, WordRun.withGroup, List.find?_cons, List.find?_filter, hkeep, hj]

end

/-! Reading tensor SRAM (R212, R244). -/

theorem mem_linesOf {a off n : Nat} : a ∈ linesOf off n ↔ a % 128 = 0 ∧ a < off + n ∧ off < a + 128 := by
  simp only [linesOf, List.mem_map, List.mem_range]
  constructor
  · rintro ⟨i, hi, rfl⟩; omega
  · intro h; exact ⟨a / 128 - off / 128, by omega, by omega⟩

theorem State.portsOk_iff {s : State} {operand : Bool} {off n : Nat} : s.portsOk operand off n = true ↔
    ∀ a, a < off + n → off < a + 128 → a % 128 = 0 → s.portOk operand a = true := by
  simp only [State.portsOk, List.all_eq_true, mem_linesOf]
  exact ⟨fun h a h1 h2 h3 => h a ⟨h3, h1, h2⟩, fun h a ⟨h3, h1, h2⟩ => h a h1 h2 h3⟩

/-- Bytes of one line need that line's port alone. -/
theorem State.portsOk_of_line {s : State} {operand : Bool} {off n : Nat} (hport : s.portOk operand off = true)
    (hline : off % 128 + n ≤ 128) : s.portsOk operand off n = true := by
  refine State.portsOk_iff.2 fun a h1 h2 h3 => ?_
  rw [State.portOk, show a / 128 = off / 128 by omega]
  exact hport

section
variable {s : State} (hclean : CleanSram s)
include hclean

/-- R244: a read that meets no error gives the bytes and leaves the state. -/
theorem State.readSram_of_clean {off n : Nat} (hin : off + n ≤ 0x600000) : s.readSram off n = (s.bytes (s.sramFlat off) n, s) := by
  have hzero (f : Nat) (hf : f ∈ ((List.range (n / 8 + 2)).map fun i => s.sramFlat ((off / 8 + i) * 8)).filter
      fun f => decide (f < s.sramFlat (off + n))) : s.attrOf f = 0 := by
    simp only [List.mem_filter, List.mem_map, decide_eq_true_eq] at hf
    obtain ⟨⟨i, -, rfl⟩, hlt⟩ := hf
    refine hclean _ (lt_of_lt_of_le ?_ hin)
    simp only [State.sramFlat, flatSram] at hlt
    omega
  have hread (l : List Nat) (hl : ∀ f ∈ l, s.attrOf f = 0) :
      l.foldl State.noteErrors s = s ∧ (l.any fun f => s.attrOf f &&& 8 != 0) = false := by
    refine ⟨?_, by simp +contextual [hl]⟩
    induction l with
    | nil => rfl
    | cons f l ih =>
      rw [List.foldl_cons, State.noteErrors_of_clean (.inl (hl f (by simp)))]
      exact ih fun x hx => hl x (by simp [hx])
  obtain ⟨hsame, hgood⟩ := hread _ hzero
  simp only [State.readSram, hsame, hgood]
  rfl

theorem State.readGroups_of_clean {n : Nat} {l : List Nat} (h : ∀ off ∈ l, s.portsOk false off n = true ∧ off + n ≤ 0x600000) :
    s.readGroups n l = (some (l.map fun off => s.bytes (s.sramFlat off) n), s) := by
  induction l with
  | nil => rfl
  | cons off l ih =>
    obtain ⟨hport, hin⟩ := h off (by simp)
    simp [State.readGroups, hport, State.readSram_of_clean hclean hin, ih fun x hx => h x (by simp [hx])]

end

theorem lt_two_pow_mono {v m n : Nat} (hv : v < 2 ^ m) (h : m ≤ n) : v < 2 ^ n := hv.trans_le (Nat.pow_le_pow_right Nat.two_pos h)

theorem toNat_ofNat_of_lt {n v : Nat} (h : v < 2 ^ n) : (BitVec.ofNat n v).toNat = v := by
  rw [BitVec.toNat_ofNat, Nat.mod_eq_of_lt h]

theorem State.bytes_lt (s : State) (flat n : Nat) : s.bytes flat n < 2 ^ (8 * n) := s.mem.readN_lt flat n

/-! Groups of elements (R236). -/

theorem groupSize_bits (w : Nat) : 8 * groupSize w = w * 32 := by unfold groupSize; omega

/-- The value of n elements of a width, the first lowest. -/
def packElems (w : Nat) (f : Nat → Nat) (n : Nat) : Nat := (List.range n).foldl (fun v e => v + f e % 2 ^ w * 2 ^ (w * e)) 0

theorem packElems_succ (w : Nat) (f : Nat → Nat) (n : Nat) : packElems w f (n + 1) = packElems w f n + f n % 2 ^ w * 2 ^ (w * n) := by
  simp [packElems, List.range_succ]

theorem packElems_lt (w : Nat) (f : Nat → Nat) (n : Nat) : packElems w f n < 2 ^ (w * n) := by
  induction n with
  | zero => simp [packElems]
  | succ n ih =>
    have hlast : f n % 2 ^ w + 1 ≤ 2 ^ w := Nat.mod_lt _ (Nat.two_pow_pos w)
    calc packElems w f (n + 1) = packElems w f n + f n % 2 ^ w * 2 ^ (w * n) := packElems_succ w f n
      _ < (f n % 2 ^ w + 1) * 2 ^ (w * n) := by rw [Nat.add_mul]; omega
      _ ≤ 2 ^ w * 2 ^ (w * n) := Nat.mul_le_mul_right _ hlast
      _ = 2 ^ (w * (n + 1)) := by rw [← pow_add, Nat.mul_succ, Nat.add_comm]

theorem elemOf_packElems (w : Nat) (f : Nat → Nat) {n e : Nat} (h : e < n) : elemOf (packElems w f n) w e = f e % 2 ^ w := by
  induction n with
  | zero => omega
  | succ n ih =>
    rw [packElems_succ, elemOf]
    rcases Nat.lt_succ_iff_lt_or_eq.1 h with he | rfl
    · have hsplit : 2 ^ (w * n) = 2 ^ (w * (n - e - 1)) * 2 ^ w * 2 ^ (w * e) := by
        rw [← pow_add, ← pow_add, ← Nat.mul_succ, ← Nat.mul_add]; congr 2; omega
      rw [hsplit, ← Nat.mul_assoc, Nat.add_mul_div_right _ _ (Nat.two_pow_pos _), ← Nat.mul_assoc, Nat.add_mul_mod_self_right]
      exact ih he
    · rw [Nat.add_mul_div_right _ _ (Nat.two_pow_pos _), Nat.div_eq_of_lt (packElems_lt w f e), Nat.zero_add, Nat.mod_mod]

theorem packGroup_lt (w : Nat) (f : Nat → Nat) : packGroup w f < 2 ^ (w * 32) := packElems_lt w f 32

theorem elemOf_packGroup (w : Nat) (f : Nat → Nat) {e : Nat} (h : e < 32) : elemOf (packGroup w f) w e = f e % 2 ^ w :=
  elemOf_packElems w f h

theorem elemOf_mod (v w e : Nat) : elemOf v w e % 2 ^ w = elemOf v w e := Nat.mod_mod _ _

end Sys2Proof.Machine
end

section
/-! Groups of elementwise and shape words (R236-R238, Tables 9.13 and 9.16). -/

namespace Sys2Proof.Machine

open Sys2Proof.Claims

/-! Elementwise words. -/

theorem WordRun.off_eq (w : WordRun) {i : Nat} (h : i < 3) : w.off i = (if i = 0 then w.r0 else if i = 1 then w.r1 else w.r2).toNat := by
  obtain rfl | rfl | rfl : i = 0 ∨ i = 1 ∨ i = 2 := by omega
  all_goals rfl

theorem VecOp.arity_pos (op : VecOp) : 0 < op.arity := by cases op <;> exact Nat.succ_pos _

theorem VecOp.arity_le (op : VecOp) : op.arity ≤ 3 := by cases op <;> simp [VecOp.arity]

/-- Table 9.13: a result depends on the word's own operands only. -/
theorem State.vecElem_congr (s : State) (w : WordRun) (op : VecOp) (f g : Fmt) (k : Nat) {x y : Nat → Nat}
    (h : ∀ i, i < op.arity → x i = y i) : s.vecElem w op f g k (x 0) (x 1) (x 2) = s.vecElem w op f g k (y 0) (y 1) (y 2) := by
  have h0 : x 0 = y 0 := h 0 op.arity_pos
  cases op with
  | add | sub | mul | max | min | cmp => simp only [State.vecElem, h0, h 1 (Nat.lt_succ_self 1)]
  | ma | sel => simp only [State.vecElem, h0, h 1 (by decide), h 2 (by decide)]
  | cvt | exp | rcp | rsq | tanh | log2 | scale => simp only [State.vecElem, h0]

/-- Table 6.3: the rounding mode a conversion names. -/
theorem roundingOf_eq (mode bits : Nat) : roundingOf mode bits =
    if mode = 0 then .rn else if mode = 1 then .rz else if mode = 2 then .ru else if mode = 3 then .rd else .rs bits := by
  unfold roundingOf
  split <;> simp_all

/-- Site of a conversion's random bits (R237). -/
def VecOp.site : VecOp → Nat
  | .cvt _ site _ => site
  | _ => 0

/-- Table 9.13: every operation of the vector engine gives the value its row states. -/
theorem State.vecElem_eq (s : State) (w : WordRun) (op : VecOp) (f g : Fmt) (k x y z : Nat) : s.vecElem w op f g k x y z =
    vecValue op f g (s.elemRand w op.site k) (f32.value (lineLane (w.lineAt listPlace) 32 0)) x y z := by
  cases op with
  | cvt mode site sat => simp only [State.vecElem, vecValue, VecOp.site, roundingOf_eq]
  | add | sub | mul | ma | max | min | exp | rcp | rsq | tanh | log2 | sel | cmp | scale => rfl

/-- Element e of group j of a word's source i, of a width. -/
def State.sourceElem (s : State) (w : WordRun) (width j i e : Nat) : Nat :=
  elemOf (s.bytes (s.sramFlat (w.off i + groupSize width * j)) (groupSize width)) width e

/-- R236: the sources of a group are read, and its result is on its way. -/
theorem State.due_vecGroup {s : State} (hclean : CleanSram s) (w : WordRun) (op : VecOp) (sf df j : Nat)
    (hports : ∀ i, i < op.arity → s.portsOk false (w.off i + groupSize (elemFmt sf).width * j) (groupSize (elemFmt sf).width) = true)
    (hin : ∀ i, i < op.arity → w.off i + groupSize (elemFmt sf).width * j + groupSize (elemFmt sf).width ≤ 0x600000) :
    s.AddsDue (s.vecGroup w op sf df j) ∧
    GroupDue (s.vecGroup w op sf df j) (s.plan + op.lv) w j (elemFmt df).width 3 fun e =>
      vecValue op (elemFmt sf) (elemFmt df) (s.elemRand w op.site (32 * j + e)) (f32.value (lineLane (w.lineAt listPlace) 32 0))
        (s.sourceElem w (elemFmt sf).width j 0 e) (s.sourceElem w (elemFmt sf).width j 1 e) (s.sourceElem w (elemFmt sf).width j 2 e) := by
  have hread := State.readGroups_of_clean hclean (n := groupSize (elemFmt sf).width)
    (l := (List.range op.arity).map fun i => w.off i + groupSize (elemFmt sf).width * j) fun off hoff => by
      obtain ⟨i, hi, rfl⟩ := List.mem_map.1 hoff
      exact ⟨hports i (List.mem_range.1 hi), hin i (List.mem_range.1 hi)⟩
  simp only [State.vecGroup, hread]
  refine ⟨.effect .., _, s.due_effect .., fun e he => ?_⟩
  rw [elemOf_packGroup _ _ he]
  simp only [← State.vecElem_eq]
  congr 1
  refine s.vecElem_congr w op _ _ _ (x := fun i => elemOf (((List.map _ _).map _).getD i 0) _ e)
    (y := fun i => s.sourceElem w (elemFmt sf).width j i e) fun i hi => ?_
  simp [hi, State.sourceElem]

/-! Shape words. -/

theorem shapeWidth_eq (fmt : Nat) : shapeWidth fmt = (elemFmt fmt).width := by
  unfold shapeWidth
  split
  · next h => rw [h]; rfl
  · rfl

theorem shapeWidth_mem {fmt : Nat} (h : fmt ≤ 3) : shapeWidth fmt ∈ [8, 16, 32] := by
  interval_cases fmt <;> decide

section
variable {fmt : Nat} (h : fmt ≤ 3)
include h

/-- R236: an aligned group lies in one line. -/
theorem group_in_line {off : Nat} (halign : off % groupSize (shapeWidth fmt) = 0) : off % 128 + groupSize (shapeWidth fmt) ≤ 128 := by
  have hmem := shapeWidth_mem h
  simp only [List.mem_cons, List.not_mem_nil, or_false] at hmem
  simp only [groupSize] at halign ⊢
  obtain hw | hw | hw := hmem <;> rw [hw] at halign ⊢ <;> omega

/-- A line holds a group. -/
theorem group_lt_line {v : Nat} (hv : v < 2 ^ (shapeWidth fmt * 32)) : v < 2 ^ 1024 := by
  have hmem := shapeWidth_mem h
  simp only [List.mem_cons, List.not_mem_nil, or_false] at hmem
  exact lt_two_pow_mono hv (by omega)

end

section
variable (s : State) (w : WordRun) (op : ShapeOp) (width n j v : Nat)

theorem State.addsDue_shapeOut : s.AddsDue (s.shapeOut w op width n j v) := .effect ..

theorem State.due_shapeOut {elem : Nat → Nat} (h : ∀ e, e < 32 → elemOf v width e = elem e % 2 ^ width) :
    GroupDue (s.shapeOut w op width n j v) (w.issued + op.groupLands n j) w j width 4 elem :=
  ⟨v, s.due_effect .., h⟩

theorem State.due_shapeOut_pack (elem : Nat → Nat) :
    GroupDue (s.shapeOut w op width n j (packGroup width elem)) (w.issued + op.groupLands n j) w j width 4 elem :=
  s.due_shapeOut w op width n j _ fun _ => elemOf_packGroup width elem

theorem State.addsDue_shapeOuts (l : List Nat) (at_ val : Nat → Nat) :
    s.AddsDue (l.foldl (fun s k => s.shapeOut w op width n (at_ k) (val k)) s) :=
  .foldl (fun s _ => s.addsDue_shapeOut ..) l s

/-- Several groups of the result on their way, each with its value. -/
theorem State.due_shapeOuts (l : List Nat) (at_ val : Nat → Nat) (elem : Nat → Nat → Nat)
    (h : ∀ k e, e < 32 → elemOf (val k) width e = elem k e % 2 ^ width) :
    ∀ k ∈ l, GroupDue (l.foldl (fun s k => s.shapeOut w op width n (at_ k) (val k)) s) (w.issued + op.groupLands n (at_ k)) w (at_ k)
      width 4 (elem k) :=
  State.AddsDue.foldl_reaches (P := fun k t => GroupDue t (w.issued + op.groupLands n (at_ k)) w (at_ k) width 4 (elem k))
    (fun s _ => s.addsDue_shapeOut ..) (fun s k => s.due_shapeOut w op width n (at_ k) _ (h k)) (fun ht hdue => ht.groupDue hdue) l s

end

/-- A group kept at a place is found there, and every other group as before. -/
theorem WordRun.groupKept_withGroup (w : WordRun) {j v : Nat} (tick k : Nat) (h : v < 2 ^ 1024) :
    (w.withGroup j v tick).groupKept k = if k = j then v else w.groupKept k := by
  unfold WordRun.groupKept
  split
  · next hk => rw [hk, WordRun.lineAt_withGroup, toNat_ofNat_of_lt h]
  · next hk => rw [WordRun.lineAt_withGroup_of_ne _ _ _ _ hk]

/-- Table 9.16: a reduction over groups of which the last is the one just read. -/
theorem WordRun.reduce_withGroup (w : WordRun) (f : Fmt) (o n : Nat) {j v : Nat} (tick e : Nat) (h : v < 2 ^ 1024) :
    (w.withGroup j v tick).reduce f o n e =
      let l := (List.range n).map fun k => if k = j then elemOf v f.width e else elemOf (w.groupKept k) f.width e
      if o = 0 then (f.sumTree l).1 else l.foldl (if o = 1 then f.max else f.min) (f.canon (l.headD 0)) := by
  have hkept (k : Nat) : elemOf ((w.withGroup j v tick).groupKept k) f.width e =
      if k = j then elemOf v f.width e else elemOf (w.groupKept k) f.width e := by
    rw [w.groupKept_withGroup tick k h]; split <;> rfl
  simp only [WordRun.reduce, hkept]
  split
  · rfl
  · split <;> rfl

/-- R238: reading a group changes no memory and raises no fault. -/
theorem State.shapeResult_frame (s : State) (w : WordRun) (op : ShapeOp) (fmt n j v : Nat) :
    (s.shapeResult w op fmt n j v).mem = s.mem ∧ (s.shapeResult w op fmt n j v).p.run.faults = s.p.run.faults := by
  suffices h : ∃ u : State, u.mem = s.mem ∧ u.p.run.faults = s.p.run.faults ∧ u.AddsDue (s.shapeResult w op fmt n j v) by
    obtain ⟨u, hmem, hfaults, hu⟩ := h
    exact ⟨hu.mem.trans hmem, hu.faults.trans hfaults⟩
  cases op with
  | perm | slice | roll => exact ⟨s, rfl, rfl, s.addsDue_shapeOut ..⟩
  | bc => exact ⟨s, rfl, rfl, s.addsDue_shapeOuts w .bc _ n _ (fun k => k) fun _ => v⟩
  | scan => exact ⟨s.onWord w.key _, rfl, rfl, State.addsDue_shapeOut ..⟩
  | red o =>
    refine ⟨s.onWord w.key fun _ => w.withGroup j v s.plan, rfl, rfl, ?_⟩
    simp only [State.shapeResult]
    split
    · exact State.addsDue_shapeOut ..
    · exact .refl _
  | trn =>
    refine ⟨s.onWord w.key fun _ => w.withGroup j v s.plan, rfl, rfl, ?_⟩
    simp only [State.shapeResult]
    split
    · exact State.addsDue_shapeOuts ..
    · exact .refl _

section
variable (s : State) (w : WordRun) (fmt n j v : Nat)

theorem State.due_shapeResult_perm : GroupDue (s.shapeResult w .perm fmt n j v) (w.issued + 3 + j) w j (shapeWidth fmt) 4 fun e =>
    elemOf v (shapeWidth fmt) (lineLane (w.lineAt listPlace) 8 e % 32) := by
  rw [Nat.add_assoc]
  exact s.due_shapeOut_pack w .perm ..

theorem State.due_shapeResult_slice (d : Int) :
    GroupDue (s.shapeResult w (.slice d) fmt n j v) (w.issued + 3 + j) w j (shapeWidth fmt) 4 (elemOf v (shapeWidth fmt)) := by
  rw [Nat.add_assoc]
  exact s.due_shapeOut w (.slice d) _ n j v fun e _ => (elemOf_mod ..).symm

theorem State.due_shapeResult_roll (r : Nat) :
    GroupDue (s.shapeResult w (.roll r) fmt n j v) (w.issued + 3 + j) w j (shapeWidth fmt) 4 fun e =>
      elemOf v (shapeWidth fmt) ((e + r) % 32) := by
  rw [Nat.add_assoc]
  exact s.due_shapeOut_pack w (.roll r) ..

theorem State.due_shapeResult_bc {k : Nat} (hk : k < n) :
    GroupDue (s.shapeResult w .bc fmt n j v) (w.issued + 3 + k) w k (shapeWidth fmt) 4 (elemOf v (shapeWidth fmt)) := by
  rw [Nat.add_assoc]
  exact s.due_shapeOuts w .bc (shapeWidth fmt) n (List.range n) (fun k => k) (fun _ => v) (fun _ => elemOf v (shapeWidth fmt))
    (fun _ e _ => (elemOf_mod ..).symm) k (List.mem_range.2 hk)

end

section
variable {s : State} {w : WordRun} {fmt v : Nat} (hword : s.wordRun w.key = some w) (n j : Nat) (hv : v < 2 ^ 1024)
include hword

/-- A word keeps the group it has read. -/
theorem State.wordRun_keepsGroup : (s.onWord w.key fun _ => w.withGroup j v s.plan).wordRun w.key = some (w.withGroup j v s.plan) :=
  State.wordRun_onWord hword fun _ _ => rfl

include hv

theorem State.shapeResult_red (o : Nat) :
    (s.shapeResult w (.red o) fmt n j v).wordRun w.key = some (w.withGroup j v s.plan) ∧
    (j + 1 = n → GroupDue (s.shapeResult w (.red o) fmt n j v) (w.issued + n + 5) w 0 (shapeWidth fmt) 4 fun e =>
      let l := (List.range n).map fun k =>
        if k = j then elemOf v (shapeWidth fmt) e else elemOf (w.groupKept k) (shapeWidth fmt) e
      if o = 0 then ((elemFmt fmt).sumTree l).1
      else l.foldl (if o = 1 then (elemFmt fmt).max else (elemFmt fmt).min) ((elemFmt fmt).canon (l.headD 0))) := by
  have hkeeps := State.wordRun_keepsGroup (v := v) hword j
  simp only [State.shapeResult, shapeWidth_eq]
  split
  · refine ⟨((State.addsDue_shapeOut ..).wordRun _).trans hkeeps, fun _ => ?_⟩
    rw [Nat.add_assoc, funext fun e => (w.reduce_withGroup _ o n s.plan e hv).symm]
    exact State.due_shapeOut_pack ..
  · next h => exact ⟨hkeeps, fun hn => absurd hn h⟩

theorem State.shapeResult_trn :
    (s.shapeResult w .trn fmt n j v).wordRun w.key = some (w.withGroup j v s.plan) ∧
    (j % 32 = 31 → ∀ c, c < 32 →
      GroupDue (s.shapeResult w .trn fmt n j v) (w.issued + 33 + (j - 31 + c)) w (j - 31 + c) (shapeWidth fmt) 4 fun e =>
        if e = 31 then elemOf v (shapeWidth fmt) c else elemOf (w.groupKept (j - 31 + e)) (shapeWidth fmt) c) := by
  have hkeeps := State.wordRun_keepsGroup (v := v) hword j
  simp only [State.shapeResult]
  split
  · next hj =>
    refine ⟨((State.addsDue_shapeOuts ..).wordRun _).trans hkeeps, fun _ c hc => ?_⟩
    rw [Nat.add_assoc]
    refine State.due_shapeOuts _ _ .trn _ n _ _ _ (fun c e => if e = 31 then elemOf v (shapeWidth fmt) c else
      elemOf (w.groupKept (j - 31 + e)) (shapeWidth fmt) c) (fun k e he => ?_) c (List.mem_range.2 hc)
    rw [elemOf_packGroup _ _ he, w.groupKept_withGroup _ _ hv]
    by_cases h31 : e = 31
    · rw [if_pos h31, if_pos (by omega)]
    · rw [if_neg h31, if_neg (by omega)]
  · next h => exact ⟨hkeeps, fun hn => absurd hn h⟩

end

/-- R238: the running sum of element e with group j. -/
def WordRun.runningSum (w : WordRun) (fmt j v e : Nat) : Nat :=
  if j = 0 then (elemFmt fmt).canon (elemOf v (shapeWidth fmt) e)
  else ((elemFmt fmt).add (elemOf (w.groupKept 0) (shapeWidth fmt) e) (elemOf v (shapeWidth fmt) e)).1

theorem State.shapeResult_scan {s : State} {w : WordRun} (hword : s.wordRun w.key = some w) (fmt n j v : Nat) :
    (s.shapeResult w .scan fmt n j v).wordRun w.key =
      some (w.withGroup 0 (packGroup (shapeWidth fmt) (w.runningSum fmt j v)) s.plan) ∧
    GroupDue (s.shapeResult w .scan fmt n j v) (w.issued + 5 + j) w j (shapeWidth fmt) 4 (w.runningSum fmt j v) := by
  refine ⟨((State.addsDue_shapeOut ..).wordRun _).trans (State.wordRun_onWord hword fun x hx => hx), ?_⟩
  rw [Nat.add_assoc]
  exact State.due_shapeOut_pack ..

/-- R238: a group of a shape word is read where it lies in tensor SRAM. -/
theorem State.shapeGroup_of_clean {s : State} (hclean : CleanSram s) {w : WordRun} {op : ShapeOp} {fmt n j off : Nat}
    (hoff : (w.r0.toNat + groupSize (shapeWidth fmt) * op.groupAt j : Int).toNat = off)
    (hport : s.portsOk false off (groupSize (shapeWidth fmt)) = true) (hin : off + groupSize (shapeWidth fmt) ≤ 0x600000) :
    s.shapeGroup w op fmt n j = s.shapeResult w op fmt n j (s.bytes (s.sramFlat off) (groupSize (shapeWidth fmt))) := by
  have hread := State.readGroups_of_clean hclean (n := groupSize (shapeWidth fmt)) (l := [off]) (by simp [hport, hin])
  simp only [State.shapeGroup, hoff, hread]
  rfl

end Sys2Proof.Machine
end

section
/-! O35 and O37 settled. -/

namespace Sys2Proof.Proofs

open Sys2Proof.Machine Sys2Proof.Claims

section
variable {s f : State} {first tile key : Nat} {w : WordRun} (hf : atTile s first tile = f) (hfirst : f.p.first = first)
  (hword : f.wordRun key = some w)
include hf hfirst hword

/-- R236: a group of an elementwise word is read in the name of the word's stream. -/
theorem exec_group_vec {op : VecOp} {sf df n : Nat} (hwhat : w.what = .vec op sf df n) (j : Nat) :
    exec (.timedEffectLands first tile (.group key j)) s = .next ((f.actsFor w).vecGroup w op sf df j).storeTile := by
  rw [exec_timedEffectLands hf hfirst hword rfl, State.timedEffect, State.wordGroup, State.actsFor_wordRun, hword]
  simp only [hwhat]

/-- R238: and so is a group of a shape word. -/
theorem exec_group_shape {op : ShapeOp} {fmt n : Nat} (hwhat : w.what = .shape op fmt n) (j : Nat) :
    exec (.timedEffectLands first tile (.group key j)) s = .next ((f.actsFor w).shapeGroup w op fmt n j).storeTile := by
  rw [exec_timedEffectLands hf hfirst hword rfl, State.timedEffect, State.wordGroup, State.actsFor_wordRun, hword]
  simp only [hwhat]

/-- R236: the scalar of a word is read once and kept. -/
theorem scalarIsKept {sf df n : Nat} (hwhat : w.what = .vec .scale sf df n) (hclean : CleanSram f)
    (hport : f.portOk false w.r1.toNat = true) (halign : w.r1.toNat % 4 = 0) (hin : w.r1.toNat + 4 ≤ 0x600000) :
    ∃ t x, exec (.timedEffectLands first tile (.scalarRead key)) s = .next t ∧ t.mem = s.mem ∧ t.wordRun key = some x ∧
      lineLane (x.lineAt listPlace) 32 0 = f.bytes (f.sramFlat w.r1.toNat) 4 := by
  have hmem : (f.actsFor w).mem = s.mem := hf ▸ atTile_mem s first tile
  have hexec := exec_timedEffectLands (e := .scalarRead key) hf hfirst hword rfl
  change ∃ t x, _ ∧ _ ∧ _ ∧ _ = (f.actsFor w).bytes ((f.actsFor w).sramFlat w.r1.toNat) 4
  generalize hg : f.actsFor w = g at hmem hexec ⊢
  have hgword : g.wordRun key = some w := hg ▸ hword
  have hread : g.readGroups 4 [w.r1.toNat] = (some [g.bytes (g.sramFlat w.r1.toNat) 4], g) :=
    State.readGroups_of_clean (s := g) (hg ▸ hclean) fun off hoff => by
      rw [List.mem_singleton.1 hoff]
      exact ⟨State.portsOk_of_line (s := g) (hg ▸ hport) (by omega), hin⟩
  generalize hv : g.bytes (g.sramFlat w.r1.toNat) 4 = v at hread ⊢
  have hkept : g.readOnce key = g.onWord key fun w => w.withGroup listPlace v g.plan := by
    rw [State.readOnce, hgword]
    simp only [hwhat, hread]
    rfl
  have hlt : v < 2 ^ 32 := hv ▸ g.bytes_lt _ 4
  rw [State.timedEffect, hkept] at hexec
  refine ⟨_, w.withGroup listPlace v g.plan, hexec, hmem, State.wordRun_onWord hgword fun _ hx => hx, ?_⟩
  rw [WordRun.lineAt_withGroup, lineLane, toNat_ofNat_of_lt (lt_two_pow_mono hlt (by decide))]
  exact (congrArg (· % 2 ^ 32) (Nat.div_one v)).trans (Nat.mod_eq_of_lt hlt)

end

/-- Settles O35: the sources of a group are read where they lie, and what is due is what each row of Table 9.13 gives. -/
theorem elementwiseResults : Obligations.ElementwiseResults := by
  unfold Obligations.ElementwiseResults
  refine ⟨?group, ?scalar⟩
  case group =>
    intro first tile key j n sf df op w s f hfirst hword _ hwhat hclean ws off hports hin
    have hf : atTile s first tile = f := rfl
    clear_value f
    have hoff (i : Nat) (hi : i < 3) : w.off i + groupSize ws * j = off i := by rw [WordRun.off_eq w hi]; rfl
    have hthree (i : Nat) (hi : i < op.arity) : i < 3 := lt_of_lt_of_le hi op.arity_le
    obtain ⟨hadds, v, hbytes, helem⟩ := State.due_vecGroup (s := f.actsFor w) hclean w op sf df j
      (fun i hi => by rw [hoff i (hthree i hi)]; exact State.portsOk_iff.2 (hports i · hi))
      (fun i hi => by rw [hoff i (hthree i hi)]; exact (hin i hi).2)
    have hsource (i e : Nat) (hi : i < 3) : (f.actsFor w).sourceElem w ws j i e = elemOf (f.bytes (f.sramFlat (off i)) (4 * ws)) ws e := by
      rw [State.sourceElem, hoff i hi]; rfl
    refine ⟨_, exec_group_vec hf hfirst hword hwhat j, hadds.mem.trans (hf ▸ atTile_mem s first tile), hadds.faults, v, ?due,
      fun e he => (helem e he).trans ?value⟩
    case due =>
      have hdue := State.due_storeTile hbytes
      cases op <;> exact hdue
    case value =>
      beta_reduce
      rw [hsource 0 e (by decide), hsource 1 e (by decide), hsource 2 e (by decide)]
      cases op <;> rfl
  case scalar =>
    intro first tile key sf df n w s f hfirst hword hwhat hclean hport halign hin
    exact scalarIsKept rfl hfirst hword hwhat hclean hport halign hin

/-- Settles O37: a shape word reads its group where it lies; what is then due, and what the word keeps, follows its operation. -/
theorem shapeResults : Obligations.ShapeResults := by
  unfold Obligations.ShapeResults
  intro first tile key j n fmt op w s f hfirst hword _ hwhat hfmt _ hclean wd g o off _ halign hin hport src kept
  have hf : atTile s first tile = f := rfl
  clear_value f
  have hkey : w.key = key := State.key_of_wordRun hword
  have hoff : (w.r0.toNat + groupSize (shapeWidth fmt) * op.groupAt j : Int).toNat = off := by
    simp only [off, o, groupSize]
    cases op <;> rfl
  have hgroup := State.shapeGroup_of_clean (s := f.actsFor w) hclean hoff (n := n)
    (State.portsOk_of_line hport (group_in_line hfmt halign)) hin
  have hexec := exec_group_shape hf hfirst hword hwhat j
  rw [hgroup, State.actsFor_sramFlat, State.actsFor_bytes] at hexec
  have hv : f.bytes (f.sramFlat off) (groupSize (shapeWidth fmt)) < 2 ^ 1024 :=
    group_lt_line hfmt (groupSize_bits _ ▸ f.bytes_lt ..)
  generalize hread : f.bytes (f.sramFlat off) (groupSize (shapeWidth fmt)) = v at hexec hv
  have hsrc : src = elemOf v wd := by funext e; rw [← hread]; rfl
  obtain ⟨hmem, hfaults⟩ := (f.actsFor w).shapeResult_frame w op fmt n j v
  refine ⟨_, hexec, hmem.trans (hf ▸ atTile_mem s first tile), hfaults, ?permuted, ?asRead, ?rotated, ?every, ?sums, ?reduced,
    ?transposed⟩
  case permuted =>
    rintro rfl
    rw [hsrc]
    exact State.groupDue_storeTile (State.due_shapeResult_perm ..)
  case asRead =>
    rintro d rfl
    rw [hsrc]
    exact State.groupDue_storeTile (State.due_shapeResult_slice ..)
  case rotated =>
    rintro r rfl
    rw [hsrc]
    exact State.groupDue_storeTile (State.due_shapeResult_roll ..)
  case every =>
    rintro rfl k hk
    rw [hsrc]
    exact State.groupDue_storeTile (State.due_shapeResult_bc _ _ _ _ _ _ hk)
  case sums =>
    rintro rfl
    obtain ⟨hkeeps, hdue⟩ := State.shapeResult_scan (s := f.actsFor w) (hkey.symm ▸ hword) fmt n j v
    rw [hkey] at hkeeps
    rw [hsrc]
    refine ⟨_, hkeeps, State.groupDue_storeTile hdue, fun e he => ?_⟩
    rw [WordRun.lineAt_withGroup, toNat_ofNat_of_lt (group_lt_line hfmt (packGroup_lt ..))]
    exact elemOf_packGroup _ _ he
  case reduced =>
    rintro how rfl
    obtain ⟨hkeeps, hdue⟩ := State.shapeResult_red (s := f.actsFor w) (fmt := fmt) (hkey.symm ▸ hword) n j hv how
    rw [hkey] at hkeeps
    rw [hsrc]
    refine ⟨⟨_, hkeeps, fun e he => ?_⟩, fun hlast => State.groupDue_storeTile (hdue hlast)⟩
    rw [WordRun.lineAt_withGroup, toNat_ofNat_of_lt hv]
  case transposed =>
    rintro rfl
    obtain ⟨hkeeps, hdue⟩ := State.shapeResult_trn (s := f.actsFor w) (fmt := fmt) (hkey.symm ▸ hword) n j hv
    rw [hkey] at hkeeps
    rw [hsrc]
    refine ⟨⟨_, hkeeps, fun e he => ?_⟩, fun hlast c hc => State.groupDue_storeTile (hdue hlast c hc)⟩
    rw [WordRun.lineAt_withGroup, toNat_ofNat_of_lt hv]

end Sys2Proof.Proofs
end

section
/-! Products of the matrix engine (R145-R147, R230-R235): the blocks a product reads, its rows and chunks, and what it writes. -/

namespace Sys2Proof.Machine

open Sys2Proof.Claims

/-! Lines a word keeps (R230). -/

/-- A word keeps the lines at these places, from these offsets of tensor SRAM. -/
def WordRun.withLines (w : WordRun) (s : State) (l : List (Nat × Nat)) : WordRun :=
  { w with lines := w.lines ++ l.map fun x => (x.1, 0, ⟨s.line (s.sramFlat x.2), 0, false, s.plan⟩) }

theorem State.keepLine_of_clean {s : State} (hclean : CleanSram s) {operand : Bool} {off : Nat} (hport : s.portOk operand off = true)
    (hin : off + 128 ≤ 0x600000) (key place : Nat) :
    s.keepLine key place operand off 128 = s.onWord key fun w => w.withLines s [(place, off)] := by
  simp only [State.keepLine, hport, State.readSram_of_clean hclean hin]
  rfl

theorem State.onWord_withLines (s : State) (key : Nat) (l l' : List (Nat × Nat)) :
    (s.onWord key fun w => w.withLines s l).onWord key (fun w => w.withLines s l') = s.onWord key fun w => w.withLines s (l ++ l') := by
  rw [State.onWord_onWord s (g := fun w => w.withLines s l) fun _ hx => hx]
  congr 1
  funext w
  simp [WordRun.withLines]

theorem State.onWord_withLines_nil (s : State) (key : Nat) : (s.onWord key fun w => w.withLines s []) = s := by
  simp [State.onWord, WordRun.withLines]

theorem State.keepLines_after {s : State} (hclean : CleanSram s) (operand : Bool) (key : Nat) (l l' : List (Nat × Nat))
    (hport : ∀ x ∈ l', s.portOk operand x.2 = true) (hin : ∀ x ∈ l', x.2 + 128 ≤ 0x600000) :
    l'.foldl (fun s x => s.keepLine key x.1 operand x.2 128) (s.onWord key fun w => w.withLines s l) =
      s.onWord key fun w => w.withLines s (l ++ l') := by
  induction l' generalizing l with
  | nil => simp
  | cons x l' ih =>
    have hkeep := State.keepLine_of_clean (s := s.onWord key fun w => w.withLines s l) hclean (hport x (by simp)) (hin x (by simp)) key x.1
    have hnext : (s.onWord key fun w => w.withLines s l).keepLine key x.1 operand x.2 128 =
        s.onWord key fun w => w.withLines s (l ++ [x]) := hkeep.trans (s.onWord_withLines key l [x])
    rw [List.foldl_cons, hnext, ih (l ++ [x]) (fun y hy => hport y (by simp [hy])) fun y hy => hin y (by simp [hy]), List.append_assoc,
      List.singleton_append]

/-- R230: lines read one after another are all kept, in turn. -/
theorem State.keepLines_of_clean {s : State} (hclean : CleanSram s) (operand : Bool) (key : Nat) (l : List (Nat × Nat))
    (hport : ∀ x ∈ l, s.portOk operand x.2 = true) (hin : ∀ x ∈ l, x.2 + 128 ≤ 0x600000) :
    l.foldl (fun s x => s.keepLine key x.1 operand x.2 128) s = s.onWord key fun w => w.withLines s l := by
  have hall := State.keepLines_after hclean operand key [] l hport hin
  rwa [s.onWord_withLines_nil key] at hall

/-- A line kept once is found at its place. -/
theorem WordRun.lineAt_withLines (w : WordRun) (s : State) {l : List (Nat × Nat)} {x : Nat × Nat} (hx : x ∈ l)
    (honce : ∀ y ∈ l, y.1 = x.1 → y = x) (hfree : ∀ y ∈ w.lines, y.1 ≠ x.1) :
    (w.withLines s l).lineAt x.1 = s.line (s.sramFlat x.2) := by
  have hold : w.lines.find? (fun y => y.1 == x.1) = none := List.find?_eq_none.2 fun y hy => by simpa using hfree y hy
  have hnew : l.find? (fun y => y.1 == x.1) = some x := by
    have hsome : (l.find? fun y => y.1 == x.1).isSome := List.find?_isSome.2 ⟨x, hx, by simp⟩
    obtain ⟨y, hy⟩ := Option.isSome_iff_exists.1 hsome
    rw [hy, honce y (List.mem_of_find?_eq_some hy) (by simpa using List.find?_some hy)]
  simp only [WordRun.lineAt, WordRun.withLines, List.find?_append, hold, List.find?_map, Function.comp_def, hnew]
  rfl

/-- R230: places and offsets of the sixteen lines of block u. -/
def WordRun.blockLines (w : WordRun) (u : Nat) : List (Nat × Nat) :=
  (List.range 8).flatMap fun i => [(16 * u + i, w.r0.toNat + 1024 * u + 128 * i), (16 * u + 8 + i, w.r1.toNat + 1024 * u + 128 * i)]

theorem WordRun.mem_blockLines {w : WordRun} {u : Nat} {x : Nat × Nat} : x ∈ w.blockLines u ↔ ∃ i, i < 8 ∧
    (x = (16 * u + i, w.r0.toNat + 1024 * u + 128 * i) ∨ x = (16 * u + 8 + i, w.r1.toNat + 1024 * u + 128 * i)) := by
  simp [WordRun.blockLines]

theorem WordRun.blockLines_once {w : WordRun} {u : Nat} {x y : Nat × Nat} (hx : x ∈ w.blockLines u) (hy : y ∈ w.blockLines u)
    (h : y.1 = x.1) : y = x := by
  obtain ⟨i, hi, rfl | rfl⟩ := WordRun.mem_blockLines.1 hx <;> obtain ⟨k, hk, rfl | rfl⟩ := WordRun.mem_blockLines.1 hy <;>
    simp only at h
  · obtain rfl : k = i := by omega
    rfl
  · omega
  · omega
  · obtain rfl : k = i := by omega
    rfl

theorem State.readBlock_of_clean {s : State} (hclean : CleanSram s) {key u : Nat} {w : WordRun} (hword : s.wordRun key = some w)
    (hport : ∀ x ∈ w.blockLines u, s.portOk true x.2 = true) (hin : ∀ x ∈ w.blockLines u, x.2 + 128 ≤ 0x600000) :
    s.readBlock key u = s.onWord key fun x => x.withLines s (w.blockLines u) := by
  rw [State.readBlock, hword, ← State.keepLines_of_clean hclean true key _ hport hin, WordRun.blockLines, List.foldl_flatMap]
  rfl

/-! Rows and chunks (R145, R230, R231). -/

theorem flatMap_range_map {α : Type} (g : Nat → Nat → α) (k n : Nat) :
    ((List.range n).flatMap fun t => (List.range k).map (g t)) = (List.range (k * n)).map fun i => g (i / k) (i % k) := by
  induction n with
  | zero => simp
  | succ n ih =>
    rw [List.range_succ, List.flatMap_append, ih, Nat.mul_succ, List.range_add, List.map_append]
    congr 1
    simp only [List.flatMap_singleton, List.map_map]
    refine List.map_congr_left fun e he => ?_
    have he := List.mem_range.1 he
    rw [Function.comp_apply, Nat.mul_add_div (by omega), Nat.div_eq_of_lt he, Nat.mul_add_mod, Nat.mod_eq_of_lt he, Nat.add_zero]

/-- R230, R231: the values of a row, element by element. -/
theorem WordRun.rowVals_eq (w : WordRun) (b : Bool) (f kk : Nat) (sa : Option Nat) (r : Nat) :
    w.rowVals b f kk sa r = (List.range (matKt f * kk)).map (blockVal w b f sa r) := by
  rw [WordRun.rowVals, flatMap_range_map]
  refine List.map_congr_left fun k _ => ?_
  simp only [blockVal, Nat.div_div_eq_div_mul, ← Nat.pow_add]
  rfl

/-- R145: one row of A and one of B give the chunks of their pairs. -/
theorem rowChunks_singleton {a b : List FVal} (h : a.length = b.length) (acc : Nat) (scale : FVal) :
    rowChunks [a] b acc scale = chunks (a.zip b) acc scale := by
  have hlength : (a.zip b).length = b.length := by rw [List.length_zip, h, Nat.min_self]
  simp only [rowChunks, chunks, hlength, List.flatMap_singleton]
  simp only [List.zip, List.drop_zipWith, List.take_zipWith]

/-! Accumulators (R234, R235). -/

/-- Writing the elements of an accumulator changes memory only: each element is the low word of its value, and no other byte changes. -/
theorem State.setAcc_eq {s : State} (hwf : s.mem.wf = true) (m : Nat) (v : List Nat) : ∃ mem, s.setAcc m v = { s with mem := mem } ∧
    mem.wf = true ∧ (∀ n (h : n < v.length), mem.readN (flatAcc s.p.first s.tl.ltile m n) 4 = v[n] % 2 ^ 32) ∧
    ∀ b, (b < flatAcc s.p.first s.tl.ltile m 0 ∨ flatAcc s.p.first s.tl.ltile m v.length ≤ b) → mem.read b = s.mem.read b := by
  induction v using List.reverseRecOn with
  | nil => exact ⟨s.mem, rfl, hwf, by simp, fun _ _ => rfl⟩
  | append_singleton v x ih =>
    obtain ⟨mem, hset, hmem, hread, hframe⟩ := ih
    refine ⟨mem.writeN (flatAcc s.p.first s.tl.ltile m v.length) 4 x, ?_, Memory.wf_writeN hmem, fun n hn => ?_, fun b hb => ?_⟩
    · rw [State.setAcc, List.zipIdx_append, List.foldl_append, ← State.setAcc, hset]
      simp
    · simp only [List.length_append, List.length_singleton] at hn
      rcases Nat.lt_succ_iff_lt_or_eq.1 hn with h | rfl
      · rw [Memory.readN_writeN_outside hmem (.inl (by simp only [flatAcc]; omega)), hread n h, List.getElem_append_left h]
      · rw [Memory.readN_writeN hmem, List.getElem_concat_length rfl]
        norm_num
    · simp only [List.length_append, List.length_singleton, flatAcc] at hb hframe ⊢
      rw [Memory.read_writeN_outside hmem (by omega), hframe b (by omega)]

theorem length_elems (g : Nat → Nat → Nat) : (elems g).length = 1024 := by simp [elems]

theorem getElem_elems (g : Nat → Nat → Nat) {i j : Nat} (hj : j < 32) (h : 32 * i + j < (elems g).length) :
    (elems g)[32 * i + j] = g i j := by
  simp only [elems, List.getElem_map, List.getElem_range]
  rw [show (32 * i + j) / 32 = i by omega, show (32 * i + j) % 32 = j by omega]

theorem State.accElem_lt (s : State) (m n : Nat) : s.accElem m n < 2 ^ 32 := s.bytes_lt _ 4

/-! The elements of a product (R232, R233, Table 9.10). -/

theorem getD_map_range {α : Type} (g : Nat → α) {n i : Nat} (h : i < n) (d : α) : ((List.range n).map g).getD i d = g i := by
  simp [h]

/-- R232: an element is the chunked product of its two rows. -/
theorem State.getElem_mmaElems (s : State) (w : WordRun) (m : Nat) {fa fb : Nat} (hkt : matKt fa = matKt fb) (kk : Nat) (z blk : Bool)
    {i j : Nat} (hi : i < 32) (hj : j < 32) (h : 32 * i + j < (s.mmaElems w m fa fb kk z blk).length) :
    (s.mmaElems w m fa fb kk z blk)[32 * i + j] = chunks ((List.range (matKt fa * kk)).map fun k =>
        (blockVal w false fa (if blk then some w.r2.toNat else none) i k, blockVal w true fb (if blk then some w.r3.toNat else none) j k))
      (if z then 0 else s.accElem m (32 * i + j)) (.fin false 1 0) := by
  have hlength (a b : Nat → FVal) : ((List.range (matKt fa * kk)).map a).length = ((List.range (matKt fb * kk)).map b).length := by
    simp [hkt]
  simp only [State.mmaElems]
  rw [getElem_elems _ hj]
  simp only [getD_map_range _ hi, getD_map_range _ hj, WordRun.rowVals_eq]
  rw [rowChunks_singleton (hlength ..), ← hkt, List.zip_map']

/-- R233: source rows that the list sends to row q, in the order of its entries. -/
def WordRun.sourceRows (w : WordRun) (q : Nat) : List Nat :=
  (List.range 32).filterMap fun i =>
    if lineLane (w.lineAt listPlace) 8 i < 128 ∧ lineLane (w.lineAt listPlace) 8 (32 + i) < 128 ∧
      lineLane (w.lineAt listPlace) 8 (32 + i) % 32 = q then some (lineLane (w.lineAt listPlace) 8 i % 32) else none

theorem WordRun.sourceRows_eq (w : WordRun) (q : Nat) :
    (((List.range 32).filterMap w.listRow).filter (·.1 = q)).map Prod.snd = w.sourceRows q := by
  rw [List.filter_filterMap, List.map_filterMap, WordRun.sourceRows]
  refine List.filterMap_congr fun i _ => ?_
  by_cases hkept : lineLane (w.lineAt listPlace) 8 i < 128 ∧ lineLane (w.lineAt listPlace) 8 (32 + i) < 128
  · by_cases hrow : lineLane (w.lineAt listPlace) 8 (32 + i) % 32 = q <;> simp [WordRun.listRow, hkept, hrow]
  · simp only [WordRun.listRow, hkept, ← and_assoc, false_and, if_false]
    rfl

theorem WordRun.sourceRows_lt {w : WordRun} {q r : Nat} (h : r ∈ w.sourceRows q) : r < 32 := by
  obtain ⟨i, -, hrow⟩ := List.mem_filterMap.1 h
  split at hrow
  · obtain rfl := Option.some.inj hrow
    exact Nat.mod_lt _ (by decide)
  · exact absurd hrow (by simp)

/-- R233, Table 9.10: an element of a product with lists. -/
theorem State.getElem_mmagElems (s : State) (w : WordRun) (m fa fb kk : Nat) (z k d : Bool) {q j : Nat} (hj : j < 32)
    (h : 32 * q + j < (s.mmagElems w m fa fb kk z k d).length) : (s.mmagElems w m fa fb kk z k d)[32 * q + j] =
      let rows := (w.sourceRows q).map fun r => (List.range (matKt fa * kk)).map (blockVal w false fa none r)
      let col := (List.range (matKt fb * kk)).map (blockVal w true fb none j)
      let delta : FVal := if d then f32.value (lineLane (w.lineAt decayPlace) 32 q) else .fin false 1 0
      let old := s.accElem m (32 * q + j)
      if w.sourceRows q = [] then
        if k then (if d then (f32.round .rn (delta.mul (f32.value old)).1).1 else old) else 0
      else if z then rowChunks rows col 0 (.fin false 1 0)
      else rowChunks rows col old delta := by
  have hrows : (((List.range 32).filterMap w.listRow).filter (·.1 = q)).map
        (fun x => ((List.range 32).map (w.rowVals false fa kk none)).getD x.2 []) =
      (w.sourceRows q).map fun r => (List.range (matKt fa * kk)).map (blockVal w false fa none r) := by
    rw [← w.sourceRows_eq, List.map_map]
    refine List.map_congr_left fun x hx => ?_
    have hr : x.2 < 32 := WordRun.sourceRows_lt (w.sourceRows_eq q ▸ List.mem_map_of_mem hx)
    rw [getD_map_range _ hr, WordRun.rowVals_eq]
    rfl
  simp only [State.mmagElems]
  rw [getElem_elems _ hj]
  simp only [hrows, getD_map_range _ hj, WordRun.rowVals_eq, List.isEmpty_map, List.isEmpty_iff]
  cases k <;> rfl

/-! The end of a product (R235). -/

theorem State.length_mmaElems (s : State) (w : WordRun) (m fa fb kk : Nat) (z blk : Bool) :
    (s.mmaElems w m fa fb kk z blk).length = 1024 := by simp only [State.mmaElems, length_elems]

theorem State.length_mmagElems (s : State) (w : WordRun) (m fa fb kk : Nat) (z k d : Bool) :
    (s.mmagElems w m fa fb kk z k d).length = 1024 := by simp only [State.mmagElems, length_elems]

theorem State.productDone_mma {s : State} {key : Nat} {w : WordRun} (hword : s.wordRun key = some w) {m : BitVec 3} {ta tb sa sb : BitVec 4}
    {fa fb : BitVec 3} {kk : BitVec 9} {z blk : BitVec 1} (hwhat : w.what = .plain (.mma m ta tb fa fb kk z blk sa sb)) :
    s.productDone key =
      (s.setAcc m.toNat (s.mmaElems w m.toNat fa.toNat fb.toNat kk.toNat (z == 1) (blk == 1))).dropWord key := by
  simp only [State.productDone, hword, WordRun.instr, hwhat]

theorem State.productDone_mmag {s : State} {key : Nat} {w : WordRun} (hword : s.wordRun key = some w) {m : BitVec 3}
    {ta tb lst dec : BitVec 4} {fa fb : BitVec 3} {kk : BitVec 9} {z k dd : BitVec 1}
    (hwhat : w.what = .plain (.mmag m ta tb fa fb kk lst dec z k dd)) : s.productDone key =
      (s.setAcc m.toNat (s.mmagElems w m.toNat fa.toNat fb.toNat kk.toNat (z == 1) (k == 1) (dd == 1))).dropWord key := by
  simp only [State.productDone, hword, WordRun.instr, hwhat]

end Sys2Proof.Machine
end

section
/-! O32 settled. -/

namespace Sys2Proof.Proofs

open Sys2Proof.Machine Sys2Proof.Claims

section
variable {s f : State} {first tile key : Nat} {w : WordRun} (hf : atTile s first tile = f) (hfirst : f.p.first = first)
  (hword : f.wordRun key = some w)
include hf hfirst hword

/-- R230: block u of both operands is kept as it is read. -/
theorem blockIsKept {u : Nat} (hfree : ∀ x ∈ w.lines, x.1 / 16 ≠ u) (hclean : CleanSram f)
    (hport : ∀ x ∈ w.blockLines u, f.portOk true x.2 = true) (hin : ∀ x ∈ w.blockLines u, x.2 + 128 ≤ 0x600000) :
    ∃ t x, exec (.timedEffectLands first tile (.mmaRead key u)) s = .next t ∧ t.mem = s.mem ∧ t.wordRun key = some x ∧
      t.p.run.faults = f.p.run.faults ∧ ∀ y ∈ w.blockLines u, x.lineAt y.1 = f.line (f.sramFlat y.2) := by
  have hexec := exec_timedEffectLands (e := .mmaRead key u) hf hfirst hword rfl
  rw [State.timedEffect, State.readBlock_of_clean (s := f.actsFor w) hclean hword hport hin] at hexec
  refine ⟨_, _, hexec, (hf ▸ atTile_mem s first tile : f.mem = s.mem),
    State.wordRun_onWord (s := f.actsFor w) hword fun _ hx => hx, rfl,
    fun y hy => w.lineAt_withLines _ hy (fun _ hz => WordRun.blockLines_once hy hz) fun z hz => ?_⟩
  have hplace : y.1 / 16 = u := by
    obtain ⟨i, hi, rfl | rfl⟩ := WordRun.mem_blockLines.1 hy <;> simp only <;> omega
  exact fun h => hfree z hz (h ▸ hplace)

/-- R235: at its end a product writes the elements of its accumulator and no other byte, and is over. -/
theorem productWrites (hwf : s.mem.wf = true) {m : Nat} {v : List Nat} (hlength : v.length = 1024)
    (hdone : (f.actsFor w).productDone key = ((f.actsFor w).setAcc m v).dropWord key) :
    ∃ t, exec (.timedEffectLands first tile (.mmaDone key)) s = .next t ∧
      (∀ b, (b < flatAccBase + ((first * 1024 + f.tl.ltile) * 8 + m) * 4096 ∨
        flatAccBase + ((first * 1024 + f.tl.ltile) * 8 + m + 1) * 4096 ≤ b) → t.mem.read b = s.mem.read b) ∧
      t.wordRun key = none ∧ ∀ n (h : n < v.length), t.accElem m n = v[n] % 2 ^ 32 := by
  have hmem : f.mem = s.mem := hf ▸ atTile_mem s first tile
  have hexec := exec_timedEffectLands (e := .mmaDone key) hf hfirst hword rfl
  obtain ⟨mem, hset, -, hread, hframe⟩ := State.setAcc_eq (s := f.actsFor w) (hmem ▸ hwf) m v
  rw [State.timedEffect, hdone, hset] at hexec
  refine ⟨_, hexec, fun b hb => ?_, State.wordRun_dropWord _ key, hread⟩
  refine (hframe b ?_).trans (congrArg (·.read b) hmem)
  subst hfirst
  simp only [flatAcc, hlength, State.actsFor_p, State.actsFor_tl]
  omega

end

/-- Settles O32: a product keeps the blocks it reads, and its end writes each element as the chunks of its rows give it. -/
theorem matrixProducts : Obligations.MatrixProducts := by
  unfold Obligations.MatrixProducts
  refine ⟨?reads, ?ends⟩
  case reads =>
    intro first tile key u w s f hfirst hword hfree hclean hport _ _ hin0 hin1
    have hboth (P : Nat → Prop) (h : ∀ i, i < 8 → P (w.r0.toNat + 1024 * u + 128 * i) ∧ P (w.r1.toNat + 1024 * u + 128 * i)) :
        ∀ x ∈ w.blockLines u, P x.2 := by
      intro x hx
      obtain ⟨i, hi, rfl | rfl⟩ := WordRun.mem_blockLines.1 hx
      · exact (h i hi).1
      · exact (h i hi).2
    obtain ⟨t, x, hexec, hmem, hkeeps, hfaults, hlines⟩ := blockIsKept rfl hfirst hword hfree hclean
      (hboth (fun off => f.portOk true off = true) hport) (hboth (fun off => off + 128 ≤ 0x600000) fun i hi => by omega)
    exact ⟨t, x, hexec, hmem, hkeeps, hfaults, fun i hi => ⟨hlines _ (WordRun.mem_blockLines.2 ⟨i, hi, .inl rfl⟩),
      hlines _ (WordRun.mem_blockLines.2 ⟨i, hi, .inr rfl⟩)⟩⟩
  case ends =>
    intro first tile key w s f hfirst hword hwf _ _ acc kept
    have hf : atTile s first tile = f := rfl
    clear_value f
    refine ⟨?blocked, ?lists⟩
    case blocked =>
      intro m ta tb fa fb kk z blk sa sb hwhat scale _ _ hkt
      obtain ⟨t, hexec, hkept, hover, helem⟩ :=
        productWrites hf hfirst hword hwf (State.length_mmaElems ..) (State.productDone_mma (s := f.actsFor w) hword hwhat)
      refine ⟨t, hexec, hkept, hover, fun i j hi hj => ?_⟩
      rw [helem _ (by rw [State.length_mmaElems]; omega), State.getElem_mmaElems _ _ _ hkt _ _ _ hi hj]
      simp only [beq_iff_eq]
      rfl
    case lists =>
      intro m ta tb fa fb kk lst dec z kp dd hwhat _ _ hkt
      obtain ⟨t, hexec, hkept, hover, helem⟩ :=
        productWrites hf hfirst hword hwf (State.length_mmagElems ..) (State.productDone_mmag (s := f.actsFor w) hword hwhat)
      refine ⟨t, hexec, hkept, hover, fun q j hq hj => ?_⟩
      intro l row delta old got
      have hvalue := helem (32 * q + j) (by rw [State.length_mmagElems]; omega)
      rw [State.getElem_mmagElems _ _ _ _ _ _ _ _ _ hj, ← hkt] at hvalue
      simp only [beq_iff_eq] at hvalue
      have hgot : got = (if l = [] then
          if kp = 1 then (if dd = 1 then (f32.round .rn (delta.mul (f32.value old)).1).1 else old) else 0
        else if z = 1 then rowChunks (l.map (row false fa.toNat)) (row true fb.toNat j) 0 (.fin false 1 0)
        else rowChunks (l.map (row false fa.toNat)) (row true fb.toNat j) old delta) % 2 ^ 32 := hvalue
      have hold : old % 2 ^ 32 = old := Nat.mod_eq_of_lt (f.accElem_lt _ _)
      clear_value l row old got
      refine ⟨fun hl hk => ?zero, fun hl hk hd => ?keeps, fun hl hk hd => ?decays, fun hl hz => ?fresh, fun hl hz => ?added⟩
      case zero => rw [hgot, if_pos hl, hk]; rfl
      case keeps => rw [hgot, if_pos hl, if_pos hk, hd]; exact hold
      case decays => rw [hgot, if_pos hl, if_pos hk, if_pos hd]
      case fresh => rw [hgot, if_neg hl, if_pos hz]
      case added => rw [hgot, if_neg hl, hz]; rfl

end Sys2Proof.Proofs
end

section
/-! O2: sums, products, counts and fields, each as the number its rule names (R153, R155). -/

namespace Sys2Proof.Machine

/-! Sums and products (R153, R157, R158); the second operand stands for any integer that its word holds. -/

theorem shiftLeft_eq_ofNat (a : Word) (n : Nat) : a <<< n = BitVec.ofNat 64 (a.toNat * 2 ^ n) := by
  apply BitVec.eq_of_toNat_eq
  rw [BitVec.toNat_shiftLeft, Nat.shiftLeft_eq, BitVec.toNat_ofNat]

theorem add_shiftLeft_eq (a b : Word) (n : Nat) : a + b <<< n = BitVec.ofNat 64 (a.toNat + b.toNat * 2 ^ n) := by
  rw [BitVec.ofNat_add, ← shiftLeft_eq_ofNat, BitVec.ofNat_toNat, BitVec.setWidth_eq]

theorem sub_shiftLeft_eq (a b : Word) (n : Nat) : a - b <<< n = BitVec.ofInt 64 ((a.toNat : Int) - b.toNat * 2 ^ n) := by
  have hb : b <<< n = BitVec.ofInt 64 (b.toNat * 2 ^ n) := by
    rw [shiftLeft_eq_ofNat, ← BitVec.ofInt_natCast]
    push_cast
    rfl
  have ha : a = BitVec.ofInt 64 a.toNat := by rw [BitVec.ofInt_natCast, BitVec.ofNat_toNat, BitVec.setWidth_eq]
  rw [Int.sub_eq_add_neg, BitVec.ofInt_add, BitVec.ofInt_neg, ← hb, ← ha, BitVec.sub_eq_add_neg]

section
variable {a b : Word} {i : Int} (hb : b.toInt = i)
include hb

theorem add_eq_ofInt : a + b = BitVec.ofInt 64 (a.toInt + i) := by
  rw [BitVec.ofInt_add, ← hb, BitVec.ofInt_toInt, BitVec.ofInt_toInt]

theorem mul_eq_ofInt : a * b = BitVec.ofInt 64 (a.toInt * i) := by
  rw [BitVec.ofInt_mul, ← hb, BitVec.ofInt_toInt, BitVec.ofInt_toInt]

/-! The smaller and the larger (R153). -/

theorem minS_eq : minS a b = BitVec.ofInt 64 (min a.toInt i) := by
  rw [min_def, ← hb, apply_ite (BitVec.ofInt 64), BitVec.ofInt_toInt, BitVec.ofInt_toInt, minS]

theorem maxS_eq : maxS a b = BitVec.ofInt 64 (max a.toInt i) := by
  rw [max_def, ← hb, apply_ite (BitVec.ofInt 64), BitVec.ofInt_toInt, BitVec.ofInt_toInt, maxS]

end

theorem minU_eq (a b : Word) : minU a b = BitVec.ofNat 64 (min a.toNat b.toNat) :=
  eq_ofNat_of_toNat_eq ((apply_ite BitVec.toNat _ a b).trans (min_def ..).symm)

theorem maxU_eq (a b : Word) : maxU a b = BitVec.ofNat 64 (max a.toNat b.toNat) :=
  eq_ofNat_of_toNat_eq ((apply_ite BitVec.toNat _ b a).trans (max_def ..).symm)

/-! The high half of a product (R153). -/

theorem mulhW_eq (a b : Word) : mulhW a b = (a.signExtend 128 * b.signExtend 128).extractLsb' 64 64 := by
  have hwide : a.signExtend 128 * b.signExtend 128 = BitVec.ofInt 128 (a.toInt * b.toInt) := (BitVec.ofInt_mul ..).symm
  rw [hwide, mulhW]
  generalize a.toInt * b.toInt = z
  apply BitVec.eq_of_toNat_eq
  rw [BitVec.extractLsb'_toNat, BitVec.toNat_ofInt, BitVec.toNat_ofInt, Nat.shiftRight_eq_div_pow]
  omega

theorem mulhuW_eq (a b : Word) : mulhuW a b = (a.setWidth 128 * b.setWidth 128).extractLsb' 64 64 := by
  have hwide : (a.setWidth 128 * b.setWidth 128).toNat = a.toNat * b.toNat := by
    have hfits : a.toNat * b.toNat < 2 ^ 64 * 2 ^ 64 := Nat.mul_lt_mul'' a.isLt b.isLt
    rw [BitVec.toNat_mul, BitVec.toNat_setWidth_of_le (by decide), BitVec.toNat_setWidth_of_le (by decide), Nat.mod_eq_of_lt (by omega)]
  apply BitVec.eq_of_toNat_eq
  rw [mulhuW, BitVec.extractLsb'_toNat, BitVec.toNat_ofNat, hwide, Nat.shiftRight_eq_div_pow]

/-! Counts of bits, and the order of bytes (R153). -/

/-- The zeros above the highest one of the low n bits. -/
theorem clzN_eq (a : Word) (n : Nat) :
    clzN a n = n - (if a.toNat % 2 ^ n = 0 then 0 else (a.toNat % 2 ^ n).log2 + 1) := by
  induction n with
  | zero => simp [clzN]
  | succ n ih =>
    have hlow : a.toNat % 2 ^ n < 2 ^ n := Nat.mod_lt _ (Nat.two_pow_pos n)
    have hbits : a.toNat % 2 ^ (n + 1) = a.toNat % 2 ^ n + 2 ^ n * (a.getLsbD n).toNat := by
      rw [Nat.mod_pow_succ, ← Nat.toNat_testBit]; rfl
    cases hbit : a.getLsbD n
    · have hsame : a.toNat % 2 ^ (n + 1) = a.toNat % 2 ^ n := by simp [hbits, hbit]
      rw [clzN, hbit, if_neg Bool.false_ne_true, ih, hsame]
      split
      · omega
      · next hne =>
        have := (Nat.log2_lt hne).2 hlow
        omega
    · have hlog : (a.toNat % 2 ^ (n + 1)).log2 = n := by
        rw [Nat.log2_eq_iff (by rw [hbits, hbit]; simp), hbits, hbit, Nat.pow_succ]
        simp only [Bool.toNat_true]
        omega
      rw [clzN, hbit, if_pos rfl, if_neg (by rw [hbits, hbit]; simp), hlog]
      omega

theorem clzN_word (a : Word) : clzN a 64 = 64 - (if a = 0 then 0 else a.toNat.log2 + 1) := by
  have hzero : a.toNat = 0 ↔ a = 0 := BitVec.toNat_inj (y := 0#64)
  rw [clzN_eq, Nat.mod_eq_of_lt a.isLt, if_congr hzero rfl rfl]

theorem popcN_eq (a : Word) (n : Nat) : popcN a n = (List.range n).countP fun i => a.getLsbD i := by
  induction n with
  | zero => rfl
  | succ n ih => rw [popcN, List.range_succ, List.countP_append, ih, List.countP_singleton, Nat.add_comm]

theorem bswapW_eq (a : Word) : bswapW a = a.extractLsb' 0 8 ++ a.extractLsb' 8 8 ++ a.extractLsb' 16 8 ++
    a.extractLsb' 24 8 ++ a.extractLsb' 32 8 ++ a.extractLsb' 40 8 ++ a.extractLsb' 48 8 ++ a.extractLsb' 56 8 := by
  have hbyte (lo : Nat) : (a.extractLsb' lo 8).toNat = a.toNat / 2 ^ lo % 256 := by
    rw [BitVec.extractLsb'_toNat, Nat.shiftRight_eq_div_pow]
  have hjoin {m : Nat} (x : BitVec m) (y : BitVec 8) : (x ++ y).toNat = x.toNat * 256 + y.toNat := by
    rw [BitVec.toNat_append, Nat.shiftLeft_eq, ← Nat.mul_comm (2 ^ 8), Nat.two_pow_add_eq_or_of_lt y.isLt]
  have hvalue : (List.range 8).foldl (fun r i => r * 256 + a.toNat / 256 ^ i % 256) 0 =
      (a.extractLsb' 0 8 ++ a.extractLsb' 8 8 ++ a.extractLsb' 16 8 ++ a.extractLsb' 24 8 ++ a.extractLsb' 32 8 ++
        a.extractLsb' 40 8 ++ a.extractLsb' 48 8 ++ a.extractLsb' 56 8).toNat := by
    simp only [hjoin, hbyte]
    simp [List.range_succ]
  rw [bswapW, hvalue, BitVec.ofNat_toNat, BitVec.setWidth_eq]

/-! Bit fields (R155). -/

theorem field_eq_extractLsb' (w : Word) (hi lo : Nat) : field w hi lo = (w.extractLsb' lo (hi + 1 - lo)).toNat := by
  rw [BitVec.extractLsb'_toNat, Nat.shiftRight_eq_div_pow, field]

/-- The number in the low n bits of a word, sign-extended. -/
theorem signExt_eq (w : Word) {n : Nat} (hn : 0 < n) : signExt w n = (w.setWidth n).toInt := by
  have hhalf : 2 ^ n = 2 * 2 ^ (n - 1) := by rw [← Nat.pow_succ', Nat.succ_eq_add_one, Nat.sub_add_cancel hn]
  rw [signExt, BitVec.toInt_eq_toNat_cond, BitVec.toNat_setWidth]
  push_cast
  exact if_congr (by omega) rfl rfl

theorem ofInt_setWidth (z : Int) {n : Nat} (hn : n ≤ 64) : (BitVec.ofInt 64 z).setWidth n = BitVec.ofInt n z := by
  have hdvd : (2 ^ n : Int) ∣ 2 ^ 64 := pow_dvd_pow 2 hn
  have hpos : (0 : Int) < 2 ^ n := by positivity
  apply BitVec.eq_of_toNat_eq
  rw [BitVec.toNat_setWidth, BitVec.toNat_ofInt, BitVec.toNat_ofInt]
  zify
  rw [Int.toNat_of_nonneg (Int.emod_nonneg _ (by norm_num)), Int.toNat_of_nonneg (Int.emod_nonneg _ hpos.ne')]
  exact Int.emod_emod_of_dvd z hdvd

theorem extW_eq (a b : Word) : extW a b = BitVec.ofInt 64
    ((BitVec.ofInt ((b.extractLsb' 8 6).toNat + 1) (a.toInt / 2 ^ (b.extractLsb' 0 6).toNat)).toInt) := by
  rw [extW, field_eq_extractLsb' b 5 0, field_eq_extractLsb' b 13 8]
  exact congrArg _ ((signExt_eq _ (Nat.succ_pos _)).trans (congrArg _ (ofInt_setWidth _ (b.extractLsb' 8 6).isLt)))

theorem extuW_eq (a b : Word) : extuW a b = BitVec.ofNat 64
    ((BitVec.ofNat ((b.extractLsb' 8 6).toNat + 1) (a.toNat / 2 ^ (b.extractLsb' 0 6).toNat)).toNat) := by
  rw [extuW, field_eq_extractLsb' b 5 0, field_eq_extractLsb' b 13 8, BitVec.toNat_ofNat]

end Sys2Proof.Machine
end

section
/-! O3, O4: shifts, rotates and division (R154, R156). -/

namespace Sys2Proof.Machine

/-! Shifts and rotates (R154). -/

theorem shlW_eq (a n : Word) : shlW a n = if 64 ≤ n.toNat then 0 else BitVec.ofNat 64 (a.toNat * 2 ^ n.toNat) := by
  rw [shlW, shiftLeft_eq_ofNat]

theorem shrW_eq (a n : Word) : shrW a n = if 64 ≤ n.toNat then 0 else BitVec.ofNat 64 (a.toNat / 2 ^ n.toNat) := by
  have hshift : a >>> n.toNat = BitVec.ofNat 64 (a.toNat / 2 ^ n.toNat) :=
    eq_ofNat_of_toNat_eq (by rw [BitVec.toNat_ushiftRight, Nat.shiftRight_eq_div_pow])
  rw [shrW, hshift]

theorem sarW_eq (a n : Word) : sarW a n = BitVec.ofInt 64 (a.toInt / 2 ^ min n.toNat 63) := by
  rw [sarW, BitVec.sshiftRight_eq, Int.shiftRight_eq_div_pow]
  rfl

theorem rolW_eq (a n : Word) : rolW a n = (a <<< (n.toNat % 64)) ||| (a >>> (64 - n.toNat % 64)) := by
  rw [rolW, BitVec.rotateLeft_def, Nat.mod_mod]

theorem rorW_eq (a n : Word) : rorW a n = (a >>> (n.toNat % 64)) ||| (a <<< (64 - n.toNat % 64)) := by
  rw [rorW, BitVec.rotateRight_def, Nat.mod_mod]

/-! Division (R156, Table 7.5). -/

section
variable (a b : Word)

theorem divW_zero : divW a 0 = BitVec.allOnes 64 := rfl
theorem divuW_zero : divuW a 0 = BitVec.allOnes 64 := rfl
theorem remW_zero : remW a 0 = a := rfl
theorem remuW_zero : remuW a 0 = a := rfl

theorem remW_eq_srem : remW a b = a.srem b := by
  by_cases hb : b = 0
  · rw [remW, if_pos hb, hb]; exact BitVec.srem_zero.symm
  · rw [remW, if_neg hb, ← BitVec.toInt_srem, BitVec.ofInt_toInt]

theorem toInt_remW : (remW a b).toInt = a.toInt.tmod b.toInt := by
  rw [remW_eq_srem, BitVec.toInt_srem]

theorem divW_mul_add_remW : a = b * divW a b + remW a b := by
  by_cases hb : b = 0
  · rw [hb, remW_zero]; simp
  · calc a = BitVec.ofInt 64 (b.toInt * a.toInt.tdiv b.toInt + a.toInt.tmod b.toInt) := by
          rw [Int.mul_tdiv_add_tmod, BitVec.ofInt_toInt]
      _ = b * divW a b + remW a b := by
          rw [BitVec.ofInt_add, BitVec.ofInt_mul, BitVec.ofInt_toInt, divW, remW, if_neg hb, if_neg hb]

theorem divuW_mul_add_remuW : a = b * divuW a b + remuW a b := by
  by_cases hb : b = 0
  · rw [hb, remuW_zero]; simp
  · calc a = BitVec.ofNat 64 (b.toNat * (a.toNat / b.toNat) + a.toNat % b.toNat) := by
          rw [Nat.div_add_mod, BitVec.ofNat_toNat, BitVec.setWidth_eq]
      _ = b * divuW a b + remuW a b := by
          rw [BitVec.ofNat_add, BitVec.ofNat_mul, BitVec.ofNat_toNat, BitVec.setWidth_eq, divuW, remuW, if_neg hb, if_neg hb]

end

section
variable {a b : Word}

theorem toNat_divuW (hb : b ≠ 0) : (divuW a b).toNat = a.toNat / b.toNat := by
  rw [divuW, if_neg hb, BitVec.toNat_ofNat, Nat.mod_eq_of_lt ((Nat.div_le_self ..).trans_lt a.isLt)]

theorem toNat_remuW (hb : b ≠ 0) : (remuW a b).toNat = a.toNat % b.toNat := by
  rw [remuW, if_neg hb, BitVec.toNat_ofNat, Nat.mod_eq_of_lt ((Nat.mod_le ..).trans_lt a.isLt)]

/-- The one quotient that does not fit wraps to the dividend. -/
theorem divW_remW_of_overflow (ha : a.toInt = -2 ^ 63) (hb : b.toInt = -1) : (divW a b).toInt = -2 ^ 63 ∧ remW a b = 0 := by
  have hne : b ≠ 0 := by rintro rfl; exact absurd hb (by decide)
  rw [divW, remW, if_neg hne, if_neg hne, ha, hb]
  decide

theorem toInt_divW (hb : b ≠ 0) (hfits : ¬(a.toInt = -2 ^ 63 ∧ b.toInt = -1)) : (divW a b).toInt = a.toInt.tdiv b.toInt := by
  have hne : a ≠ BitVec.intMin 64 ∨ b ≠ -1#64 :=
    (not_and_or.1 hfits).imp (fun h hmin => h (hmin ▸ rfl)) (fun h hneg => h (hneg ▸ rfl))
  rw [divW, if_neg hb, ← BitVec.toInt_sdiv_of_ne_or_ne a b hne, BitVec.ofInt_toInt]

end

end Sys2Proof.Machine
end

section
/-! O5, O6, O9: immediates, conditions and targets (R157-R160, R165, R166). -/

namespace Sys2Proof.Machine

/-! Immediates (R152, R157, R158). -/

theorem toInt_imm9 (i : BitVec 9) : (imm9 i).toInt = i.toInt := BitVec.toInt_signExtend_of_le (by decide)

theorem toInt_imm32s (i : BitVec 32) : (imm32s i).toInt = i.toInt := BitVec.toInt_signExtend_of_le (by decide)

theorem toNat_imm9 {i : BitVec 9} (h : 0 ≤ i.toInt) : (imm9 i).toNat = i.toInt.toNat := by
  rw [← toInt_imm9] at h ⊢
  rw [BitVec.toInt_eq_toNat_cond] at h ⊢
  have := (imm9 i).isLt
  split at h <;> omega

section
variable {i : BitVec 9} (hlow : 0 ≤ i.toInt) (hhigh : i.toInt ≤ 63) (a : Word)
include hlow hhigh

theorem shlW_imm9 : shlW a (imm9 i) = a <<< i.toInt.toNat := by
  rw [shlW, toNat_imm9 hlow, if_neg (by omega)]

theorem shrW_imm9 : shrW a (imm9 i) = a >>> i.toInt.toNat := by
  rw [shrW, toNat_imm9 hlow, if_neg (by omega)]

theorem sarW_imm9 : sarW a (imm9 i) = BitVec.ofInt 64 (a.toInt / 2 ^ i.toInt.toNat) := by
  rw [sarW_eq, toNat_imm9 hlow, min_eq_left (by omega)]

end

/-- R158: the upper half is replaced, the lower half kept. -/
theorem append_setWidth_eq (imm : BitVec 32) (a : Word) :
    imm ++ a.setWidth 32 = (imm.setWidth 64 <<< 32) ||| (a &&& 0xFFFFFFFF) := by
  have hmask : ∀ i, i < 64 → (0xFFFFFFFF : Word).getLsbD i = decide (i < 32) := by decide
  apply BitVec.eq_of_getLsbD_eq
  intro i hi
  rw [BitVec.getLsbD_append, BitVec.getLsbD_or, BitVec.getLsbD_and, hmask i hi]
  by_cases h : i < 32
  · simp [h]
  · simp [h, hi]

/-! Conditions (R159, R160, Table 7.8). -/

theorem condW_ge (a b : Word) : condW 3 a b = !(a.slt b) := by
  rw [BitVec.slt_eq_decide, ← decide_not]
  exact decide_eq_decide.2 Int.not_lt.symm

theorem condW_gew (a b : Word) : condW 5 a b = !(a.ult b) := by
  rw [BitVec.ult_eq_decide, ← decide_not]
  exact decide_eq_decide.2 Nat.not_lt.symm

/-- R159, R162: a compare or predicate operation whose guard holds sends its predicate, but none to p0. -/
theorem next_predicate_of_guard_on {s : State} {g : Guard} (hg : s.guard g = true) (d : BitVec 5) (v : Bool) :
    (.next (if s.guard g then s.landP 2 d.toNat v else s) : Res) = .next (if d = 0 then s else s.land 2 (.pred d.toNat v)) := by
  have hzero : d.toNat = 0 ↔ d = 0 := BitVec.toNat_inj (y := 0#5)
  rw [next_of_guard_on hg, State.landP, if_congr hzero rfl rfl]

/-! Targets (R165, R166). -/

theorem relTarget_eq (pc : Word) (imm : BitVec 32) :
    relTarget pc imm = BitVec.ofInt 64 ((pc.toNat + 8 * imm.toInt) % 2 ^ 32) := by
  rw [relTarget_setWidth]
  apply BitVec.eq_of_toNat_eq
  rw [BitVec.toNat_setWidth, BitVec.toNat_ofInt, BitVec.toNat_ofInt]
  omega

theorem setWidth_setWidth_eq (a : Word) : (a.setWidth 32).setWidth 64 = BitVec.ofNat 64 (a.toNat % 2 ^ 32) := by
  rw [← BitVec.toNat_setWidth, BitVec.ofNat_toNat]

/-- R168: a result on its way changes no memory and, as yet, no register. -/
theorem State.landA_keeps (s : State) (l : Nat) (d : BitVec 5) (v : Word) :
    (s.landA l d v).mem = s.mem ∧ (s.landA l d v).cur.pc = s.cur.pc ∧ (s.landA l d v).cur.a = s.cur.a := by
  obtain ⟨held, agenda, hland, -⟩ := s.landA_eq l d v
  rw [hland]
  exact ⟨rfl, rfl, rfl⟩

end Sys2Proof.Machine
end

section
/-! O2-O6, O9 settled. -/

namespace Sys2Proof.Proofs

open Sys2Proof.Machine

/-- Settles O2: each operation sends the value of its integer function. -/
theorem scalarArithmeticResults : Obligations.ScalarArithmeticResults := by
  unfold Obligations.ScalarArithmeticResults
  intro g d rs t fn s hg a b pos len
  have sends := next_of_guard_on hg s
  refine ⟨rfl, ?add, ?sub, sends _, sends _, sends _, sends _, ?mul, ?mulh, ?mulhw, ?min, ?max, ?minw, ?maxw, sends _,
    ?clz, ?popc, ?ext, ?extw, ?bswap, sends _⟩
  case add => exact add_shiftLeft_eq a b _ ▸ sends _
  case sub => exact sub_shiftLeft_eq a b _ ▸ sends _
  case mul => exact mul_eq_ofInt (a := a) (b := b) rfl ▸ sends _
  case mulh => exact mulhW_eq a b ▸ sends _
  case mulhw => exact mulhuW_eq a b ▸ sends _
  case min => exact minS_eq (a := a) (b := b) rfl ▸ sends _
  case max => exact maxS_eq (a := a) (b := b) rfl ▸ sends _
  case minw => exact minU_eq a b ▸ sends _
  case maxw => exact maxU_eq a b ▸ sends _
  case clz => exact clzN_word a ▸ sends _
  case popc => exact popcN_eq a 64 ▸ sends _
  case ext => exact extW_eq a b ▸ sends _
  case extw => exact extuW_eq a b ▸ sends _
  case bswap => exact bswapW_eq a ▸ sends _

/-- Settles O3: each operation sends the shift or the rotation that R154 writes out. -/
theorem shiftAndRotateResults : Obligations.ShiftAndRotateResults := by
  unfold Obligations.ShiftAndRotateResults
  intro g d rs t s hg a n r
  have sends := next_of_guard_on hg s
  exact ⟨shlW_eq a (s.ra t) ▸ sends _, shrW_eq a (s.ra t) ▸ sends _, sarW_eq a (s.ra t) ▸ sends _,
    rolW_eq a (s.ra t) ▸ sends _, rorW_eq a (s.ra t) ▸ sends _⟩

/-- Settles O4: the quotients and remainders sent are those of the model's division, and Table 7.5 is what it gives. -/
theorem divisionResults : Obligations.DivisionResults := by
  unfold Obligations.DivisionResults
  intro g d rs t s hg a b
  have sends := next_of_guard_on hg s
  refine ⟨divW a b, divuW a b, remW a b, remuW a b, sends _, sends _, sends _, sends _, divW_mul_add_remW a b,
    divuW_mul_add_remuW a b, fun hb => ?zero, divW_remW_of_overflow, fun hb => ⟨toNat_divuW hb, toNat_remuW hb⟩,
    fun hb hfits => ⟨toInt_divW hb hfits, toInt_remW a b⟩⟩
  case zero =>
    rw [hb]
    exact ⟨divW_zero a, divuW_zero a, remW_zero a, remuW_zero a⟩

/-- Settles O5: an immediate stands for the integer it holds. -/
theorem immediateFormResults : Obligations.ImmediateFormResults := by
  unfold Obligations.ImmediateFormResults
  intro g d rs i9 i32 s hg a i
  have sends := next_of_guard_on hg s
  have hi9 : (imm9 i9).toInt = i := toInt_imm9 i9
  have hi32 : (imm32s i32).toInt = i32.toInt := toInt_imm32s i32
  refine ⟨?addi, sends _, sends _, sends _, fun hlow hhigh => ?shifts, fun hlow _ => ?rori, ?muli, sends _, ?mini, ?maxi,
    sends _, ?lih, ?addl, sends _, sends _, sends _, ?mull⟩
  case addi => exact add_eq_ofInt (a := a) hi9 ▸ sends _
  case shifts =>
    exact ⟨shlW_imm9 hlow hhigh a ▸ sends _, shrW_imm9 hlow hhigh a ▸ sends _, sarW_imm9 hlow hhigh a ▸ sends _⟩
  case rori => exact toNat_imm9 hlow ▸ sends _
  case muli => exact mul_eq_ofInt (a := a) hi9 ▸ sends _
  case mini => exact minS_eq (a := a) hi9 ▸ sends _
  case maxi => exact maxS_eq (a := a) hi9 ▸ sends _
  case lih => exact append_setWidth_eq i32 _ ▸ sends _
  case addl => exact add_eq_ofInt (a := a) hi32 ▸ sends _
  case mull => exact mul_eq_ofInt (a := a) hi32 ▸ sends _

/-- Settles O6: each compare sends its condition, which only `ge` and `gew` word otherwise. -/
theorem compareAndPredicateResults : Obligations.CompareAndPredicateResults := by
  unfold Obligations.CompareAndPredicateResults
  intro g d rs t i9 s hg a b i give
  have gives := next_predicate_of_guard_on hg d
  have sends := next_of_guard_on hg s
  refine ⟨gives _, gives _, gives _, ?ge, gives _, ?gew, gives _, gives _, gives _, gives _, gives _, ?gei, gives _, ?gewi,
    gives _, gives _, gives _, gives _, sends _, sends _⟩
  case ge => exact condW_ge a b ▸ gives _
  case gew => exact condW_gew a b ▸ gives _
  case gei => exact condW_ge a i ▸ gives _
  case gewi => exact condW_gew a i ▸ gives _

/-- Settles O9: a taken transfer sets the target; its link is a result on its way. -/
theorem transferResults : Obligations.TransferResults := by
  unfold Obligations.TransferResults
  intro g d rs imm s hg direct indirect linked
  have hdirect : relTarget s.cur.pc imm = direct := relTarget_eq ..
  have hindirect : ((s.ra rs).setWidth 32).setWidth 64 = indirect := setWidth_setWidth_eq ..
  have goes := next_of_guard_on hg s
  exact ⟨hdirect ▸ goes _, hdirect ▸ goes _, hindirect ▸ goes _, hindirect ▸ goes _, s.landA_keeps 2 d _⟩

end Sys2Proof.Proofs
end

section
/-! O18-O25: the lanes of a vector register (R180), and the operands and results of an instruction no stream is bound to. -/

namespace Sys2Proof.Machine

open Sys2Proof.Claims

/-! Lanes (R180). -/

theorem laneOf_eq_lane (v : Vec) (w i : Nat) : laneOf v w i = lane v w i := by
  rw [laneOf, lane, BitVec.extractLsb'_toNat, Nat.shiftRight_eq_div_pow]

theorem laneOf_lt (v : Vec) (w i : Nat) : laneOf v w i < 2 ^ w := BitVec.isLt _

theorem testBit_laneOf (v : Vec) (w i j : Nat) : (laneOf v w i).testBit j = (decide (j < w) && v.getLsbD (w * i + j)) :=
  BitVec.getLsbD_extractLsb' ..

/-- One lane alone. -/
theorem getLsbD_lane {w : Nat} (hw : 0 < w) (i v : Nat) {k : Nat} (hk : k < 512) :
    (BitVec.ofNat 512 (v % 2 ^ w * 2 ^ (w * i))).getLsbD k = (i == k / w && v.testBit (k % w)) := by
  have hdiv : (i = k / w) ↔ w * i ≤ k ∧ k - w * i < w := by
    rw [eq_comm, Nat.div_eq_iff hw, mul_comm]
    omega
  rw [BitVec.getLsbD_ofNat, Nat.testBit_mul_two_pow, Nat.testBit_mod_two_pow]
  by_cases h : i = k / w
  · obtain ⟨hle, hlt⟩ := hdiv.1 h
    have hsub : k - w * i = k % w := by rw [h, Nat.mod_def]
    simp only [hk, hle, Nat.mod_lt k hw, decide_true, Bool.true_and, hsub, beq_iff_eq.2 h]
  · rw [beq_false_of_ne h, Bool.false_and]
    simp only [Bool.and_eq_false_iff, decide_eq_false_iff_not]
    have := hdiv.not.1 h
    omega

/-- Lanes put together keep their bits: bit k of the whole is bit k % w of the value of lane k / w. -/
theorem getLsbD_ofLanes {w : Nat} (hw : 0 < w) {l : List (Nat × Nat)} (hl : (l.map (·.1)).Nodup) {k : Nat} (hk : k < 512) :
    (ofLanes w l).getLsbD k = l.any fun x => x.1 == k / w && x.2.testBit (k % w) := by
  induction l using List.reverseRecOn generalizing k with
  | nil => simp [ofLanes]
  | append_singleton l x ih =>
    rw [List.map_append, List.nodup_append] at hl
    obtain ⟨hnodup, -, hnew⟩ := hl
    have happend : ofLanes w (l ++ [x]) = ofLanes w l + BitVec.ofNat 512 (x.2 % 2 ^ w * 2 ^ (w * x.1)) := by
      rw [ofLanes, List.foldl_append, ofLanes, ← BitVec.ofNat_add]
      rfl
    have hapart : ofLanes w l &&& BitVec.ofNat 512 (x.2 % 2 ^ w * 2 ^ (w * x.1)) = 0#512 := by
      apply BitVec.eq_of_getLsbD_eq
      intro k hk
      rw [BitVec.getLsbD_and, ih hnodup hk, getLsbD_lane hw _ _ hk, BitVec.getLsbD_zero, Bool.and_eq_false_iff]
      by_cases hx : x.1 = k / w
      · refine .inl (List.any_eq_false.2 fun y hy => ?_)
        have : y.1 ≠ x.1 := hnew _ (List.mem_map_of_mem hy) _ (by simp)
        simp [← hx, this]
      · simp [hx]
    rw [happend, BitVec.add_eq_or_of_and_eq_zero _ _ hapart, BitVec.getLsbD_or, ih hnodup hk, getLsbD_lane hw _ _ hk,
      List.any_append, List.any_cons, List.any_nil, Bool.or_false]

/-- The lane of a value put in its place. -/
theorem laneOf_ofLanes {w : Nat} (hw : 0 < w) {l : List (Nat × Nat)} (hl : (l.map (·.1)).Nodup) {x : Nat × Nat} (hx : x ∈ l)
    (hfits : w * (x.1 + 1) ≤ 512) : laneOf (ofLanes w l) w x.1 = x.2 % 2 ^ w := by
  apply Nat.eq_of_testBit_eq
  intro j
  rw [testBit_laneOf, Nat.testBit_mod_two_pow]
  by_cases hj : j < w
  · have hk : w * x.1 + j < 512 := by rw [mul_add] at hfits; omega
    have hdiv : (w * x.1 + j) / w = x.1 := by rw [Nat.mul_add_div hw, Nat.div_eq_of_lt hj, add_zero]
    have hmod : (w * x.1 + j) % w = j := by rw [Nat.mul_add_mod, Nat.mod_eq_of_lt hj]
    rw [getLsbD_ofLanes hw hl hk, hdiv, hmod]
    congr 1
    rw [Bool.eq_iff_iff, List.any_eq_true]
    constructor
    · rintro ⟨y, hy, h⟩
      rw [Bool.and_eq_true, beq_iff_eq] at h
      rw [← List.inj_on_of_nodup_map hl hy hx h.1]
      exact h.2
    · exact fun h => ⟨x, hx, by simp [h]⟩
  · simp [hj]

/-- The mask of named lanes. -/
theorem getLsbD_laneMask {w : Nat} (hw : 0 < w) {l : List Nat} (hl : l.Nodup) {k : Nat} (hk : k < 512) :
    (laneMask w l).getLsbD k = decide (k / w ∈ l) := by
  have hkeys : (l.map fun i => (i, 2 ^ w - 1)).map (·.1) = l := by simp [Function.comp_def]
  rw [laneMask, getLsbD_ofLanes hw (hkeys.symm ▸ hl) hk, List.any_map, Bool.eq_iff_iff, List.any_eq_true, decide_eq_true_iff]
  simp only [Function.comp_apply, Nat.testBit_two_pow_sub_one, Nat.mod_lt k hw, decide_true, Bool.and_true, beq_iff_eq]
  exact ⟨fun ⟨_, hi, h⟩ => h ▸ hi, fun h => ⟨_, h, rfl⟩⟩

/-- The widths of lanes (R180) divide a register into at most 64 lanes. -/
def LaneWidth (w : Nat) : Prop := w ∈ [8, 16, 32, 64]

theorem LaneWidth.pos {w : Nat} (h : LaneWidth w) : 0 < w := by
  simp only [LaneWidth, List.mem_cons, List.not_mem_nil, or_false] at h
  omega

theorem LaneWidth.lanes_le {w : Nat} (h : LaneWidth w) : 512 / w ≤ 64 := by
  simp only [LaneWidth, List.mem_cons, List.not_mem_nil, or_false] at h
  obtain rfl | rfl | rfl | rfl := h <;> decide

theorem LaneWidth.mul_lanes {w : Nat} (h : LaneWidth w) : w * (512 / w) = 512 := by
  simp only [LaneWidth, List.mem_cons, List.not_mem_nil, or_false] at h
  obtain rfl | rfl | rfl | rfl := h <;> decide

theorem LaneWidth.fits {w i : Nat} (h : LaneWidth w) (hi : i < 512 / w) : w * (i + 1) ≤ 512 :=
  h.mul_lanes ▸ Nat.mul_le_mul_left w hi

theorem LaneWidth.lane_lt {w k : Nat} (h : LaneWidth w) (hk : k < 512) : k / w < 512 / w :=
  Nat.div_lt_of_lt_mul (by rw [h.mul_lanes]; exact hk)

theorem laneWidth_fmtOf (alt : BitVec 1) : LaneWidth (fmtOf alt).width := by unfold LaneWidth; revert alt; decide

theorem laneWidth_width30 (alt : BitVec 1) : LaneWidth (width30 alt) := by unfold LaneWidth; revert alt; decide

theorem laneWidth_width40 (alt : BitVec 1) : LaneWidth (width40 alt) := by unfold LaneWidth; revert alt; decide

theorem laneWidth_width50 (alt : BitVec 1) : LaneWidth (width50 alt) := by unfold LaneWidth; revert alt; decide

/-- Table 4.7: rows 0x00 and 0x50 have lanes of the same widths. -/
theorem width50_eq (alt : BitVec 1) : width50 alt = (fmtOf alt).width := by revert alt; decide

/-! Masks (R181). -/

theorem State.getLsbD_maskReg (s : State) (vm : BitVec 3) {i : Nat} (hi : i < 64) :
    (s.maskReg vm.toNat).getLsbD i = Claims.included s vm i := by
  have hzero : vm.toNat = 0 ↔ vm = 0 := BitVec.toNat_inj (y := 0#3)
  unfold State.maskReg Claims.included
  by_cases h : vm = 0
  · rw [if_pos (hzero.2 h), beq_iff_eq.2 h, Bool.true_or, BitVec.getLsbD_allOnes, decide_eq_true hi]
  · have hlen : vm.toNat < s.cur.vm.toList.length := by simpa using vm.isLt
    rw [if_neg (hzero.not.2 h), dif_pos vm.isLt, beq_false_of_ne h, Bool.false_or, List.getD_eq_getElem _ _ hlen,
      Vector.getElem_toList]

theorem State.included_eq (s : State) (vm : BitVec 3) {n : Nat} (hn : n ≤ 64) :
    s.included vm n = (List.range n).filter (Claims.included s vm) :=
  List.filter_congr fun _ hi => s.getLsbD_maskReg vm ((List.mem_range.1 hi).trans_le hn)

/-! Operands and results (R180, R205). -/

/-- The value an operand has once it is ready, as the meanings read it. -/
def State.operandValue (s : State) (code : Nat) : Vec := match s.operand code with | .value v => v | _ => 0

/-! The streams of an instruction (R205, R206, R209). -/

theorem State.streamsReady_iff {s : State} {srcs : List Nat} {dst : Option Nat} : s.streamsReady srcs dst = true ↔
    (∀ c ∈ srcs, s.operand c ≠ .notReady) ∧ ∀ d ∈ dst, s.pushReady d = true := by
  unfold State.streamsReady
  cases dst <;> simp

theorem State.streamsReady_eraseDups (s : State) (srcs : List Nat) (dst : Option Nat) :
    s.streamsReady srcs.eraseDups dst = s.streamsReady srcs dst := by
  rw [Bool.eq_iff_iff, streamsReady_iff, streamsReady_iff]
  simp only [List.mem_eraseDups]

/-- R206: an operand is bound to a stream of the wrong kind. -/
def State.WrongStream (s : State) (srcs : List Nat) (dst : Option Nat) (rd : Bool) : Prop :=
  (∃ d ∈ dst, s.mayWrite d rd = false) ∨ ∃ c ∈ srcs, s.operand c = .illegal

section
variable {s : State} {srcs : List Nat} {dst : Option Nat} {rd : Bool}

/-- R206: an operand of the wrong kind is an illegal instruction. -/
theorem State.withOperands_wrong (h : s.WrongStream srcs dst rd) (f : (Nat → Vec) → State → State) :
    s.withOperands srcs dst rd f = s.raise 2 s.cur.pc := by
  unfold State.withOperands
  refine if_pos ?_
  rw [Bool.or_eq_true]
  refine h.imp (fun ⟨d, hd, hw⟩ => ?_) fun ⟨c, hc, hi⟩ => ?_
  · rw [Option.mem_def.1 hd]
    simp [hw]
  · simp only [List.any_map, List.any_eq_true, List.mem_eraseDups]
    exact ⟨c, hc, by simp [hi]⟩

section
variable (h : ¬ s.WrongStream srcs dst rd)
include h

/-- With no operand of the wrong kind, the first test of the meaning fails. -/
theorem State.withOperands_right (f : (Nat → Vec) → State → State) : s.withOperands srcs dst rd f =
    if !s.streamsReady srcs dst then { s with cur := { s.cur with status := .held srcs.eraseDups dst false } }
    else match (srcs.eraseDups.map s.operand).findSome? fun o => match o with | .poisoned a => some a | _ => none with
      | some a => ({ s with fresh := s.fresh + 1 } : State).raise 7 a
      | none => f s.operandValue (srcs.eraseDups.foldl State.popReg s) := by
  rw [← s.streamsReady_eraseDups]
  unfold State.withOperands
  refine if_neg ?_
  rw [Bool.or_eq_true]
  refine fun hbad => h (hbad.imp (fun hd => ?_) fun hs => ?_)
  · cases dst with
    | none => exact absurd hd (by simp)
    | some d => exact ⟨d, rfl, by simpa using hd⟩
  · simp only [List.any_map, List.any_eq_true, List.mem_eraseDups] at hs
    exact hs.imp fun c hc => ⟨hc.1, by simpa using hc.2⟩

theorem State.withOperands_held (hready : s.streamsReady srcs dst = false) (f : (Nat → Vec) → State → State) :
    s.withOperands srcs dst rd f = { s with cur := { s.cur with status := .held srcs.eraseDups dst false } } := by
  rw [withOperands_right h, hready]
  rfl

variable (hready : s.streamsReady srcs dst = true)
include hready

theorem State.withOperands_poisoned (f : (Nat → Vec) → State → State) {c : Nat} {a : Word} (hc : c ∈ srcs)
    (hpois : s.operand c = .poisoned a) : ∃ b, s.withOperands srcs dst rd f = ({ s with fresh := s.fresh + 1 } : State).raise 7 b := by
  rw [withOperands_right h, hready]
  generalize hfind : (srcs.eraseDups.map s.operand).findSome? _ = r
  cases r with
  | some b => exact ⟨b, rfl⟩
  | none =>
    rw [List.findSome?_eq_none_iff] at hfind
    have := hfind _ (List.mem_map_of_mem (List.mem_eraseDups.2 hc))
    rw [hpois] at this
    cases this

theorem State.withOperands_values (f : (Nat → Vec) → State → State) (hvals : ∀ c ∈ srcs, ∃ v, s.operand c = .value v) :
    s.withOperands srcs dst rd f = f s.operandValue (srcs.eraseDups.foldl State.popReg s) := by
  rw [withOperands_right h, hready]
  generalize hfind : (srcs.eraseDups.map s.operand).findSome? _ = r
  cases r with
  | none => rfl
  | some b =>
    obtain ⟨o, ho, hb⟩ := List.exists_of_findSome?_eq_some hfind
    obtain ⟨c, hc, rfl⟩ := List.mem_map.1 ho
    obtain ⟨v, hv⟩ := hvals c (List.mem_eraseDups.1 hc)
    rw [hv] at hb
    cases hb

end

end

/-! With no stream bound. -/

theorem State.operand_of_unbound {s : State} {r : BitVec 7} (h : s.streamOf r.toNat = none) : s.operand r.toNat = .value (vreg s r) := by
  have hr : r.toNat < s.cur.v.toList.length := by simpa using r.isLt
  rw [State.operand, h, vreg, List.getD_eq_getElem _ _ hr]
  simp only [dif_pos r.isLt, Vector.getElem_toList]

theorem State.operandValue_of_unbound {s : State} {r : BitVec 7} (h : s.streamOf r.toNat = none) :
    s.operandValue r.toNat = vreg s r := by
  rw [State.operandValue, s.operand_of_unbound h]

theorem State.popReg_of_unbound {s : State} {c : Nat} (h : s.streamOf c = none) : s.popReg c = s := by rw [State.popReg, h]

theorem State.foldl_popReg_of_unbound {s : State} {l : List Nat} (h : ∀ c ∈ l, s.streamOf c = none) : l.foldl State.popReg s = s := by
  induction l with
  | nil => rfl
  | cons c l ih =>
    rw [List.forall_mem_cons] at h
    rw [List.foldl_cons, s.popReg_of_unbound h.1, ih h.2]

theorem State.landV_of_unbound {s : State} {c : Nat} (h : s.streamOf c = none) (lat : Nat) (val mask : Vec) :
    s.landV lat c val mask = s.land lat (.v c val mask) := by rw [State.landV, h]

/-- R205: with no stream bound to its operands an instruction takes the registers' values and pops nothing. -/
theorem State.withOperands_of_unbound {s : State} {srcs : List Nat} {dst : Option Nat}
    (hs : ∀ c ∈ srcs, s.streamOf c = none) (hd : ∀ d ∈ dst, s.streamOf d = none) (rd : Bool) (f : (Nat → Vec) → State → State) :
    s.withOperands srcs dst rd f = f s.operandValue s := by
  have hvals : ∀ c ∈ srcs, ∃ v, s.operand c = .value v := fun c hc =>
    ⟨_, by rw [State.operand, hs c hc]⟩
  have hright : ¬ s.WrongStream srcs dst rd := by
    rintro (⟨d, hmem, hwrite⟩ | ⟨c, hc, hillegal⟩)
    · rw [State.mayWrite, hd d hmem] at hwrite
      cases hwrite
    · obtain ⟨v, hv⟩ := hvals c hc
      rw [hv] at hillegal
      cases hillegal
  have hready : s.streamsReady srcs dst = true := by
    refine streamsReady_iff.2 ⟨fun c hc => ?_, fun d hmem => by rw [State.pushReady, hd d hmem]⟩
    obtain ⟨v, hv⟩ := hvals c hc
    rw [hv]
    exact Operand.noConfusion
  rw [withOperands_values hright hready f hvals,
    foldl_popReg_of_unbound fun c hc => hs c (List.mem_eraseDups.1 hc)]

/-! Results (R180, R181, R187, R191). -/

theorem getLsbD_foldl_or {α : Type} {n : Nat} (g : α → BitVec n) (l : List α) (b : Nat) :
    (l.foldl (fun a x => a ||| g x) 0).getLsbD b = l.any fun x => (g x).getLsbD b := by
  have hfrom : ∀ a : BitVec n, (l.foldl (fun a x => a ||| g x) a).getLsbD b = (a.getLsbD b || l.any fun x => (g x).getLsbD b) := by
    induction l with
    | nil => simp
    | cons x l ih => intro a; rw [List.foldl_cons, ih, BitVec.getLsbD_or, List.any_cons, Bool.or_assoc]
  exact (hfrom 0).trans (by simp)

/-- R180, R139: what the lanes of a result are on their way as: each value in its lane, the mask their lanes, the flags of all. -/
theorem State.landLanes_eq {s : State} {c w : Nat} (hw : 0 < w) (hc : s.streamOf c = none) (lat : Nat) {l : List (Nat × Nat × FS)}
    (hl : (l.map (·.1)).Nodup) : ∃ val mask,
      s.landLanes lat c w l = (s.land lat (.v c val mask)).landFlags lat (l.foldl (fun a x => a ||| x.2.2) 0) ∧
      (∀ x ∈ l, w * (x.1 + 1) ≤ 512 → laneOf val w x.1 = x.2.1 % 2 ^ w) ∧
      ∀ k, k < 512 → mask.getLsbD k = decide (k / w ∈ l.map (·.1)) := by
  have hpairs : ((l.map fun x => (x.1, x.2.1)).map (·.1)).Nodup := by rwa [List.map_map]
  unfold State.landLanes
  rw [State.landV_of_unbound hc]
  exact ⟨_, _, rfl, fun x hx hfits => laneOf_ofLanes hw (x := (x.1, x.2.1)) hpairs (List.mem_map_of_mem hx) hfits,
    fun k hk => getLsbD_laneMask hw hl hk⟩

/-- The lanes of a result, as many as the register has and as a mask includes. -/
theorem laneResult_landLanes {s : State} {w : Nat} (hw : LaneWidth w) {vd : BitVec 7} (hvd : s.streamOf vd.toNat = none) (lat : Nat)
    {inc inc' : Nat → Bool} (hinc : ∀ i, i < 512 / w → inc' i = inc i) (f : Nat → Nat × FS) :
    LaneResult s (s.landLanes lat vd.toNat w (((List.range (512 / w)).filter inc).map fun i => (i, f i))) lat w vd inc' f := by
  have hmem : ∀ i, i ∈ (List.range (512 / w)).filter inc ↔ i < 512 / w ∧ inc i = true := by simp
  have hkeys : (((List.range (512 / w)).filter inc).map fun i => (i, f i)).map (·.1) = (List.range (512 / w)).filter inc := by
    simp [Function.comp_def]
  obtain ⟨val, mask, hlands, hvalue, hmask⟩ := s.landLanes_eq hw.pos hvd lat (hkeys.symm ▸ List.nodup_range.filter _)
  rw [hkeys] at hmask
  refine ⟨val, mask, _, hlands, fun i hi => ?covers, fun i hi hin => ?value, fun b _ => ?flags⟩
  case covers =>
    have hlane := hw.lane_lt hi
    rw [hmask i hi, hinc _ hlane, Bool.eq_iff_iff, decide_eq_true_iff, hmem]
    exact and_iff_right hlane
  case value =>
    exact hvalue (i, f i) (List.mem_map_of_mem ((hmem i).2 ⟨hi, hinc i hi ▸ hin⟩)) (hw.fits hi)
  case flags =>
    rw [getLsbD_foldl_or, List.any_map, Bool.eq_iff_iff, List.any_eq_true, List.any_eq_true]
    refine exists_congr fun i => ?_
    rw [hmem, List.mem_range, Function.comp_apply, Bool.and_eq_true, and_assoc]
    exact and_congr_right fun hi => by rw [hinc i hi]

/-- Only the lanes that the register has count. -/
theorem exists_laneResult_congr {o : Res} {s : State} {lat w : Nat} {vd : BitVec 7} {inc : Nat → Bool} {f g : Nat → Nat × FS}
    (h : ∃ t, o = .next t ∧ LaneResult s t lat w vd inc f) (hfg : ∀ i, i < 512 / w → f i = g i) :
    ∃ t, o = .next t ∧ LaneResult s t lat w vd inc g := by
  obtain ⟨t, ho, val, mask, fs, ht, hcovers, hvalue, hflags⟩ := h
  refine ⟨t, ho, val, mask, fs, ht, hcovers, fun i hi hin => hfg i hi ▸ hvalue i hi hin, fun b hb => (hflags b hb).trans ?_⟩
  rw [Bool.eq_iff_iff, List.any_eq_true, List.any_eq_true]
  exact exists_congr fun i => and_congr_right fun hi => by rw [hfg i (List.mem_range.1 hi)]

section
variable {s : State} {w : Nat} (hw : LaneWidth w) {vd va vb : BitVec 7}
include hw

/-- R180, R184: a lane operation of two vector sources. -/
theorem vecOp_laneResult (hun : unbound s [va, vb, vd]) (lat : Nat) (rd : Bool) (vm : BitVec 3) (f : Nat → Nat → Nat → Nat × FS) :
    ∃ t, vecOp w lat rd vm vd va vb f s = .next t ∧ LaneResult s t lat w vd (Claims.included s vm) fun i =>
      f (laneOf (vreg s va) w i) (laneOf (vreg s vb) w i) (laneOf (vreg s vd) w i) := by
  simp only [unbound, List.forall_mem_cons] at hun
  obtain ⟨hva, hvb, hvd, -⟩ := hun
  unfold vecOp
  rw [State.withOperands_of_unbound (by simp [hva, hvb]) (by simp [hvd]), s.operand_of_unbound hvd, s.included_eq vm hw.lanes_le,
    State.operandValue_of_unbound hva, State.operandValue_of_unbound hvb]
  simp only [laneOf_eq_lane]
  exact ⟨_, rfl, laneResult_landLanes hw hvd lat (fun _ _ => rfl) _⟩

theorem vecOp1_laneResult (hva : s.streamOf va.toNat = none) (hvd : s.streamOf vd.toNat = none) (lat : Nat) (vm : BitVec 3)
    (f : Nat → Nat × FS) : ∃ t, vecOp1 w lat vm vd va f s = .next t ∧
      LaneResult s t lat w vd (Claims.included s vm) fun i => f (laneOf (vreg s va) w i) := by
  unfold vecOp1
  rw [State.withOperands_of_unbound (by simp [hva]) (by simp [hvd]), s.included_eq vm hw.lanes_le, State.operandValue_of_unbound hva]
  simp only [laneOf_eq_lane]
  exact ⟨_, rfl, laneResult_landLanes hw hvd lat (fun _ _ => rfl) _⟩

end

end Sys2Proof.Machine
end


section
/-! O19: the order of exact values, classes and sign operations (R185, R188), and what selects and copies lanes (R189, R198). -/

namespace Sys2Proof.Machine

open Sys2Proof.Claims

/-! The order of exact values. -/

theorem FVal.lt_irrefl (x : FVal) : x.lt x = false := by
  cases x with
  | nan => rfl
  | inf n => cases n <;> rfl
  | fin n m e => simp [FVal.lt]

theorem FVal.lt_asymm {x y : FVal} (h : x.lt y = true) : y.lt x = false := by
  cases x with
  | nan => cases h
  | inf n => cases y with
    | nan => rfl
    | inf k => cases n <;> cases k <;> simp_all [FVal.lt]
    | fin k l f => simp_all [FVal.lt]
  | fin n m e => cases y with
    | nan => rfl
    | inf k => simp_all [FVal.lt]
    | fin k l f =>
      simp only [FVal.lt, decide_eq_true_eq, decide_eq_false_iff_not, not_lt] at h ⊢
      rw [min_comm f e]
      exact h.le

theorem scaled_zero (n : Bool) (e u : Int) : scaled n 0 e u = 0 := by cases n <;> simp [scaled]

/-- Zeros are equal. -/
theorem FVal.lt_of_isZero {x y : FVal} (hx : x.isZero = true) (hy : y.isZero = true) : x.lt y = false := by
  cases x with
  | nan => cases hx
  | inf n => cases hx
  | fin n m e => cases y with
    | nan => rfl
    | inf k => cases hy
    | fin k l f =>
      rw [beq_iff_eq.1 hx, beq_iff_eq.1 hy, FVal.lt, scaled_zero, scaled_zero]
      rfl

theorem FVal.not_isNan_of_isZero {x : FVal} (h : x.isZero = true) : x.isNan = false := by
  cases x with
  | nan => cases h
  | inf n => rfl
  | fin n m e => rfl

theorem Fmt.le_refl_of_not_nan {f : Fmt} {a : Nat} (ha : (f.value a).isNan = false) : (f.value a).le (f.value a) = true := by
  rw [FVal.le, ha, FVal.lt_irrefl]
  rfl

section
variable {f : Fmt} {a b : Nat} (ha : (f.value a).isNan = false) (hb : (f.value b).isNan = false)
include ha hb

theorem Fmt.le_of_below (h : f.below a b = true) : (f.value a).le (f.value b) = true := by
  have hlt : (f.value b).lt (f.value a) = false := by
    rw [Fmt.below, Bool.or_eq_true] at h
    rcases h with h | h
    · exact FVal.lt_asymm h
    · simp only [FVal.eq, Bool.and_eq_true, Bool.not_eq_true'] at h
      exact h.1.1.2
  rw [FVal.le, ha, hb, hlt]
  rfl

theorem Fmt.le_of_not_below (h : f.below b a = false) : (f.value a).le (f.value b) = true := by
  rw [Fmt.below, Bool.or_eq_false_iff] at h
  rw [FVal.le, ha, hb, h.1]
  rfl

/-- R185: the smaller of two operands. -/
theorem Fmt.min_spec : (f.min a b = a ∨ f.min a b = b) ∧ (f.value (f.min a b)).le (f.value a) = true ∧
    (f.value (f.min a b)).le (f.value b) = true := by
  rw [Fmt.min, ha, hb, Bool.or_self, if_neg Bool.false_ne_true]
  cases hbelow : f.below b a with
  | true => exact ⟨.inr rfl, le_of_below hb ha hbelow, le_refl_of_not_nan hb⟩
  | false => exact ⟨.inl rfl, le_refl_of_not_nan ha, le_of_not_below ha hb hbelow⟩

/-- R185: the larger of two operands. -/
theorem Fmt.max_spec : (f.max a b = a ∨ f.max a b = b) ∧ (f.value a).le (f.value (f.max a b)) = true ∧
    (f.value b).le (f.value (f.max a b)) = true := by
  rw [Fmt.max, ha, hb, Bool.or_self, if_neg Bool.false_ne_true]
  cases hbelow : f.below a b with
  | true => exact ⟨.inr rfl, le_of_below ha hb hbelow, le_refl_of_not_nan hb⟩
  | false => exact ⟨.inl rfl, le_refl_of_not_nan ha, le_of_not_below hb ha hbelow⟩

end

theorem Fmt.min_of_nan {f : Fmt} {a b : Nat} (h : ((f.value a).isNan || (f.value b).isNan) = true) : f.min a b = f.nanCode := if_pos h

theorem Fmt.max_of_nan {f : Fmt} {a b : Nat} (h : ((f.value a).isNan || (f.value b).isNan) = true) : f.max a b = f.nanCode := if_pos h

section
variable {f : Fmt} {a b : Nat} (ha : (f.value a).isZero = true) (hb : (f.value b).isZero = true)
include ha hb

/-- R185: of two zeros the negative one is the smaller. -/
theorem Fmt.below_of_zeros : f.below a b = ((f.value a).isNeg && !(f.value b).isNeg) := by
  rw [Fmt.below, FVal.eq, FVal.lt_of_isZero ha hb, FVal.lt_of_isZero hb ha, FVal.not_isNan_of_isZero ha, FVal.not_isNan_of_isZero hb]
  rfl

theorem Fmt.isNeg_min_of_zeros : (f.value (f.min a b)).isNeg = ((f.value a).isNeg || (f.value b).isNeg) := by
  rw [Fmt.min, FVal.not_isNan_of_isZero ha, FVal.not_isNan_of_isZero hb, below_of_zeros hb ha]
  cases hna : (f.value a).isNeg <;> cases hnb : (f.value b).isNeg <;> simp [hna, hnb]

theorem Fmt.isNeg_max_of_zeros : (f.value (f.max a b)).isNeg = ((f.value a).isNeg && (f.value b).isNeg) := by
  rw [Fmt.max, FVal.not_isNan_of_isZero ha, FVal.not_isNan_of_isZero hb, below_of_zeros ha hb]
  cases hna : (f.value a).isNeg <;> cases hnb : (f.value b).isNeg <;> simp [hna, hnb]

end

/-! Classes and sign operations (R185, R188). -/

/-- R188: that c is the one class bit of a value. -/
def FVal.ClassBit (x : FVal) (c : Nat) : Prop :=
  (∃ k, k ≤ 8 ∧ c = 2 ^ k) ∧ (c = 256 ↔ x.isNan = true) ∧ (c = 8 ∨ c = 16 ↔ x.isZero = true) ∧
    (c = 1 ∨ c = 128 ↔ x.isInf = true) ∧ (c ≤ 8 ↔ x.isNeg = true)

theorem Fmt.classBit_classOf (f : Fmt) (a : Nat) : (f.value a).ClassBit (f.classOf a) := by
  unfold Fmt.classOf
  generalize (a / 2 ^ f.mbits % 2 ^ f.ebits == 0) = sub
  cases f.value a with
  | nan => exact ⟨⟨8, le_rfl, rfl⟩, by simp [FVal.isNan, FVal.isZero, FVal.isInf, FVal.isNeg]⟩
  | inf n => cases n with
    | true => exact ⟨⟨0, Nat.zero_le _, rfl⟩, by simp [FVal.isNan, FVal.isZero, FVal.isInf, FVal.isNeg]⟩
    | false => exact ⟨⟨7, by decide, rfl⟩, by simp [FVal.isNan, FVal.isZero, FVal.isInf, FVal.isNeg]⟩
  | fin n m e =>
    by_cases hm : m = 0
    · subst hm
      cases n with
      | true => exact ⟨⟨3, by decide, rfl⟩, by simp [FVal.isNan, FVal.isZero, FVal.isInf, FVal.isNeg]⟩
      | false => exact ⟨⟨4, by decide, rfl⟩, by simp [FVal.isNan, FVal.isZero, FVal.isInf, FVal.isNeg]⟩
    · have hzero : (FVal.fin n m e).isZero = false := beq_false_of_ne hm
      unfold FVal.ClassBit
      rw [hzero]
      simp only [hm, if_false]
      cases n <;> cases sub
      · exact ⟨⟨6, by decide, rfl⟩, by simp [FVal.isNan, FVal.isInf, FVal.isNeg]⟩
      · exact ⟨⟨5, by decide, rfl⟩, by simp [FVal.isNan, FVal.isInf, FVal.isNeg]⟩
      · exact ⟨⟨1, by decide, rfl⟩, by simp [FVal.isNan, FVal.isInf, FVal.isNeg]⟩
      · exact ⟨⟨2, by decide, rfl⟩, by simp [FVal.isNan, FVal.isInf, FVal.isNeg]⟩

theorem Fmt.width_sub_one (f : Fmt) : f.width - 1 = f.ebits + f.mbits := by rw [Fmt.width]; omega

theorem Fmt.width_eq (f : Fmt) : f.width = f.ebits + f.mbits + 1 := by rw [Fmt.width]; omega

/-- Flipping the top bit adds it, wrapping. -/
theorem xor_top_bit {a k : Nat} (h : a < 2 ^ (k + 1)) : a ^^^ 2 ^ k = (a + 2 ^ k) % 2 ^ (k + 1) := by
  apply Nat.eq_of_testBit_eq
  intro j
  rw [Nat.testBit_xor, Nat.testBit_mod_two_pow, Nat.add_comm a]
  rcases lt_trichotomy j k with hj | rfl | hj
  · rw [Nat.testBit_two_pow_add_gt hj, Nat.testBit_two_pow_of_ne hj.ne', Bool.xor_false, decide_eq_true (by omega), Bool.true_and]
  · rw [Nat.testBit_two_pow_add_eq, Nat.testBit_two_pow_self, Bool.xor_true, decide_eq_true (by omega), Bool.true_and]
  · rw [Nat.testBit_lt_two_pow (h.trans_le (Nat.pow_le_pow_right two_pos hj)), Nat.testBit_two_pow_of_ne hj.ne,
      decide_eq_false (by omega), Bool.false_and, Bool.false_xor]

theorem Fmt.abs_eq (f : Fmt) (a : Nat) : f.abs a = if (f.value a).isNan then f.nanCode else a % 2 ^ (f.width - 1) := by
  rw [Fmt.abs, f.width_sub_one]

theorem Fmt.negate_eq (f : Fmt) {a : Nat} (h : a < 2 ^ f.width) :
    f.negate a = if (f.value a).isNan then f.nanCode else (a + 2 ^ (f.width - 1)) % 2 ^ f.width := by
  rw [f.width_eq] at h
  rw [Fmt.negate, f.width_sub_one, f.width_eq, xor_top_bit h]

theorem Fmt.sign_eq (f : Fmt) (a : Nat) {b : Nat} (h : b < 2 ^ f.width) : f.sign a b = if (f.value a).isNan then f.nanCode
    else a % 2 ^ (f.width - 1) + b / 2 ^ (f.width - 1) * 2 ^ (f.width - 1) := by
  rw [f.width_eq, pow_succ] at h
  have hbit : b / 2 ^ (f.ebits + f.mbits) < 2 := Nat.div_lt_of_lt_mul h
  have hsign : f.signBit (decide (b / 2 ^ (f.ebits + f.mbits) % 2 = 1)) = b / 2 ^ (f.ebits + f.mbits) * 2 ^ (f.ebits + f.mbits) := by
    rw [Nat.mod_eq_of_lt hbit, Fmt.signBit]
    interval_cases b / 2 ^ (f.ebits + f.mbits) <;> simp
  rw [Fmt.sign, f.width_sub_one, hsign]

/-! Selects and copies (R189, R198). -/

section
variable {s : State} {vd va vb : BitVec 7} (hvd : s.streamOf vd.toNat = none)
include hvd

/-- R189: the mask selects, and every lane is written. -/
theorem vsel_laneResult (hva : s.streamOf va.toNat = none) (hvb : s.streamOf vb.toNat = none) (alt : BitVec 1) (vm : BitVec 3) :
    ∃ t, execVsel alt vm vd va vb s = .next t ∧
      LaneResult s t 4 (fmtOf alt).width vd (fun i => decide (i < 512 / (fmtOf alt).width)) fun i =>
        quiet (if Claims.included s vm i then laneOf (vreg s va) (fmtOf alt).width i else laneOf (vreg s vb) (fmtOf alt).width i) := by
  have hw := laneWidth_fmtOf alt
  unfold execVsel
  dsimp only
  rw [State.withOperands_of_unbound (by simp [hva, hvb]) (by simp [hvd]), State.operandValue_of_unbound hva,
    State.operandValue_of_unbound hvb]
  refine exists_laneResult_congr ⟨_, rfl, (List.filter_true (List.range _)) ▸ laneResult_landLanes hw hvd 4 (fun i hi => decide_eq_true hi) _⟩
    fun i hi => ?_
  rw [s.getLsbD_maskReg vm (hi.trans_le hw.lanes_le), laneOf_eq_lane, laneOf_eq_lane]
  split <;> rfl

/-- R198: the low bits of a scalar in every included lane. -/
theorem vbcast_laneResult (alt : BitVec 1) (vm : BitVec 3) : ∃ t, execVbcast alt vm vd va s = .next t ∧
    LaneResult s t 4 (fmtOf alt).width vd (Claims.included s vm) fun _ => quiet ((s.cur.reg va.toNat).toNat % 2 ^ (fmtOf alt).width) := by
  have hw := laneWidth_fmtOf alt
  unfold execVbcast
  dsimp only
  rw [State.withOperands_of_unbound (by simp) (by simp [hvd]), s.included_eq vm hw.lanes_le]
  exact ⟨_, rfl, laneResult_landLanes hw hvd 4 (fun _ _ => rfl) _⟩

/-- R198: the low bits of a scalar in one lane. -/
theorem vins_laneResult (alt : BitVec 1) (hlane : vb.toNat < 512 / (fmtOf alt).width) : ∃ t, execVins alt vd va vb s = .next t ∧
    LaneResult s t 4 (fmtOf alt).width vd (fun i => i == vb.toNat) fun _ => quiet ((s.cur.reg va.toNat).toNat % 2 ^ (fmtOf alt).width) := by
  have hw := laneWidth_fmtOf alt
  have hone : (List.range (512 / (fmtOf alt).width)).filter (fun i => i == vb.toNat) = [vb.toNat] := by
    rw [List.filter_beq, List.count_range]
    simp [hlane]
  unfold execVins
  dsimp only
  rw [State.withOperands_of_unbound (by simp) (by simp [hvd])]
  have hlands := laneResult_landLanes hw hvd 4 (inc := fun i => i == vb.toNat) (fun _ _ => rfl) fun _ =>
    quiet ((s.cur.reg va.toNat).toNat % 2 ^ (fmtOf alt).width)
  rw [hone] at hlands
  exact ⟨_, rfl, hlands⟩

end

/-- R198: one lane to a scalar. -/
theorem execVext_of_unbound {s : State} {va : BitVec 7} (hva : s.streamOf va.toNat = none) (alt : BitVec 1) (vd vb : BitVec 7) :
    execVext alt vd va vb s =
      .next (s.landA 6 (BitVec.ofNat 5 vd.toNat) (BitVec.ofNat 64 (laneOf (vreg s va) (fmtOf alt).width vb.toNat))) := by
  unfold execVext
  dsimp only
  rw [State.withOperands_of_unbound (by simp [hva]) (by simp), State.operandValue_of_unbound hva, laneOf_eq_lane, BitVec.ofNat_toNat]

end Sys2Proof.Machine
end

section
/-! O18, O19 settled. -/

namespace Sys2Proof.Proofs

open Sys2Proof.Machine Sys2Proof.Claims

/-- Settles O18: every operation rounds the exact value of its lane once. -/
theorem vectorFloatArithmetic : Obligations.VectorFloatArithmetic := by
  unfold Obligations.VectorFloatArithmetic
  intro alt vm vd va vb s hun f w a b d res
  have two lat rd := vecOp_laneResult (laneWidth_fmtOf alt) hun lat rd vm
  have one lat := vecOp1_laneResult (laneWidth_fmtOf alt) (hun va (by simp)) (hun vd (by simp)) lat vm
  exact ⟨two 8 false fun x y _ => f.add x y, two 8 false fun x y _ => f.sub x y, two 8 false fun x y _ => f.mul x y,
    two 8 true (f.fma false false), two 8 true (f.fma false true), two 8 true (f.fma true false), two 8 true (f.fma true true),
    two _ false fun x y _ => f.div x y, one _ f.sqrt⟩

/-- Settles O19: each operation by what it does to one lane. -/
theorem vectorFloatSelection : Obligations.VectorFloatSelection := by
  unfold Obligations.VectorFloatSelection
  intro alt vm vd va vb s hun f w a b nan res
  have hva : s.streamOf va.toNat = none := hun va (by simp)
  have hvb : s.streamOf vb.toNat = none := hun vb (by simp)
  have hvd : s.streamOf vd.toNat = none := hun vd (by simp)
  have two := vecOp_laneResult (laneWidth_fmtOf alt) hun 4 false vm
  have one lat := vecOp1_laneResult (laneWidth_fmtOf alt) hva hvd lat vm
  refine ⟨⟨fun i => f.min (a i) (b i), fun i => f.max (a i) (b i), fun i => f.classOf (a i), two fun x y _ => quiet (f.min x y),
    two fun x y _ => quiet (f.max x y), one 8 fun x => quiet (f.classOf x), fun i _ => ⟨?nans, ?numbers, f.classBit_classOf _⟩⟩,
    ?abs, ?neg, ?sign, vsel_laneResult hvd hva hvb alt vm, one 4 quiet, fun _ => vbcast_laneResult hvd alt vm,
    vins_laneResult hvd alt, fun _ _ => execVext_of_unbound hva alt vd vb⟩
  case nans => exact fun h => ⟨Fmt.min_of_nan h, Fmt.max_of_nan h⟩
  case numbers =>
    intro h
    obtain ⟨ha, hb⟩ := Bool.or_eq_false_iff.1 h
    obtain ⟨hmin, hmina, hminb⟩ := Fmt.min_spec (f := f) ha hb
    obtain ⟨hmax, hmaxa, hmaxb⟩ := Fmt.max_spec (f := f) ha hb
    exact ⟨hmin, hmax, hmina, hminb, hmaxa, hmaxb, fun ha hb => ⟨Fmt.isNeg_min_of_zeros ha hb, Fmt.isNeg_max_of_zeros ha hb⟩⟩
  case abs => exact exists_laneResult_congr (one 4 fun x => quiet (f.abs x)) fun i _ => congrArg quiet (f.abs_eq _)
  case neg => exact exists_laneResult_congr (one 4 fun x => quiet (f.negate x)) fun i _ => congrArg quiet (f.negate_eq (laneOf_lt ..))
  case sign => exact exists_laneResult_congr (two fun x y _ => quiet (f.sign x y)) fun i _ => congrArg quiet (f.sign_eq _ (laneOf_lt ..))

end Sys2Proof.Proofs
end

section
/-! O20: exact sums of finite values, and that rounding does not depend on how a value is written (R134, R136, R186). -/

namespace Sys2Proof.Machine

open Sys2Proof.Claims

/-! Scaling. -/

theorem scaled_self (n : Bool) (m : Nat) (e : Int) : scaled n m e e = if n then -(m : Int) else m := by simp [scaled]

/-- In smaller units there are more of them. -/
theorem scaled_eq_mul (n : Bool) (m : Nat) {e v u : Int} (hv : v ≤ e) (hu : u ≤ v) :
    scaled n m e u = scaled n m e v * 2 ^ (v - u).toNat := by
  have hexp : (e - u).toNat = (e - v).toNat + (v - u).toNat := by omega
  cases n <;> simp [scaled, hexp, pow_add, mul_assoc]

/-- An integer as a sign and a magnitude. -/
theorem scaled_natAbs (t u : Int) : scaled (decide (t < 0)) t.natAbs u u = t := by
  rw [scaled_self]
  split
  · next h => have := of_decide_eq_true h; omega
  · next h => have := of_decide_eq_false (Bool.eq_false_iff.2 h); omega

/-! Exact sums of two (R134). -/

section
variable {n k : Bool} {m l : Nat} {e f : Int}

theorem FVal.sum_fin_fin (hm : m ≠ 0) (hl : l ≠ 0) (he : e ≤ 16384) :
    (FVal.sum [.fin n m e, .fin k l f]).1 =
      if scaled n m e (min e f) + scaled k l f (min e f) = 0 then .fin (n && k) 0 0
      else .fin (decide (scaled n m e (min e f) + scaled k l f (min e f) < 0)) (scaled n m e (min e f) + scaled k l f (min e f)).natAbs (min e f) := by
  have hmin : min 16384 e = e := min_eq_right he
  simp [FVal.sum, FVal.isNan, FVal.isNeg, hm, hl, hmin]

theorem FVal.sum_zero_fin (hl : l ≠ 0) (hf : f ≤ 16384) : (FVal.sum [.fin n 0 0, .fin k l f]).1 = .fin k l f := by
  have hmin : min 16384 f = f := min_eq_right hf
  have := Nat.pos_of_ne_zero hl
  cases k <;> simp [FVal.sum, FVal.isNan, hl, hmin, scaled, this]

end

/-! Exponents of values and products. -/

theorem Fmt.exp_le_of_value {f : Fmt} {c : Nat} {n : Bool} {m : Nat} {e : Int} (h : f.value c = .fin n m e) : e ≤ 2 ^ f.ebits := by
  have hlt : c / 2 ^ f.mbits % 2 ^ f.ebits < 2 ^ f.ebits := Nat.mod_lt _ (by positivity)
  have hone : 1 ≤ 2 ^ f.ebits := Nat.one_le_two_pow
  unfold Fmt.value at h
  dsimp only at h
  split at h
  · split at h <;> cases h
  · split at h
    · cases h
    · split at h <;> cases h <;> push_cast [← Int.ofNat_le] at * <;> omega

theorem FVal.mul_eq_fin {x y : FVal} {n : Bool} {m : Nat} {e : Int} (h : x.mul y = (.fin n m e, 0)) :
    ∃ nx mx ex ny my ey, x = .fin nx mx ex ∧ y = .fin ny my ey ∧ e = ex + ey := by
  cases x with
  | nan => cases y <;> cases h
  | inf j => cases y <;> simp [FVal.mul, FVal.isNan, FVal.isInf] at h <;> split at h <;> cases h
  | fin nx mx ex => cases y with
    | nan => cases h
    | inf j => simp [FVal.mul, FVal.isNan, FVal.isInf] at h; split at h <;> cases h
    | fin ny my ey =>
      cases h
      exact ⟨_, _, _, _, _, _, rfl, rfl, rfl⟩

theorem Fmt.exp_le_of_mul {f : Fmt} {a b : Nat} {n : Bool} {m : Nat} {e : Int} (h : (f.value a).mul (f.value b) = (.fin n m e, 0)) :
    e ≤ 2 * 2 ^ f.ebits := by
  obtain ⟨nx, mx, ex, ny, my, ey, hx, hy, rfl⟩ := FVal.mul_eq_fin h
  have := exp_le_of_value hx
  have := exp_le_of_value hy
  omega

/-! Rounding. -/

/-- R136: the pick depends on the value only. -/
theorem pickUnits_shift (m : Nat) (e t : Int) (n : Bool) (k : Nat) :
    pickUnits (m * 2 ^ k) (e - k) t n .rn = pickUnits m e t n .rn := by
  have hk : 0 < 2 ^ k := Nat.two_pow_pos k
  unfold pickUnits
  by_cases hle : t ≤ e - k
  · rw [if_pos hle, if_pos (by omega)]
    have : (e - t).toNat = k + (e - k - t).toNat := by omega
    rw [this, pow_add, mul_assoc]
  · rw [if_neg hle]
    by_cases hle' : t ≤ e
    · have hsplit : k = (t - (e - k)).toNat + (e - t).toNat := by omega
      have hwhole : m * 2 ^ k = 2 ^ (t - (e - k)).toNat * (m * 2 ^ (e - t).toNat) := by
        conv_lhs => rw [hsplit, pow_add]
        ring
      rw [if_pos hle', hwhole]
      simp only [Nat.mul_mod_right, if_true, Nat.mul_div_right _ (Nat.two_pow_pos _)]
    · have hsplit : (t - (e - k)).toNat = k + (t - e).toNat := by omega
      have hdiv : m * 2 ^ k / 2 ^ (k + (t - e).toNat) = m / 2 ^ (t - e).toNat := by
        rw [pow_add, mul_comm m, Nat.mul_div_mul_left _ _ hk]
      have hmod : m * 2 ^ k % 2 ^ (k + (t - e).toNat) = 2 ^ k * (m % 2 ^ (t - e).toNat) := by
        rw [pow_add, mul_comm m, Nat.mul_mod_mul_left]
      rw [if_neg hle', hsplit]
      dsimp only
      rw [hdiv, hmod]
      have hzero : 2 ^ k * (m % 2 ^ (t - e).toNat) = 0 ↔ m % 2 ^ (t - e).toNat = 0 := by simp
      have hlt : 2 ^ (k + (t - e).toNat) < 2 * (2 ^ k * (m % 2 ^ (t - e).toNat)) ↔ 2 ^ (t - e).toNat < 2 * (m % 2 ^ (t - e).toNat) := by
        rw [pow_add, mul_left_comm, Nat.mul_lt_mul_left hk]
      have heq : (2 * (2 ^ k * (m % 2 ^ (t - e).toNat)) == 2 ^ (k + (t - e).toNat)) = (2 * (m % 2 ^ (t - e).toNat) == 2 ^ (t - e).toNat) := by
        rw [pow_add, mul_left_comm, Bool.eq_iff_iff, beq_iff_eq, beq_iff_eq, Nat.mul_right_inj hk.ne']
      simp only [hzero, hlt, heq]

theorem expOf_shift {m : Nat} (hm : m ≠ 0) (e : Int) (k : Nat) : expOf (m * 2 ^ k) (e - k) = expOf m e := by
  have : (m * 2 ^ k).log2 = m.log2 + k := by
    induction k with
    | zero => simp
    | succ k ih => rw [pow_succ, ← mul_assoc, mul_comm _ 2, Nat.log2_two_mul (by positivity), ih, add_assoc]
  rw [expOf, expOf, this]
  push_cast
  omega

theorem Fmt.round_shift (f : Fmt) (n : Bool) {m : Nat} (hm : m ≠ 0) (e : Int) (k : Nat) :
    f.round .rn (.fin n (m * 2 ^ k) (e - k)) = f.round .rn (.fin n m e) := by
  have hm' : m * 2 ^ k ≠ 0 := by positivity
  simp only [Fmt.round, hm, hm', if_false, expOf_shift hm, pickUnits_shift]

/-! The products of `hdot` (R186). -/

/-- R186: where every term is a finite value other than zero, and so is their sum, `hdot` rounds that sum once. -/
theorem dot2_eq_round {f : Fmt} (hf : f.ebits ≤ 8) {acc a0 b0 a1 b1 : Nat} {n0 n1 n2 : Bool} {m0 m1 m2 : Nat} {e0 e1 e2 : Int}
    (h0 : (f.value a0).mul (f.value b0) = (.fin n0 m0 e0, 0)) (h1 : (f.value a1).mul (f.value b1) = (.fin n1 m1 e1, 0))
    (h2 : f32.value acc = .fin n2 m2 e2) (hm0 : m0 ≠ 0) (hm1 : m1 ≠ 0) (hm2 : m2 ≠ 0) {u x : Int} (hu : u = min (min e0 e1) e2)
    (hx : x = scaled n0 m0 e0 u + scaled n1 m1 e1 u + scaled n2 m2 e2 u) (hne : x ≠ 0) :
    (dot2 f acc a0 b0 a1 b1).1 = (f32.round .rn (.fin (decide (x < 0)) x.natAbs u)).1 := by
  have hbits : 2 ^ f.ebits ≤ 2 ^ 8 := Nat.pow_le_pow_right two_pos hf
  have he0 := Fmt.exp_le_of_mul h0
  have he2 : e2 ≤ 2 ^ 8 := Fmt.exp_le_of_value h2
  generalize ht : scaled n0 m0 e0 (min e0 e1) + scaled n1 m1 e1 (min e0 e1) = t
  have hsum : (FVal.sum [.fin n0 m0 e0, .fin n1 m1 e1]).1 =
      if t = 0 then .fin (n0 && n1) 0 0 else .fin (decide (t < 0)) t.natAbs (min e0 e1) := by
    rw [FVal.sum_fin_fin hm0 hm1 (by norm_cast at *; omega), ht]
  have hparts : x = t * 2 ^ (min e0 e1 - u).toNat + scaled n2 m2 e2 u := by
    rw [hx, scaled_eq_mul n0 m0 (v := min e0 e1) (by omega) (by omega), scaled_eq_mul n1 m1 (v := min e0 e1) (by omega) (by omega),
      ← add_mul, ht]
  have hdot : (dot2 f acc a0 b0 a1 b1).1 = (f32.round .rn (FVal.sum [(FVal.sum [.fin n0 m0 e0, .fin n1 m1 e1]).1, .fin n2 m2 e2]).1).1 := by
    rw [dot2, h0, h1, h2]
    rfl
  rw [hdot, hsum]
  by_cases hzero : t = 0
  · rw [if_pos hzero, FVal.sum_zero_fin hm2 (by omega)]
    have hu' : u = e2 - ((e2 - u).toNat : Nat) := by omega
    have hscaled : x = (if n2 then -(m2 : Int) else m2) * 2 ^ (e2 - u).toNat := by
      rw [hparts, hzero, zero_mul, zero_add, scaled_eq_mul n2 m2 le_rfl (by omega), scaled_self]
    have hpos : 0 < (m2 : Int) * 2 ^ (e2 - u).toNat := by positivity
    have hsign : decide (x < 0) = n2 := by
      rw [hscaled]
      cases n2 <;> simp [hpos, hpos.le]
    have habs : x.natAbs = m2 * 2 ^ (e2 - u).toNat := by
      rw [hscaled, Int.natAbs_mul, Int.natAbs_pow]
      cases n2 <;> simp
    rw [hsign, habs, ← f32.round_shift n2 hm2 e2 (e2 - u).toNat, ← hu']
  · have hmin : min (min e0 e1) e2 = u := hu.symm
    have hshift : scaled (decide (t < 0)) t.natAbs (min e0 e1) u = t * 2 ^ (min e0 e1 - u).toNat := by
      rw [scaled_eq_mul _ _ le_rfl (by omega), scaled_natAbs]
    rw [if_neg hzero, FVal.sum_fin_fin (Int.natAbs_ne_zero.2 hzero) hm2 (by norm_cast at *; omega), hmin, hshift, ← hparts, if_neg hne]

theorem hdot_laneResult {s : State} {vd va vb : BitVec 7} (hun : unbound s [va, vb, vd]) (alt : BitVec 1) (vm : BitVec 3) :
    ∃ t, execHdot alt vm vd va vb s = .next t ∧ LaneResult s t 10 32 vd (Claims.included s vm) fun i =>
      dot2 (fmtOfH alt) (laneOf (vreg s vd) 32 i) (laneOf (vreg s va) 16 (2 * i)) (laneOf (vreg s vb) 16 (2 * i))
        (laneOf (vreg s va) 16 (2 * i + 1)) (laneOf (vreg s vb) 16 (2 * i + 1)) := by
  simp only [unbound, List.forall_mem_cons] at hun
  obtain ⟨hva, hvb, hvd, -⟩ := hun
  have hw : LaneWidth 32 := by unfold LaneWidth; decide
  unfold execHdot
  dsimp only
  rw [State.withOperands_of_unbound (by simp [hva, hvb]) (by simp [hvd]), s.operand_of_unbound hvd, s.included_eq vm (by decide),
    State.operandValue_of_unbound hva, State.operandValue_of_unbound hvb]
  simp only [laneOf_eq_lane]
  exact ⟨_, rfl, laneResult_landLanes hw hvd 10 (fun _ _ => rfl) _⟩

end Sys2Proof.Machine
end

section
/-! O21: the mask a compare writes (R187), and lanes as two's complement words (R190). -/

namespace Sys2Proof.Machine

open Sys2Proof.Claims

/-! Masks. -/

theorem getLsbD_one_shiftLeft (i : Nat) {j : Nat} (hj : j < 64) : (1#64 <<< i).getLsbD j = (i == j) := by
  rw [BitVec.getLsbD_shiftLeft, BitVec.getLsbD_one, decide_eq_true hj, Bool.true_and, Bool.eq_iff_iff]
  simp
  omega

theorem getLsbD_lowMask (n : Nat) {j : Nat} (hj : j < 64) :
    (BitVec.ofNat 64 (2 ^ n - 1)).getLsbD j = decide (j < n) := by
  rw [BitVec.getLsbD_ofNat, Nat.testBit_two_pow_sub_one, decide_eq_true hj, Bool.true_and]

/-- R187: a compare of two vector sources. -/
theorem vecCmp_maskResult {s : State} {w : Nat} (hw : LaneWidth w) {vd va vb : BitVec 7} (hun : unbound s [va, vb]) (lat : Nat) (vm : BitVec 3)
    (f : Nat → Nat → Bool) : ∃ t, vecCmp w lat vm vd va vb f s = .next t ∧
      MaskResult s t lat (512 / w) vd (Claims.included s vm) fun i => f (laneOf (vreg s va) w i) (laneOf (vreg s vb) w i) := by
  simp only [unbound, List.forall_mem_cons] at hun
  obtain ⟨hva, hvb, -⟩ := hun
  unfold vecCmp
  rw [State.withOperands_of_unbound (by simp [hva, hvb]) (by simp), State.operandValue_of_unbound hva,
    State.operandValue_of_unbound hvb]
  dsimp only
  rw [s.included_eq vm hw.lanes_le]
  simp only [← laneOf_eq_lane]
  have hmem : ∀ i, i ∈ (List.range (512 / w)).filter (Claims.included s vm) ↔ i < 512 / w ∧ Claims.included s vm i = true := by simp
  have hor : ∀ (m : Word) (i : Nat) (c : Bool), (if c then m ||| (1#64 <<< i) else m) = m ||| (if c then 1#64 <<< i else 0) := by
    intro m i c; cases c <;> simp
  simp only [hor]
  refine ⟨_, rfl, _, _, rfl, fun i hi => ⟨?covers, fun hlt hin => ?value, fun _ => ?above⟩⟩
  case covers =>
    rw [BitVec.getLsbD_or, getLsbD_foldl_or, BitVec.getLsbD_not, getLsbD_lowMask _ hi, Bool.eq_iff_iff]
    simp only [Bool.or_eq_true, List.any_eq_true, getLsbD_one_shiftLeft _ hi, beq_iff_eq, hmem, exists_eq_right, hi, decide_true,
      Bool.true_and, Bool.not_eq_true', decide_eq_false_iff_not, not_lt, decide_eq_true_eq]
    rcases Nat.lt_or_ge i (512 / w) with h | h
    · simp [h, h.not_ge]
    · simp [h]
  case value =>
    rw [getLsbD_foldl_or, Bool.eq_iff_iff]
    simp only [List.any_eq_true, hmem]
    constructor
    · rintro ⟨j, -, h⟩
      split at h
      · next hf => rw [getLsbD_one_shiftLeft _ hi, beq_iff_eq] at h; exact h ▸ hf
      · simp at h
    · exact fun hf => ⟨i, ⟨hlt, hin⟩, by rw [if_pos hf, getLsbD_one_shiftLeft _ hi]; exact beq_self_eq_true i⟩
  case above =>
    rw [getLsbD_foldl_or, List.any_eq_false]
    intro j hj
    obtain ⟨hj, -⟩ := (hmem j).1 hj
    split
    · rw [getLsbD_one_shiftLeft _ hi, beq_iff_eq]
      omega
    · simp

theorem exists_maskResult_congr {o : Res} {s : State} {lat n : Nat} {vd : BitVec 7} {inc f g : Nat → Bool}
    (h : ∃ t, o = .next t ∧ MaskResult s t lat n vd inc f) (hfg : ∀ i, f i = g i) : ∃ t, o = .next t ∧ MaskResult s t lat n vd inc g :=
  (funext hfg : f = g) ▸ h

/-! Float conditions. -/

theorem FVal.lt_eq_and_lt (x y : FVal) : x.lt y = (!x.isNan && !y.isNan && x.lt y) := by
  cases x with
  | nan => rfl
  | inf n => cases y <;> rfl
  | fin n m e => cases y <;> rfl

theorem FVal.isNan_or_isNan (x y : FVal) : (x.isNan || y.isNan) = !(!x.isNan && !y.isNan) := by simp

/-! Lanes as words (R190). -/

section
variable {w : Nat} (hw : 0 < w)
include hw

theorem intValue_toNat (x : BitVec w) : intValue true w x.toNat = x.toInt := by
  have htwo : 2 ^ w = 2 * 2 ^ (w - 1) := by rw [← pow_succ']; congr; omega
  rw [intValue, BitVec.toInt_eq_toNat_cond, Nat.mod_eq_of_lt x.isLt]
  simp only [true_and]
  by_cases hlow : 2 * x.toNat < 2 ^ w
  · rw [if_pos hlow, if_neg (by omega)]
  · rw [if_neg hlow, if_pos (by omega)]
    push_cast
    rfl

/-- Table 7.8 within a lane: signed conditions. -/
theorem condLane_lt (x y : BitVec w) : condLane 2 w x.toNat y.toNat = x.slt y := by
  rw [BitVec.slt_eq_decide, ← intValue_toNat hw, ← intValue_toNat hw]
  rfl

theorem condLane_ge (x y : BitVec w) : condLane 3 w x.toNat y.toNat = !x.slt y := by
  rw [BitVec.slt_eq_decide, ← decide_not, ← intValue_toNat hw, ← intValue_toNat hw]
  exact decide_eq_decide.2 Int.not_lt.symm

end

theorem intCode_eq (w : Nat) (i : Int) : intCode w i = (BitVec.ofInt w i).toNat := by
  rw [intCode, BitVec.toNat_ofInt]
  norm_cast

theorem toNat_ofNat_laneOf (v : Vec) (w i : Nat) : (BitVec.ofNat w (laneOf v w i)).toNat = laneOf v w i := by
  rw [BitVec.toNat_ofNat, Nat.mod_eq_of_lt (laneOf_lt ..)]

/-- Table 7.8 within a lane: equality and unsigned conditions. -/
theorem condLane_eq {w : Nat} (x y : BitVec w) : condLane 0 w x.toNat y.toNat = (x == y) := by
  rw [Bool.eq_iff_iff, beq_iff_eq, ← BitVec.toNat_inj]
  exact beq_iff_eq

theorem condLane_ne {w : Nat} (x y : BitVec w) : condLane 1 w x.toNat y.toNat = (x != y) := congrArg (!·) (condLane_eq x y)

theorem condLane_ltw {w : Nat} (x y : BitVec w) : condLane 4 w x.toNat y.toNat = x.ult y := (BitVec.ult_eq_decide ..).symm

theorem condLane_gew {w : Nat} (x y : BitVec w) : condLane 5 w x.toNat y.toNat = !x.ult y := by
  rw [BitVec.ult_eq_decide, ← decide_not]
  exact decide_eq_decide.2 Nat.not_lt.symm

/-- R187: an integer compare, its condition told of words. -/
theorem vcmp_maskResult {s : State} {va vb : BitVec 7} (hun : unbound s [va, vb]) (alt : BitVec 1) (vm : BitVec 3) (vd : BitVec 7) {fn : Nat}
    {c : ∀ {w : Nat}, BitVec w → BitVec w → Bool} (hc : ∀ {w : Nat}, 0 < w → ∀ x y : BitVec w, condLane fn w x.toNat y.toNat = c x y) :
    let w := (fmtOf alt).width
    ∃ t, vecCmp (width50 alt) 4 vm vd va vb (condLane fn (width50 alt)) s = .next t ∧ MaskResult s t 4 (512 / w) vd (Claims.included s vm)
      fun i => c (BitVec.ofNat w (laneOf (vreg s va) w i)) (BitVec.ofNat w (laneOf (vreg s vb) w i)) := by
  have hw := laneWidth_fmtOf alt
  rw [width50_eq]
  refine exists_maskResult_congr (vecCmp_maskResult hw hun 4 vm _) fun i => ?_
  rw [← hc hw.pos, toNat_ofNat_laneOf, toNat_ofNat_laneOf]

end Sys2Proof.Machine
end

section
/-! O22: Table 8.4 as operations on words of the lane's width (R190). -/

namespace Sys2Proof.Machine

open Sys2Proof.Claims

/-- Table 8.4 on words; `adds`, which has a flag, is `adds_toInt`. -/
def laneWord (o : LaneOp) {w : Nat} (x y : BitVec w) : BitVec w :=
  match o with
  | .add => x + y
  | .sub => x - y
  | .mul => x * y
  | .mulh => BitVec.ofInt w (x.toInt * y.toInt / 2 ^ w)
  | .min => if x.slt y then x else y
  | .max => if x.slt y then y else x
  | .minw => if x.ult y then x else y
  | .maxw => if x.ult y then y else x
  | .and => x &&& y
  | .or => x ||| y
  | .xor => x ^^^ y
  | .andn => x &&& ~~~y
  | .shl => x <<< y.toNat
  | .shr => x >>> y.toNat
  | .sar => x.sshiftRight (min y.toNat (w - 1))
  | .adds => 0

/-- Of two words that are equal where their values are, either is the smaller. -/
theorem smaller_of_le {α β : Type} [LinearOrder β] {k : α → β} {x y : α} (hk : k x = k y → x = y) :
    (if k x ≤ k y then x else y) = if k x < k y then x else y := by
  rcases lt_trichotomy (k x) (k y) with h | h | h
  · rw [if_pos h.le, if_pos h]
  · rw [hk h, ite_self, ite_self]
  · rw [if_neg h.not_ge, if_neg h.not_gt]

theorem larger_of_le {α β : Type} [LinearOrder β] {k : α → β} {x y : α} (hk : k x = k y → x = y) :
    (if k x ≤ k y then y else x) = if k x < k y then y else x := by
  rcases lt_trichotomy (k x) (k y) with h | h | h
  · rw [if_pos h.le, if_pos h]
  · rw [hk h, ite_self, ite_self]
  · rw [if_neg h.not_ge, if_neg h.not_gt]

section
variable {w : Nat} (hw : 0 < w) (x y : BitVec w)
include hw

/-- R190: `vsar` shifts by at most w - 1. -/
theorem intCode_sar : intCode w (x.toInt / 2 ^ (if w ≤ y.toNat then w - 1 else y.toNat)) = (x.sshiftRight (min y.toNat (w - 1))).toNat := by
  have hcount : (if w ≤ y.toNat then w - 1 else y.toNat) = min y.toNat (w - 1) := by split <;> omega
  rw [hcount, intCode_eq, BitVec.sshiftRight, Int.shiftRight_eq_div_pow]
  norm_cast

theorem laneOp_apply_toNat {o : LaneOp} (ho : o ≠ .adds) : o.apply w x.toNat y.toNat = quiet (laneWord o x y).toNat := by
  have hx := x.isLt
  have hsx := intValue_toNat hw x
  have hsy := intValue_toNat hw y
  cases o with
  | add => exact congrArg quiet (BitVec.toNat_add x y).symm
  | sub => exact congrArg quiet (by rw [laneWord, BitVec.toNat_sub, add_comm])
  | mul => exact congrArg quiet (BitVec.toNat_mul x y).symm
  | mulh => exact congrArg quiet (by rw [hsx, hsy, intCode_eq]; rfl)
  | min =>
    refine congrArg quiet ?_
    rw [hsx, hsy, laneWord, if_congr BitVec.slt_iff_toInt_lt rfl rfl, ← smaller_of_le BitVec.toInt_inj.1, apply_ite BitVec.toNat]
  | max =>
    refine congrArg quiet ?_
    rw [hsx, hsy, laneWord, if_congr BitVec.slt_iff_toInt_lt rfl rfl, ← larger_of_le BitVec.toInt_inj.1, apply_ite BitVec.toNat]
  | minw =>
    refine congrArg quiet ?_
    rw [laneWord, if_congr (BitVec.ult_iff_lt.trans BitVec.lt_def) rfl rfl, ← smaller_of_le BitVec.toNat_inj.1, apply_ite BitVec.toNat]
  | maxw =>
    refine congrArg quiet ?_
    rw [laneWord, if_congr (BitVec.ult_iff_lt.trans BitVec.lt_def) rfl rfl, ← larger_of_le BitVec.toNat_inj.1, apply_ite BitVec.toNat]
  | and => exact congrArg quiet (BitVec.toNat_and x y).symm
  | or => exact congrArg quiet (BitVec.toNat_or x y).symm
  | xor => exact congrArg quiet (BitVec.toNat_xor x y).symm
  | andn => exact congrArg quiet (by rw [laneWord, BitVec.toNat_and, BitVec.toNat_not])
  | shl =>
    refine congrArg quiet ?_
    rw [laneWord, BitVec.toNat_shiftLeft, Nat.shiftLeft_eq]
    split
    · next h => exact (Nat.mod_eq_zero_of_dvd (dvd_mul_of_dvd_right (pow_dvd_pow 2 h) _)).symm
    · rfl
  | shr =>
    refine congrArg quiet ?_
    rw [laneWord, BitVec.toNat_ushiftRight, Nat.shiftRight_eq_div_pow]
    split
    · next h => exact (Nat.div_eq_of_lt (hx.trans_le (Nat.pow_le_pow_right two_pos h))).symm
    · rfl
  | sar => exact congrArg quiet (by rw [hsx]; exact intCode_sar hw x y)
  | adds => exact absurd rfl ho

/-- R190: the saturating sum, with `isat` exactly when it clamps. -/
theorem adds_toInt : (BitVec.ofNat w (LaneOp.adds.apply w x.toNat y.toNat).1).toInt =
      max (-2 ^ (w - 1)) (min (2 ^ (w - 1) - 1) (x.toInt + y.toInt)) ∧
    (LaneOp.adds.apply w x.toNat y.toNat).2 =
      if x.toInt + y.toInt = (BitVec.ofNat w (LaneOp.adds.apply w x.toNat y.toNat).1).toInt then 0 else isat := by
  have hcode : ∀ i : Int, -2 ^ (w - 1) ≤ i → i < 2 ^ (w - 1) → (BitVec.ofNat w (intCode w i)).toInt = i := by
    intro i hlow hhigh
    rw [intCode_eq, BitVec.ofNat_toNat, BitVec.setWidth_eq, BitVec.toInt_ofInt_eq_self hw hlow hhigh]
  have hpos : (0 : Int) < 2 ^ (w - 1) := by positivity
  unfold LaneOp.apply
  simp only [intValue_toNat hw, intMin, intMax, if_true]
  generalize x.toInt + y.toInt = z
  generalize (2 : Int) ^ (w - 1) = b at *
  split
  · rw [hcode _ le_rfl (by omega)]
    exact ⟨by omega, by rw [if_neg (by omega)]⟩
  · split
    · rw [hcode _ (by omega) (by omega)]
      exact ⟨by omega, by rw [if_neg (by omega)]⟩
    · rw [quiet, hcode _ (by omega) (by omega)]
      exact ⟨by omega, by rw [if_pos rfl]⟩

end

/-! The instructions of rows 0x30 and 0x40. -/

section
variable {s : State} {w : Nat} (hw : LaneWidth w) {vd va vb : BitVec 7} (hun : unbound s [va, vb, vd]) (vm : BitVec 3)
include hw hun

theorem intOp_laneResult (o : LaneOp) (ho : o ≠ .adds := by decide) : ∃ t, intOp o w vm vd va vb s = .next t ∧
    LaneResult s t (if o = .mul ∨ o = .mulh then 6 else 4) w vd (Claims.included s vm) fun i =>
      plain (laneWord o (BitVec.ofNat w (laneOf (vreg s va) w i)) (BitVec.ofNat w (laneOf (vreg s vb) w i))).toNat := by
  refine exists_laneResult_congr (vecOp_laneResult hw hun _ _ vm _) fun i _ => ?_
  have hlane := laneOp_apply_toNat hw.pos (BitVec.ofNat w (laneOf (vreg s va) w i)) (BitVec.ofNat w (laneOf (vreg s vb) w i)) ho
  rw [toNat_ofNat_laneOf, toNat_ofNat_laneOf] at hlane
  exact hlane

theorem adds_laneResult : ∃ t r, intOp .adds w vm vd va vb s = .next t ∧ LaneResult s t 4 w vd (Claims.included s vm) r ∧
    ∀ i, i < 512 / w →
      let sum : Int := (BitVec.ofNat w (laneOf (vreg s va) w i)).toInt + (BitVec.ofNat w (laneOf (vreg s vb) w i)).toInt
      (BitVec.ofNat w (r i).1).toInt = max (-2 ^ (w - 1)) (min (2 ^ (w - 1) - 1) sum) ∧
      (r i).2 = if sum = (BitVec.ofNat w (r i).1).toInt then 0 else isat := by
  obtain ⟨t, ht, hlanes⟩ := vecOp_laneResult hw hun 4 false vm fun x y _ => LaneOp.adds.apply w x y
  refine ⟨t, _, ht, hlanes, fun i _ => ?_⟩
  have hlane := adds_toInt hw.pos (BitVec.ofNat w (laneOf (vreg s va) w i)) (BitVec.ofNat w (laneOf (vreg s vb) w i))
  rw [toNat_ofNat_laneOf, toNat_ofNat_laneOf] at hlane
  exact hlane

end

end Sys2Proof.Machine
end

section
/-! O20-O22 settled. -/

namespace Sys2Proof.Proofs

open Sys2Proof.Machine Sys2Proof.Claims

/-- Settles O20: the 16-bit forms round once as those of R184 do; the sum of `hdot` is exact before it is rounded. -/
theorem vectorHalfArithmetic : Obligations.VectorHalfArithmetic := by
  unfold Obligations.VectorHalfArithmetic
  intro alt vm vd va vb s hun f ca cb a b d res
  have two rd := vecOp_laneResult (w := 16) (by unfold LaneWidth; decide) hun 8 rd vm
  have hbits : f.ebits ≤ 8 := by
    change (if alt = 0 then bf16 else f16).ebits ≤ 8
    split <;> decide
  refine ⟨two false fun x y _ => f.add x y, two false fun x y _ => f.sub x y, two false fun x y _ => f.mul x y,
    two true (f.fma false false), two false fun x y _ => quiet (f.min x y), two false fun x y _ => quiet (f.max x y), ?dot⟩
  case dot =>
    obtain ⟨t, ht, hlanes⟩ := hdot_laneResult hun alt vm
    exact ⟨t, _, ht, hlanes, fun i _ n0 m0 e0 n1 m1 e1 n2 m2 e2 h0 h1 h2 hm0 hm1 hm2 hne =>
      dot2_eq_round hbits h0 h1 h2 hm0 hm1 hm2 rfl rfl hne⟩

/-- Settles O21: each compare puts its own condition in the mask. -/
theorem vectorCompares : Obligations.VectorCompares := by
  unfold Obligations.VectorCompares
  intro alt vm vd va vb s hun f h w a b ha hb ia ib num res
  have hwidth := laneWidth_fmtOf alt
  have floats := vecCmp_maskResult (vd := vd) hwidth hun 8 vm
  have halves := vecCmp_maskResult (w := 16) (vd := vd) (by unfold LaneWidth; decide) hun 8 vm
  have ints fn {c} hc := vcmp_maskResult hun alt vm vd (fn := fn) (c := c) hc
  refine ⟨floats fun x y => (f.value x).eq (f.value y), ?flt, floats fun x y => (f.value x).le (f.value y), ?fun_,
    halves fun x y => (h.value x).eq (h.value y), ?hlt, halves fun x y => (h.value x).le (h.value y),
    ints 0 fun _ => condLane_eq, ints 1 fun _ => condLane_ne, ints 2 condLane_lt, ints 3 condLane_ge,
    ints 4 fun _ => condLane_ltw, ints 5 fun _ => condLane_gew⟩
  case flt => exact exists_maskResult_congr (floats fun x y => (f.value x).lt (f.value y)) fun _ => FVal.lt_eq_and_lt ..
  case hlt => exact exists_maskResult_congr (halves fun x y => (h.value x).lt (h.value y)) fun _ => FVal.lt_eq_and_lt ..
  case fun_ =>
    exact exists_maskResult_congr (floats fun x y => (f.value x).isNan || (f.value y).isNan) fun _ =>
      FVal.isNan_or_isNan ..

/-- Settles O22: in both rows each operation is that of the words its lanes hold. -/
theorem vectorIntegerLanes : Obligations.VectorIntegerLanes := by
  unfold Obligations.VectorIntegerLanes
  intro alt vm vd va vb s hun
  constructor
  · intro w x y res sat
    have lanes (o : LaneOp) (ho : o ≠ .adds := by decide) := intOp_laneResult (laneWidth_width30 alt) hun vm o ho
    exact ⟨lanes .add, lanes .sub, lanes .mul, lanes .mulh, lanes .min,
      lanes .max, lanes .minw, lanes .maxw, lanes .and, lanes .or,
      lanes .xor, lanes .andn, lanes .shl, lanes .shr, lanes .sar,
      adds_laneResult (laneWidth_width30 alt) hun vm⟩
  · intro w x y res sat
    have lanes (o : LaneOp) (ho : o ≠ .adds := by decide) := intOp_laneResult (laneWidth_width40 alt) hun vm o ho
    exact ⟨lanes .add, lanes .sub, lanes .mul, lanes .mulh, lanes .min,
      lanes .max, lanes .minw, lanes .maxw, lanes .and, lanes .or,
      lanes .xor, lanes .andn, lanes .shl, lanes .shr, lanes .sar,
      adds_laneResult (laneWidth_width40 alt) hun vm⟩

end Sys2Proof.Proofs
end

section
/-! O23: reductions and scans over the included lanes (R148, R149, R191, R192). -/

namespace Sys2Proof.Machine

open Sys2Proof.Claims

/-! Lanes with their mask bits. -/

/-- The lanes that a reduction or a scan works on, each with its mask bit. -/
def maskedLanes (n : Nat) (c : Nat → Nat) (inc : Nat → Bool) : List (Nat × Bool) := (List.range n).map fun i => (c i, inc i)

section
variable (n : Nat) (c : Nat → Nat) (inc : Nat → Bool)

theorem filter_maskedLanes : ((maskedLanes n c inc).filter (·.2)).map (·.1) = ((List.range n).filter inc).map c := by
  rw [maskedLanes, List.filter_map, List.map_map]
  rfl

/-- A fold over the included lanes. -/
theorem foldl_maskedLanes {α : Type} (g : α → Nat → α) (a : α) :
    ((maskedLanes n c inc).filter (·.2)).foldl (fun m x => g m x.1) a = (((List.range n).filter inc).map c).foldl g a := by
  rw [← filter_maskedLanes, List.foldl_map]

theorem map_maskedLanes (z : Nat) : ((maskedLanes n c inc).map fun x => if x.2 then x.1 else z) =
    (List.range n).map fun i => if inc i then c i else z := List.map_map

end

theorem sum_map_ite_zero (c : Nat → Nat) (p : Nat → Bool) (l : List Nat) :
    (l.map fun i => if p i then c i else 0).sum = ((l.filter p).map c).sum := by
  induction l with
  | nil => rfl
  | cons i l ih => cases h : p i <;> simp [h, ih]

/-! Folds that pick, and folds that keep every stage. -/

/-- A fold that always keeps the one of two whose key is no less ends with an element of the largest key. -/
theorem foldl_picks {k : Nat → Int} {op : Nat → Nat → Nat} (hop : ∀ m x, (op m x = m ∨ op m x = x) ∧ k m ≤ k (op m x) ∧ k x ≤ k (op m x))
    (l : List Nat) (a : Nat) : (l.foldl op a = a ∨ l.foldl op a ∈ l) ∧ k a ≤ k (l.foldl op a) ∧ ∀ x ∈ l, k x ≤ k (l.foldl op a) := by
  induction l generalizing a with
  | nil => exact ⟨.inl rfl, le_rfl, nofun⟩
  | cons x l ih =>
    obtain ⟨hfrom, hle, hmax⟩ := ih (op a x)
    obtain ⟨hpick, hka, hkx⟩ := hop a x
    refine ⟨?_, hka.trans hle, List.forall_mem_cons.2 ⟨hkx.trans hle, hmax⟩⟩
    rw [List.foldl_cons, List.mem_cons]
    rcases hfrom with h | h
    · rw [h]
      exact hpick.imp_right .inl
    · exact .inr (.inr h)

/-- The stages of a fold: what each step gives from the state that the step before it left. -/
def stages {α β γ : Type} (g : γ → α → β) (next : β → γ) : γ → List α → List β
  | _, [] => []
  | a, x :: l => g a x :: stages g next (next (g a x)) l

section
variable {α β γ : Type} (g : γ → α → β) (next : β → γ)

theorem foldl_stages (l : List α) (init : List β) (a : γ) :
    (l.foldl (fun (r : List β × γ) x => (r.1 ++ [g r.2 x], next (g r.2 x))) (init, a)).1 = init ++ stages g next a l := by
  induction l generalizing init a with
  | nil => simp [stages]
  | cons x l ih => rw [List.foldl_cons, ih, stages, List.append_assoc]; rfl

theorem next_getD_stages (l : List α) (a : γ) {k : Nat} (hk : k < l.length) (d : β) :
    next ((stages g next a l).getD k d) = (l.take (k + 1)).foldl (fun a x => next (g a x)) a := by
  induction l generalizing k a with
  | nil => cases hk
  | cons x l ih => cases k with
    | zero => rfl
    | succ k => exact ih _ (Nat.lt_of_succ_lt_succ hk)

end

/-! Running sums (R149, R192). -/

/-- R192: one step of the wrapping running sum. -/
def sumStage (w t : Nat) (x : Nat × Bool) : Nat × FS := quiet ((t + if x.2 then x.1 else 0) % 2 ^ w)

theorem intScan_eq_stages (w : Nat) (l : List (Nat × Bool)) : intScan w l = stages (sumStage w) (·.1) 0 l :=
  foldl_stages (sumStage w) (·.1) l [] 0

theorem foldl_sumStage (w : Nat) (l : List (Nat × Bool)) (a : Nat) :
    l.foldl (fun t x => (sumStage w t x).1) a % 2 ^ w = (a + (l.map fun x => if x.2 then x.1 else 0).sum) % 2 ^ w := by
  induction l generalizing a with
  | nil => rfl
  | cons x l ih => rw [List.foldl_cons, ih, List.map_cons, List.sum_cons, sumStage, quiet, Nat.mod_add_mod, add_assoc]

/-- R192: a stage of the wrapping running sum. -/
theorem getD_intScan (w : Nat) {l : List (Nat × Bool)} {k : Nat} (hk : k < l.length) :
    ((intScan w l).getD k (0, 0)).1 % 2 ^ w = ((l.take (k + 1)).map fun x => if x.2 then x.1 else 0).sum % 2 ^ w := by
  rw [intScan_eq_stages, next_getD_stages (sumStage w) (·.1) l 0 hk, foldl_sumStage, zero_add]

theorem flags_of_mem_intScan {w : Nat} {l : List (Nat × Bool)} {y : Nat × FS} (hy : y ∈ intScan w l) : y.2 = 0 := by
  rw [intScan_eq_stages] at hy
  generalize 0 = a at hy
  induction l generalizing a with
  | nil => cases hy
  | cons x l ih =>
    rcases List.mem_cons.1 hy with rfl | h
    · rfl
    · exact ih _ h

/-- R149: a stage of the float running sum. -/
theorem Fmt.getD_scan (f : Fmt) {l : List Nat} {k : Nat} (hk : k < l.length) :
    ((f.scan l).getD k (0, 0)).1 = ((l.drop 1).take k).foldl (fun r y => (f.add r y).1) (f.canon (l.headD 0)) := by
  cases l with
  | nil => cases hk
  | cons a l =>
    have hscan : f.scan (a :: l) = (f.canon a, 0) :: stages f.add (·.1) (f.canon a) l := foldl_stages f.add (·.1) l [(f.canon a, 0)] (f.canon a)
    rw [hscan]
    cases k with
    | zero => rfl
    | succ k => exact next_getD_stages f.add (·.1) l (f.canon a) (Nat.lt_of_succ_lt_succ hk) (0, 0)

/-! Negation (R190). -/

theorem intCode_neg {w : Nat} (x : BitVec w) : intCode w (-x.toInt) = (-x).toNat := by
  rw [intCode_eq, BitVec.ofInt_neg, BitVec.ofInt_toInt]

theorem intCode_natAbs {w : Nat} (x : BitVec w) : intCode w x.toInt.natAbs = if x.toInt < 0 then (-x).toNat else x.toNat := by
  split
  · next h => rw [Int.ofNat_natAbs_of_nonpos h.le, intCode_neg]
  · next h => rw [Int.natAbs_of_nonneg (not_lt.1 h), intCode_eq, BitVec.ofInt_toInt]

theorem minusZero_eq (f : Fmt) : minusZero f = 2 ^ (f.width - 1) := by rw [f.width_sub_one]; rfl

/-! Picks and prefixes. -/

theorem picks_max (w m x : Nat) : ((LaneOp.max.apply w m x).1 = m ∨ (LaneOp.max.apply w m x).1 = x) ∧
    intValue true w m ≤ intValue true w (LaneOp.max.apply w m x).1 ∧ intValue true w x ≤ intValue true w (LaneOp.max.apply w m x).1 := by
  simp only [LaneOp.apply, quiet]
  split
  · next h => exact ⟨.inr rfl, h, le_rfl⟩
  · next h => exact ⟨.inl rfl, le_rfl, (not_le.1 h).le⟩

theorem picks_min (w m x : Nat) : ((LaneOp.min.apply w m x).1 = m ∨ (LaneOp.min.apply w m x).1 = x) ∧
    -intValue true w m ≤ -intValue true w (LaneOp.min.apply w m x).1 ∧ -intValue true w x ≤ -intValue true w (LaneOp.min.apply w m x).1 := by
  simp only [LaneOp.apply, quiet, neg_le_neg_iff]
  split
  · next h => exact ⟨.inl rfl, le_rfl, h⟩
  · next h => exact ⟨.inr rfl, (not_le.1 h).le, le_rfl⟩

theorem toInt_ofNat_lane {w : Nat} (hw : 0 < w) {c : Nat} (hc : c < 2 ^ w) : (BitVec.ofNat w c).toInt = intValue true w c := by
  rw [← intValue_toNat hw, BitVec.toNat_ofNat, Nat.mod_eq_of_lt hc]

/-- What stage k of a scan has added up. -/
theorem sum_take_maskedLanes {n k : Nat} (hk : k < n) (c : Nat → Nat) (inc : Nat → Bool) :
    (((maskedLanes n c inc).take (k + 1)).map fun x => if x.2 then x.1 else 0).sum = (((List.range (k + 1)).filter inc).map c).sum := by
  rw [← sum_map_ite_zero, maskedLanes, ← List.map_take, List.take_range, min_eq_left (by omega), List.map_map]
  rfl

/-! The instructions. -/

/-- The lanes of an operand with their mask bits, as a meaning lists them. -/
theorem State.maskedLanes_eq (s : State) {w : Nat} (hw : LaneWidth w) (va : BitVec 7) (vm : BitVec 3) :
    ((List.range (512 / w)).map fun i => (lane (vreg s va) w i, (s.included vm (512 / w)).contains i)) =
    maskedLanes (512 / w) (laneOf (vreg s va) w) (Claims.included s vm) := by
  refine List.map_congr_left fun i hi => ?_
  rw [laneOf_eq_lane, s.included_eq vm hw.lanes_le, List.contains_eq_mem]
  congr 1
  rw [Bool.eq_iff_iff, decide_eq_true_eq, List.mem_filter, and_iff_right hi]

section
variable {s : State} {w : Nat} (hw : LaneWidth w) {vd va : BitVec 7} (hva : s.streamOf va.toNat = none) (hvd : s.streamOf vd.toNat = none)
  (lat : Nat) (vm : BitVec 3)
include hw hva hvd

theorem vecReduce_reduced (f : List (Nat × Bool) → Nat × FS) : ∃ t, vecReduce w lat vm vd va f s = .next t ∧
    Reduced s t lat w vd (f (maskedLanes (512 / w) (laneOf (vreg s va) w) (Claims.included s vm))) := by
  unfold vecReduce
  rw [State.withOperands_of_unbound (by simp [hva]) (by simp [hvd]), State.operandValue_of_unbound hva]
  dsimp only
  rw [s.maskedLanes_eq hw, State.landV_of_unbound hvd]
  exact ⟨_, rfl, rfl⟩

/-- R192: what a scan sends: lane i of the stages in each included lane. -/
theorem vecScan_lands (f : List (Nat × Bool) → List (Nat × FS)) :
    let r := f (maskedLanes (512 / w) (laneOf (vreg s va) w) (Claims.included s vm))
    ∃ val mask, vecScan w lat vm vd va f s = .next ((s.land lat (.v vd.toNat val mask)).landFlags lat (r.foldl (fun a x => a ||| x.2) 0)) ∧
      (∀ i, i < 512 → mask.getLsbD i = Claims.included s vm (i / w)) ∧
      ∀ i, i < 512 / w → Claims.included s vm i = true → laneOf val w i = (r.getD i (0, 0)).1 % 2 ^ w := by
  have hnodup : ((List.range (512 / w)).filter (Claims.included s vm)).Nodup := List.nodup_range.filter _
  unfold vecScan
  rw [State.withOperands_of_unbound (by simp [hva]) (by simp [hvd]), State.operandValue_of_unbound hva]
  dsimp only
  rw [s.maskedLanes_eq hw, State.landV_of_unbound hvd, s.included_eq vm hw.lanes_le]
  refine ⟨_, _, rfl, fun i hi => ?covers, fun i hi hin => ?value⟩
  case covers =>
    have hlane := hw.lane_lt hi
    rw [getLsbD_laneMask hw.pos hnodup hi, Bool.eq_iff_iff, decide_eq_true_eq, List.mem_filter, List.mem_range, and_iff_right hlane]
  case value =>
    have hkeys (g : Nat → Nat) : (((List.range (512 / w)).filter (Claims.included s vm)).map fun i => (i, g i)).map (·.1) =
        (List.range (512 / w)).filter (Claims.included s vm) := by simp [Function.comp_def]
    refine laneOf_ofLanes hw.pos (x := (i, _)) ((hkeys _).symm ▸ hnodup) ?_ (hw.fits hi)
    exact List.mem_map.2 ⟨i, List.mem_filter.2 ⟨List.mem_range.2 hi, hin⟩, rfl⟩

end

section
variable {s : State} {vd va : BitVec 7} (hva : s.streamOf va.toNat = none) (hvd : s.streamOf vd.toNat = none) (alt : BitVec 1) (vm : BitVec 3)
include hva hvd

theorem isum_reduced :
    let w := (fmtOf alt).width
    ∃ t, execIsum alt vm vd va s = .next t ∧ Reduced s t 12 w vd
      (plain ((((List.range (512 / w)).filter (Claims.included s vm)).map (laneOf (vreg s va) w)).sum % 2 ^ w)) := by
  have h := vecReduce_reduced (laneWidth_fmtOf alt) hva hvd 12 vm fun l =>
    quiet ((l.filter (·.2)).foldl (fun m x => m + x.1) 0 % 2 ^ (fmtOf alt).width)
  rw [foldl_maskedLanes, ← List.sum_eq_foldl] at h
  rw [execIsum, width50_eq]
  exact h

/-- R191: a reduction that picks, in a lane's signed order or against it. -/
theorem vecReduce_picks {w : Nat} (hw : LaneWidth w) {o : LaneOp} {k : Nat → Int} (init : Nat)
    (hop : ∀ m x, ((o.apply w m x).1 = m ∨ (o.apply w m x).1 = x) ∧ k m ≤ k (o.apply w m x).1 ∧ k x ≤ k (o.apply w m x).1) (hinit : init < 2 ^ w) :
    ∃ m, (∃ t, vecReduce w 12 vm vd va (fun l => quiet ((l.filter (·.2)).foldl (fun m x => (o.apply w m x.1).1) init)) s = .next t ∧
        Reduced s t 12 w vd (plain m)) ∧ m < 2 ^ w ∧
      (∀ i, i < 512 / w → Claims.included s vm i = true → k (laneOf (vreg s va) w i) ≤ k m) ∧
      ((∃ i, i < 512 / w ∧ Claims.included s vm i = true ∧ laneOf (vreg s va) w i = m) ∨ m = init) := by
  have h := vecReduce_reduced hw hva hvd 12 vm fun l => quiet ((l.filter (·.2)).foldl (fun m x => (o.apply w m x.1).1) init)
  rw [foldl_maskedLanes _ _ _ fun m x => (o.apply w m x).1] at h
  obtain ⟨hfrom, -, hmax⟩ := foldl_picks hop (((List.range (512 / w)).filter (Claims.included s vm)).map (laneOf (vreg s va) w)) init
  generalize (((List.range (512 / w)).filter (Claims.included s vm)).map (laneOf (vreg s va) w)).foldl _ init = m at h hfrom hmax
  have hmem : ∀ c, c ∈ ((List.range (512 / w)).filter (Claims.included s vm)).map (laneOf (vreg s va) w) ↔
      ∃ i, i < 512 / w ∧ Claims.included s vm i = true ∧ laneOf (vreg s va) w i = c := by simp [and_assoc]
  refine ⟨m, h, ?_, fun i hi hin => hmax _ ((hmem _).2 ⟨i, hi, hin, rfl⟩), (hfrom.imp_right (hmem m).1).symm⟩
  rcases hfrom with rfl | hin
  · exact hinit
  · obtain ⟨i, -, -, rfl⟩ := (hmem m).1 hin
    exact laneOf_lt ..

theorem imaxr_reduced :
    let w := (fmtOf alt).width
    ∃ m, (∃ t, execImaxr alt vm vd va s = .next t ∧ Reduced s t 12 w vd (plain m)) ∧ m < 2 ^ w ∧
      (∀ i, i < 512 / w → Claims.included s vm i = true → (BitVec.ofNat w (laneOf (vreg s va) w i)).sle (BitVec.ofNat w m) = true) ∧
      ((∃ i, i < 512 / w ∧ Claims.included s vm i = true ∧ laneOf (vreg s va) w i = m) ∨ m = 2 ^ (w - 1)) := by
  have hw := laneWidth_fmtOf alt
  rw [execImaxr, width50_eq]
  obtain ⟨m, hred, hlt, hmax, hfrom⟩ := vecReduce_picks hva hvd vm hw (2 ^ ((fmtOf alt).width - 1)) (picks_max _)
    (Nat.pow_lt_pow_right Nat.one_lt_two (Nat.sub_lt hw.pos Nat.one_pos))
  refine ⟨m, hred, hlt, fun i hi hin => ?_, hfrom⟩
  rw [BitVec.sle_iff_toInt_le, toInt_ofNat_lane hw.pos (laneOf_lt ..), toInt_ofNat_lane hw.pos hlt]
  exact hmax i hi hin

theorem iminr_reduced :
    let w := (fmtOf alt).width
    ∃ m, (∃ t, execIminr alt vm vd va s = .next t ∧ Reduced s t 12 w vd (plain m)) ∧ m < 2 ^ w ∧
      (∀ i, i < 512 / w → Claims.included s vm i = true → (BitVec.ofNat w m).sle (BitVec.ofNat w (laneOf (vreg s va) w i)) = true) ∧
      ((∃ i, i < 512 / w ∧ Claims.included s vm i = true ∧ laneOf (vreg s va) w i = m) ∨ m = 2 ^ (w - 1) - 1) := by
  have hw := laneWidth_fmtOf alt
  have hpow : 2 ^ ((fmtOf alt).width - 1) - 1 < 2 ^ (fmtOf alt).width :=
    (Nat.sub_le ..).trans_lt (Nat.pow_lt_pow_right Nat.one_lt_two (Nat.sub_lt hw.pos Nat.one_pos))
  rw [execIminr, width50_eq]
  obtain ⟨m, hred, hlt, hmin, hfrom⟩ := vecReduce_picks hva hvd vm hw (2 ^ ((fmtOf alt).width - 1) - 1) (picks_min _) hpow
  refine ⟨m, hred, hlt, fun i hi hin => ?_, hfrom⟩
  rw [BitVec.sle_iff_toInt_le, toInt_ofNat_lane hw.pos (laneOf_lt ..), toInt_ofNat_lane hw.pos hlt]
  exact neg_le_neg_iff.1 (hmin i hi hin)

/-- R148: the tree over all lanes, an excluded lane entering as -0. -/
theorem fsum_reduced :
    let f := fmtOf alt
    ∃ t, execFsum alt vm vd va s = .next t ∧ Reduced s t 12 f.width vd (f.sumTree ((List.range (512 / f.width)).map fun i =>
      if Claims.included s vm i then laneOf (vreg s va) f.width i else 2 ^ (f.width - 1))) := by
  have h := vecReduce_reduced (laneWidth_fmtOf alt) hva hvd 12 vm fun l =>
    (fmtOf alt).sumTree (l.map fun x => if x.2 then x.1 else 2 ^ ((fmtOf alt).width - 1))
  rw [map_maskedLanes] at h
  unfold execFsum
  rw [minusZero_eq]
  exact h

theorem iscan_laneResult :
    let w := (fmtOf alt).width
    ∃ t, execIscan alt vm vd va s = .next t ∧ LaneResult s t 14 w vd (Claims.included s vm) fun k =>
      plain ((((List.range (k + 1)).filter (Claims.included s vm)).map (laneOf (vreg s va) w)).sum % 2 ^ w) := by
  have hw := laneWidth_fmtOf alt
  rw [execIscan, width50_eq]
  obtain ⟨val, mask, hexec, hcovers, hvalue⟩ := vecScan_lands hw hva hvd 14 vm (intScan (fmtOf alt).width)
  refine ⟨_, hexec, val, mask, _, rfl, hcovers, fun i hi hin => ?_, fun b _ => ?_⟩
  · rw [hvalue i hi hin, getD_intScan _ (by simpa [maskedLanes] using hi), sum_take_maskedLanes hi]
    exact (Nat.mod_mod _ _).symm
  · rw [getLsbD_foldl_or, Bool.eq_iff_iff, List.any_eq_true, List.any_eq_true]
    constructor
    · rintro ⟨y, hy, h⟩
      rw [flags_of_mem_intScan hy] at h
      simp at h
    · rintro ⟨i, -, h⟩
      simp [plain] at h

/-- R192: the running sum over all lanes, an excluded lane entering as -0. -/
theorem fscan_lands :
    let f := fmtOf alt
    let ins := (List.range (512 / f.width)).map fun i => if Claims.included s vm i then laneOf (vreg s va) f.width i else 2 ^ (f.width - 1)
    ∃ t, execFscan alt vm vd va s = .next t ∧ ∃ val mask fs, t = (s.land 14 (.v vd.toNat val mask)).landFlags 14 fs ∧
      (∀ i, i < 512 → mask.getLsbD i = Claims.included s vm (i / f.width)) ∧
      ∀ i, i < 512 / f.width → Claims.included s vm i = true → laneOf val f.width i =
        ((ins.drop 1).take i).foldl (fun r y => (f.add r y).1) (f.canon (ins.headD 0)) % 2 ^ f.width := by
  unfold execFscan
  rw [minusZero_eq]
  obtain ⟨val, mask, hexec, hcovers, hvalue⟩ := vecScan_lands (laneWidth_fmtOf alt) hva hvd 14 vm fun l =>
    (fmtOf alt).scan (l.map fun x => if x.2 then x.1 else 2 ^ ((fmtOf alt).width - 1))
  rw [map_maskedLanes] at hexec hvalue
  refine ⟨_, hexec, val, mask, _, rfl, hcovers, fun i hi hin => ?_⟩
  rw [hvalue i hi hin, Fmt.getD_scan _ (by simpa using hi)]

theorem vabs_laneResult :
    let w := (fmtOf alt).width
    ∃ t, execVabs alt vm vd va s = .next t ∧ LaneResult s t 4 w vd (Claims.included s vm) fun i =>
      let x := BitVec.ofNat w (laneOf (vreg s va) w i)
      plain (if x.toInt < 0 then (-x).toNat else x.toNat) := by
  have hw := laneWidth_fmtOf alt
  rw [execVabs, width50_eq]
  refine exists_laneResult_congr (vecOp1_laneResult hw hva hvd 4 vm _) fun i _ => congrArg quiet ?_
  rw [← toInt_ofNat_lane hw.pos (laneOf_lt ..), intCode_natAbs]

theorem vneg_laneResult :
    let w := (fmtOf alt).width
    ∃ t, execVneg alt vm vd va s = .next t ∧ LaneResult s t 4 w vd (Claims.included s vm) fun i =>
      plain (-(BitVec.ofNat w (laneOf (vreg s va) w i))).toNat := by
  have hw := laneWidth_fmtOf alt
  rw [execVneg, width50_eq]
  refine exists_laneResult_congr (vecOp1_laneResult hw hva hvd 4 vm _) fun i _ => congrArg quiet ?_
  rw [← toInt_ofNat_lane hw.pos (laneOf_lt ..), intCode_neg]

end

end Sys2Proof.Machine
end

section
/-! O23 settled. -/

namespace Sys2Proof.Proofs

open Sys2Proof.Machine Sys2Proof.Claims

/-- Settles O23: a reduction folds the included lanes, a scan keeps every stage of its fold. -/
theorem vectorReductionsAndScans : Obligations.VectorReductionsAndScans := by
  unfold Obligations.VectorReductionsAndScans
  intro alt vm vd va s hun f w n inc c x ins some_ red lanes
  have hva : s.streamOf va.toNat = none := hun va (by simp)
  have hvd : s.streamOf vd.toNat = none := hun vd (by simp)
  have hw : LaneWidth w := laneWidth_fmtOf alt
  have reduces := vecReduce_reduced hw hva hvd 12 vm
  refine ⟨isum_reduced hva hvd alt vm, imaxr_reduced hva hvd alt vm, iminr_reduced hva hvd alt vm, fsum_reduced hva hvd alt vm, ?fmaxr, ?fminr, ?famaxr,
    iscan_laneResult hva hvd alt vm, fscan_lands hva hvd alt vm, vabs_laneResult hva hvd alt vm, vneg_laneResult hva hvd alt vm⟩
  case fmaxr =>
    have h := reduces fun l => quiet ((l.filter (·.2)).foldl (fun m x => f.max m x.1) (f.infCode true))
    rw [foldl_maskedLanes] at h
    exact h
  case fminr =>
    have h := reduces fun l => quiet ((l.filter (·.2)).foldl (fun m x => f.min m x.1) (f.infCode false))
    rw [foldl_maskedLanes] at h
    exact h
  case famaxr =>
    have h := reduces fun l => quiet ((l.filter (·.2)).foldl (fun m x => f.max m (f.abs x.1)) 0)
    rw [foldl_maskedLanes _ _ _ fun m x => f.max m (f.abs x), ← List.foldl_map] at h
    exact h

end Sys2Proof.Proofs
end

section
/-! O24: conversions (R193-R197). First what a state keeps while results are sent on their way (R112, R114). -/

namespace Sys2Proof.Machine

open Sys2Proof.Claims

/-! Results on their way. -/

/-- `t` is `s` with results on their way: landings on the agenda, or held back with the bundle (R17). -/
def State.ResultsSent (s t : State) : Prop :=
  ∃ held agenda, t = { s with cur := { s.cur with heldV := held }, agenda := agenda } ∧ s.agenda ⊆ agenda

theorem State.ResultsSent.refl (s : State) : s.ResultsSent s := ⟨_, _, rfl, List.Subset.refl _⟩

theorem State.ResultsSent.trans {s t u : State} (h : s.ResultsSent t) (k : t.ResultsSent u) : s.ResultsSent u := by
  obtain ⟨held, agenda, rfl, hsub⟩ := h
  obtain ⟨held', agenda', rfl, hsub'⟩ := k
  exact ⟨held', agenda', rfl, List.Subset.trans hsub hsub'⟩

theorem State.resultsSent_land (s : State) (lat : Nat) (w : RegWrite) : s.ResultsSent (s.land lat w) := s.land_eq lat w

theorem State.resultsSent_landFlags (s : State) (lat : Nat) (fs : FS) : s.ResultsSent (s.landFlags lat fs) := by
  unfold State.landFlags
  split
  · exact .refl s
  · exact s.resultsSent_land ..

/-! Table 8.6. -/

/-- Table 8.6: the elements of a row fill whole lanes of the register, part by part. -/
theorem cvtRow_fits : ∀ c, c < 32 → ∀ r ∈ cvtRow c, LaneWidth r.2.1.slot ∧ r.2.2.1 ≤ 64 ∧
    r.2.1.slot * (r.2.2.1 * (if r.2.1.slot < r.1.slot then r.2.2.2 else 1)) ≤ 512 := by
  unfold LaneWidth
  decide

/-! The conversion of a vector (R193-R197). -/

section
variable {mode : State → Nat → Rm} {alt : BitVec 1} {vm : BitVec 3} {vd va vb : BitVec 7} {s : State}

/-- R193: a selector without a code or a part is an illegal instruction. -/
theorem convert_illegal (h : cvtRow (vb.toNat % 32) = none ∨
    ∃ a b n k, cvtRow (vb.toNat % 32) = some (a, b, n, k) ∧ k ≤ vb.toNat / 32) :
    convert mode alt vm vd va vb s = .next (s.raise 2 s.cur.pc) := by
  unfold convert
  rcases h with h | ⟨a, b, n, k, h, hk⟩ <;> rw [h]
  exact if_pos hk

variable {src dst : NumFmt} {n parts : Nat}

/-- The lane of the register that holds element i, where its format is the narrower of two (R194). -/
def partLane (narrow wide : NumFmt) (n p i : Nat) : Nat := if narrow.slot < wide.slot then n * p + i else i

/-- R193: a conversion of a named row and part, as an operation on operands. -/
theorem convert_legal (hrow : cvtRow (vb.toNat % 32) = some (src, dst, n, parts)) (hpart : vb.toNat / 32 < parts) :
    convert mode alt vm vd va vb s = .next (s.withOperands [va.toNat] (some vd.toNat) false fun get s =>
      let x i := src.value (lane (get va.toNat) src.slot (partLane src dst n (vb.toNat / 32) i))
      let t := s.landLanes 8 vd.toNat dst.slot ((s.included vm n).map fun i =>
        (partLane dst src n (vb.toNat / 32) i, dst.convert (mode s i) (alt == 1) (x i)))
      if src.isFloat then
        let xs := (s.included vm n).map fun i => (i, x i)
        t.land 8 (.amax (BitVec.ofNat 32 (f32.round .ru (xs.foldl (fun (m : FVal) x => if m.lt x.2.abs then x.2.abs else m)
          (.fin false 0 0))).1) (xs.any fun x => x.2.isNan))
      else t) := by
  have hlane (a b : NumFmt) (i : Nat) : (if a.slot < b.slot then n * (vb.toNat / 32) else 0) + i = partLane a b n (vb.toNat / 32) i := by
    unfold partLane
    split
    · rfl
    · exact zero_add i
  unfold convert
  rw [hrow]
  dsimp only
  rw [if_neg (by omega)]
  simp only [hlane, List.map_map, Function.comp_def]

/-- R195: what a conversion rounds, saturated first or not. -/
theorem NumFmt.convert_code (f : NumFmt) (r : Rm) (alt : BitVec 1) (x : FVal) :
    (f.convert r (alt == 1) x).1 = (f.round r (if alt = 1 then (f.sat x).1 else x)).1 := by
  unfold NumFmt.convert
  by_cases h : alt = 1
  · rw [if_pos (beq_iff_eq.2 h), if_pos h]
  · rw [if_neg (by simpa using h), if_neg h]

theorem partLane_injective (a b : NumFmt) (n p : Nat) : Function.Injective (partLane a b n p) := by
  intro i j h
  unfold partLane at h
  split at h <;> omega

/-- R194: a part lies within the register. -/
theorem partLane_fits {c i : Nat} (hc : c < 32) (hrow : cvtRow c = some (src, dst, n, parts)) {p : Nat} (hp : p < parts) (hi : i < n) :
    dst.slot * (partLane dst src n p i + 1) ≤ 512 := by
  obtain ⟨-, -, hfits⟩ := cvtRow_fits c hc _ hrow
  dsimp only at hfits
  refine (Nat.mul_le_mul_left _ ?_).trans hfits
  unfold partLane
  split
  · have : n * (p + 1) ≤ n * parts := Nat.mul_le_mul_left n hp
    rw [mul_add] at this
    omega
  · omega

/-- R193-R196: with no stream bound a conversion sends each included element to its lane. -/
theorem convert_lands (hva : s.streamOf va.toNat = none) (hvd : s.streamOf vd.toNat = none)
    (hrow : cvtRow (vb.toNat % 32) = some (src, dst, n, parts)) (hpart : vb.toNat / 32 < parts) :
    let dest := partLane dst src n (vb.toNat / 32)
    let el i := src.value (laneOf (vreg s va) src.slot (partLane src dst n (vb.toNat / 32) i))
    ∃ t val mask, convert mode alt vm vd va vb s = .next t ∧ (s.land 8 (.v vd.toNat val mask)).ResultsSent t ∧
      (∀ i, i < n → Claims.included s vm i = true → laneOf val dst.slot (dest i) =
        (dst.round (mode s i) (if alt = 1 then (dst.sat (el i)).1 else el i)).1 % 2 ^ dst.slot) ∧
      ∀ k, k < 512 → (mask.getLsbD k = true ↔ ∃ i, i < n ∧ Claims.included s vm i = true ∧ k / dst.slot = dest i) := by
  have hc : vb.toNat % 32 < 32 := Nat.mod_lt _ (by decide)
  obtain ⟨hw, hn, -⟩ : LaneWidth dst.slot ∧ n ≤ 64 ∧ _ := cvtRow_fits _ hc _ hrow
  have hnodup : (((List.range n).filter (Claims.included s vm)).map (partLane dst src n (vb.toNat / 32))).Nodup :=
    (List.nodup_range.filter _).map (partLane_injective ..)
  have hmem : ∀ i, i ∈ (List.range n).filter (Claims.included s vm) ↔ i < n ∧ Claims.included s vm i = true := by simp
  rw [convert_legal hrow hpart, State.withOperands_of_unbound (by simp [hva]) (by simp [hvd]), State.operandValue_of_unbound hva,
    s.included_eq vm hn]
  dsimp only
  obtain ⟨val, mask, hlands, hvalue, hmask⟩ := s.landLanes_eq (w := dst.slot) hw.pos hvd 8
    (l := ((List.range n).filter (Claims.included s vm)).map fun i => (partLane dst src n (vb.toNat / 32) i, dst.convert (mode s i) (alt == 1)
      (src.value (lane (vreg s va) src.slot (partLane src dst n (vb.toNat / 32) i)))))
    (by simpa only [List.map_map, Function.comp_def] using hnodup)
  refine ⟨_, val, mask, rfl, ?sent, fun i hi hin => ?value, fun k hk => ?covers⟩
  case sent =>
    rw [hlands]
    split
    · exact (State.resultsSent_landFlags ..).trans (State.resultsSent_land ..)
    · exact State.resultsSent_landFlags ..
  case value =>
    rw [← NumFmt.convert_code, laneOf_eq_lane (vreg s va)]
    exact hvalue _ (List.mem_map_of_mem ((hmem i).2 ⟨hi, hin⟩)) (partLane_fits hc hrow hpart hi)
  case covers =>
    rw [hmask k hk, decide_eq_true_eq, List.map_map, List.mem_map]
    simp only [hmem, and_assoc, Function.comp_apply, eq_comm]

end

end Sys2Proof.Machine
end

section
/-! O24 settled. -/

namespace Sys2Proof.Proofs

open Sys2Proof.Machine Sys2Proof.Claims

/-- Settles O24: one conversion for every mode. -/
theorem vectorConversions : Obligations.VectorConversions := by
  unfold Obligations.VectorConversions
  intro alt vm vd va vb s
  constructor
  · intro h
    have raises mode := convert_illegal (mode := mode) (alt := alt) (vm := vm) (vd := vd) (va := va) (s := s) h
    exact ⟨raises fun _ _ => .rn, raises fun _ _ => .rz, raises fun _ _ => .ru, raises fun _ _ => .rd,
      raises fun s i => .rs (s.cvtRand i)⟩
  · intro hun src dst n parts hrow hpart p from_ dest el res
    have converts (ins : Instr) (mode : State → Nat → Rm) (hexec : exec ins s = convert mode alt vm vd va vb s) : res ins (mode s) := by
      obtain ⟨t, val, mask, ht, hsent, hvalue, hcovers⟩ := convert_lands (mode := mode) (alt := alt) (vm := vm) (hun va (by simp))
        (hun vd (by simp)) hrow hpart
      obtain ⟨held, agenda, hland, -⟩ := s.land_eq 8 (.v vd.toNat val mask)
      obtain ⟨held', agenda', rfl, hsub⟩ := hsent
      refine ⟨_, val, mask, hexec.trans ht, fun hissuing => hsub ?_, ?_, ?_, ?_, hvalue, hcovers⟩
      · rw [State.land_of_issuing hissuing]
        exact mem_insertItem.2 (.inl rfl)
      all_goals rw [hland]
    exact ⟨converts _ (fun _ _ => .rn) rfl, converts _ (fun _ _ => .rz) rfl, converts _ (fun _ _ => .ru) rfl, converts _ (fun _ _ => .rd) rfl,
      converts _ (fun s i => .rs (s.cvtRand i)) rfl⟩

end Sys2Proof.Proofs
end

section
/-! O25: how an instruction treats the streams bound to its operands (R205, R206, R209). -/

namespace Sys2Proof.Machine

open Sys2Proof.Claims

/-! Which stream is bound. -/

theorem State.lt_of_streamOf {s : State} {c x : Nat} (h : s.streamOf c = some x) : x < 4 :=
  List.mem_range.1 (List.mem_of_find?_eq_some h)

theorem State.getElem?_streams (s : State) {x : Nat} (hx : x < 4) : s.cur.streams.toList[x]? = some s.cur.streams[x] := by simp [hx]

theorem State.reg_of_streamOf {s : State} {c x : Nat} (h : s.streamOf c = some x) (hx : x < 4) : s.cur.streams[x].reg = c := by
  have hfound := List.find?_some h
  rw [s.getElem?_streams hx, Bool.and_eq_true, beq_iff_eq] at hfound
  exact hfound.2

/-- A stream is bound to one register. -/
theorem State.streamOf_inj {s : State} {c d x : Nat} (hc : s.streamOf c = some x) (hd : s.streamOf d = some x) : c = d :=
  (s.reg_of_streamOf hc (s.lt_of_streamOf hc)).symm.trans (s.reg_of_streamOf hd (s.lt_of_streamOf hc))

theorem State.streamOf_congr {s t : State} (h : ∀ x (hx : x < 4), t.cur.streams[x].bound = s.cur.streams[x].bound ∧
    t.cur.streams[x].reg = s.cur.streams[x].reg) (c : Nat) : t.streamOf c = s.streamOf c := by
  unfold State.streamOf
  apply List.find?_congr
  intro x hx
  have hx := List.mem_range.1 hx
  rw [t.getElem?_streams hx, s.getElem?_streams hx]
  dsimp only
  rw [(h x hx).1, (h x hx).2]

/-! Operands of the wrong kind (R206). -/

theorem State.exists_stream_iff {s : State} {c x : Nat} (h : s.streamOf c = some x) (f : StreamReg → Prop) :
    (∃ y st, s.streamOf c = some y ∧ s.cur.streams.toList[y]? = some st ∧ f st) ↔ f (s.cur.streams[x]'(s.lt_of_streamOf h)) := by
  constructor
  · rintro ⟨y, st, hy, hst, hf⟩
    obtain rfl := Option.some.inj (h.symm.trans hy)
    rw [s.getElem?_streams (s.lt_of_streamOf h)] at hst
    exact Option.some.inj hst ▸ hf
  · exact fun hf => ⟨x, _, h, s.getElem?_streams _, hf⟩

theorem State.operand_eq_illegal {s : State} {c : Nat} : s.operand c = .illegal ↔
    ∃ x st, s.streamOf c = some x ∧ s.cur.streams.toList[x]? = some st ∧ st.push = true := by
  rcases Option.eq_none_or_eq_some (s.streamOf c) with h | ⟨x, h⟩
  · rw [State.operand, h]
    exact iff_of_false Operand.noConfusion (by simp)
  · rw [s.exists_stream_iff h fun st => st.push = true, State.operand, h]
    dsimp only
    rw [s.getElem?_streams (s.lt_of_streamOf h)]
    dsimp only
    generalize s.cur.streams[x]'(s.lt_of_streamOf h) = st
    cases hpush : st.push with
    | true => simp
    | false =>
      simp only [Bool.false_eq_true, if_false, iff_false]
      split
      · exact Operand.noConfusion
      · split
        · split
          · exact Operand.noConfusion
          · split <;> exact Operand.noConfusion
        · split <;> exact Operand.noConfusion

theorem State.mayWrite_eq_false {s : State} {c : Nat} {rd : Bool} : s.mayWrite c rd = false ↔
    ∃ x st, s.streamOf c = some x ∧ s.cur.streams.toList[x]? = some st ∧ (st.push = false ∨ rd = true) := by
  rcases Option.eq_none_or_eq_some (s.streamOf c) with h | ⟨x, h⟩
  · simp [State.mayWrite, h]
  · rw [s.exists_stream_iff h fun st => st.push = false ∨ rd = true, State.mayWrite, h]
    dsimp only
    rw [s.getElem?_streams (s.lt_of_streamOf h)]
    simp only [Bool.and_eq_false_iff, Bool.not_eq_false']

theorem nodup_eraseDups (l : List Nat) : l.eraseDups.Nodup := by
  induction h : l.length using Nat.strong_induction_on generalizing l with
  | _ n ih =>
    cases l with
    | nil => exact List.nodup_nil
    | cons c l =>
      rw [List.eraseDups_cons, List.nodup_cons, List.mem_eraseDups]
      have hle := List.length_filter_le (fun b => !b == c) l
      exact ⟨by simp, ih _ (by rw [← h, List.length_cons]; omega) _ rfl⟩

/-! Pops (R205). -/

/-- R205: what a pop leaves of a stream: the next element, or past the end the exhausted bit. -/
def StreamReg.PoppedTo (a b : StreamReg) : Prop :=
  b.bound = a.bound ∧ b.reg = a.reg ∧ (a.k < a.total → b.k = a.k + 1 ∧ b.exh = a.exh) ∧ (a.total ≤ a.k → b.k = a.k ∧ b.exh = true)

theorem State.popReg_spec (s : State) (c : Nat) : ∃ (v : Vector StreamReg 4) (a : List Item) (p : Part),
    s.popReg c = { s with cur := { s.cur with streams := v }, agenda := a, p := p } ∧
    ∀ x (hx : x < 4), (s.streamOf c = some x → s.cur.streams[x].PoppedTo v[x]) ∧ (s.streamOf c ≠ some x → v[x] = s.cur.streams[x]) := by
  unfold State.popReg
  cases h : s.streamOf c with
  | none => exact ⟨s.cur.streams, s.agenda, s.p, rfl, fun x hx => ⟨nofun, fun _ => rfl⟩⟩
  | some y =>
    have hy := s.lt_of_streamOf h
    have hset (st : StreamReg) (hst : s.cur.streams[y].PoppedTo st) (x : Nat) (hx : x < 4) :
        (some y = some x → s.cur.streams[x].PoppedTo (s.cur.streams.set y st)[x]) ∧
        (some y ≠ some x → (s.cur.streams.set y st)[x] = s.cur.streams[x]) := by
      constructor
      · rintro ⟨⟩
        rwa [Vector.getElem_set_self]
      · exact fun hne => Vector.getElem_set_ne _ _ fun h => hne (congrArg some h)
    dsimp only
    rw [dif_pos hy]
    split
    · next hend => exact ⟨_, s.agenda, s.p, rfl, hset _ ⟨rfl, rfl, fun h => by omega, fun _ => ⟨rfl, rfl⟩⟩⟩
    · next hmore =>
      split
      · exact ⟨_, s.agenda, _, rfl, hset _ ⟨rfl, rfl, fun _ => ⟨rfl, rfl⟩, fun h => absurd h hmore⟩⟩
      · obtain ⟨a, ha⟩ := State.expectElem_eq _ _ _
        exact ⟨_, a, s.p, ha, hset _ ⟨rfl, rfl, fun _ => ⟨rfl, rfl⟩, fun h => absurd h hmore⟩⟩

/-- A pop leaves a stream bound where it is. -/
theorem State.streamOf_popped {s t : State} {P : Nat → Prop} (h : ∀ x (hx : x < 4),
    (P x → s.cur.streams[x].PoppedTo t.cur.streams[x]) ∧ (¬ P x → t.cur.streams[x] = s.cur.streams[x])) (c : Nat) :
    t.streamOf c = s.streamOf c := by
  refine State.streamOf_congr (fun x hx => ?_) c
  by_cases hx' : P x
  · exact ⟨((h x hx).1 hx').1, ((h x hx).1 hx').2.1⟩
  · rw [(h x hx).2 hx']
    exact ⟨rfl, rfl⟩

/-- R205: each register named pops its stream once. -/
theorem State.foldl_popReg_spec {s : State} {l : List Nat} (hl : l.Nodup) : ∃ (v : Vector StreamReg 4) (a : List Item) (p : Part),
    l.foldl State.popReg s = { s with cur := { s.cur with streams := v }, agenda := a, p := p } ∧
    ∀ x (hx : x < 4), ((∃ c ∈ l, s.streamOf c = some x) → s.cur.streams[x].PoppedTo v[x]) ∧
      ((¬ ∃ c ∈ l, s.streamOf c = some x) → v[x] = s.cur.streams[x]) := by
  induction l generalizing s with
  | nil => exact ⟨s.cur.streams, s.agenda, s.p, rfl, fun x hx => ⟨by simp, fun _ => rfl⟩⟩
  | cons c l ih =>
    obtain ⟨hc, hl⟩ := List.nodup_cons.1 hl
    obtain ⟨v, a, p, hpop, hv⟩ := s.popReg_spec c
    generalize ht : s.popReg c = t at hpop
    have hcur : t.cur.streams = v := by rw [hpop]
    have hsame : ∀ d, t.streamOf d = s.streamOf d := State.streamOf_popped (P := fun x => s.streamOf c = some x) (hcur ▸ hv)
    obtain ⟨v', a', p', hpops, hv'⟩ := ih (s := t) hl
    simp only [hsame, hcur] at hv'
    refine ⟨v', a', p', ?_, fun x hx => ⟨?_, ?_⟩⟩
    · rw [List.foldl_cons, ht, hpops, hpop]
    · rintro ⟨d, hd, hx'⟩
      rcases List.mem_cons.1 hd with rfl | hd
      · rw [(hv' x hx).2 fun ⟨e, he, hxe⟩ => hc (s.streamOf_inj hxe hx' ▸ he)]
        exact (hv x hx).1 hx'
      · rw [← (hv x hx).2 fun hxc => hc (s.streamOf_inj hxc hx' ▸ hd)]
        exact (hv' x hx).1 ⟨d, hd, hx'⟩
    · intro h
      rw [(hv' x hx).2 fun ⟨d, hd, hxd⟩ => h ⟨d, List.mem_cons_of_mem _ hd, hxd⟩, (hv x hx).2 fun hxc => h ⟨c, List.mem_cons_self, hxc⟩]

/-! Pushes (R206). -/

/-- R206: what a push claimed by a state leaves of its stream and of the pushes in flight: the next element is claimed, or past
the end the exhausted bit is set. -/
def State.PushedTo (s : State) (x : Nat) (a b : StreamReg) (pushes : List Push) : Prop :=
  (a.k < a.total → b.k = a.k + 1 ∧ b.flight = a.flight + 1 ∧
    ∃ y : Push, pushes = s.cur.pushes ++ [y] ∧ y.sq = x ∧ y.pos = a.k ∧ y.born = s.now) ∧
  (a.total ≤ a.k → b.k = a.k ∧ b.exh = true ∧ pushes = s.cur.pushes)

theorem State.claimPush_eq (s : State) {x : Nat} (hx : x < 4) (st : StreamReg) (lat : Nat) : ∃ y : Push,
    s.claimPush x st lat = { s with cur := { s.cur with
      streams := s.cur.streams.set x { st with k := st.k + 1, flight := st.flight + 1 }
      pushes := s.cur.pushes ++ [y] } } ∧ y.sq = x ∧ y.pos = st.k ∧ y.born = s.now := by
  unfold State.claimPush
  rw [dif_pos hx]
  refine ⟨_, rfl, ?_⟩
  split <;> exact ⟨rfl, rfl, rfl⟩

/-- R114, R206: a vector result is sent to its register, or claims the next element of the stream bound to it. -/
theorem State.landV_spec (s : State) (lat c : Nat) (val mask : Vec) :
    ∃ (v : Vector StreamReg 4) (pushes : List Push) (held : List (Nat × RegWrite)) (a : List Item) (p : Part),
      s.landV lat c val mask = { s with cur := { s.cur with streams := v, pushes := pushes, heldV := held }, agenda := a, p := p } ∧
      ∀ x (hx : x < 4), (s.streamOf c = some x → s.PushedTo x s.cur.streams[x] v[x] pushes) ∧
        (s.streamOf c ≠ some x → v[x] = s.cur.streams[x]) := by
  unfold State.landV
  cases h : s.streamOf c with
  | none =>
    obtain ⟨held, a, hland, -⟩ := s.land_eq lat (.v c val mask)
    exact ⟨s.cur.streams, s.cur.pushes, held, a, s.p, hland, fun x hx => ⟨nofun, fun _ => rfl⟩⟩
  | some y =>
    have hy := s.lt_of_streamOf h
    have hset (st : StreamReg) (pushes : List Push) (hst : s.PushedTo y s.cur.streams[y] st pushes) (x : Nat) (hx : x < 4) :
        (some y = some x → s.PushedTo x s.cur.streams[x] (s.cur.streams.set y st)[x] pushes) ∧
        (some y ≠ some x → (s.cur.streams.set y st)[x] = s.cur.streams[x]) := by
      constructor
      · rintro ⟨⟩
        rwa [Vector.getElem_set_self]
      · exact fun hne => Vector.getElem_set_ne _ _ fun h => hne (congrArg some h)
    dsimp only
    rw [dif_pos hy]
    split
    · next hend =>
      exact ⟨_, s.cur.pushes, s.cur.heldV, s.agenda, s.p, rfl, hset _ _ ⟨fun h => by omega, fun _ => ⟨rfl, rfl, rfl⟩⟩⟩
    · next hmore =>
      obtain ⟨p, hp⟩ : ∃ p, (if s.cur.streams[y].port then s.setPort s.cur.loc.cluster (field s.cur.streams[y].w0 25 23) fun q =>
          { q with flight := q.flight + 1 } else s) = { s with p := p } := by
        split
        · exact ⟨_, rfl⟩
        · exact ⟨s.p, rfl⟩
      rw [hp]
      obtain ⟨e, hclaim, hsq, hpos, hborn⟩ := ({ s with p := p } : State).claimPush_eq hy s.cur.streams[y] lat
      rw [hclaim]
      obtain ⟨held, a, hland, -⟩ := State.land_eq _ lat (.push y s.cur.streams[y].k val mask)
      exact ⟨_, _, held, a, p, hland, hset _ _ ⟨fun _ => ⟨rfl, rfl, e, rfl, hsq, hpos, hborn⟩, fun h => absurd h hmore⟩⟩

/-! Instructions with vector operands. -/

/-- `t` is `u` with the results of an instruction on their way: one for its vector destination, if it has one. -/
def State.Delivers (u t : State) : Option Nat → Prop
  | none => u.ResultsSent t
  | some d => ∃ lat val mask, (u.landV lat d val mask).ResultsSent t

section
variable {s : State} {srcs : List (BitVec 7)} {dst : Option (BitVec 7)} {rd : Bool}

theorem State.wrongStream_iff : s.WrongStream (srcs.map (·.toNat)) (dst.map (·.toNat)) rd ↔
    (∃ r ∈ srcs, ∃ x st, s.streamOf r.toNat = some x ∧ s.cur.streams.toList[x]? = some st ∧ st.push = true) ∨
    ∃ r ∈ dst, ∃ x st, s.streamOf r.toNat = some x ∧ s.cur.streams.toList[x]? = some st ∧ (st.push = false ∨ rd = true) := by
  rw [State.WrongStream, or_comm]
  simp only [List.mem_map, exists_exists_and_eq_and, Option.mem_map, State.operand_eq_illegal, State.mayWrite_eq_false]

/-- R206: no stream is both popped and pushed. -/
theorem State.source_ne_destination (h : ¬ s.WrongStream (srcs.map (·.toNat)) (dst.map (·.toNat)) rd) {r d : BitVec 7} (hr : r ∈ srcs)
    (hd : d ∈ dst) {x : Nat} (hx : s.streamOf r.toNat = some x) : s.streamOf d.toNat ≠ some x := by
  intro hdx
  rw [State.wrongStream_iff, not_or] at h
  cases hpush : (s.cur.streams[x]'(s.lt_of_streamOf hx)).push with
  | true => exact h.1 ⟨r, hr, x, _, hx, s.getElem?_streams _, hpush⟩
  | false => exact h.2 ⟨d, hd, x, _, hdx, s.getElem?_streams _, .inl hpush⟩

/-- R205, R206, R209: what every instruction does with the streams of its operands, whatever it computes. -/
theorem streamOperands_of_withOperands {i : Instr} {f : (Nat → Vec) → State → State}
    (hexec : exec i s = .next (s.withOperands (srcs.map (·.toNat)) (dst.map (·.toNat)) rd f))
    (hf : ∀ get u, State.Delivers u (f get u) (dst.map (·.toNat))) : StreamOperands s i srcs dst rd := by
  unfold StreamOperands
  intro bound bad codes ready
  have hbad : s.WrongStream codes (dst.map (·.toNat)) rd ↔ bad := State.wrongStream_iff
  rw [hexec, ← hbad]
  refine ⟨fun h => ?wrong, fun h hready => ?held, fun h hready hpois => ?poisoned, fun h hready hvals => ?completes⟩
  case wrong => rw [State.withOperands_wrong h]
  case held => rw [State.withOperands_held h hready]
  case poisoned =>
    obtain ⟨r, hr, a, ha⟩ := hpois
    obtain ⟨b, hb⟩ := State.withOperands_poisoned h hready f (List.mem_map_of_mem hr) ha
    rw [hb]
    exact ⟨_, _, rfl, rfl, rfl, rfl, rfl, rfl⟩
  case completes =>
    have hvals' : ∀ c ∈ codes, ∃ v, s.operand c = .value v := fun c hc => by
      obtain ⟨r, hr, rfl⟩ := List.mem_map.1 hc
      exact hvals r hr
    rw [State.withOperands_values h hready f hvals']
    obtain ⟨v, a, p, hpops, hv⟩ := State.foldl_popReg_spec (s := s) (nodup_eraseDups codes)
    generalize hu : codes.eraseDups.foldl State.popReg s = u at hpops
    have hsame : ∀ c, u.streamOf c = s.streamOf c :=
      State.streamOf_popped (P := fun x => ∃ c ∈ codes.eraseDups, s.streamOf c = some x) (by rw [hpops]; exact hv)
    have hpop : ∀ r ∈ srcs, ∀ (x : Nat) (hx : x < 4), s.streamOf r.toNat = some x → s.cur.streams[x].PoppedTo v[x] :=
      fun r hr x hx hxr => (hv x hx).1 ⟨r.toNat, List.mem_eraseDups.2 (List.mem_map_of_mem hr), hxr⟩
    have hdeliver := hf s.operandValue u
    refine ⟨_, rfl, ?_⟩
    generalize f s.operandValue u = t at hdeliver
    cases dst with
    | none =>
      obtain ⟨held, agenda, rfl, -⟩ := hdeliver
      rw [hpops]
      exact ⟨rfl, rfl, rfl, rfl, fun r hr x hx hxr => (hpop r hr x hx hxr).2.2, nofun⟩
    | some d =>
      obtain ⟨lat, val, mask, hsent⟩ := hdeliver
      obtain ⟨w, pushes, held, agenda, p', hland, hw⟩ := u.landV_spec lat d.toNat val mask
      obtain ⟨held', agenda', rfl, -⟩ := hsent
      rw [hsame, hpops] at hw
      rw [hland, hpops]
      refine ⟨rfl, rfl, rfl, rfl, fun r hr x hx hxr => ?_, fun r hr x hx hxr => ?_⟩
      · have hkept : w[x] = v[x] := (hw x hx).2 (State.source_ne_destination h hr rfl hxr)
        dsimp only
        rw [hkept]
        exact (hpop r hr x hx hxr).2.2
      · cases hr
        have hkept : v[x] = s.cur.streams[x] := (hv x hx).2 fun ⟨c, hc, hxc⟩ => by
          obtain ⟨r, hr, rfl⟩ := List.mem_map.1 (List.mem_eraseDups.1 hc)
          exact State.source_ne_destination h hr rfl hxc hxr
        have hpush := (hw x hx).1 hxr
        dsimp only at hpush ⊢
        rw [hkept] at hpush
        exact hpush

end

/-! What each kind of meaning delivers. -/

theorem State.delivers_landV (u : State) (lat d : Nat) (val mask : Vec) (lat' : Nat) (fs : FS) :
    u.Delivers ((u.landV lat d val mask).landFlags lat' fs) (some d) := ⟨lat, val, mask, State.resultsSent_landFlags ..⟩

theorem State.delivers_landLanes (u : State) (lat d w : Nat) (l : List (Nat × Nat × FS)) : u.Delivers (u.landLanes lat d w l) (some d) :=
  u.delivers_landV ..

section
variable {i : Instr} {s : State} {vm : BitVec 3} {vd va vb : BitVec 7} {w lat : Nat} {rd : Bool}

theorem streamOperands_vecOp {f : Nat → Nat → Nat → Nat × FS} (hexec : exec i s = vecOp w lat rd vm vd va vb f s) :
    StreamOperands s i [va, vb] (some vd) rd := streamOperands_of_withOperands hexec fun _ u => u.delivers_landLanes ..

theorem streamOperands_vecOp1 {f : Nat → Nat × FS} (hexec : exec i s = vecOp1 w lat vm vd va f s) :
    StreamOperands s i [va] (some vd) false := streamOperands_of_withOperands hexec fun _ u => u.delivers_landLanes ..

theorem streamOperands_vecCmp {f : Nat → Nat → Bool} (hexec : exec i s = vecCmp w lat vm vd va vb f s) :
    StreamOperands s i [va, vb] none false := streamOperands_of_withOperands hexec fun _ u => u.resultsSent_land ..

theorem streamOperands_vecReduce {f : List (Nat × Bool) → Nat × FS} (hexec : exec i s = vecReduce w lat vm vd va f s) :
    StreamOperands s i [va] (some vd) false := streamOperands_of_withOperands hexec fun _ u => u.delivers_landV ..

theorem streamOperands_vecScan {f : List (Nat × Bool) → List (Nat × FS)} (hexec : exec i s = vecScan w lat vm vd va f s) :
    StreamOperands s i [va] (some vd) false := streamOperands_of_withOperands hexec fun _ u => u.delivers_landV ..

theorem streamOperands_convert {mode : State → Nat → Rm} {alt : BitVec 1} {src dst : NumFmt} {n parts : Nat}
    (hrow : cvtRow (vb.toNat % 32) = some (src, dst, n, parts)) (hpart : vb.toNat / 32 < parts)
    (hexec : exec i s = convert mode alt vm vd va vb s) : StreamOperands s i [va] (some vd) false := by
  refine streamOperands_of_withOperands (hexec.trans (convert_legal hrow hpart)) fun get u => ?_
  obtain ⟨lat, val, mask, hsent⟩ := u.delivers_landLanes 8 vd.toNat dst.slot ((u.included vm n).map fun i =>
    (partLane dst src n (vb.toNat / 32) i, dst.convert (mode u i) (alt == 1)
      (src.value (lane (get va.toNat) src.slot (partLane src dst n (vb.toNat / 32) i)))))
  refine ⟨lat, val, mask, ?_⟩
  dsimp only
  split
  · exact hsent.trans (State.resultsSent_land ..)
  · exact hsent

end

/-! Permutes and masks (R198, R199). -/

section
variable {s : State} {vd va vb : BitVec 7} (hun : unbound s [va, vb, vd]) (alt : BitVec 1) (vm : BitVec 3)
include hun

theorem vperm_laneResult :
    let w := (fmtOf alt).width
    ∃ t, execVperm alt vm vd va vb s = .next t ∧ LaneResult s t 6 w vd (Claims.included s vm) fun i =>
      let x := laneOf (vreg s vb) w i
      plain (if x < 512 / w then laneOf (vreg s va) w x else 0) := by
  have hw := laneWidth_fmtOf alt
  simp only [unbound, List.forall_mem_cons] at hun
  obtain ⟨hva, hvb, hvd, -⟩ := hun
  unfold execVperm
  dsimp only
  rw [State.withOperands_of_unbound (by simp [hva, hvb]) (by simp [hvd]), s.included_eq vm hw.lanes_le,
    State.operandValue_of_unbound hva, State.operandValue_of_unbound hvb]
  simp only [laneOf_eq_lane]
  exact ⟨_, rfl, laneResult_landLanes hw hvd 6 (fun _ _ => rfl) _⟩

theorem vshuf_laneResult :
    let w := (fmtOf alt).width
    ∃ t, execVshuf alt vm vd va vb s = .next t ∧ LaneResult s t 6 w vd (Claims.included s vm) fun i =>
      let x := laneOf (vreg s vd) w i
      plain (if x < 512 / w then laneOf (vreg s va) w x else if x < 2 * (512 / w) then laneOf (vreg s vb) w (x - 512 / w) else 0) := by
  have hw := laneWidth_fmtOf alt
  simp only [unbound, List.forall_mem_cons] at hun
  obtain ⟨hva, hvb, hvd, -⟩ := hun
  unfold execVshuf
  dsimp only
  rw [State.withOperands_of_unbound (by simp [hva, hvb]) (by simp [hvd]), s.operand_of_unbound hvd, s.included_eq vm hw.lanes_le,
    State.operandValue_of_unbound hva, State.operandValue_of_unbound hvb]
  simp only [laneOf_eq_lane]
  exact ⟨_, rfl, laneResult_landLanes hw hvd 6 (fun _ _ => rfl) _⟩

end

/-- R199: a mask register as an operand; vm0 reads as all ones. -/
theorem State.maskReg_eq (s : State) {r : BitVec 7} (hr : r.toNat < 8) :
    s.maskReg r.toNat = if r = 0 then BitVec.allOnes 64 else s.cur.vm.toList.getD r.toNat 0 := by
  have hzero : r.toNat = 0 ↔ r = 0 := BitVec.toNat_inj (y := 0#7)
  have hlen : r.toNat < s.cur.vm.toList.length := by simpa using hr
  rw [State.maskReg, if_congr hzero rfl rfl, dif_pos hr, List.getD_eq_getElem _ _ hlen, Vector.getElem_toList]

theorem maskOp_eq {s : State} {va vb : BitVec 7} (ha : va.toNat < 8) (hb : vb.toNat < 8) (f : Word → Word → Word) (vd : BitVec 7) :
    maskOp f vd va vb s = .next (s.land 2 (.vm vd.toNat
      (f (if va = 0 then BitVec.allOnes 64 else s.cur.vm.toList.getD va.toNat 0)
        (if vb = 0 then BitVec.allOnes 64 else s.cur.vm.toList.getD vb.toNat 0)) (BitVec.allOnes 64))) := by
  rw [maskOp, s.maskReg_eq ha, s.maskReg_eq hb]

end Sys2Proof.Machine
end

section
/-! O25 settled. -/

namespace Sys2Proof.Proofs

open Sys2Proof.Machine Sys2Proof.Claims

/-- Settles O25: the meanings of the V slot share one treatment of streams. -/
theorem vectorPermutesAndMasks : Obligations.VectorPermutesAndMasks := by
  unfold Obligations.VectorPermutesAndMasks
  intro alt vm vd va vb s
  refine ⟨fun hun => ?permutes, fun ha hb => ?masks, List.forall_iff_forall_mem.1 ?two, List.forall_iff_forall_mem.1 ?three,
    List.forall_iff_forall_mem.1 ?compares, List.forall_iff_forall_mem.1 ?one, List.forall_iff_forall_mem.1 ?special,
    ?vbcast, ?vins, ?vext, fun a b n k hrow hpart => List.forall_iff_forall_mem.1 ?conversions⟩
  case permutes =>
    have hwidth : (fmtOf alt).width = if alt = 0 then 32 else 64 := by revert alt; decide
    exact hwidth ▸ ⟨vperm_laneResult hun alt vm, vshuf_laneResult hun alt vm⟩
  case masks =>
    have combines f := maskOp_eq (s := s) ha hb f vd
    exact ⟨combines fun x y => x &&& y, combines fun x y => x ||| y, combines fun x y => x ^^^ y, combines fun x y => x &&& ~~~y⟩
  case two =>
    have two {i : Instr} {w lat f} (h : exec i s = vecOp w lat false vm vd va vb f s) := streamOperands_vecOp h
    have ints {i : Instr} {w} {o : LaneOp} (h : exec i s = intOp o w vm vd va vb s) := streamOperands_vecOp (rd := false) h
    have selects : StreamOperands s (.vsel alt vm vd va vb) [va, vb] (some vd) false :=
      streamOperands_of_withOperands rfl fun _ u => u.delivers_landLanes ..
    have permutes : StreamOperands s (.vperm alt vm vd va vb) [va, vb] (some vd) false :=
      streamOperands_of_withOperands rfl fun _ u => u.delivers_landLanes ..
    exact ⟨two (execFadd.eq_1 ..), two (execFsub.eq_1 ..), two (execFmul.eq_1 ..), two (execFmin.eq_1 ..), two (execFmax.eq_1 ..),
      two (execFdiv.eq_1 ..), two (execFsgn.eq_1 ..), two (execHadd.eq_1 ..), two (execHsub.eq_1 ..), two (execHmul.eq_1 ..),
      two (execHmin.eq_1 ..), two (execHmax.eq_1 ..), selects, permutes, ints rfl, ints rfl, ints rfl, ints rfl, ints rfl,
      ints rfl, ints rfl, ints rfl, ints rfl, ints rfl, ints rfl, ints rfl, ints rfl, ints rfl, ints rfl, ints rfl, ints rfl,
      ints rfl, ints rfl, ints rfl, ints rfl, ints rfl, ints rfl, ints rfl, ints rfl, ints rfl, ints rfl, ints rfl, ints rfl,
      ints rfl, ints rfl, ints rfl⟩
  case three =>
    have three {i : Instr} {w lat f} (h : exec i s = vecOp w lat true vm vd va vb f s) := streamOperands_vecOp h
    have dots : StreamOperands s (.hdot alt vm vd va vb) [va, vb] (some vd) true :=
      streamOperands_of_withOperands rfl fun _ u => u.delivers_landLanes ..
    have shuffles : StreamOperands s (.vshuf alt vm vd va vb) [va, vb] (some vd) true :=
      streamOperands_of_withOperands rfl fun _ u => u.delivers_landLanes ..
    exact ⟨three (execFma.eq_1 ..), three (execFms.eq_1 ..), three (execFnma.eq_1 ..), three (execFnms.eq_1 ..),
      three (execHma.eq_1 ..), dots, shuffles⟩
  case compares =>
    have compares {i : Instr} {w lat f} (h : exec i s = vecCmp w lat vm vd va vb f s) := streamOperands_vecCmp h
    exact ⟨compares (execFcmpEq.eq_1 ..), compares (execFcmpLt.eq_1 ..), compares (execFcmpLe.eq_1 ..),
      compares (execFcmpUn.eq_1 ..), compares (execHcmpEq.eq_1 ..), compares (execHcmpLt.eq_1 ..),
      compares (execHcmpLe.eq_1 ..), compares (execVcmpEq.eq_1 ..), compares (execVcmpNe.eq_1 ..),
      compares (execVcmpLt.eq_1 ..), compares (execVcmpGe.eq_1 ..), compares (execVcmpLtw.eq_1 ..),
      compares (execVcmpGew.eq_1 ..)⟩
  case one =>
    have one {i : Instr} {w lat f} (h : exec i s = vecOp1 w lat vm vd va f s) := streamOperands_vecOp1 h
    have reduces {i : Instr} {w lat f} (h : exec i s = vecReduce w lat vm vd va f s) := streamOperands_vecReduce h
    have scans {i : Instr} {w lat f} (h : exec i s = vecScan w lat vm vd va f s) := streamOperands_vecScan h
    exact ⟨one (execFabs.eq_1 ..), one (execFneg.eq_1 ..), one (execFsqrt.eq_1 ..), one (execFclass.eq_1 ..),
      one (execVmov.eq_1 ..), one (execVabs.eq_1 ..), one (execVneg.eq_1 ..), reduces (execFsum.eq_1 ..),
      reduces (execFmaxr.eq_1 ..), reduces (execFminr.eq_1 ..), reduces (execFamaxr.eq_1 ..), scans (execFscan.eq_1 ..),
      reduces (execIsum.eq_1 ..), reduces (execImaxr.eq_1 ..), reduces (execIminr.eq_1 ..), scans (execIscan.eq_1 ..)⟩
  case special =>
    have special {i : Instr} {f : Special} (h : exec i s = specialOp f vm vd va s) := streamOperands_vecOp1 h
    exact ⟨special rfl, special rfl, special rfl, special rfl, special rfl, special rfl, special rfl, special rfl, special rfl⟩
  case vbcast => exact streamOperands_of_withOperands rfl fun _ u => u.delivers_landLanes ..
  case vins => exact streamOperands_of_withOperands rfl fun _ u => u.delivers_landLanes ..
  case vext => exact streamOperands_of_withOperands rfl fun _ u => u.landA_eq ..
  case conversions =>
    have converts {i : Instr} {mode} (h : exec i s = convert mode alt vm vd va vb s) := streamOperands_convert hrow hpart h
    exact ⟨converts (execCvtRn.eq_1 ..), converts (execCvtRz.eq_1 ..), converts (execCvtRu.eq_1 ..), converts (execCvtRd.eq_1 ..),
      converts (execCvtRs.eq_1 ..)⟩

end Sys2Proof.Proofs
end

section
/-! O51: resolving a parked access (R324, R325). -/

namespace Sys2Proof.Machine

open Sys2Proof.Claims

/-! Tables, and threads and partitions as they act. -/

theorem Tab.find_eq_none {α : Type} {k : Nat} {t : Tab α} (h : ∀ x ∈ t, x.1 ≠ k) : Tab.find k t = none := by
  induction t with
  | nil => rfl
  | cons x t ih =>
    obtain ⟨hx, ht⟩ := List.forall_mem_cons.1 h
    rw [Tab.find, if_neg hx, ih ht]

/-- With rising keys an entry that is dropped is gone. -/
theorem Tab.find_drop_self {α : Type} (k : Nat) {t : Tab α} (h : t.Pairwise fun x y => x.1 < y.1) : Tab.find k (Tab.drop k t) = none := by
  induction t with
  | nil => rfl
  | cons x t ih =>
    obtain ⟨hx, ht⟩ := List.pairwise_cons.1 h
    rw [Tab.drop]
    split
    · next heq => exact Tab.find_eq_none fun y hy => by have := hx y hy; omega
    · next hne => rw [Tab.find, if_neg hne, ih ht]

/-- Where the thread belongs to the partition that acts, that partition goes on acting. -/
theorem State.focusThread_p {s : State} {uid : Nat} (h : (s.focusThread uid).cur.part = s.p.first) : (s.focusThread uid).p = s.p := by
  obtain ⟨c, l, htake⟩ := s.takeThread_eq uid
  obtain ⟨q, r, hfocus⟩ := (s.takeThread uid).focusPart_eq (s.takeThread uid).cur.part
  rw [State.focusThread_takeThread] at h ⊢
  split
  · rw [htake]
  · next huid =>
    rw [if_neg huid, hfocus] at h
    rw [State.focusPart_self, htake]
    rw [htake]
    simpa [htake] using h.symm

/-- R17, R208: of the partition, what a bundle gives back is chunks of port queues. -/
theorem State.undoStreams_clusters (s : State) : ∃ k st pu, s.undoStreams = { s with
    p := { s.p with clusters := k }
    cur := { s.cur with streams := st, pushes := pu } } := by
  obtain ⟨k, h⟩ : ∃ k, (List.range 4).foldl State.undoPort s = { s with p := { s.p with clusters := k } } := by
    refine List.foldlRecOn (motive := fun (u : State) => ∃ k, u = { s with p := { s.p with clusters := k } }) _ _ ⟨s.p.clusters, rfl⟩ ?_
    rintro u ⟨k, rfl⟩ x -
    unfold State.undoPort
    split
    · split
      · exact ⟨_, rfl⟩
      · exact ⟨k, rfl⟩
    · exact ⟨k, rfl⟩
  simp only [State.undoStreams, h]
  exact ⟨k, _, _, rfl⟩

/-- R394: of the acting thread a fault that is delivered changes its status and what it has raised. -/
theorem State.startTrap_eq (s : State) (r : Raised) : ∃ q ag, s.startTrap r = { s with
    cur := { s.cur with raised := some q, status := .trapping }
    agenda := ag } ∧ q.kind = r.kind ∧ q.info = r.info ∧ q.pc = r.pc :=
  ⟨_, _, rfl, rfl, rfl, rfl⟩

/-- R17, R391, R404: what a fault of an access leaves; a data poison is counted. -/
theorem State.faultAccess_eq (s : State) (kind : Nat) (info : Word) : ∃ k q st pu ag, s.faultAccess kind info = { s with
    p := { (if kind = 7 then s.count 20 else s).p with clusters := k }
    cur := { s.cur with raised := some q, status := .trapping, heldV := [], streams := st, pushes := pu }
    agenda := ag } ∧ q.kind = kind ∧ q.info = info := by
  obtain ⟨k, st, pu, h⟩ := s.undoStreams_clusters
  unfold State.faultAccess
  rw [h]
  split <;> exact ⟨k, _, st, pu, _, rfl, rfl, rfl⟩

/-! Wait-list entries (R323). -/

/-- With no thread waiting for an entry, one that frees only leaves the list. -/
theorem State.freeWait_eq {s : State} (h : s.p.unlisted = []) (n : Nat) :
    s.freeWait n = { s with p := { s.p with waits := Tab.drop n s.p.waits } } := by
  simp only [State.freeWait, h]

/-! The resolve words. -/

theorem exec_resolveRetry (slot first : Nat) (s : State) :
    exec (.resolveRetry slot first) s = .next (s.resolveOrKeep slot first true) := rfl

theorem exec_resolveFault (slot first : Nat) (s : State) :
    exec (.resolveFault slot first) s = .next (s.resolveOrKeep slot first false) := rfl

section
variable {s f u : State} {slot first : Nat} {e : WaitEntry} {a : Acc} (hf : s.focusPart first = f) (hfirst : f.p.first = first)
  (hentry : f.entryOf slot = some e)

theorem State.entryOf_parked (hwait : Tab.find slot f.p.waits = some e) (hhere : e.here = true) : f.entryOf slot = some e := by
  simp [State.entryOf, hwait, hhere]

section
include hf hfirst

/-- R325: of a pre-empted partition a resolve is noted. -/
theorem State.resolveOrKeep_paused (hpaused : f.p.paused = true) (hentry : f.entryOf slot = some e) (retry : Bool) :
    s.resolveOrKeep slot first retry =
      { f with p := { f.p with waits := Tab.put slot { e with act := if retry then 1 else 2 } f.p.waits } } := by
  simp [State.resolveOrKeep, hf, hfirst, hpaused, hentry]

theorem State.resolveOrKeep_open (hopen : f.p.paused = false) (retry : Bool) : s.resolveOrKeep slot first retry = f.resolve slot retry := by
  simp [State.resolveOrKeep, hf, hfirst, hopen]

end

section
variable (hu : f.focusThread e.uid = u) (huid : u.cur.uid = e.uid) (hmissed : u.cur.missed = some a)
include hentry hu huid hmissed

theorem State.resolve_resends (hstays : e.roaming = false) : f.resolve slot true = (u.resend a).freeWait slot := by
  simp [State.resolve, hentry, hu, huid, hmissed, hstays]

theorem State.resolve_faults (hstays : e.roaming = false) (hrlx : a.rlx = false) :
    f.resolve slot false = (({ u with cur := { u.cur with missed := none } } : State).faultAccess 4 e.va).freeWait slot := by
  simp [State.resolve, hentry, hu, huid, hmissed, hstays, hrlx]

/-- R324: a roaming thread's packet leaves the store for the home of its address, with what it is to find there. -/
theorem State.resolve_travels (hroams : e.roaming = true) (retry : Bool) : ∃ lat n, Takes u 140 lat ∧
    f.resolve slot retry = ((({ u with
      p := { u.p with draws := n }
      cur := { u.cur with status := .migrating, goal := u.homeNow a.va, missed := some { a with bad := if retry then 0 else 4 } } } :
        State).dueIn lat (rankQueue + u.cur.loc.key) (.migrationArrival e.uid false))).freeWait slot := by
  obtain ⟨lat, n, helapse, htakes⟩ := u.elapse_takes 140
  refine ⟨lat, n, htakes, ?_⟩
  simp [State.resolve, hentry, hu, huid, hmissed, hroams, helapse]
  rfl

end

end

/-! What a resolve word leaves. -/

/-- R324: `t` has a wait-list entry free, and memory and the registers of its thread as they were. -/
def Freed (s u t : State) (slot uid : Nat) : Prop :=
  Tab.find slot t.p.waits = none ∧ t.mem = s.mem ∧ t.attr = s.attr ∧ t.cur.uid = uid ∧ t.cur.a = u.cur.a

section
variable {s f u : State} {slot first : Nat} {e : WaitEntry} {a : Acc} (hf : s.focusPart first = f) (hfirst : f.p.first = first)
  (hentry : f.entryOf slot = some e) (hopen : f.p.paused = false) (hu : f.focusThread e.uid = u) (huid : u.cur.uid = e.uid)
  (hpart : u.cur.part = first) (hmissed : u.cur.missed = some a) (hunlisted : f.p.unlisted = [])
  (hsorted : f.p.waits.Pairwise fun x y => x.1 < y.1)

include hf hfirst hu hpart in
/-- The thread that is parked in the entry acts, and nothing else has moved. -/
theorem parked_acts : u.p = f.p ∧ u.mem = s.mem ∧ u.attr = s.attr ∧ u.now = s.now := by
  refine ⟨?_, ?_, ?_, ?_⟩
  · rw [← hu]; exact State.focusThread_p (by rw [hu, hpart, hfirst])
  · rw [← hu, State.focusThread_mem, ← hf, State.focusPart_mem]
  · rw [← hu, State.focusThread_attr, ← hf, State.focusPart_attr]
  · rw [← hu, State.focusThread_now, ← hf, State.focusPart_now]

include hf hfirst hu hpart huid hunlisted hsorted in
/-- What leaves the wait list, memory and the scalar registers alone until the entry frees. -/
theorem freed_freeWait {v : State} (hwaits : v.p.waits = u.p.waits) (hnone : v.p.unlisted = u.p.unlisted) (hmem : v.mem = u.mem)
    (hattr : v.attr = u.attr) (hcur : v.cur.uid = u.cur.uid) (hregs : v.cur.a = u.cur.a) :
    Freed s u (v.freeWait slot) slot e.uid := by
  obtain ⟨hp, hm, ha, -⟩ := parked_acts hf hfirst hu hpart
  rw [State.freeWait_eq (by rw [hnone, hp, hunlisted])]
  refine ⟨?_, hmem.trans hm, hattr.trans ha, hcur.trans huid, hregs⟩
  change Tab.find slot (Tab.drop slot v.p.waits) = none
  rw [hwaits, hp]
  exact Tab.find_drop_self slot hsorted

include hf hfirst hentry hopen hu huid hpart hmissed hunlisted hsorted

/-- R324: a parked load or store is sent again from where its thread stands. -/
theorem resolveRetry_resends (hstays : e.roaming = false) (hrlx : a.rlx = false) (hop : a.op = .load ∨ a.op = .store) :
    ∃ t b, exec (.resolveRetry slot first) s = .next t ∧ Freed s u t slot e.uid ∧ t.cur.status = .access a.id ∧
      t.cur.missed = none ∧ Carries b a.op a.va a.bytes a.sx a.d a.data a.scope a.lat a.id ∧ b.bad = 0 ∧
      Due t (s.now + a.lat / 2) (.accessComplete e.uid (.acc b)) := by
  obtain ⟨hp, -, -, hnow⟩ := parked_acts hf hfirst hu hpart
  obtain ⟨b, hb⟩ : ∃ b, b = { a with bad := 0, stage := 0, due := u.now + a.lat, res := 0 } := ⟨_, rfl⟩
  have hsent : u.resend a = ({ u with cur := { u.cur with missed := none, status := .access a.id } } : State).dueIn (a.lat / 2)
      (rankEngine + u.cur.loc.key) (.accessComplete u.cur.uid (.acc b)) := by
    rcases hop with h | h <;> simp [State.resend, hrlx, h, hb]
  refine ⟨f.resolve slot true, b, by rw [exec_resolveRetry, State.resolveOrKeep_open hf hfirst hopen], ?_⟩
  rw [State.resolve_resends hentry hu huid hmissed hstays, hsent]
  refine ⟨?_, ?_⟩
  · exact freed_freeWait hf hfirst hu huid hpart hunlisted hsorted rfl rfl rfl rfl rfl rfl
  · rw [State.freeWait_eq (by change u.p.unlisted = []; rw [hp, hunlisted]), ← hnow, ← huid]
    subst hb
    exact ⟨rfl, rfl, ⟨rfl, rfl, rfl, rfl, rfl, rfl, rfl, rfl, rfl, rfl⟩, rfl, due_dueAt ..⟩

/-- R324: a parked access ends with an address fault at the address of its entry. -/
theorem resolveFault_faults (hstays : e.roaming = false) (hrlx : a.rlx = false) :
    ∃ t r, exec (.resolveFault slot first) s = .next t ∧ Freed s u t slot e.uid ∧ t.cur.status = .trapping ∧ t.cur.raised = some r ∧
      r.kind = 4 ∧ r.info = e.va := by
  obtain ⟨hp, -, -, -⟩ := parked_acts hf hfirst hu hpart
  obtain ⟨k, q, st, pu, ag, hfault, hkind, hinfo⟩ :=
    ({ u with cur := { u.cur with missed := none } } : State).faultAccess_eq 4 e.va
  refine ⟨f.resolve slot false, q, by rw [exec_resolveFault, State.resolveOrKeep_open hf hfirst hopen], ?_⟩
  rw [State.resolve_faults hentry hu huid hmissed hstays hrlx, hfault]
  refine ⟨?_, ?_⟩
  · exact freed_freeWait hf hfirst hu huid hpart hunlisted hsorted rfl rfl rfl rfl rfl rfl
  · rw [State.freeWait_eq (by change u.p.unlisted = []; rw [hp, hunlisted])]
    exact ⟨rfl, rfl, hkind, hinfo⟩

/-- R324: a roaming thread's packet goes home. -/
theorem resolve_sendsHome {n h : Nat} (hroams : e.roaming = true) (hhome : f.p.home (a.va.toNat % 2 ^ 46) = some (n, h)) (retry : Bool) :
    ∃ t lat, s.resolveOrKeep slot first retry = t ∧ Freed s u t slot e.uid ∧ t.cur.status = .migrating ∧ t.cur.goal = h ∧
      t.cur.missed = some { a with bad := if retry then 0 else 4 } ∧ Takes u 140 lat ∧ Due t (s.now + lat) (.migrationArrival e.uid false) := by
  obtain ⟨hp, -, -, hnow⟩ := parked_acts hf hfirst hu hpart
  obtain ⟨lat, k, htakes, htravels⟩ := State.resolve_travels hentry hu huid hmissed hroams retry
  have hgoal : u.homeNow a.va = h := by
    have hfield : field a.va 45 0 = a.va.toNat % 2 ^ 46 := by simp [field]
    rw [State.homeNow, hfield, hp, hhome]
  rw [hgoal] at htravels
  rw [State.resolveOrKeep_open hf hfirst hopen, htravels]
  refine ⟨_, lat, rfl, ?_, ?_⟩
  · exact freed_freeWait hf hfirst hu huid hpart hunlisted hsorted rfl rfl rfl rfl rfl rfl
  · rw [State.freeWait_eq (by change u.p.unlisted = []; rw [hp, hunlisted]), ← hnow]
    exact ⟨rfl, rfl, rfl, htakes, due_dueAt ..⟩

end

end Sys2Proof.Machine
end

section
/-! O51: a blocked head (R402). -/

namespace Sys2Proof.Machine

open Sys2Proof.Claims

/-- The head of a queue is to be looked at in this cycle. -/
theorem State.due_lookAtHead (s : State) (c : Nat) : Due (s.lookAtHead c) s.now (.taskDispatch s.p.first c) := by
  unfold State.lookAtHead
  dsimp only
  split
  · next h =>
    obtain ⟨⟨cycle, rank, what⟩, hi, hcond⟩ := List.any_eq_true.1 h
    simp only [Bool.and_eq_true, beq_iff_eq] at hcond
    obtain ⟨rfl, rfl⟩ := hcond
    exact ⟨rank, hi⟩
  · exact due_dueAt ..

theorem State.due_leaveQueue (s : State) (c : Nat) : Due (s.leaveQueue c) s.now (.taskDispatch s.p.first c) := by
  have hkeep (u : State) (h : Due u s.now (.taskDispatch s.p.first c)) : Due u.mayRetire s.now (.taskDispatch s.p.first c) := by
    unfold State.mayRetire
    split
    · exact due_mono h (State.agenda_subset_dueAt ..)
    · exact h
  unfold State.leaveQueue
  refine hkeep _ ?_
  split
  · exact State.due_lookAtHead _ c
  · exact State.due_lookAtHead _ c

section
variable {s f : State} {cluster first : Nat} (hf : s.focusPart first = f) (hfirst : f.p.first = first)
  (hblocked : (f.cluster cluster).queue.head = .blocked)
include hf hfirst hblocked

theorem stagingRetry_retries : ∃ t, exec (.stagingRetry cluster first) s = .next t ∧ t.mem = s.mem ∧
    Due t s.now (.taskDispatch first cluster) ∧
    (t.cluster cluster).queue = { (f.cluster cluster).queue with head := .wait } := by
  have hmem : f.mem = s.mem := by rw [← hf, State.focusPart_mem]
  have hnow : f.now = s.now := by rw [← hf, State.focusPart_now]
  refine ⟨(f.onQueue cluster fun q => { q with head := .wait }).lookAtHead cluster, ?_, ?_, ?_, ?_⟩
  · change execStagingRetry cluster first s = _
    simp [execStagingRetry, hf, hfirst, hblocked]
  · rw [State.lookAtHead_mem, State.onQueue_mem, hmem]
  · rw [← hnow, ← hfirst]
    exact State.due_lookAtHead _ cluster
  · rw [State.lookAtHead_cluster, State.onQueue_queue]

theorem stagingDiscard_discards : ∃ t, exec (.stagingDiscard cluster first) s = .next t ∧ t.mem = s.mem ∧
    Due t s.now (.taskDispatch first cluster) ∧
    (t.cluster cluster).queue = { (f.cluster cluster).queue with items := (f.cluster cluster).queue.items.drop 1, head := .wait } := by
  have hmem : f.mem = s.mem := by rw [← hf, State.focusPart_mem]
  have hnow : f.now = s.now := by rw [← hf, State.focusPart_now]
  obtain ⟨hkeeps, -, hqueue⟩ := f.leaveQueue_spec cluster
  refine ⟨f.leaveQueue cluster, ?_, hkeeps.trans hmem, ?_, hqueue⟩
  · change execStagingDiscard cluster first s = _
    simp [execStagingDiscard, hf, hfirst, hblocked]
  · rw [← hnow, ← hfirst]
    exact f.due_leaveQueue cluster

end

end Sys2Proof.Machine
end

section
/-! O51: late faults and late misses (R459). -/

namespace Sys2Proof.Machine

open Sys2Proof.Claims

/-- R323: what the fault ring takes is in its registers, and in what leaves the package. -/
theorem State.ringWrite_eq (s : State) (w : List Word) : ∃ r n l o, s.ringWrite w =
    { s with ring := r, ringProd := n, ringWait := l, out := o } := ringFlush_eq ..

/-- R323: a thread that stands parked is counted, and its entry is that of a thread that is there. -/
theorem State.parkHere_eq {s : State} {n : Nat} {e : WaitEntry} (h : Tab.find n s.p.waits = some e) : ∃ r m l o, s.parkHere n =
    { s with
      cur := { s.cur with status := .parked n }
      p := { (s.count 13).p with waits := Tab.put n { e with here := true } s.p.waits }
      ring := r
      ringProd := m
      ringWait := l
      out := o } := by
  unfold State.parkHere
  rw [h]
  exact State.ringWrite_eq ..

/-- R322, R323: a relaxed access that misses parks its thread where it stands, in the first free entry. -/
theorem State.park_stays {s : State} {a : Acc} {n : Nat} (hrlx : a.rlx = true) (hcontext : s.cur.loc.core ≠ 8)
    (hfree : s.freeEntry = some n) : ∃ e : WaitEntry, e.uid = s.cur.uid ∧ e.va = BitVec.ofNat 64 (a.va.toNat % 2 ^ 56) ∧ s.park a =
      ({ s with cur := { s.cur with missed := some a }, p := { s.p with waits := Tab.put n e s.p.waits } } : State).parkHere n := by
  unfold State.park
  dsimp only
  split
  · next h => exact absurd (h.symm.trans hfree) (by simp)
  · next m h =>
    obtain rfl : m = n := Option.some.inj (h.symm.trans hfree)
    simp only [hrlx, Bool.not_true, Bool.and_false, Bool.false_and, Bool.or_false, beq_eq_false_iff_ne.2 hcontext, Bool.not_false, if_true]
    exact ⟨_, rfl, by simp [field], rfl⟩

section
variable {s f : State} {uid : Nat} (hf : s.focusThread uid = f) (huid : f.cur.uid = uid) (kind : Nat) (info : Word)
include hf huid

/-- R394, R459: a late fault enters its trap. -/
theorem lateFault_traps {r : Raised} (hlate : f.cur.late = some r) : ∃ t q, exec (.lateFault uid kind info none) s = .next t ∧
    t.cur.late = none ∧ t.cur.status = .trapping ∧ t.cur.raised = some q ∧ q.kind = r.kind ∧ q.info = r.info ∧ q.pc = f.cur.pc ∧
    t.cur.a = f.cur.a ∧ t.mem = s.mem := by
  obtain ⟨q, ag, htrap, hkind, hinfo, hpc⟩ :=
    ({ f with cur := { f.cur with late := none } } : State).startTrap_eq { r with pc := f.cur.pc }
  refine ⟨({ f with cur := { f.cur with late := none } } : State).startTrap { r with pc := f.cur.pc }, q, ?_, ?_⟩
  · change execLateFault uid kind info none s = _
    simp [execLateFault, hf, huid, hlate]
  · rw [htrap]
    exact ⟨rfl, rfl, rfl, hkind, hinfo, hpc, rfl, by rw [← hf]; exact State.focusThread_mem ..⟩

/-- R322, R459: a relaxed access that found no translation parks its thread where it stands. -/
theorem lateMiss_parks {a : Acc} {n : Nat} (hrlx : a.rlx = true) (hcontext : f.cur.loc.core ≠ 8) (hfree : f.freeEntry = some n) :
    ∃ t, exec (.lateFault uid kind info (some a)) s = .next t ∧
      t.cur.status = .parked n ∧ t.cur.missed = some a ∧ t.cur.a = f.cur.a ∧ t.mem = s.mem ∧
      ∃ e, Tab.find n t.p.waits = some e ∧ e.uid = uid ∧ e.here = true ∧ e.va = BitVec.ofNat 64 (a.va.toNat % 2 ^ 56) := by
  obtain ⟨e, heuid, hva, hpark⟩ :=
    State.park_stays (s := { f with cur := { f.cur with lateMiss := none } }) hrlx hcontext hfree
  obtain ⟨r, m, l, o, heq⟩ := State.parkHere_eq
    (s := { f with
      cur := { f.cur with lateMiss := none, missed := some a }
      p := { f.p with waits := Tab.put n e f.p.waits } }) (Tab.find_put_self n e f.p.waits)
  refine ⟨({ f with cur := { f.cur with lateMiss := none } } : State).park a, ?_, ?_⟩
  · change execLateFault uid kind info (some a) s = _
    simp [execLateFault, hf, huid]
  · rw [hpark, heq]
    exact ⟨rfl, rfl, rfl, by rw [← hf]; exact State.focusThread_mem .., _, Tab.find_put_self .., heuid.trans huid, rfl, hva⟩

end

end Sys2Proof.Machine
end

section
/-! O51: a packet leaves for another cluster (R317-R319). -/

namespace Sys2Proof.Machine

open Sys2Proof.Claims

/-! What only puts events on the agenda. -/

/-- The head of a queue is looked at by an event. -/
theorem State.lookAtHead_eq (s : State) (c : Nat) : ∃ ag, s.lookAtHead c = { s with agenda := ag } ∧ s.agenda ⊆ ag := by
  unfold State.lookAtHead
  dsimp only
  split
  · exact ⟨s.agenda, rfl, fun _ h => h⟩
  · exact ⟨_, rfl, State.agenda_subset_dueAt ..⟩

theorem State.mayRetire_eq (s : State) : ∃ ag, s.mayRetire = { s with agenda := ag } := by
  unfold State.mayRetire
  split
  · exact ⟨_, rfl⟩
  · exact ⟨s.agenda, rfl⟩

theorem State.lendFrom_eq (s : State) (l : Loc) (c : Nat) : ∃ ag, s.lendFrom l c = { s with agenda := ag } := by
  unfold State.lendFrom
  dsimp only
  split_ifs
  · exact ⟨s.agenda, rfl⟩
  · exact ⟨s.agenda, rfl⟩
  · exact ⟨_, rfl⟩

/-- R75, R318: what a context that is free wakes comes by events. -/
theorem State.contextFreed_eq (s : State) (c : Nat) : ∃ ag, s.contextFreed c = { s with agenda := ag } ∧ s.agenda ⊆ ag := by
  unfold State.contextFreed
  split
  · next u r _ =>
    obtain ⟨ag, h, hsub⟩ := (s.dueIn 0 rankQueue (.migrationArrival u false)).lookAtHead_eq c
    exact ⟨ag, h, fun _ hi => hsub (State.agenda_subset_dueAt _ _ _ _ hi)⟩
  · exact s.lookAtHead_eq c

/-! The packet. -/

/-- R317, R323: a packet is on its way for as long as Table 5.3 says. -/
theorem State.sendPacket_eq (s : State) (goal source key : Nat) : ∃ lat n,
    Takes s (if goal ≠ serviceStore ∧ goal / 12 = source / 12 then 84 else 140) lat ∧ s.sendPacket goal source key =
      ({ s with p := { s.p with draws := n }, cur := { s.cur with status := .migrating, goal := goal } } : State).dueIn lat (rankQueue + key)
        (.migrationArrival s.cur.uid false) := by
  obtain ⟨lat, n, helapse, htakes⟩ := s.elapse_takes (if goal ≠ serviceStore ∧ goal / 12 = source / 12 then 84 else 140)
  refine ⟨lat, n, htakes, ?_⟩
  have hfigure : (if goal = serviceStore then 140 else if dieOf goal = dieOf source then 84 else 140) =
      if goal ≠ serviceStore ∧ goal / 12 = source / 12 then 84 else 140 := by
    by_cases hgoal : goal = serviceStore
    · simp [hgoal]
    · by_cases hdie : goal / 12 = source / 12 <;> simp [dieOf, hgoal, hdie]
  simp only [State.sendPacket, hfigure, helapse]

section
variable {s f : State} {uid : Nat} (hf : s.focusThread uid = f) (huid : f.cur.uid = uid) (hstatus : f.cur.status = .migrating)
include hf

/-- R317: a packet that has left is not sent again. -/
theorem migrationSend_sent (hcore : f.cur.loc.core = 8) : exec (.migrationSend uid) s = .next f := by
  change execMigrationSend uid s = _
  simp [execMigrationSend, hf, hcore]

section
variable (hcore : f.cur.loc.core ≠ 8) (hlate : f.cur.lateMiss = none)
include huid hstatus hcore hlate

theorem execMigrationSend_eq : exec (.migrationSend uid) s = .next
    (if !f.cur.relaxed.isEmpty then f.dueIn 1 (rankIssue + 20000) (.migrationSend uid)
    else if f.cur.goal ≠ serviceStore ∧ f.crowded f.cur.goal then f.dueIn 1 rankDone (.migrationSend uid)
    else ((({ f with
      agenda := f.agenda.filter fun i => !vectorLanding uid i
      cur := f.cur.packed f.cur.loc.cluster } : State).count 12).sendPacket f.cur.goal f.cur.loc.cluster f.cur.loc.key).contextFreed
        f.cur.loc.cluster) := by
  have halone : f.lateAlone = false := by unfold State.lateAlone; rw [hlate]; split <;> simp_all
  change execMigrationSend uid s = _
  simp only [execMigrationSend, hf, huid, hstatus, hcore, halone, not_true_eq_false, false_or, if_false, ne_eq, Bool.false_eq_true]
  split_ifs <;> rfl

/-- R317, R318: with a relaxed access outstanding, or a full interface where it goes, a packet tries again in the next cycle. -/
theorem migrationSend_waits (h : f.cur.relaxed ≠ [] ∨ (f.cur.goal ≠ serviceStore ∧ f.crowded f.cur.goal = true)) :
    ∃ t, exec (.migrationSend uid) s = .next t ∧ t.cur = f.cur ∧ Due t (s.now + 1) (.migrationSend uid) := by
  have hnow : f.now = s.now := by rw [← hf, State.focusThread_now]
  rw [execMigrationSend_eq hf huid hstatus hcore hlate, ← hnow]
  split
  · exact ⟨_, rfl, rfl, due_dueAt ..⟩
  · next hrelaxed =>
    rw [if_pos (h.resolve_left (by simpa using hrelaxed))]
    exact ⟨_, rfl, rfl, due_dueAt ..⟩

/-- R317, R319: a packet leaves with the scalar registers; vector state is zero, and the vector registers are used no more. -/
theorem migrationSend_leaves (hrelaxed : f.cur.relaxed = []) (hroom : f.cur.goal = serviceStore ∨ f.crowded f.cur.goal = false) :
    ∃ t lat, exec (.migrationSend uid) s = .next t ∧ t.cur.uid = uid ∧ t.cur.loc = ⟨f.cur.loc.cluster, 8, 0⟩ ∧ t.cur.status = .migrating ∧
      t.cur.a = f.cur.a ∧ t.cur.pc = f.cur.pc ∧ t.cur.pw = f.cur.pw ||| 0x20000 ∧ t.cur.v = Vector.replicate 128 0 ∧
      t.cur.vm = Vector.replicate 8 0 ∧ t.cur.jobs = [] ∧ t.p.counters[12] = f.p.counters[12] + 1 ∧ t.mem = s.mem ∧
      Takes f (if f.cur.goal ≠ serviceStore ∧ f.cur.goal / 12 = f.cur.loc.cluster / 12 then 84 else 140) lat ∧
      Due t (s.now + lat) (.migrationArrival uid false) := by
  have hnow : f.now = s.now := by rw [← hf, State.focusThread_now]
  have hmem : f.mem = s.mem := by rw [← hf, State.focusThread_mem]
  have hfree : ¬(f.cur.goal ≠ serviceStore ∧ f.crowded f.cur.goal = true) := fun ⟨hgoal, hcrowd⟩ => by
    rcases hroom with h | h
    · exact hgoal h
    · simp [h] at hcrowd
  obtain ⟨lat, n, htakes, hsend⟩ := (({ f with
    agenda := f.agenda.filter fun i => !vectorLanding uid i
    cur := f.cur.packed f.cur.loc.cluster } : State).count 12).sendPacket_eq f.cur.goal f.cur.loc.cluster f.cur.loc.key
  obtain ⟨ag, hfreed, hsub⟩ := State.contextFreed_eq ((({ f with
    agenda := f.agenda.filter fun i => !vectorLanding uid i
    cur := f.cur.packed f.cur.loc.cluster } : State).count 12).sendPacket f.cur.goal f.cur.loc.cluster f.cur.loc.key) f.cur.loc.cluster
  rw [execMigrationSend_eq hf huid hstatus hcore hlate, if_neg (by simp [hrelaxed]), if_neg hfree, hfreed]
  refine ⟨_, lat, rfl, ?_⟩
  rw [hsend] at hsub ⊢
  refine ⟨huid, rfl, rfl, rfl, rfl, rfl, rfl, rfl, rfl, ?_, hmem, htakes, ?_⟩
  · simp [State.count]
  · rw [← hnow]
    refine due_mono ?_ hsub
    rw [← huid]
    exact due_dueAt ..

end

end

end Sys2Proof.Machine
end

section
/-! O51: a packet arrives (R318, R320, R323, R402). -/

namespace Sys2Proof.Machine

open Sys2Proof.Claims

theorem Tab.find_of_mem {α : Type} {k : Nat} {a : α} {t : Tab α} (h : (k, a) ∈ t) : ∃ b, Tab.find k t = some b := by
  induction t with
  | nil => simp at h
  | cons x t ih =>
    rw [Tab.find]
    split
    · exact ⟨_, rfl⟩
    · next hne =>
      refine ih ((List.mem_cons.1 h).resolve_left fun heq => hne ?_)
      rw [← heq]

/-! Free contexts (R63). -/

/-- What leaves queues and roll calls alone frees and takes no context. -/
theorem State.freeContexts_onCluster {g : ClusterPart → ClusterPart} (hqueue : ∀ x, (g x).queue = x.queue)
    (hrolls : ∀ x, (g x).rolls = x.rolls) (s : State) (k c : Nat) : (s.onCluster k g).freeContexts c = s.freeContexts c := by
  have hq (c : Nat) : ((s.onCluster k g).cluster c).queue = (s.cluster c).queue := by
    rw [State.cluster_onCluster]; split
    · exact hqueue _
    · rfl
  have hr (c : Nat) : ((s.onCluster k g).cluster c).rolls = (s.cluster c).rolls := by
    rw [State.cluster_onCluster]; split
    · exact hrolls _
    · rfl
  simp only [State.freeContexts, State.occupied, State.coreFenced, hq, hr]
  rfl

/-- R327: the count of an access is kept with its translation entry. -/
theorem State.countHot_cases (s : State) (off asid : Nat) (q : BitVec 2) : s.countHot off asid q = s ∨
    ∃ home g, s.countHot off asid q = s.onCluster home g ∧ ∀ x : ClusterPart, ∃ l, g x = { x with store := l } := by
  unfold State.countHot
  split
  · exact .inl rfl
  · exact .inr ⟨_, _, rfl, fun _ => ⟨_, rfl⟩⟩

/-- R327: a count leaves the threads, the waiting packets and the free contexts alone. -/
theorem State.countHot_eq (s : State) (off asid : Nat) (q : BitVec 2) : ∃ k, s.countHot off asid q = { s with p := { s.p with clusters := k } } ∧
    ∀ c, ((s.countHot off asid q).cluster c).arrived = (s.cluster c).arrived ∧
      (s.countHot off asid q).freeContexts c = s.freeContexts c := by
  rcases s.countHot_cases off asid q with h | ⟨home, g, h, hg⟩
  · rw [h]; exact ⟨s.p.clusters, rfl, fun _ => ⟨rfl, rfl⟩⟩
  · rw [h]
    refine ⟨_, rfl, fun c => ⟨?_, State.freeContexts_onCluster ?_ ?_ s home c⟩⟩
    · rw [State.cluster_onCluster]
      split
      · obtain ⟨l, hl⟩ := hg (s.cluster c); rw [hl]
      · rfl
    · intro x; obtain ⟨l, hl⟩ := hg x; rw [hl]
    · intro x; obtain ⟨l, hl⟩ := hg x; rw [hl]

/-- R308: an access that is translated as it arrives keeps its packet where it is, with the translation. -/
theorem State.translateArrival_ok {s : State} {a : Acc} {flat : Nat} (hmissed : s.cur.missed = some a) (hbad : a.bad = 0)
    (htranslate : s.p.translate (a.va.toNat % 2 ^ 46) a.asid.toNat (accWrites a.op) = .ok flat) (c : Nat) : ∃ k u,
    s.translateArrival c = (true, u) ∧ u = { s with p := { s.p with clusters := k }, cur := { s.cur with xlat := some (a.va, flat) } } ∧
      (u.cluster c).arrived = (s.cluster c).arrived ∧ u.freeContexts c = s.freeContexts c := by
  have hfield : field a.va 45 0 = a.va.toNat % 2 ^ 46 := by simp [field]
  obtain ⟨k, hcount, hkeeps⟩ := s.countHot_eq (a.va.toNat % 2 ^ 46) a.asid.toNat a.quad
  obtain ⟨harrived, hfree⟩ := hkeeps c
  rw [hcount] at harrived hfree
  refine ⟨k, _, ?_, rfl, harrived, hfree⟩
  simp only [State.translateArrival, hmissed, hbad, hfield, htranslate, hcount, ne_eq, not_true_eq_false, if_false]

/-! A packet takes a context (R318). -/

/-- R318: where one packet waits and a context is free, its thread takes it. -/
theorem serveArrivals_one {s : State} {c : Nat} {l : Loc} {more : List Loc} (harrived : (s.cluster c).arrived = [s.cur.uid])
    (hfree : s.freeContexts c = l :: more) (hpart : s.p.first = s.cur.part) :
    serveArrivals c 1 s = ((s.onCluster c fun x => { x with arrived := [] }).placeThread l).lookAtHead c := by
  have hself : (s.onCluster c fun x => { x with arrived := [] }).focusThread s.cur.uid = s.onCluster c fun x => { x with arrived := [] } :=
    State.focusThread_self rfl hpart
  simp only [serveArrivals, harrived, hfree, hself]
  exact if_pos rfl

/-- R318: a thread whose access was translated issues its bundle again where it has arrived. -/
theorem State.placeThread_eq {s : State} {a : Acc} (hmissed : s.cur.missed = some a) (hbad : a.bad = 0) (l : Loc) : ∃ n ag,
    s.placeThread l = { s with cur := { s.cur with loc := l, missed := none, status := .ready, slotAt := n }, agenda := ag } := by
  obtain ⟨ag, hlend⟩ := ({ s with cur := { s.cur with loc := l, missed := none, status := .ready } } : State).lendFrom_eq l s.now
  obtain ⟨n, ag', hrejoin⟩ :=
    ({ s with cur := { s.cur with loc := l, missed := none, status := .ready }, agenda := ag } : State).rejoin_eq s.now
  refine ⟨n, ag', ?_⟩
  simp only [State.placeThread, hmissed, hbad, hlend, if_true, hrejoin]

/-! A thread is lost (R320, R402). -/

theorem State.report_eq (s : State) (kind va home : Nat) : ∃ r n l o, s.report kind va home =
    { s with ring := r, ringProd := n, ringWait := l, out := o } := s.ringWrite_eq _

/-- R413: the slots a task had pinned are released; no cluster's notice changes. -/
theorem State.unpin_spec (s : State) (pins : List (Nat × Nat × Nat)) : ∃ k ag, s.unpin pins =
    { s with p := { s.p with clusters := k }, agenda := ag } ∧ ∀ c, (Tab.getD .rest c k).notice = (s.cluster c).notice := by
  have hslots : ∃ k, pins.foldl (fun s (cluster, core, slot) => s.unpinSlot cluster core slot) s = { s with p := { s.p with clusters := k } } ∧
      ∀ c, (Tab.getD .rest c k).notice = (s.cluster c).notice := by
    refine List.foldlRecOn (motive := fun (u : State) => ∃ k, u = { s with p := { s.p with clusters := k } } ∧
      ∀ c, (Tab.getD .rest c k).notice = (s.cluster c).notice) _ _ ⟨s.p.clusters, rfl, fun _ => rfl⟩ ?_
    rintro u ⟨k, rfl, hk⟩ ⟨cluster, core, slot⟩ -
    refine ⟨_, rfl, fun c => ?_⟩
    rw [Tab.getD_put, ← hk c]
    split
    · next h => subst h; dsimp only; split <;> rfl
    · rfl
  obtain ⟨k, hk, hnotice⟩ := hslots
  have hheads (v : State) (l : List Nat) : ∃ ag, l.foldl State.lookAtHead v = { v with agenda := ag } := by
    refine List.foldlRecOn (motive := fun (u : State) => ∃ ag, u = { v with agenda := ag }) _ _ ⟨v.agenda, rfl⟩ ?_
    rintro u ⟨ag, rfl⟩ c -
    obtain ⟨ag', h, -⟩ := ({ v with agenda := ag } : State).lookAtHead_eq c
    exact ⟨ag', h⟩
  obtain ⟨ag, hag⟩ := hheads _ _
  exact ⟨k, ag, by rw [State.unpin, hk]; exact hag, hnotice⟩

/-- R320: with no wait-list entry of its own the notice is the cluster's it was sent to. -/
theorem State.loseThread_sent {s : State} (h : ∀ e ∈ s.p.waits, e.2.uid ≠ s.cur.uid) : s.loseThread.cur.uid = 0 ∧
    s.loseThread.threads = s.threads ∧ s.loseThread.mem = s.mem ∧ (s.loseThread.cluster s.cur.goal).notice.getLsbD 9 = true := by
  obtain ⟨r, n, l, o, hreport⟩ := ({ s with cur := .rest } : State).report_eq 24 (field s.cur.geom 55 0) s.cur.goal
  have hnone : s.p.waits.find? (fun e => e.2.uid == s.cur.uid) = none := by simpa [List.find?_eq_none] using h
  obtain ⟨k, ag, hunpin, hnotice⟩ := ((({ s with cur := .rest } : State).report 24 (field s.cur.geom 55 0) s.cur.goal).onCluster s.cur.goal
    fun c => { c with notice := c.notice ||| 0x200 }).unpin_spec s.cur.pins
  have hlost : s.loseThread = (((({ s with cur := .rest } : State).report 24 (field s.cur.geom 55 0) s.cur.goal).onCluster s.cur.goal
      fun c => { c with notice := c.notice ||| 0x200 }).unpin s.cur.pins).mayRetire := by
    simp only [State.loseThread, hnone]
  obtain ⟨ag', hretire⟩ := State.mayRetire_eq (((({ s with cur := .rest } : State).report 24 (field s.cur.geom 55 0) s.cur.goal).onCluster
    s.cur.goal fun c => { c with notice := c.notice ||| 0x200 }).unpin s.cur.pins)
  have hbit := hnotice s.cur.goal
  rw [State.cluster_onCluster_self] at hbit
  rw [hlost, hretire, hunpin, hreport]
  refine ⟨rfl, rfl, rfl, ?_⟩
  change (Tab.getD .rest s.cur.goal k).notice.getLsbD 9 = true
  rw [hbit]
  simp

/-- R320: the wait-list entry it had taken frees. -/
theorem State.loseThread_listed {s : State} {n : Nat} {e : WaitEntry} (h : s.p.waits.find? (fun x => x.2.uid == s.cur.uid) = some (n, e))
    (hunlisted : s.p.unlisted = []) : s.loseThread.cur.uid = 0 ∧ s.loseThread.threads = s.threads ∧ s.loseThread.mem = s.mem ∧
    s.loseThread.p.waits = Tab.drop n s.p.waits := by
  obtain ⟨r, m, l, o, hreport⟩ := ({ s with cur := .rest } : State).report_eq 24 (field s.cur.geom 55 0) e.home
  have hlost : s.loseThread = (((({ s with cur := .rest } : State).report 24 (field s.cur.geom 55 0) e.home).freeWait n).unpin
      s.cur.pins).mayRetire := by
    simp only [State.loseThread, h]
  obtain ⟨k, ag, hunpin, -⟩ := ((({ s with cur := .rest } : State).report 24 (field s.cur.geom 55 0) e.home).freeWait n).unpin_spec s.cur.pins
  obtain ⟨ag', hretire⟩ := State.mayRetire_eq (((({ s with cur := .rest } : State).report 24 (field s.cur.geom 55 0) e.home).freeWait n).unpin
      s.cur.pins)
  rw [hlost, hretire, hunpin, State.freeWait_eq (by rw [hreport]; exact hunlisted), hreport]
  exact ⟨rfl, rfl, rfl, rfl⟩

/-! The arrival. -/

section
variable {s f : State} {uid : Nat} (hf : s.focusThread uid = f) (huid : f.cur.uid = uid) (hstatus : f.cur.status = .migrating)
  (hcore : f.cur.loc.core = 8)
include hf huid hstatus hcore

/-- R308, R318: a packet whose access is translated takes the first free context. -/
theorem migrationArrival_arrives {l : Loc} {more : List Loc} {a : Acc} {flat : Nat} (hpart : f.p.first = f.cur.part)
    (hgoal : f.cur.goal ≠ serviceStore) (harrived : (f.cluster f.cur.goal).arrived = [])
    (hfree : f.freeContexts f.cur.goal = l :: more) (hmissed : f.cur.missed = some a) (hbad : a.bad = 0)
    (htranslate : f.p.translate (a.va.toNat % 2 ^ 46) a.asid.toNat (accWrites a.op) = .ok flat) :
    ∃ t, exec (.migrationArrival uid false) s = .next t ∧ t.cur.uid = uid ∧ t.cur.loc = l ∧ t.cur.status = .ready ∧ t.cur.missed = none ∧
      t.cur.xlat = some (a.va, flat) ∧ t.cur.a = f.cur.a ∧ t.cur.pc = f.cur.pc ∧ t.mem = s.mem := by
  have hmem : f.mem = s.mem := by rw [← hf, State.focusThread_mem]
  obtain ⟨k, u, hstays, hu, hsame, hopen⟩ := State.translateArrival_ok hmissed hbad htranslate f.cur.goal
  obtain ⟨v, hv⟩ : ∃ v, v = u.onCluster f.cur.goal fun c => { c with arrived := c.arrived ++ [uid] } := ⟨_, rfl⟩
  have hwaits : (v.cluster f.cur.goal).arrived = [v.cur.uid] := by
    rw [hv, State.cluster_onCluster_self]
    change (u.cluster f.cur.goal).arrived ++ [uid] = [u.cur.uid]
    rw [hsame, harrived, hu, ← huid]
    rfl
  have hcontexts : v.freeContexts f.cur.goal = l :: more := by
    rw [hv]
    exact (State.freeContexts_onCluster (g := fun c => { c with arrived := c.arrived ++ [uid] }) (fun _ => rfl) (fun _ => rfl) ..).trans
      (hopen.trans hfree)
  obtain ⟨n, ag, hplace⟩ := (v.onCluster f.cur.goal fun x => { x with arrived := [] }).placeThread_eq
    (a := a) (by rw [hv, hu]; exact hmissed) hbad l
  obtain ⟨ag', hlook, -⟩ := ((v.onCluster f.cur.goal fun x => { x with arrived := [] }).placeThread l).lookAtHead_eq f.cur.goal
  refine ⟨serveArrivals f.cur.goal (v.cluster f.cur.goal).arrived.length v, ?_, ?_⟩
  · change execMigrationArrival uid false s = _
    simp [execMigrationArrival, hf, huid, hstatus, hcore, hgoal, harrived, hstays, hv]
  · rw [hwaits, List.length_singleton, serveArrivals_one hwaits hcontexts (by rw [hv, hu]; exact hpart), hlook, hplace, hv, hu]
    exact ⟨huid, rfl, rfl, rfl, rfl, rfl, rfl, hmem⟩

/-- R323: a packet that has reached the store parks its thread there. -/
theorem migrationArrival_parks {n : Nat} {e : WaitEntry} (hgoal : f.cur.goal = serviceStore)
    (hfind : f.p.waits.find? (fun x => x.2.uid == uid) = some (n, e)) :
    ∃ t, exec (.migrationArrival uid false) s = .next t ∧ t.cur.status = .parked n ∧ t.p.counters[13] = f.p.counters[13] + 1 ∧
      t.mem = s.mem := by
  obtain ⟨e', he'⟩ := Tab.find_of_mem (List.mem_of_find?_eq_some hfind)
  obtain ⟨r, m, l, o, hpark⟩ := State.parkHere_eq he'
  refine ⟨f.parkHere n, ?_, ?_⟩
  · change execMigrationArrival uid false s = _
    simp [execMigrationArrival, hf, huid, hstatus, hcore, hgoal, hfind]
  · rw [hpark]
    exact ⟨rfl, by simp [State.count], by rw [← hf]; exact State.focusThread_mem ..⟩

theorem exec_migrationArrival_corrupt : exec (.migrationArrival uid true) s = .next f.loseThread := by
  change execMigrationArrival uid true s = _
  simp [execMigrationArrival, hf, huid, hstatus, hcore]

end

end Sys2Proof.Machine
end

section
/-! O51: a push lands (R206, R209, R304). -/

namespace Sys2Proof.Machine

open Sys2Proof.Claims

/-! Stores of several words. -/

/-- The bytes of a value may be stored in two parts. -/
theorem Memory.writeN_add (m : Memory) (a j k v : Nat) :
    m.writeN a (j + k) v = (m.writeN a j v).writeN (a + j) k (v / 256 ^ j) := by
  induction j generalizing m a v with
  | zero => simp [Memory.writeN]
  | succ j ih =>
    rw [Nat.succ_add, Memory.writeN, ih, Memory.writeN, Nat.div_div_eq_div_mul, ← pow_succ', show a + 1 + j = a + (j + 1) by omega]

/-- What a value has above its bytes is not stored. -/
theorem Memory.writeN_mod (m : Memory) (a n v : Nat) : m.writeN a n (v % 256 ^ n) = m.writeN a n v := by
  induction n generalizing m a v with
  | zero => rfl
  | succ n ih =>
    have hbyte : BitVec.ofNat 8 (v % 256 ^ (n + 1)) = BitVec.ofNat 8 v := by
      apply BitVec.eq_of_toNat_eq
      simp only [BitVec.toNat_ofNat]
      exact Nat.mod_mod_of_dvd v ⟨256 ^ n, by rw [pow_succ']⟩
    have hrest : v % 256 ^ (n + 1) / 256 = v / 256 % 256 ^ n := by rw [pow_succ', Nat.mod_mul_right_div_self]
    rw [Memory.writeN, Memory.writeN, hbyte, hrest, ih]

theorem toNat_lt_pow_bytes {n : Nat} (v : BitVec (8 * n)) : v.toNat < 256 ^ n := by
  rw [show 256 = 2 ^ 8 from rfl, ← Nat.pow_mul]
  exact v.isLt

/-- R206, R240: with every byte written an element is eight stores of words. -/
theorem State.writeElem_whole (s : State) (flat : Nat) (val : Vec) : s.writeElem flat val (BitVec.allOnes 512) =
    (List.range 8).foldl (fun s i => s.store (flat + 8 * i) 8 (val.extractLsb' (64 * i) 64).toNat) s := by
  refine List.foldl_ext _ _ _ fun u i hi => ?_
  have hones : (BitVec.allOnes 512).extractLsb' (64 * i) 64 = BitVec.allOnes 64 := by
    have := List.mem_range.1 hi
    refine BitVec.eq_of_getLsbD_eq fun j hj => ?_
    rw [BitVec.getLsbD_extractLsb', BitVec.getLsbD_allOnes, BitVec.getLsbD_allOnes, decide_eq_true hj, Bool.true_and]
    exact decide_eq_true (by omega)
  have hall : field (BitVec.allOnes 64) 63 0 = 2 ^ 64 - 1 := by decide
  dsimp only
  rw [hones, hall, if_neg (by decide), if_pos rfl]

/-- R206, R263: of memory a whole element changes its 64 bytes, of the acting thread the monitor. -/
theorem State.writeElem_frame (s : State) (flat : Nat) (val : Vec) : ∃ b q a m k l, s.writeElem flat val (BitVec.allOnes 512) = { s with
    mem := s.mem.writeN flat 64 val.toNat
    attr := b
    p := q
    agenda := a
    cur := { s.cur with monitor := m, napAt := k }
    threads := l } := by
  have hwords (n : Nat) : ∃ b q a m k l,
      (List.range n).foldl (fun s i => s.store (flat + 8 * i) 8 (val.extractLsb' (64 * i) 64).toNat) s = { s with
        mem := s.mem.writeN flat (8 * n) val.toNat
        attr := b
        p := q
        agenda := a
        cur := { s.cur with monitor := m, napAt := k }
        threads := l } := by
    induction n with
    | zero => exact ⟨_, _, _, _, _, _, rfl⟩
    | succ n ih =>
      obtain ⟨b, q, a, m, k, l, ih⟩ := ih
      have hword : (val.extractLsb' (64 * n) 64).toNat = val.toNat / 256 ^ (8 * n) % 256 ^ 8 := by
        rw [BitVec.extractLsb'_toNat, Nat.shiftRight_eq_div_pow, show 64 * n = 8 * (8 * n) by omega, Nat.pow_mul, show 2 ^ 8 = 256 from rfl,
          show 2 ^ 64 = 256 ^ 8 from rfl]
      rw [List.range_succ, List.foldl_append, ih, List.foldl_cons, List.foldl_nil]
      obtain ⟨b', q', a', m', k', l', hstore⟩ := State.store_frame _ (flat + 8 * n) 8 (val.extractLsb' (64 * n) 64).toNat
      refine ⟨b', q', a', m', k', l', hstore.trans ?_⟩
      rw [Nat.mul_succ, Memory.writeN_add, hword, Memory.writeN_mod]
  rw [State.writeElem_whole]
  exact hwords 8

/-! What a push that has landed sets going. -/

theorem State.launchPacket_frame (s : State) (p : Packet) (c : Nat) : ∃ n a o, s.launchPacket p c =
    { s with p := { s.p with draws := n }, agenda := a, out := o } := by
  unfold State.launchPacket
  split
  · exact ⟨s.p.draws, s.agenda, _, rfl⟩
  · obtain ⟨lat, n, helapse, -⟩ := s.elapse_takes (if p.dest = s.cur.loc.cluster then 12 else 196)
    rw [helapse]
    exact ⟨n, _, s.out, rfl⟩

/-- R361: of the acting thread a closed packet that leaves changes what is kept of it. -/
theorem State.sendUnsent_frame (s : State) : ∃ n a o x c, s.sendUnsent =
    { s with p := { s.p with draws := n }, agenda := a, out := o, cur := { s.cur with unsent := x, pktLeaves := c } } := by
  unfold State.sendUnsent
  split
  · exact ⟨_, _, _, _, _, rfl⟩
  · split
    · obtain ⟨n, a, o, h⟩ := State.launchPacket_frame _ _ _
      dsimp only
      rw [h]
      exact ⟨n, _, o, _, _, rfl⟩
    · exact ⟨_, _, _, _, _, rfl⟩

/-- R206: a push that is done is outstanding no more. -/
theorem State.pushDone_frame (s : State) {x : Nat} (hx : x < 4) (pos : Nat) : ∃ n a o y c st, s.pushDone x pos = { s with
    p := { s.p with draws := n }
    agenda := a
    out := o
    cur := { s.cur with pushes := s.cur.pushes.filter (fun y => y.sq != x || y.pos != pos), unsent := y, pktLeaves := c, streams := st } } := by
  unfold State.pushDone
  rw [dif_pos hx]
  obtain ⟨n, a, o, y, c, hsent⟩ := State.sendUnsent_frame ({ s with cur := { s.cur with
    pushes := s.cur.pushes.filter fun y => y.sq != x || y.pos != pos
    unsent := s.cur.unsent.map fun (p, b, n) => (p, b, n - 1)
    streams := s.cur.streams.set x { s.cur.streams[x] with flight := s.cur.streams[x].flight - 1 } } } : State)
  dsimp only
  rw [hsent]
  obtain ⟨a', hwake⟩ := State.wakeListed_eq _
  exact ⟨n, a', o, y, c, _, hwake⟩

/-- R304: a chunk that has come feeds a job by an event. -/
theorem State.feedGraph_eq (s : State) (cluster q : Nat) : ∃ a, s.feedGraph cluster q = { s with agenda := a } := by
  unfold State.feedGraph
  dsimp only
  split
  · exact ⟨s.agenda, rfl⟩
  · split
    · split
      · split
        · exact ⟨_, rfl⟩
        · exact ⟨s.agenda, rfl⟩
      · exact ⟨s.agenda, rfl⟩
    · exact ⟨s.agenda, rfl⟩

theorem State.setPort_ports (s : State) (cluster q : Nat) (g : PortQueue → PortQueue) :
    Tab.getD ⟨[], none, 0⟩ q ((s.setPort cluster q g).cluster cluster).ports = g (Tab.getD ⟨[], none, 0⟩ q (s.cluster cluster).ports) := by
  rw [State.setPort, State.cluster_onCluster_self, Tab.getD_put_self]

/-- R304: a chunk that was in flight has come to its queue. -/
def PortQueue.join (q : PortQueue) (c : Chunk) : PortQueue := { q with chunks := q.chunks ++ [c], flight := q.flight - 1 }

/-- The bytes of a chunk that nothing writes (assumption 19). -/
def State.freeChunk (s : State) : Vec :=
  (List.range 8).foldl (fun v i => v ||| ((Config.unstated (s.fresh + i)).setWidth 512 <<< (64 * i))) 0

/-- R304: a chunk has joined the queue of a port stream. -/
def State.joinPort (s : State) (st : StreamReg) (c : Chunk) : State :=
  ({ s with fresh := s.fresh + 8 } : State).setPort s.cur.loc.cluster (field st.w0 25 23) (·.join c)

section
variable {s f : State} {uid sq : Nat} (pos : Nat) (val : Vec) (h : sq < 4) (hf : s.focusThread uid = f) (huid : f.cur.uid = uid)
include h hf huid

/-- R206, R240: a push of a whole element writes it in the thread's store. -/
theorem streamPushLands_writes (hlocal : f.cur.streams[sq].port = false) (hwf : s.mem.wf = true) :
    ∃ t, exec (.streamPushLands uid sq pos val (BitVec.allOnes 512)) s = .next t ∧ OnlyBytes s t (f.elemFlat f.cur.streams[sq] pos) 64 ∧
      t.mem.readN (f.elemFlat f.cur.streams[sq] pos) 64 = val.toNat ∧
      t.cur.pushes = f.cur.pushes.filter (fun y => y.sq != sq || y.pos != pos) ∧ t.cur.v = f.cur.v := by
  have hmem : f.mem = s.mem := by rw [← hf, State.focusThread_mem]
  obtain ⟨b, q, a, m, k, l, hwrite⟩ := f.writeElem_frame (f.elemFlat f.cur.streams[sq] pos) val
  obtain ⟨n, a', o, y, c, st, hdone⟩ :=
    (f.writeElem (f.elemFlat f.cur.streams[sq] pos) val (BitVec.allOnes 512)).pushDone_frame h pos
  refine ⟨(f.writeElem (f.elemFlat f.cur.streams[sq] pos) val (BitVec.allOnes 512)).pushDone sq pos, ?_, ?_⟩
  · change execStreamPushLands uid sq pos val _ s = _
    simp [execStreamPushLands, hf, huid, h, hlocal]
  · rw [hdone, hwrite]
    refine ⟨fun x hx => ?_, ?_, rfl, rfl⟩
    · rw [← hmem]
      exact Memory.read_writeN_outside (by rw [hmem]; exact hwf) hx
    · refine (Memory.readN_writeN (by rw [hmem]; exact hwf)).trans (Nat.mod_eq_of_lt ?_)
      exact toNat_lt_pow_bytes (n := 64) val

/-- R209, R304: a push into a port queue joins it as a chunk. -/
theorem streamPushLands_joins (mask : Vec) (hport : f.cur.streams[sq].port = true) :
    ∃ t c, exec (.streamPushLands uid sq pos val mask) s = .next t ∧ t.mem = s.mem ∧
      t.cur.pushes = f.cur.pushes.filter (fun y => y.sq != sq || y.pos != pos) ∧ c.pois = 0 ∧
      (Tab.getD ⟨[], none, 0⟩ (f.cur.streams[sq].w0.toNat / 2 ^ 23 % 8) (t.cluster f.cur.loc.cluster).ports).chunks =
        (Tab.getD ⟨[], none, 0⟩ (f.cur.streams[sq].w0.toNat / 2 ^ 23 % 8) (f.cluster f.cur.loc.cluster).ports).chunks ++ [c] ∧
      ∀ i, i < 512 → mask.getLsbD i = true → c.data.getLsbD i = val.getLsbD i := by
  have hmem : f.mem = s.mem := by rw [← hf, State.focusThread_mem]
  have hfield : field f.cur.streams[sq].w0 25 23 = f.cur.streams[sq].w0.toNat / 2 ^ 23 % 8 := by simp [field]
  obtain ⟨c, hc⟩ : ∃ c : Chunk, c = ⟨setBits f.freeChunk val mask, 0⟩ := ⟨_, rfl⟩
  have hqueue := State.setPort_ports { f with fresh := f.fresh + 8 } f.cur.loc.cluster (field f.cur.streams[sq].w0 25 23) (·.join c)
  obtain ⟨a, hfeed⟩ := (f.joinPort f.cur.streams[sq] c).feedGraph_eq f.cur.loc.cluster (field f.cur.streams[sq].w0 25 23)
  obtain ⟨n, a', o, y, l, st, hdone⟩ :=
    ((f.joinPort f.cur.streams[sq] c).feedGraph f.cur.loc.cluster (field f.cur.streams[sq].w0 25 23)).pushDone_frame h pos
  refine ⟨((f.joinPort f.cur.streams[sq] c).feedGraph f.cur.loc.cluster (field f.cur.streams[sq].w0 25 23)).pushDone sq pos, c, ?_, ?_⟩
  · change execStreamPushLands uid sq pos val mask s = _
    rw [hc]
    simp [execStreamPushLands, hf, huid, h, hport]
    rfl
  · rw [hdone, hfeed]
    refine ⟨hmem, rfl, by rw [hc], ?_, fun i hi hbit => ?_⟩
    · rw [← hfield]
      exact congrArg PortQueue.chunks hqueue
    · rw [hc, getLsbD_setBits _ _ _ hi, if_pos hbit]

end

end Sys2Proof.Machine
end

section
/-! O51: a host load without a completion (R404), the chunks of a port queue (R304), soft errors (R240, R244). -/

namespace Sys2Proof.Machine

open Sys2Proof.Claims

/-! A host load that gets no completion. -/

@[simp] theorem State.focusThread_agenda (s : State) (uid : Nat) : (s.focusThread uid).agenda = s.agenda := by
  obtain ⟨c, l, q, r, h⟩ := s.focusThread_eq uid; rw [h]

/-- R404: the access of a load that waits too long ends with a data poison, which is counted. -/
theorem hostTimeout_faults {s f : State} {uid id cycle r off : Nat} {a : Acc} {pre post : List Item} (hf : s.focusThread uid = f)
    (huid : f.cur.uid = uid) (h0 : uid ≠ 0) (hagenda : s.agenda = pre ++ ⟨cycle, r, .ev (.accessComplete uid (.acc a))⟩ :: post)
    (hpre : ∀ i ∈ pre, ∀ b, i.what = .ev (.accessComplete uid (.acc b)) → b.id ≠ id) (hid : a.id = id) (hop : a.op = .load)
    (hrlx : a.rlx = false) (hstatus : f.cur.status = .access id) (hroute : f.route a.va a.bytes = .ok (.host off)) :
    ∃ t q, exec (.hostTimeout uid id) s = .next t ∧ t.cur.status = .trapping ∧ t.cur.raised = some q ∧ q.kind = 7 ∧ q.info = a.va ∧
      t.p.counters[20] = f.p.counters[20] + 1 ∧ t.cur.a = f.cur.a ∧ t.mem = s.mem := by
  have hfound : f.agenda.findSome? (fun i => match i.what with
      | .ev (.accessComplete u (.acc b)) => if u = uid ∧ b.id = id then some b else none
      | _ => none) = some a := by
    have hnone : pre.findSome? (fun i => match i.what with
        | .ev (.accessComplete u (.acc b)) => if u = uid ∧ b.id = id then some b else none
        | _ => none) = none := by
      refine List.findSome?_eq_none_iff.2 fun i hi => ?_
      split
      · next u b hwhat => exact if_neg fun ⟨hu, hb⟩ => hpre i hi b (hu ▸ hwhat) hb
      · rfl
    rw [← hf, State.focusThread_agenda, hagenda, List.findSome?_append, hnone, Option.none_or, List.findSome?_cons]
    simp [hid]
  obtain ⟨u, hu⟩ : ∃ u, u = ({ f with agenda := f.agenda.filter fun i => i.what != Task.ev (.accessComplete uid (.acc a)) } : State) :=
    ⟨_, rfl⟩
  obtain ⟨k, q, st, pu, ag, hfault, hkind, hinfo⟩ := u.faultAccess_eq 7 a.va
  refine ⟨u.faultAccess 7 a.va, q, ?_, ?_⟩
  · have hlive : f.liveAccess a = true := State.liveAccess_of_status (hstatus.trans (by rw [hid]))
    change execHostTimeout uid id s = _
    unfold execHostTimeout
    dsimp only
    rw [hf]
    generalize hmine : f.agenda.findSome? _ = mine
    obtain rfl : mine = some a := hmine.symm.trans hfound
    simp [huid, h0, hroute, hop, hlive, State.endAccess, hrlx, hu]
  · rw [hfault, hu]
    exact ⟨rfl, rfl, hkind, hinfo, by simp [State.count], rfl, by rw [← hf]; exact State.focusThread_mem ..⟩

/-! The chunks of a line (R304). -/

/-- R272: what follows an access of a job changes jobs and the agenda. -/
theorem State.settleJob_eq (s : State) (j : Job) : ∃ l a, s.settleJob j = { s with p := { s.p with jobs := l }, agenda := a } := by
  unfold State.settleJob
  dsimp only
  split
  · exact ⟨_, _, rfl⟩
  · exact ⟨_, s.agenda, rfl⟩

/-- R307: with no pre-emption nothing is kept. -/
theorem State.keepStopped_none {s : State} (h : s.p.ppState = 0) (i : Item) : s.keepStopped i = none := by
  unfold State.keepStopped
  split
  · simp [Part.paused, h]
  · rfl

/-- R304: the two chunks of a line have entered a queue. -/
def PortQueue.enter (q : PortQueue) (line : Line) (pois : BitVec 16) : PortQueue := { q with chunks := q.chunks ++
  [⟨line.setWidth 512, pois.setWidth 8⟩, ⟨(line >>> 512).setWidth 512, (pois >>> 8).setWidth 8⟩] }

theorem PortQueue.enter_chunks (q : PortQueue) (line : Line) (pois : BitVec 16) : (q.enter line pois).chunks = q.chunks ++
    [⟨line.extractLsb' 0 512, pois.extractLsb' 0 8⟩, ⟨line.extractLsb' 512 512, pois.extractLsb' 8 8⟩] := by
  simp only [PortQueue.enter, List.append_cancel_left_eq, List.cons.injEq, Chunk.mk.injEq, and_true]
  refine ⟨⟨?_, ?_⟩, ?_, ?_⟩ <;> rw [← BitVec.setWidth_ushiftRight_eq_extractLsb] <;> simp

/-- R304: an output line of a job has come. -/
def Job.wroteLine (j : Job) (now : Nat) : Job :=
  { j with lastAcc := now, graph := { j.graph with wrote := j.graph.wrote + 1 } }

section
variable {s f : State} {first cluster q key : Nat} (line : Line) (pois : BitVec 16) {j : Job} (hf : s.focusPart first = f)
  (hfirst : f.p.first = first) (hjob : f.job key = some j) (hcode : j.code = 0) (hpp : f.p.ppState = 0)
include hf hfirst hjob hcode hpp

/-- R304: where both chunks of an output line fit they join the queue. -/
theorem portQueueChunkEnters_enters (hroom : (Tab.getD ⟨[], none, 0⟩ q (f.cluster cluster).ports).chunks.length +
      (Tab.getD ⟨[], none, 0⟩ q (f.cluster cluster).ports).flight ≤ 14) :
    ∃ t, exec (.portQueueChunkEnters first cluster q key line pois) s = .next t ∧ t.mem = s.mem ∧
      (Tab.getD ⟨[], none, 0⟩ q (t.cluster cluster).ports).chunks = (Tab.getD ⟨[], none, 0⟩ q (f.cluster cluster).ports).chunks ++
        [⟨line.extractLsb' 0 512, pois.extractLsb' 0 8⟩, ⟨line.extractLsb' 512 512, pois.extractLsb' 8 8⟩] := by
  obtain ⟨l, a, hsettle⟩ := (f.setPort cluster q (·.enter line pois)).settleJob_eq (j.wroteLine f.now)
  refine ⟨(f.setPort cluster q (·.enter line pois)).settleJob (j.wroteLine f.now), ?_, ?_, ?_⟩
  · change execPortQueueChunkEnters first cluster q key line pois s = _
    unfold execPortQueueChunkEnters
    dsimp only
    rw [hf, hjob]
    dsimp only
    rw [if_neg (by simp [hfirst, hcode]), State.keepStopped_none hpp]
    exact if_neg (by omega)
  · rw [hsettle]
    exact (by rw [← hf, State.focusPart_mem] : f.mem = s.mem)
  · rw [hsettle]
    exact (congrArg PortQueue.chunks (f.setPort_ports cluster q (·.enter line pois))).trans (PortQueue.enter_chunks ..)

/-- R304: a line that does not fit tries again in the next cycle. -/
theorem portQueueChunkEnters_waits (hfull : 14 < (Tab.getD ⟨[], none, 0⟩ q (f.cluster cluster).ports).chunks.length +
      (Tab.getD ⟨[], none, 0⟩ q (f.cluster cluster).ports).flight) :
    ∃ t, exec (.portQueueChunkEnters first cluster q key line pois) s = .next t ∧ t.p = f.p ∧
      Due t (s.now + 1) (.portQueueChunkEnters first cluster q key line pois) := by
  refine ⟨f.dueIn 1 (rankThread - 3) (.portQueueChunkEnters first cluster q key line pois), ?_, rfl, ?_⟩
  · change execPortQueueChunkEnters first cluster q key line pois s = _
    unfold execPortQueueChunkEnters
    dsimp only
    rw [hf, hjob]
    dsimp only
    rw [if_neg (by simp [hfirst, hcode]), State.keepStopped_none hpp]
    exact if_pos (by omega)
  · rw [← (by rw [← hf, State.focusPart_now] : f.now = s.now)]
    exact due_dueAt ..

end

/-! Soft errors. -/

theorem State.wakeTurn_eq (s : State) (flat : Nat) : ∃ a, s.wakeTurn flat = { s with agenda := a } := by
  unfold State.wakeTurn State.wakeList
  dsimp only
  split_ifs
  · exact ⟨s.agenda, rfl⟩
  · exact ⟨s.agenda, rfl⟩
  · exact ⟨_, rfl⟩

/-- R16, R240: what is kept of a word is one for all its bytes, and apart from that of other words. -/
theorem State.attrOf_setAttr {s : State} (hwf : s.attr.wf = true) {flat : Nat} (hflat : flat < flatHostBase) (b : Byte) (x : Nat) :
    (s.setAttr flat b).attrOf x = if x / 8 = flat / 8 then b else s.attrOf x := by
  have hhost : flatHostBase = 2 ^ 64 := rfl
  unfold State.attrOf
  rw [State.setAttr, if_pos hflat]
  split
  · refine (Memory.read_write hwf).trans ?_
    unfold wordOf
    split_ifs
    · rfl
    · omega
    · omega
    · rfl
  · rw [if_neg (by omega)]

theorem errorAttr_first : ∀ a : Byte, a &&& 0xE = 0 → errorAttr a false = a ||| 4 ∧ ((a ||| 4) &&& 0xA != 0) = false := by decide

theorem errorAttr_second : ∀ a : Byte, ∀ unc : Bool, unc = true ∨ a &&& 4 ≠ 0 → (errorAttr a unc &&& 0xA != 0) = true := by decide

theorem errorAttr_poisoned {a : Byte} (h : (a &&& 0xA != 0) = true) (unc : Bool) : errorAttr a unc = a := if_pos h

theorem hasCheckBits_of {addr : Nat} (h : (addr / 2 ^ 34 < 48 ∧ addr % 2 ^ 34 < 0x300000000) ∨ (2 ^ 40 ≤ addr ∧ addr < 2 ^ 42)) :
    hasCheckBits addr = true ∧ addr < flatHostBase := by
  have hlocal : flatLocalBase = 2 ^ 40 := rfl
  have hsram : flatSramBase = 2 ^ 41 := rfl
  have hacc : flatAccBase = 2 ^ 42 := rfl
  have hhost : flatHostBase = 2 ^ 64 := rfl
  refine ⟨?_, by omega⟩
  rcases h with ⟨hctl, hoff⟩ | ⟨hlow, hhigh⟩
  · have hin : addr < flatLocalBase := by omega
    have hexists : hbmExists addr = true := by rw [hbmExists, decide_eq_true hctl, decide_eq_true hoff]; rfl
    simp [hasCheckBits, hin, hexists]
  · rcases Nat.lt_or_ge addr flatSramBase with hlt | hge
    · simp [hasCheckBits, localOf, hlt, show flatLocalBase ≤ addr by omega]
    · simp [hasCheckBits, hge, show addr < flatAccBase by omega]

/-- R240, R244: an error changes what is kept of its word only. -/
theorem softError_marks {s : State} {addr : Nat} (unc : Bool) (hwf : s.attr.wf = true)
    (h : (addr / 2 ^ 34 < 48 ∧ addr % 2 ^ 34 < 0x300000000) ∨ (2 ^ 40 ≤ addr ∧ addr < 2 ^ 42)) :
    ∃ t, exec (.softError addr unc) s = .next t ∧ t.mem = s.mem ∧
      ∀ x, t.attrOf x = if x / 8 = addr / 8 then errorAttr (s.attrOf addr) unc else s.attrOf x := by
  obtain ⟨hbits, hin⟩ := hasCheckBits_of h
  obtain ⟨a, hwake⟩ := (s.setAttr addr (errorAttr (s.attrOf addr) unc)).wakeTurn_eq (wordOf addr)
  refine ⟨(s.setAttr addr (errorAttr (s.attrOf addr) unc)).wakeTurn (wordOf addr), ?_, ?_, ?_⟩
  · change execSoftError addr unc s = _
    rw [execSoftError, if_pos hbits]
  · rw [hwake, State.setAttr_eq]
  · rw [hwake]
    exact State.attrOf_setAttr hwf hin _

end Sys2Proof.Machine
end

section
/-! O51 settled. -/

namespace Sys2Proof.Proofs

open Sys2Proof.Machine Sys2Proof.Claims

/-- Settles O51: what each event leaves is read off the frames of the operations it is made of: an entry that frees, a
packet on its way, a thread that stands parked, the stores of an element. -/
theorem parkedAndMigratingThreads : Obligations.ParkedAndMigratingThreads := by
  unfold Obligations.ParkedAndMigratingThreads
  refine ⟨?_, ?_, ?_, ?_, ?_, ?_, ?_, ?_⟩
  · intro slot first e a s f u hfirst _ hwait hhere
    have hentry := State.entryOf_parked hwait hhere
    refine ⟨fun hpaused => ⟨⟨_, ?_, rfl⟩, _, ?_, rfl⟩, fun hopen huid _ hpart hmissed hunlisted hsorted hrlx => ⟨?_, ?_, ?_⟩⟩
    · rw [exec_resolveRetry, State.resolveOrKeep_paused rfl hfirst hpaused hentry]; rfl
    · rw [exec_resolveFault, State.resolveOrKeep_paused rfl hfirst hpaused hentry]; rfl
    · exact fun hstays hop => resolveRetry_resends rfl hfirst hentry hopen rfl huid hpart hmissed hunlisted hsorted hstays hrlx hop
    · exact fun hstays => resolveFault_faults rfl hfirst hentry hopen rfl huid hpart hmissed hunlisted hsorted hstays hrlx
    · intro n h hroams hhome
      have hsent := resolve_sendsHome rfl hfirst hentry hopen rfl huid hpart hmissed hunlisted hsorted hroams hhome
      obtain ⟨t, lat, ht, hleft⟩ := hsent true
      obtain ⟨t', lat', ht', hleft'⟩ := hsent false
      exact ⟨⟨t, lat, congrArg _ ht, hleft⟩, t', lat', congrArg _ ht', hleft'⟩
  · exact fun cluster first s hfirst hblocked => ⟨stagingRetry_retries rfl hfirst hblocked, stagingDiscard_discards rfl hfirst hblocked⟩
  · intro uid s f goal huid h0 hstatus hpart
    refine ⟨?_, ?_, ?_, ?_, ?_, ?_, ?_⟩
    · exact fun hcore hlate hrelaxed hroom => migrationSend_leaves rfl huid hstatus hcore hlate hrelaxed hroom
    · exact fun hcore hlate h => migrationSend_waits rfl huid hstatus hcore hlate h
    · exact fun hcore => migrationSend_sent rfl hcore
    · exact fun l more a flat hcore hgoal harrived hfree hmissed hbad htranslate =>
        migrationArrival_arrives rfl huid hstatus hcore hpart hgoal harrived hfree hmissed hbad htranslate
    · exact fun n e hcore hgoal hfind => migrationArrival_parks rfl huid hstatus hcore hgoal hfind
    · intro hcore hnone
      obtain ⟨hgone, hthreads, hmem, hnotice⟩ := State.loseThread_sent (s := f) fun e he => huid ▸ hnone e he
      exact ⟨_, exec_migrationArrival_corrupt rfl huid hstatus hcore, hgone, fun x hx => hthreads ▸ hx, hmem.trans (s.focusThread_mem uid),
        hnotice⟩
    · intro n e hcore hfind hunlisted hsorted
      obtain ⟨hgone, hthreads, hmem, hwaits⟩ := State.loseThread_listed (s := f) (by rw [huid]; exact hfind) hunlisted
      exact ⟨_, exec_migrationArrival_corrupt rfl huid hstatus hcore, hgone, fun x hx => hthreads ▸ hx, hmem.trans (s.focusThread_mem uid),
        by rw [hwaits]; exact Tab.find_drop_self n hsorted⟩
  · intro uid kind info s f huid _
    exact ⟨fun r hlate => lateFault_traps rfl huid kind info hlate,
      fun a n hrlx hcore hfree => lateMiss_parks rfl huid kind info hrlx hcore hfree⟩
  · intro uid sq pos val mask s h f st huid _
    refine ⟨fun hlocal hmask hwf => ?_, fun hport => streamPushLands_joins pos val h rfl huid mask hport⟩
    rw [hmask]
    exact streamPushLands_writes pos val h rfl huid hlocal hwf
  · exact fun uid id cycle r off a pre post s huid h0 hagenda hpre hid hop hrlx hstatus hroute =>
      hostTimeout_faults rfl huid h0 hagenda hpre hid hop hrlx hstatus hroute
  · exact fun first cluster q key line pois j s hfirst hjob hcode hpp =>
      ⟨portQueueChunkEnters_enters line pois rfl hfirst hjob hcode hpp, portQueueChunkEnters_waits line pois rfl hfirst hjob hcode hpp⟩
  · intro addr unc s hwf hin
    obtain ⟨t, hexec, hmem, hattr⟩ := softError_marks unc hwf hin
    have haddr : t.attrOf addr = errorAttr (s.attrOf addr) unc := (hattr addr).trans (if_pos rfl)
    refine ⟨t, hexec, hmem, fun x hx => (hattr x).trans (if_neg hx), ?_, fun h => ?_, fun hpois => ?_⟩
    · rintro hclear rfl
      obtain ⟨hfirst, hgood⟩ := errorAttr_first _ hclear
      rw [State.poisoned, haddr, hfirst]
      exact ⟨rfl, hgood⟩
    · rw [State.poisoned, haddr]
      exact errorAttr_second _ unc h
    · rw [haddr, errorAttr_poisoned hpois]

end Sys2Proof.Proofs
end

section
/-! Timed words at issue (R211-R214): their operands, the engine they occupy, the word that is kept, the ports they book and what
they have due. -/

namespace Sys2Proof.Machine

open Sys2Proof.Claims

/-! Operands and engines (R211, R214). -/

theorem ofNat_toNat_word (v : Word) : BitVec.ofNat 64 v.toNat = v := by simp

section
variable {s : State} {v : Word} {n al : Nat}

theorem State.sramArg_of_inSram (h : InSram v n al) (f : Nat → State) : s.sramArg v n al f = f v.toNat := by
  obtain ⟨halign, hin⟩ := h
  simp only [State.sramArg, sramOperand, if_pos (show v.toNat < 2 ^ 23 ∧ v.toNat % al = 0 ∧ v.toNat + n ≤ 0x600000 by omega)]

theorem State.sramArg_of_not_inSram (h : ¬ InSram v n al) (f : Nat → State) : s.sramArg v n al f = s.tileFault 4 v := by
  have hout : ¬ (v.toNat < 2 ^ 23 ∧ v.toNat % al = 0 ∧ v.toNat + n ≤ 0x600000) := fun hin => h hin.2
  simp only [State.sramArg, sramOperand, if_neg hout]

/-- Operands that are all in range are taken in turn. -/
theorem State.sramArgs_of_inSram {l : List (Word × Nat × Nat)} (h : ∀ x ∈ l, InSram x.1 x.2.1 x.2.2) (f : List Nat → State) :
    s.sramArgs l f = f (l.map (·.1.toNat)) := by
  induction l generalizing f with
  | nil => rfl
  | cons x l ih =>
    rw [State.sramArgs, State.sramArg_of_inSram (h x (by simp)), ih fun y hy => h y (by simp [hy])]
    rfl

theorem State.hbmArg_of_inHbm (h : InHbm s v) (f : Nat → State) : s.hbmArg v f = f (v.toNat % 2 ^ 46) := by
  obtain ⟨htop, hspace, hpkg, halign⟩ := h
  simp only [BitVec.extractLsb'_toNat, Nat.shiftRight_eq_div_pow] at hspace hpkg
  have hchecks : field v 63 56 = 0 ∧ field v 47 46 = 0 ∧ field v 55 48 = s.ownPkg ∧ v.toNat % 128 = 0 :=
    ⟨by rw [field]; omega, hspace, hpkg, halign⟩
  rw [State.hbmArg, if_pos hchecks, field, pow_zero, Nat.div_one]

theorem State.dataWord_of_free {recv : Bool} (h : EngineFree s recv) (f : State → State) : s.dataWord recv f = f s :=
  if_neg (Nat.not_lt.2 h.2)

theorem State.dataWord_of_busy (h : s.plan < s.stream.busy) (f : State → State) : s.dataWord false f = s.tileFault 16 0 := if_pos h

end

/-! The stream that acts. -/

theorem State.stream_eq_getElem {s : State} (h : s.tstream < 7) : s.stream = s.tl.streams[s.tstream] := by
  simp [State.stream, h]

theorem State.stream_onStream {s : State} (h : s.tstream < 7) (g : TStream → TStream) : (s.onStream s.tstream g).stream = g s.stream := by
  rw [State.stream_eq_getElem h]
  simp [State.stream, State.onStream, h]

theorem State.occupy_eq (s : State) (recv : Bool) (n : Nat) : ∃ x,
    s.occupy recv n = { s with tl := { s.tl with streams := x } } := s.onStream_eq ..

/-! What is put off (R212, R213): ports that are booked, and more that is due. -/

/-- Ports of the acting tile are booked in `t` and more may be due, conflicts among it; nothing else differs from `s`. -/
def State.Books (s t : State) : Prop := ∃ n q u, s.p.run.tq ⊆ q ∧
  t = { s with fresh := n, p := { s.p with run := { s.p.run with tq := q } }, tl := { s.tl with uses := u } }

namespace State.Books

theorem refl (s : State) : s.Books s := ⟨_, _, _, fun _ h => h, rfl⟩

theorem trans {s t u : State} (h : s.Books t) (k : t.Books u) : s.Books u := by
  obtain ⟨n, q, u, hq, rfl⟩ := h
  obtain ⟨n', q', u', hq', rfl⟩ := k
  exact ⟨n', q', u', fun _ h => hq' (hq h), rfl⟩

theorem bookBank (s : State) (tick : Nat) (operand : Bool) (bank word : Nat) : s.Books (s.bookBank tick operand bank word) := by
  unfold State.bookBank
  dsimp only
  split
  · exact ⟨_, _, _, fun _ h => h, rfl⟩
  · exact ⟨_, _, _, fun _ h => mem_insertItem.2 (.inr h), rfl⟩

theorem book (s : State) (tick : Nat) (operand : Bool) (off word : Nat) : s.Books (s.book tick operand off word) := bookBank ..

theorem foldl {α : Type} {g : State → α → State} (hg : ∀ (s : State) x, s.Books (g s x)) (l : List α) (s : State) :
    s.Books (l.foldl g s) := by
  induction l generalizing s with
  | nil => exact refl s
  | cons x l ih => exact (hg s x).trans (ih _)

theorem bookBytes (s : State) (tick : Nat) (operand : Bool) (off n word : Nat) : s.Books (s.bookBytes tick operand off n word) :=
  foldl (fun s _ => book s ..) _ s

end State.Books

/-- `t` is `s` with more due, ports booked in the acting tile and in others, and the time of the acting stream's last effect;
nothing else differs. -/
structure State.Plans (s t : State) : Prop where
  tq : s.p.run.tq ⊆ t.p.run.tq
  tiles : t.p.tiles.length = s.p.tiles.length
  stream : ∃ l g, t.stream = { s.stream with lands := l, glands := g }
  frame : ∃ n q ts x u, t = { s with
    fresh := n
    p := { s.p with tiles := ts, run := { s.p.run with tq := q } }
    tl := { s.tl with streams := x, uses := u } }

namespace State.Plans

theorem refl (s : State) : s.Plans s := ⟨fun _ h => h, rfl, ⟨_, _, rfl⟩, _, _, _, _, _, rfl⟩

theorem trans {s t u : State} (h : s.Plans t) (k : t.Plans u) : s.Plans u := by
  refine ⟨fun _ hi => k.tq (h.tq hi), k.tiles.trans h.tiles, ?_, ?_⟩
  · obtain ⟨l, g, hst⟩ := h.stream
    obtain ⟨l', g', hst'⟩ := k.stream
    exact ⟨l', g', by rw [hst', hst]⟩
  · obtain ⟨n, q, ts, x, u, rfl⟩ := h.frame
    obtain ⟨n', q', ts', x', u', rfl⟩ := k.frame
    exact ⟨n', q', ts', x', u', rfl⟩

theorem of_books {s t : State} (h : s.Books t) : s.Plans t := by
  obtain ⟨n, q, u, hq, rfl⟩ := h
  exact ⟨hq, rfl, ⟨_, _, rfl⟩, _, _, _, _, _, rfl⟩

theorem book (s : State) (tick : Nat) (operand : Bool) (off word : Nat) : s.Plans (s.book tick operand off word) := of_books (.book ..)

theorem bookBank (s : State) (tick : Nat) (operand : Bool) (bank word : Nat) : s.Plans (s.bookBank tick operand bank word) :=
  of_books (.bookBank ..)

theorem bookBytes (s : State) (tick : Nat) (operand : Bool) (off n word : Nat) : s.Plans (s.bookBytes tick operand off n word) :=
  of_books (.bookBytes ..)

theorem duePlan (s : State) (k r : Nat) (w : Task) : s.Plans (s.duePlan k r w) :=
  ⟨fun _ h => mem_insertItem.2 (.inr h), rfl, ⟨_, _, rfl⟩, _, _, _, _, _, rfl⟩

/-- The acting stream's times change. -/
theorem onStream (s : State) (lands glands : TStream → Nat) :
    s.Plans (s.onStream s.tstream fun t => { t with lands := lands t, glands := glands t }) := by
  by_cases h : s.tstream < 7
  · refine ⟨?_, ?_, ⟨_, _, State.stream_onStream h _⟩, ?_⟩
    all_goals obtain ⟨x, hx⟩ := s.onStream_eq s.tstream fun t => { t with lands := lands t, glands := glands t }
    all_goals rw [hx]
    · exact fun _ h => h
    · exact ⟨_, _, _, _, _, rfl⟩
  · rw [State.onStream, dif_neg h]
    exact refl s

theorem landsIn (s : State) (tick : Nat) : s.Plans (s.landsIn tick) := onStream s (fun t => max t.lands tick) (·.glands)

theorem effect (s : State) (tick rank : Nat) (e : TEff) : s.Plans (s.effect tick rank e) := (landsIn s tick).trans (duePlan ..)

/-- R212: ports that are booked in a tile of the partition. -/
theorem atTile {s : State} {f : State → State} (hs : s.tix < s.p.tiles.length) (hf : ∀ u : State, u.Books (f u)) (n : Nat) :
    s.Plans (s.atTile n f) := by
  obtain ⟨m, q, u, hq, hbooks⟩ := hf (s.storeTile.focusTile n)
  have hback : ∃ u', ((s.p.tiles.set s.tix s.tl).set n { (s.p.tiles.set s.tix s.tl).getD n .rest with uses := u }).getD s.tix .rest =
      { s.tl with uses := u' } := by
    by_cases h : n = s.tix
    · exact ⟨u, by subst h; simp [hs]⟩
    · exact ⟨s.tl.uses, by simp [h, hs]⟩
  obtain ⟨u', hback⟩ := hback
  have htile : s.atTile n f = { s with
      fresh := m
      p := { s.p with
        tiles := (s.p.tiles.set s.tix s.tl).set n { (s.p.tiles.set s.tix s.tl).getD n .rest with uses := u }
        run := { s.p.run with tq := q } }
      tl := { s.tl with uses := u' } } := by
    rw [← hback, State.atTile, hbooks]
    rfl
  rw [htile]
  exact ⟨hq, by simp, ⟨_, _, rfl⟩, _, _, _, _, _, rfl⟩

theorem foldl {α : Type} {s u : State} {g : State → α → State} (hg : ∀ (t : State) x, s.Plans t → t.Plans (g t x)) (hu : s.Plans u)
    (l : List α) : u.Plans (l.foldl g u) := by
  induction l generalizing u with
  | nil => exact refl u
  | cons x l ih => exact (hg u x hu).trans (ih (hu.trans (hg u x hu)))

section
variable {s t : State} (h : s.Plans t)
include h

theorem plan : t.plan = s.plan := by obtain ⟨n, q, ts, x, u, rfl⟩ := h.frame; rfl
theorem tix : t.tix = s.tix := by obtain ⟨n, q, ts, x, u, rfl⟩ := h.frame; rfl
theorem tstream : t.tstream = s.tstream := by obtain ⟨n, q, ts, x, u, rfl⟩ := h.frame; rfl
theorem first : t.p.first = s.p.first := by obtain ⟨n, q, ts, x, u, rfl⟩ := h.frame; rfl
theorem mem : t.mem = s.mem := by obtain ⟨n, q, ts, x, u, rfl⟩ := h.frame; rfl
theorem wordRun (key : Nat) : t.wordRun key = s.wordRun key := by obtain ⟨n, q, ts, x, u, rfl⟩ := h.frame; rfl
theorem wordGraph (w : WordRun) : t.wordGraph w = s.wordGraph w := by obtain ⟨n, q, ts, x, u, rfl⟩ := h.frame; rfl

theorem due {tick : Nat} {e : TEff} (hdue : DueEffect s tick e) : DueEffect t tick e := by
  obtain ⟨r, hr⟩ := hdue
  refine ⟨r, h.tq ?_⟩
  rw [h.first, h.tix]
  exact hr

end

theorem graphLandsIn (s : State) (tick : Nat) : s.Plans (s.graphLandsIn tick) := by
  have hlands := landsIn s tick
  have hgraph := onStream (s.landsIn tick) (·.lands) fun t => max t.glands tick
  rw [hlands.tstream] at hgraph
  exact hlands.trans hgraph

/-- What each element makes true of what is due, and more being due leaves true, is true in the end. -/
theorem foldl_reaches {α : Type} {s u : State} {g : State → α → State} {P : α → State → Prop}
    (hg : ∀ (t : State) x, s.Plans t → t.Plans (g t x)) (hP : ∀ (t : State) x, s.Plans t → P x (g t x))
    (hmono : ∀ {t v : State} {x}, s.Plans t → t.Plans v → P x t → P x v) (hu : s.Plans u) (l : List α) :
    ∀ x ∈ l, P x (l.foldl g u) := by
  induction l generalizing u with
  | nil => simp
  | cons y l ih =>
    intro x hx
    have hy := hu.trans (hg u y hu)
    rcases List.mem_cons.1 hx with rfl | hx
    · exact hmono hy (foldl hg hy l) (hP u x hu)
    · exact ih hy x hx

/-- Effects that a loop has due, each in its tick. -/
theorem foldl_due {α : Type} {s u : State} {g : State → α → State} {tick : α → Nat} {e : α → TEff}
    (hg : ∀ (t : State) x, s.Plans t → t.Plans (g t x)) (hdue : ∀ (t : State) x, s.Plans t → DueEffect (g t x) (tick x) (e x))
    (hu : s.Plans u) (l : List α) : ∀ x ∈ l, DueEffect (l.foldl g u) (tick x) (e x) :=
  foldl_reaches (P := fun x t => DueEffect t (tick x) (e x)) hg hdue (fun _ hv hd => hv.due hd) hu l

end State.Plans

/-! The word that is kept (R214). -/

/-- `t` is `s` with a word kept under its next key; registers, memory and faults are as they were. -/
structure State.Issues (s t : State) (what : TimedWord) (r0 r1 r2 r3 : Word) : Prop where
  word : ∃ w, t.wordRun s.nextId = some w ∧ w.stream = s.tstream ∧ w.issued = s.plan ∧ w.what = what ∧
    w.r0 = r0 ∧ w.r1 = r1 ∧ w.r2 = r2 ∧ w.r3 = r3 ∧ w.lines = [] ∧ w.dead = false
  tq : s.p.run.tq ⊆ t.p.run.tq
  tiles : t.p.tiles.length = s.p.tiles.length
  stream : t.stream.ta = s.stream.ta ∧ t.stream.tn = s.stream.tn ∧ t.stream.next = s.stream.next
  frame : ∃ n q ts x u ws, t = { s with
    nextId := s.nextId + 1
    fresh := n
    p := { s.p with tiles := ts, run := { s.p.run with tq := q } }
    tl := { s.tl with streams := x, uses := u, words := ws } }

/-- The key of the word a state keeps next, and the state that keeps it. -/
theorem State.issues_keepWord (s : State) (what : TimedWord) (r0 r1 r2 r3 : Word) :
    s.Issues (s.keepWord what r0 r1 r2 r3).2 what r0 r1 r2 r3 where
  word := ⟨⟨s.nextId, s.tstream, s.plan, what, r0, r1, r2, r3, [], [], [], false⟩,
    by simp [State.wordRun, State.keepWord], rfl, rfl, rfl, rfl, rfl, rfl, rfl, rfl, rfl⟩
  tq := fun _ h => h
  tiles := rfl
  stream := ⟨rfl, rfl, rfl⟩
  frame := ⟨_, _, _, _, _, _, rfl⟩

namespace State.Issues

section
variable {s t : State} {what : TimedWord} {r0 r1 r2 r3 : Word} (h : s.Issues t what r0 r1 r2 r3)
include h

theorem tstream : t.tstream = s.tstream := by obtain ⟨n, q, ts, x, u, ws, rfl⟩ := h.frame; rfl
theorem tix : t.tix = s.tix := by obtain ⟨n, q, ts, x, u, ws, rfl⟩ := h.frame; rfl
theorem first : t.p.first = s.p.first := by obtain ⟨n, q, ts, x, u, ws, rfl⟩ := h.frame; rfl
theorem plan : t.plan = s.plan := by obtain ⟨n, q, ts, x, u, ws, rfl⟩ := h.frame; rfl
theorem sramFlat (off : Nat) : t.sramFlat off = s.sramFlat off := by obtain ⟨n, q, ts, x, u, ws, rfl⟩ := h.frame; rfl

theorem ta (r : BitVec 4) : t.ta r = s.ta r := by rw [State.ta, TStream.regA, h.stream.1]; rfl

theorem congr {r0' r1' r2' r3' : Word} (h0 : r0 = r0') (h1 : r1 = r1') (h2 : r2 = r2') (h3 : r3 = r3') :
    s.Issues t what r0' r1' r2' r3' := by
  subst h0 h1 h2 h3
  exact h

theorem plans {u : State} (k : t.Plans u) : s.Issues u what r0 r1 r2 r3 where
  word := by rw [k.wordRun]; exact h.word
  tq := fun _ hi => k.tq (h.tq hi)
  tiles := k.tiles.trans h.tiles
  stream := by obtain ⟨l, g, hst⟩ := k.stream; rw [hst]; exact h.stream
  frame := by
    obtain ⟨n, q, ts, x, u, ws, rfl⟩ := h.frame
    obtain ⟨n', q', ts', x', u', rfl⟩ := k.frame
    exact ⟨_, _, _, _, _, _, rfl⟩

/-- R225: a descriptor joins the word. -/
theorem withAcc (l : List Word) : s.Issues (t.onWord s.nextId fun w => { w with acc := l }) what r0 r1 r2 r3 where
  word := by
    obtain ⟨w, hw, hfields⟩ := h.word
    exact ⟨_, State.wordRun_onWord hw fun _ hx => hx, hfields⟩
  tq := h.tq
  tiles := h.tiles
  stream := h.stream
  frame := by
    obtain ⟨n, q, ts, x, u, ws, rfl⟩ := h.frame
    exact ⟨_, _, _, _, _, _, rfl⟩

theorem occupy (hs : s.tstream < 7) (recv : Bool) (n : Nat) : s.Issues (t.occupy recv n) what r0 r1 r2 r3 := by
  have hst : (t.occupy recv n).stream.ta = t.stream.ta ∧ (t.occupy recv n).stream.tn = t.stream.tn ∧
      (t.occupy recv n).stream.next = t.stream.next := by
    rw [State.occupy, State.stream_onStream (h.tstream ▸ hs)]
    cases recv <;> exact ⟨rfl, rfl, rfl⟩
  obtain ⟨x, hx⟩ := t.occupy_eq recv n
  rw [hx] at hst ⊢
  refine ⟨h.word, h.tq, h.tiles, ?_, ?_⟩
  · rw [hst.1, hst.2.1, hst.2.2]
    exact h.stream
  · obtain ⟨n, q, ts, y, u, ws, rfl⟩ := h.frame
    exact ⟨_, _, _, _, _, _, rfl⟩

/-- R214: once its engine is occupied and all it does is planned, the word has issued. -/
theorem wordIssued {u : State} (hs : s.tstream < 7) {recv : Bool} {n : Nat} (k : (t.occupy recv n).Plans u) :
    WordIssued s u s.nextId n recv what r0 r1 r2 r3 := by
  have hbusy : (if recv then u.stream.busy2 else u.stream.busy) = s.plan + n := by
    obtain ⟨l, g, hst⟩ := k.stream
    rw [hst, State.occupy, State.stream_onStream (h.tstream ▸ hs), h.plan]
    cases recv <;> rfl
  have hu := (h.occupy hs recv n).plans k
  obtain ⟨w, hw, hstream, hissued, hwhat, h0, h1, h2, h3, -, hdead⟩ := hu.word
  obtain ⟨hta, htn, hnext⟩ := hu.stream
  refine ⟨hbusy, ⟨w, hw, hstream, hissued, hwhat, h0, h1, h2, h3, hdead⟩, ?_⟩
  obtain ⟨n, q, ts, x, b, ws, rfl⟩ := hu.frame
  exact ⟨rfl, rfl, rfl, rfl, rfl, rfl, hta, htn, hnext, rfl, rfl, rfl, rfl⟩

end
end State.Issues

end Sys2Proof.Machine
end

section
/-! The elementwise and shape words at issue (R236-R238, Tables 9.13 and 9.16). -/

namespace Sys2Proof.Machine

open Sys2Proof.Claims

/-- What is due stays due as an engine is occupied. -/
theorem State.due_occupy {s : State} {tick : Nat} {e : TEff} (recv : Bool) (n : Nat) (h : DueEffect s tick e) :
    DueEffect (s.occupy recv n) tick e := by
  obtain ⟨x, hx⟩ := s.occupy_eq recv n
  rw [hx]
  exact h

/-- R236, R238: a word is kept, its groups are read one a tick, more is planned, and its engine is occupied. -/
theorem State.Issues.groups_issued {s t v : State} {what : TimedWord} {r0 r1 r2 r3 : Word} (h : s.Issues t what r0 r1 r2 r3)
    (hs : s.tstream < 7) {key m : Nat} {g : State → Nat → State} (hg : ∀ (u : State) j, u.Plans (g u j))
    (hdue : ∀ (u : State) j, DueEffect (g u j) (u.plan + 1 + j) (.group key j)) (hv : ((List.range m).foldl g t).Plans v) (n last : Nat)
    {P : Prop} {tick : Nat} {e : TEff} (hP : P → DueEffect t tick e) :
    WordIssued s ((v.occupy false n).landsIn last) s.nextId n false what r0 r1 r2 r3 ∧
    (∀ j, j < m → DueEffect ((v.occupy false n).landsIn last) (s.plan + 1 + j) (.group key j)) ∧
    (P → DueEffect ((v.occupy false n).landsIn last) tick e) := by
  have hfold : t.Plans ((List.range m).foldl g t) := .foldl (fun u j _ => hg u j) (.refl t) _
  have hlast {tick : Nat} {e : TEff} (hd : DueEffect v tick e) : DueEffect ((v.occupy false n).landsIn last) tick e :=
    (State.Plans.landsIn ..).due (State.due_occupy false n hd)
  refine ⟨((h.plans hfold).plans hv).wordIssued hs (.landsIn ..), fun j hj => hlast (hv.due ?_),
    fun h => hlast (hv.due (hfold.due (hP h)))⟩
  refine State.Plans.foldl_due (tick := fun j => s.plan + 1 + j) (e := fun j => .group key j) (fun u j _ => hg u j)
    (fun u j hu => ?_) (.refl t) _ j (List.mem_range.2 hj)
  rw [← h.plan, ← hu.plan]
  exact hdue u j

/-! Elementwise words. -/

/-- R236, R237: what an elementwise word keeps beside its first source and its result: its other sources or its scalar, or tn6 and
tn7. -/
def State.vecKeeps (s : State) (op : VecOp) (b c : BitVec 4) : Word × Word :=
  match op with
  | .cvt _ _ _ => ((s.stream.regN 6).setWidth 64, (s.stream.regN 7).setWidth 64)
  | .exp => (0, 0)
  | .rcp => (0, 0)
  | .rsq => (0, 0)
  | .tanh => (0, 0)
  | .log2 => (0, 0)
  | .ma => (s.ta b, s.ta c)
  | .sel => (s.ta b, s.ta c)
  | _ => (s.ta b, 0)

section
variable (s : State) (tick key j gs gd lands dst rank : Nat) (srcs : List Nat)

/-- R236: a group of an elementwise word books its sources and its result, and is read in its tick. -/
theorem State.plans_group : s.Plans (((srcs.foldl (fun s off => s.bookBytes tick false (off + gs * j) gs key) s).effect tick rank
    (.group key j)).bookBytes lands false dst gd key) :=
  ((State.Plans.foldl (fun _ _ _ => .bookBytes ..) (.refl s) srcs).trans (.effect ..)).trans (.bookBytes ..)

theorem State.due_group : DueEffect (((srcs.foldl (fun s off => s.bookBytes tick false (off + gs * j) gs key) s).effect tick rank
    (.group key j)).bookBytes lands false dst gd key) tick (.group key j) :=
  (State.Plans.bookBytes ..).due (State.due_effect ..)

end

/-- R236: a word whose operands are in range issues. -/
theorem State.startVec_issued {s : State} (hfree : EngineFree s false) (op : VecOp) {sf df : Nat} {d a b c : BitVec 4} {n : BitVec 12}
    (hd : InSram (s.ta d) (groupSize (elemFmt df).width * n.toNat) (groupAlign (elemFmt df).width))
    (hsrc : ∀ r ∈ [a, b, c].take op.arity, InSram (s.ta r) (groupSize (elemFmt sf).width * n.toNat) (groupAlign (elemFmt sf).width))
    (hscalar : op = .scale → InSram (s.ta b) 4 4) :
    WordIssued s (s.startVec op sf df d a b c n) s.nextId n.toNat false (.vec op sf df n.toNat) (s.ta a) (s.vecKeeps op b c).1
      (s.vecKeeps op b c).2 (s.ta d) ∧
    (∀ j, j < n.toNat → DueEffect (s.startVec op sf df d a b c n) (s.plan + 1 + j) (.group s.nextId j)) ∧
    (op = .scale → DueEffect (s.startVec op sf df d a b c n) s.plan (.scalarRead s.nextId)) := by
  have hall : ∀ x ∈ (s.ta d, groupSize (elemFmt df).width * n.toNat, groupAlign (elemFmt df).width) ::
      (([a, b, c].take op.arity).map (fun r => (s.ta r, groupSize (elemFmt sf).width * n.toNat, groupAlign (elemFmt sf).width)) ++
        if op == VecOp.scale then [(s.ta b, 4, 4)] else []), InSram x.1 x.2.1 x.2.2 := by
    simp only [List.mem_cons, List.mem_append, List.mem_map]
    rintro x (rfl | ⟨r, hr, rfl⟩ | hx)
    · exact hd
    · exact hsrc r hr
    · split at hx
      · next h => rw [List.mem_singleton.1 hx]; exact hscalar (by simpa using h)
      · simp at hx
  generalize ht : s.startVec op sf df d a b c n = t
  unfold State.startVec at ht
  rw [State.dataWord_of_free hfree] at ht
  dsimp only at ht
  rw [State.sramArgs_of_inSram hall] at ht
  subst ht
  cases op with
  | scale =>
    exact (((s.issues_keepWord ..).congr (ofNat_toNat_word _) (ofNat_toNat_word _) rfl (ofNat_toNat_word _)).plans
      ((State.Plans.book ..).trans (.effect ..))).groups_issued hfree.1
      (fun _ _ => State.plans_group ..) (fun _ _ => State.due_group ..) (.refl _) _ _ fun _ => State.due_effect ..
  | cvt | exp | rcp | rsq | tanh | log2 =>
    exact ((s.issues_keepWord ..).congr (ofNat_toNat_word _) rfl rfl (ofNat_toNat_word _)).groups_issued hfree.1
      (fun _ _ => State.plans_group ..) (fun _ _ => State.due_group ..) (.refl _) _ _ nofun
  | add | sub | mul | max | min | cmp =>
    exact ((s.issues_keepWord ..).congr (ofNat_toNat_word _) (ofNat_toNat_word _) rfl (ofNat_toNat_word _)).groups_issued hfree.1
      (fun _ _ => State.plans_group ..) (fun _ _ => State.due_group ..) (.refl _) _ _ nofun
  | ma | sel =>
    exact ((s.issues_keepWord ..).congr (ofNat_toNat_word _) (ofNat_toNat_word _) (ofNat_toNat_word _)
      (ofNat_toNat_word _)).groups_issued hfree.1
      (fun _ _ => State.plans_group ..) (fun _ _ => State.due_group ..) (.refl _) _ _ nofun

theorem TStream.regA_eq_getElem (t : TStream) {r : Nat} (h : r < 16) : t.regA r = t.ta[r] := by simp [TStream.regA, h]
theorem TStream.regN_eq_getElem (t : TStream) {r : Nat} (h : r < 8) : t.regN r = t.tn[r] := by simp [TStream.regN, h]

/-- R214: a word whose engine is occupied is a fault. -/
theorem State.startVec_busy {s : State} (h : s.plan < s.stream.busy) (op : VecOp) (sf df : Nat) (d a b c : BitVec 4) (n : BitVec 12) :
    s.startVec op sf df d a b c n = s.tileFault 16 0 := State.dataWord_of_busy h _

/-- R211: a result operand out of range is a fault. -/
theorem State.startVec_outside {s : State} (hfree : EngineFree s false) (op : VecOp) {sf df : Nat} {d : BitVec 4} (a b c : BitVec 4)
    {n : BitVec 12} (h : ¬ InSram (s.ta d) (groupSize (elemFmt df).width * n.toNat) (groupAlign (elemFmt df).width)) :
    s.startVec op sf df d a b c n = s.tileFault 4 (s.ta d) := by
  unfold State.startVec
  rw [State.dataWord_of_free hfree]
  exact State.sramArg_of_not_inSram h _

/-! Shape words. -/

/-- Table 9.16: where the operand of a shape word starts and how far its last group may lie is all that its reads need, but for
`sslice`. -/
def ShapeOp.within (op : ShapeOp) (base g n : Nat) : Prop :=
  ∀ j, j < op.reads n → 0 ≤ (base + g * op.groupAt j : Int) ∧ (base + g * op.groupAt j + g : Int) ≤ 0x600000

/-- R211, R238: the groups of an operand in range that are read one after another lie in tensor SRAM. -/
theorem ShapeOp.within_of_inSram {op : ShapeOp} {v : Word} {g n al : Nat} (h : InSram v (g * op.srcGroups n) al)
    (hop : ∀ stride, op ≠ .slice stride) : op.within v.toNat g n := by
  intro j hj
  have hat : op.groupAt j = j := by
    cases op with
    | slice stride => exact absurd rfl (hop stride)
    | _ => rfl
  have hsrc : op.reads n = op.srcGroups n := by
    cases op with
    | slice stride => exact absurd rfl (hop stride)
    | _ => rfl
  have hlast : g * (j + 1) ≤ g * op.srcGroups n := Nat.mul_le_mul_left g (hsrc ▸ hj)
  have hin := h.2
  rw [hat, Nat.mul_succ] at *
  constructor
  · positivity
  · exact_mod_cast (by omega : v.toNat + g * j + g ≤ 0x600000)

section
variable {s : State} {op : ShapeOp} {fmt : BitVec 2} {d a : BitVec 4} {list : Option (BitVec 4)}
  {n : BitVec 12}
  (ha : InSram (s.ta a) (groupSize (shapeWidth fmt.toNat) * op.srcGroups n.toNat) (groupAlign (shapeWidth fmt.toNat)))
  (hd : InSram (s.ta d) (groupSize (shapeWidth fmt.toNat) * op.writes n.toNat) (groupAlign (shapeWidth fmt.toNat)))
  (hlist : ∀ r ∈ list, InSram (s.ta r) 32 1)
include ha hd hlist

theorem shapeOperands : ∀ x ∈ [(s.ta a, groupSize (shapeWidth fmt.toNat) * op.srcGroups n.toNat, groupAlign (shapeWidth fmt.toNat)),
    (s.ta d, groupSize (shapeWidth fmt.toNat) * op.writes n.toNat, groupAlign (shapeWidth fmt.toNat))] ++
    list.toList.map (fun r => (s.ta r, 32, 1)), InSram x.1 x.2.1 x.2.2 := by
  simp only [List.mem_append, List.mem_cons, List.not_mem_nil, or_false, List.mem_map, Option.mem_toList]
  rintro x ((rfl | rfl) | ⟨r, hr, rfl⟩)
  · exact ha
  · exact hd
  · exact hlist r hr

variable (hfree : EngineFree s false)
include hfree

/-- R238: a word whose operands are in range issues. -/
theorem State.startShape_issued (hin : op.within (s.ta a).toNat (groupSize (shapeWidth fmt.toNat)) n.toNat) {busy : Nat}
    (hbusy : max (op.reads n.toNat) (op.writes n.toNat) = busy) :
    WordIssued s (s.startShape op fmt d a list n) s.nextId busy false
      (.shape op fmt.toNat n.toNat) (s.ta a) (list.elim 0 s.ta) 0 (s.ta d) ∧
    (∀ j, j < op.reads n.toNat → DueEffect (s.startShape op fmt d a list n) (s.plan + 1 + j) (.group s.nextId j)) ∧
    (list.isSome = true → DueEffect (s.startShape op fmt d a list n) s.plan (.scalarRead s.nextId)) := by
  subst hbusy
  have hgroup (u : State) (tick off g key j : Nat) : u.Plans ((u.bookBytes tick false off g key).effect tick rankRead (.group key j)) :=
    (State.Plans.bookBytes ..).trans (.effect ..)
  have hnone : ((List.range (op.reads n.toNat)).any fun j =>
      decide ((s.ta a).toNat + groupSize (shapeWidth fmt.toNat) * op.groupAt j < (0 : Int)) ||
      decide ((0x600000 : Int) < (s.ta a).toNat + groupSize (shapeWidth fmt.toNat) * op.groupAt j + groupSize (shapeWidth fmt.toNat))) =
        false := by
    rw [List.any_eq_false]
    intro j hj
    obtain ⟨hlow, hhigh⟩ := hin j (List.mem_range.1 hj)
    simpa using ⟨hlow, hhigh⟩
  generalize ht : s.startShape op fmt d a list n = t
  unfold State.startShape at ht
  rw [State.dataWord_of_free hfree] at ht
  dsimp only at ht
  rw [State.sramArgs_of_inSram (shapeOperands ha hd hlist)] at ht
  simp only [List.map_append, List.map_cons, List.cons_append, List.getD_cons_zero, List.getD_cons_succ, hnone] at ht
  subst ht
  cases list with
  | none => 
    exact ((s.issues_keepWord ..).congr (ofNat_toNat_word _) rfl rfl (ofNat_toNat_word _)).groups_issued hfree.1
      (fun _ _ => hgroup ..) (fun _ _ => State.due_effect ..) (.foldl (fun _ _ _ => .bookBytes ..) (.refl _) _) _ _ nofun
  | some r =>
    exact (((s.issues_keepWord ..).congr (ofNat_toNat_word _) (ofNat_toNat_word _) rfl (ofNat_toNat_word _)).plans
      ((State.Plans.bookBytes ..).trans (.effect ..))).groups_issued hfree.1
      (fun _ _ => hgroup ..) (fun _ _ => State.due_effect ..) (.foldl (fun _ _ _ => .bookBytes ..) (.refl _) _) _ _
      fun _ => State.due_effect ..

/-- R211: a group that lies outside tensor SRAM is a fault. -/
theorem State.startShape_outside {j : Nat} (hj : j < op.reads n.toNat)
    (hout : ((s.ta a).toNat + groupSize (shapeWidth fmt.toNat) * op.groupAt j : Int) < 0 ∨
      (0x600000 : Int) < (s.ta a).toNat + groupSize (shapeWidth fmt.toNat) * op.groupAt j + groupSize (shapeWidth fmt.toNat)) :
    s.startShape op fmt d a list n = s.tileFault 4 (s.ta a) := by
  unfold State.startShape
  rw [State.dataWord_of_free hfree, State.sramArgs_of_inSram (shapeOperands ha hd hlist)]
  exact if_pos (List.any_eq_true.2 ⟨j, List.mem_range.2 hj, by simpa using hout⟩)

end
end Sys2Proof.Machine
end

section
/-! O34 and O36 settled. -/

namespace Sys2Proof.Proofs

open Sys2Proof.Machine Sys2Proof.Claims

/-- Settles O34: each word is one operation begun on its operands. -/
theorem elementwiseWordsIssue : Obligations.ElementwiseWordsIssue := by
  unfold Obligations.ElementwiseWordsIssue
  intro d a b c n s _ key ok issues
  have hissues {i : Instr} {op : VecOp} {sf df : Nat} {x y : BitVec 4} (hi : exec i s = .next (s.startVec op sf df d a x y n))
      (hfree : EngineFree s false) (hok : ok (elemFmt sf).width (elemFmt df).width ([a, x, y].take op.arity))
      (hscalar : op = .scale → InSram (s.ta x) 4 4) : issues i op sf df (s.vecKeeps op x y).1 (s.vecKeeps op x y).2 :=
    ⟨_, hi, State.startVec_issued hfree op hok.1 hok.2 hscalar⟩
  refine ⟨fun fmt cond hfree => ⟨fun hok => ?two, fun hok => ?three, fun hok => ?one, fun hok hb => ?scaled⟩,
    fun src dst rmode sat site hfree hok => ?converted, fun fmt hbusy => congrArg _ (State.startVec_busy hbusy ..),
    fun fmt hfree hout => congrArg _ (State.startVec_outside hfree _ a b 0 hout)⟩
  case two =>
    exact ⟨hissues (op := .add) (y := 0) rfl hfree hok nofun, hissues (op := .sub) (y := 0) rfl hfree hok nofun,
      hissues (op := .mul) (y := 0) rfl hfree hok nofun, hissues (op := .max) (y := 0) rfl hfree hok nofun,
      hissues (op := .min) (y := 0) rfl hfree hok nofun, hissues (op := .cmp cond.toNat) (y := 0) rfl hfree hok nofun⟩
  case three => exact ⟨hissues (op := .ma) rfl hfree hok nofun, hissues (op := .sel) rfl hfree hok nofun⟩
  case one =>
    exact ⟨hissues (op := .exp) (x := 0) (y := 0) rfl hfree hok nofun, hissues (op := .rcp) (x := 0) (y := 0) rfl hfree hok nofun,
      hissues (op := .rsq) (x := 0) (y := 0) rfl hfree hok nofun, hissues (op := .tanh) (x := 0) (y := 0) rfl hfree hok nofun,
      hissues (op := .log2) (x := 0) (y := 0) rfl hfree hok nofun⟩
  case scaled => exact hissues (op := .scale) (y := 0) rfl hfree hok fun _ => hb
  case converted =>
    rw [← TStream.regN_eq_getElem _ (by decide), ← TStream.regN_eq_getElem _ (by decide)]
    exact hissues (i := .ecvt d a src dst n rmode sat site) (x := 0) (y := 0) rfl hfree hok nofun

/-- Settles O36: each word is one operation begun on its operands. -/
theorem shapeWordsIssue : Obligations.ShapeWordsIssue := by
  unfold Obligations.ShapeWordsIssue
  intro d a b fmt n s hfree hn key w ok issues
  have hw : w = shapeWidth fmt.toNat := by
    have hfmt : (fmt = 3) = (fmt.toNat = 3) := by rw [← BitVec.toNat_inj]; rfl
    simp only [w, shapeWidth, hfmt]
  clear_value w
  subst hw
  have hissues {i : Instr} {op : ShapeOp} {busy : Nat} (hi : exec i s = .next (s.startShape op fmt d a none n))
      (ha : ok a (op.srcGroups n.toNat)) (hd : ok d (op.writes n.toNat))
      (hin : op.within (s.ta a).toNat (groupSize (shapeWidth fmt.toNat)) n.toNat)
      (hbusy : max (op.reads n.toNat) (op.writes n.toNat) = busy) : issues i op busy (op.reads n.toNat) 0 := by
    obtain ⟨hissued, hgroups, -⟩ := State.startShape_issued ha hd (list := none) nofun hfree hin hbusy
    exact ⟨_, hi, hissued, hgroups⟩
  refine ⟨fun op ha hd => ?reduced, fun ha hd => ?transposed, fun ha hd hb => ?permuted, fun ha hd => ?broadcast,
    fun stride ha hd => ⟨fun hin => ?sliced, fun j hj hout => ?outside⟩, fun ha hd => ?scanned, fun r ha hd => ?rolled⟩
  case reduced => exact hissues (i := .sred d a fmt n op) rfl ha hd (ShapeOp.within_of_inSram ha nofun) (max_eq_left hn)
  case transposed => exact hissues (i := .strn d a fmt n) rfl ha hd (ShapeOp.within_of_inSram ha nofun) (max_self _)
  case permuted =>
    obtain ⟨hissued, hgroups, hread⟩ := State.startShape_issued (op := .perm) (list := some b) ha hd (by simpa using hb) hfree
      (ShapeOp.within_of_inSram ha nofun) (max_self _)
    exact ⟨⟨_, rfl, hissued, hgroups⟩, _, rfl, hread rfl⟩
  case broadcast => exact hissues (i := .sbc d a fmt n) rfl ha hd (ShapeOp.within_of_inSram ha nofun) (max_eq_right hn)
  case sliced => exact hissues (i := .sslice d a fmt n stride) rfl ha hd hin (max_self _)
  case outside =>
    exact congrArg _ (State.startShape_outside (op := .slice stride.toInt) (list := none) ha hd nofun hfree hj hout)
  case scanned => exact hissues (i := .sscan d a fmt n) rfl ha hd (ShapeOp.within_of_inSram ha nofun) (max_self _)
  case rolled => exact hissues (i := .sroll d a fmt n r) rfl ha hd (ShapeOp.within_of_inSram ha nofun) (max_self _)

end Sys2Proof.Proofs
end

section
/-! The matrix engine's words at issue (R230-R235, Table 9.11). -/

namespace Sys2Proof.Machine

open Sys2Proof.Claims

@[simp] theorem State.occupy_plan (s : State) (recv : Bool) (n : Nat) : (s.occupy recv n).plan = s.plan := by
  obtain ⟨x, hx⟩ := s.occupy_eq recv n
  rw [hx]
  rfl

/-! Products (R230, R231). -/

theorem banksApart_iff (a b : Nat) : banksApart a b = true ↔ (a / 128 + 8) % 16 = b / 128 % 16 := by
  rw [banksApart, beq_iff_eq]
  omega

section
variable {s : State} {ta tb : BitVec 4} {kk : Nat} (ha : InSram (s.ta ta) (1024 * kk) 128) (hb : InSram (s.ta tb) (1024 * kk) 128)
  (f : Nat → Nat → State)
include ha hb

theorem State.withBlocks_of_apart (h : ((s.ta ta).toNat / 128 + 8) % 16 = (s.ta tb).toNat / 128 % 16) :
    s.withBlocks ta tb kk f = f (s.ta ta).toNat (s.ta tb).toNat := by
  rw [State.withBlocks, State.sramArg_of_inSram ha, State.sramArg_of_inSram hb, if_pos ((banksApart_iff ..).2 h)]

theorem State.withBlocks_of_not_apart (h : ¬ ((s.ta ta).toNat / 128 + 8) % 16 = (s.ta tb).toNat / 128 % 16) :
    s.withBlocks ta tb kk f = s.tileFault 16 0 := by
  rw [State.withBlocks, State.sramArg_of_inSram ha, State.sramArg_of_inSram hb, if_neg fun hapart => h ((banksApart_iff ..).1 hapart)]

end

section
variable (s : State) (key a b kk : Nat)

/-- R230, R235: a product occupies its engine, and its blocks and its end are due. -/
theorem State.startProduct_plans : (s.occupy false kk).Plans (s.startProduct key a b kk) ∧
    (∀ u, u < kk → DueEffect (s.startProduct key a b kk) (s.plan + 1 + u) (.mmaRead key u)) ∧
    DueEffect (s.startProduct key a b kk) (s.plan + kk + 5) (.mmaDone key) := by
  have hblock (t : State) (u : Nat) := (State.Plans.bookBytes t (t.plan + 1 + u) true (a + 1024 * u) 1024 key).trans
    ((State.Plans.bookBytes _ (t.plan + 1 + u) true (b + 1024 * u) 1024 key).trans
      (.effect _ (t.plan + 1 + u) rankRead (.mmaRead key u)))
  have hfold := State.Plans.foldl (s := s.occupy false kk) (fun t u _ => hblock t u) (.refl _) (List.range kk)
  refine ⟨hfold.trans (.effect ..), fun u hu => (State.Plans.effect ..).due ?_, ?_⟩
  · refine State.Plans.foldl_due (tick := fun u => s.plan + 1 + u) (e := fun u => .mmaRead key u) (fun t u _ => hblock t u)
      (fun t u ht => ?_) (.refl _) _ u (List.mem_range.2 hu)
    rw [← s.occupy_plan false kk, ← ht.plan]
    exact State.due_effect ..
  · rw [← s.occupy_plan false kk, ← hfold.plan]
    exact State.due_effect ..

end

theorem foldl_min_le {l : List Nat} {a x : Nat} (h : x ∈ l) : l.foldl min a ≤ x := by
  induction l generalizing a with
  | nil => simp at h
  | cons y l ih =>
    rcases List.mem_cons.1 h with rfl | h
    · have hle (b : Nat) : l.foldl min b ≤ b := by
        clear ih h
        induction l generalizing b with
        | nil => exact le_refl b
        | cons z l ih => exact (ih _).trans (min_le_left b z)
      exact (hle _).trans (min_le_right a x)
    · exact ih h

/-- R231: every scale line is due no later than the tick that first uses it. -/
theorem State.readScales_plans (s : State) (key : Nat) (l : List (Nat × Nat)) : s.Plans (s.readScales key l) ∧
    ∀ x ∈ l, ∃ u, u ≤ x.2 ∧ DueEffect (s.readScales key l) (s.plan + 1 + u) (.scaleRead key x.1) := by
  have hline (t : State) (tick off : Nat) :=
    (State.Plans.book t tick false off key).trans (.effect _ tick rankRead (.scaleRead key off))
  refine ⟨.foldl (fun t off _ => hline t ..) (.refl s) _, fun x hx => ⟨((l.filter (·.1 = x.1)).map (·.2)).foldl min 511,
    foldl_min_le (List.mem_map_of_mem (List.mem_filter.2 ⟨hx, decide_eq_true rfl⟩)), ?_⟩⟩
  refine State.Plans.foldl_due (tick := fun off => s.plan + 1 + ((l.filter (·.1 = off)).map (·.2)).foldl min 511)
    (e := fun off => .scaleRead key off) (fun t off _ => hline t ..) (fun t off ht => ?_) (.refl s) _ x.1
    (List.mem_eraseDups.2 (List.mem_map_of_mem hx))
  rw [← ht.plan]
  exact State.due_effect ..

theorem mem_scaleLines {sa n kk i : Nat} (h : 128 * i < 32 * n * kk) : (sa + 128 * i, 128 * i / (32 * n)) ∈ scaleLines sa n kk :=
  List.mem_map.2 ⟨i, List.mem_range.2 (by omega), rfl⟩

/-- R230, R235: a product whose word is kept has issued. -/
theorem State.Issues.product_issued {s u v : State} {what : TimedWord} {r0 r1 r2 r3 : Word} (h : s.Issues u what r0 r1 r2 r3)
    (hs : s.tstream < 7) {a b kk : Nat} (hv : (u.startProduct s.nextId a b kk).Plans v) :
    WordIssued s v s.nextId kk false what r0 r1 r2 r3 ∧ (∀ x, x < kk → DueEffect v (s.plan + 1 + x) (.mmaRead s.nextId x)) ∧
      DueEffect v (s.plan + kk + 5) (.mmaDone s.nextId) := by
  obtain ⟨hplans, hreads, hdone⟩ := u.startProduct_plans s.nextId a b kk
  rw [h.plan] at hreads hdone
  exact ⟨h.wordIssued hs (hplans.trans hv), fun x hx => hv.due (hreads x hx), hv.due hdone⟩

section
variable {s : State} (hfree : EngineFree s false) {ta tb : BitVec 4} {kk : BitVec 9} (ha : InSram (s.ta ta) (1024 * kk.toNat) 128)
  (hb : InSram (s.ta tb) (1024 * kk.toNat) 128)
include hfree ha hb

/-- R230: operands that are not eight banks apart are a fault. -/
theorem exec_mma_not_apart (hapart : ¬ ((s.ta ta).toNat / 128 + 8) % 16 = (s.ta tb).toNat / 128 % 16) (m fa fb : BitVec 3)
    (z blk : BitVec 1) (sa sb : BitVec 4) : exec (.mma m ta tb fa fb kk z blk sa sb) s = .next (s.tileFault 16 0) := by
  change execMma m ta tb fa fb kk z blk sa sb s = _
  rw [execMma, State.dataWord_of_free hfree, State.withBlocks_of_not_apart ha hb _ hapart]

variable (hapart : ((s.ta ta).toNat / 128 + 8) % 16 = (s.ta tb).toNat / 128 % 16) (m fa fb : BitVec 3) (z : BitVec 1)
include hapart

/-- R230: a product without scales keeps its word and starts. -/
theorem exec_mma_eq (sa sb : BitVec 4) : ∃ u, s.Issues u (.plain (.mma m ta tb fa fb kk z 0 sa sb)) (s.ta ta) (s.ta tb) 0 0 ∧
    exec (.mma m ta tb fa fb kk z 0 sa sb) s = .next (u.startProduct s.nextId (s.ta ta).toNat (s.ta tb).toNat kk.toNat) := by
  refine ⟨_, (s.issues_keepWord ..).congr (ofNat_toNat_word _) (ofNat_toNat_word _) rfl rfl, ?_⟩
  change execMma m ta tb fa fb kk z 0 sa sb s = _
  rw [execMma, State.dataWord_of_free hfree, State.withBlocks_of_apart ha hb _ hapart, if_pos rfl]
  rfl

/-- R231: a product with scales keeps its word, starts, and reads its scale lines. -/
theorem exec_mma_scaled_eq {sa sb : BitVec 4} (hsa : InSram (s.ta sa) (32 * matScales fa.toNat * kk.toNat) 128)
    (hsb : InSram (s.ta sb) (32 * matScales fb.toNat * kk.toNat) 128) :
    ∃ u, s.Issues u (.plain (.mma m ta tb fa fb kk z 1 sa sb)) (s.ta ta) (s.ta tb) (s.ta sa) (s.ta sb) ∧
    exec (.mma m ta tb fa fb kk z 1 sa sb) s =
      .next ((u.startProduct s.nextId (s.ta ta).toNat (s.ta tb).toNat kk.toNat).readScales s.nextId
        (scaleLines (s.ta sa).toNat (matScales fa.toNat) kk.toNat ++ scaleLines (s.ta sb).toNat (matScales fb.toNat) kk.toNat)) := by
  refine ⟨_, (s.issues_keepWord ..).congr (ofNat_toNat_word _) (ofNat_toNat_word _) (ofNat_toNat_word _) (ofNat_toNat_word _), ?_⟩
  change execMma m ta tb fa fb kk z 1 sa sb s = _
  rw [execMma, State.dataWord_of_free hfree, State.withBlocks_of_apart ha hb _ hapart, if_neg (by decide)]
  dsimp only
  rw [State.sramArg_of_inSram hsa, State.sramArg_of_inSram hsb]
  rfl

variable {lst : BitVec 4} (hl : InSram (s.ta lst) 64 64) (dec : BitVec 4) (kp : BitVec 1)
include hl

/-- R233: a product with lists keeps its word, starts, and reads its lists in its own tick. -/
theorem exec_mmag_eq : ∃ u, s.Issues u (.plain (.mmag m ta tb fa fb kk lst dec z kp 0)) (s.ta ta) (s.ta tb) (s.ta lst) 0 ∧
    exec (.mmag m ta tb fa fb kk lst dec z kp 0) s = .next (((u.startProduct s.nextId (s.ta ta).toNat (s.ta tb).toNat
      kk.toNat).book u.plan false (s.ta lst).toNat s.nextId).effect u.plan rankRead (.mmaLists s.nextId)) := by
  refine ⟨_, (s.issues_keepWord ..).congr (ofNat_toNat_word _) (ofNat_toNat_word _) (ofNat_toNat_word _) rfl, ?_⟩
  change execMmag m ta tb fa fb kk lst dec z kp 0 s = _
  rw [execMmag, State.dataWord_of_free hfree, State.withBlocks_of_apart ha hb _ hapart, State.sramArg_of_inSram hl]
  rfl

/-- R233: with a decay it also reads its decay vector. -/
theorem exec_mmag_decay_eq (hd : InSram (s.ta dec) 128 128) :
    ∃ u, s.Issues u (.plain (.mmag m ta tb fa fb kk lst dec z kp 1)) (s.ta ta) (s.ta tb) (s.ta lst) (s.ta dec) ∧
    exec (.mmag m ta tb fa fb kk lst dec z kp 1) s = .next ((((u.startProduct s.nextId (s.ta ta).toNat (s.ta tb).toNat
      kk.toNat).book u.plan false (s.ta lst).toNat s.nextId).effect u.plan rankRead (.mmaLists s.nextId)).book u.plan false
      (s.ta dec).toNat s.nextId) := by
  refine ⟨_, (s.issues_keepWord ..).congr (ofNat_toNat_word _) (ofNat_toNat_word _) (ofNat_toNat_word _) (ofNat_toNat_word _), ?_⟩
  change execMmag m ta tb fa fb kk lst dec z kp 1 s = _
  rw [execMmag, State.dataWord_of_free hfree, State.withBlocks_of_apart ha hb _ hapart, State.sramArg_of_inSram hl]
  dsimp only
  rw [if_neg (by decide), State.sramArg_of_inSram hd]
  rfl

end

/-! Accumulator words (R234). -/

section
variable {s : State} (hfree : EngineFree s false) {ms : List Nat} (f : State → State)
include hfree

theorem State.accWord_of_idle (h : s.accBusy ms = false) : s.accWord ms f = f s := by
  rw [State.accWord, State.dataWord_of_free hfree, if_neg (by simp [h])]

theorem State.accWord_of_busy (h : s.accBusy ms = true) : s.accWord ms f = s.tileFault 16 0 := by
  rw [State.accWord, State.dataWord_of_free hfree, if_pos h]

end

section
variable {s : State} (hfree : EngineFree s false)
include hfree

/-- R235: a spill of an accumulator a product is at work on is a fault. -/
theorem exec_mspill_busy (m : BitVec 3) (ta : BitVec 4) (fmt : BitVec 2) (zr : BitVec 1) (h : s.accBusy [m.toNat] = true) :
    exec (.mspill m ta fmt zr) s = .next (s.tileFault 16 0) := congrArg Host.Outcome.next (State.accWord_of_busy hfree _ h)

/-- R234: a spill reads its accumulator in the next tick, and clears it then under `.zr`. -/
theorem exec_mspill_issued {m : BitVec 3} {ta : BitVec 4} {fmt : BitVec 2} (ha : InSram (s.ta ta) (128 * spillLines fmt) 128)
    (h : s.accBusy [m.toNat] = false) (zr : BitVec 1) : ∃ t, exec (.mspill m ta fmt zr) s = .next t ∧
      WordIssued s t s.nextId (spillLines fmt / 4) false (.plain (.mspill m ta fmt zr)) (s.ta ta) 0 0 0 ∧
      DueEffect t (s.plan + 1) (.spillRead s.nextId) ∧ (zr = 1 → DueEffect t (s.plan + 1) (.accWrite s.nextId)) := by
  obtain ⟨u, v, x, hu, hv, hx, hexec⟩ : ∃ u v x, s.Issues u (.plain (.mspill m ta fmt zr)) (s.ta ta) 0 0 0 ∧
      v = (u.occupy false (spillLines fmt / 4)).effect (u.plan + 1) rankRead (.spillRead s.nextId) ∧
      x = (if zr = 1 then v.effect (v.plan + 1) rankWrite (.accWrite s.nextId) else v) ∧
      exec (.mspill m ta fmt zr) s = .next (((List.range (spillLines fmt)).foldl (fun y j =>
        y.book (y.plan + 2 + j / 4) false ((s.ta ta).toNat + 128 * j) s.nextId) x).landsIn (x.plan + 1 + spillLines fmt / 4)) :=
    ⟨_, _, _, (s.issues_keepWord ..).congr (ofNat_toNat_word _) rfl rfl rfl, rfl, rfl,
      congrArg Host.Outcome.next ((State.accWord_of_idle hfree _ h).trans (State.sramArg_of_inSram ha _))⟩
  have hread : (u.occupy false (spillLines fmt / 4)).Plans v ∧ DueEffect v (s.plan + 1) (.spillRead s.nextId) := by
    rw [hv, ← hu.plan]
    exact ⟨.effect .., State.due_effect ..⟩
  have hplan : v.plan = s.plan := by rw [hread.1.plan, State.occupy_plan, hu.plan]
  have hclear : v.Plans x ∧ (zr = 1 → DueEffect x (s.plan + 1) (.accWrite s.nextId)) := by
    rw [hx, hplan]
    split_ifs with hzr
    · exact ⟨.effect .., fun _ => State.due_effect ..⟩
    · exact ⟨.refl _, fun h => absurd h hzr⟩
  have hlines : x.Plans (((List.range (spillLines fmt)).foldl (fun y j =>
      y.book (y.plan + 2 + j / 4) false ((s.ta ta).toNat + 128 * j) s.nextId) x).landsIn (x.plan + 1 + spillLines fmt / 4)) :=
    (State.Plans.foldl (fun _ _ _ => .book ..) (.refl x) _).trans (.landsIn ..)
  exact ⟨_, hexec, hu.wordIssued hfree.1 ((hread.1.trans hclear.1).trans hlines), (hclear.1.trans hlines).due hread.2,
    fun hzr => hlines.due (hclear.2 hzr)⟩

/-- R234: a fill reads four lines a tick. -/
theorem exec_mfill_issued {m : BitVec 3} {ta : BitVec 4} (ha : InSram (s.ta ta) 4096 128) (h : s.accBusy [m.toNat] = false) :
    ∃ t, exec (.mfill m ta) s = .next t ∧ WordIssued s t s.nextId 8 false (.plain (.mfill m ta)) (s.ta ta) 0 0 0 ∧
      (∀ j, j < 32 → DueEffect t (s.plan + 1 + j / 4) (.fillRead s.nextId j)) ∧ DueEffect t (s.plan + 9) (.accWrite s.nextId) := by
  obtain ⟨u, v, hu, hv, hexec⟩ : ∃ u v, s.Issues u (.plain (.mfill m ta)) (s.ta ta) 0 0 0 ∧
      v = (List.range 32).foldl (fun y j => (y.book (y.plan + 1 + j / 4) false ((s.ta ta).toNat + 128 * j) s.nextId).effect
        (y.plan + 1 + j / 4) rankRead (.fillRead s.nextId j)) (u.occupy false 8) ∧
      exec (.mfill m ta) s = .next (v.effect (v.plan + 9) rankWrite (.accWrite s.nextId)) :=
    ⟨_, _, (s.issues_keepWord ..).congr (ofNat_toNat_word _) rfl rfl rfl, rfl,
      congrArg Host.Outcome.next ((State.accWord_of_idle hfree _ h).trans (State.sramArg_of_inSram ha _))⟩
  have hread (y : State) (j : Nat) : y.Plans ((y.book (y.plan + 1 + j / 4) false ((s.ta ta).toNat + 128 * j) s.nextId).effect
      (y.plan + 1 + j / 4) rankRead (.fillRead s.nextId j)) := (State.Plans.book ..).trans (.effect ..)
  have hreads : (u.occupy false 8).Plans v := hv ▸ .foldl (fun y j _ => hread y j) (.refl _) (List.range 32)
  have hplan {y : State} (hy : (u.occupy false 8).Plans y) : y.plan = s.plan := by rw [hy.plan, State.occupy_plan, hu.plan]
  refine ⟨_, hexec, hu.wordIssued hfree.1 (hreads.trans (.effect ..)), fun j hj => (State.Plans.effect ..).due ?_, ?_⟩
  · rw [hv]
    refine State.Plans.foldl_due (tick := fun j => s.plan + 1 + j / 4) (e := .fillRead s.nextId)
      (fun y j _ => hread y j) (fun y j hy => ?_) (.refl _) _ j (List.mem_range.2 hj)
    rw [← hplan hy]
    exact State.due_effect ..
  · rw [← hplan hreads]
    exact State.due_effect ..

end

/-- R234: `madd` and `mmov` read in the next tick, and write in a tick of their own. -/
theorem State.Issues.accumulator_issued {s u : State} {what : TimedWord} (h : s.Issues u what 0 0 0 0) (hs : s.tstream < 7) {t : State}
    {n k : Nat} (ht : t = ((u.occupy false n).effect (u.plan + 1) rankRead (.accRead s.nextId)).effect (u.plan + k) rankWrite
      (.accWrite s.nextId)) :
    WordIssued s t s.nextId n false what 0 0 0 0 ∧ DueEffect t (s.plan + 1) (.accRead s.nextId) ∧
      DueEffect t (s.plan + k) (.accWrite s.nextId) := by
  rw [ht, ← h.plan]
  exact ⟨h.wordIssued hs ((State.Plans.effect ..).trans (.effect ..)), (State.Plans.effect ..).due (State.due_effect ..),
    State.due_effect ..⟩

end Sys2Proof.Machine
end

section
/-! O31 settled. -/

namespace Sys2Proof.Proofs

open Sys2Proof.Machine Sys2Proof.Claims

/-- Settles O31: each word is one operation begun on its operands, or a fault. -/
theorem matrixWordsIssue : Obligations.MatrixWordsIssue := by
  unfold Obligations.MatrixWordsIssue
  intro s hfree key
  refine ⟨fun m ta tb fa fb kk z ha hb => ⟨fun sa sb => ⟨fun hapart => ?product, fun hapart blk => ?close,
        fun hapart _ _ hsa hsb => ?scaled⟩,
      fun lst dec kp hapart hl => ⟨?lists, fun hd => ?decay⟩⟩,
    fun m ta fmt zr ha => ⟨exec_mspill_busy hfree m ta fmt zr, fun hidle => ?spill⟩,
    fun m ta ha hidle => exec_mfill_issued hfree ha hidle, fun md ma mb hidle => ?add, fun md ma z hidle => ?move⟩
  case product =>
    obtain ⟨u, hu, hexec⟩ := exec_mma_eq hfree ha hb hapart m fa fb z sa sb
    exact ⟨_, hexec, hu.product_issued hfree.1 (.refl _)⟩
  case close => exact exec_mma_not_apart hfree ha hb hapart ..
  case scaled =>
    obtain ⟨u, hu, hexec⟩ := exec_mma_scaled_eq hfree ha hb hapart m fa fb z hsa hsb
    obtain ⟨hscales, hdue⟩ := State.readScales_plans (u.startProduct s.nextId (s.ta ta).toNat (s.ta tb).toNat kk.toNat) s.nextId
      (scaleLines (s.ta sa).toNat (matScales fa.toNat) kk.toNat ++ scaleLines (s.ta sb).toNat (matScales fb.toNat) kk.toNat)
    rw [(State.startProduct_plans ..).1.plan, State.occupy_plan, hu.plan] at hdue
    obtain ⟨hissued, hreads⟩ := hu.product_issued hfree.1 hscales
    exact ⟨_, hexec, hissued, hreads, fun i hi => hdue _ (List.mem_append_left _ (mem_scaleLines hi)),
      fun i hi => hdue _ (List.mem_append_right _ (mem_scaleLines hi))⟩
  case lists =>
    obtain ⟨u, hu, hexec⟩ := exec_mmag_eq hfree ha hb hapart m fa fb z hl dec kp
    obtain ⟨hissued, hreads⟩ := hu.product_issued hfree.1 ((State.Plans.book ..).trans (.effect ..))
    exact ⟨_, hexec, hissued, hreads, hu.plan ▸ State.due_effect ..⟩
  case decay =>
    obtain ⟨u, hu, hexec⟩ := exec_mmag_decay_eq hfree ha hb hapart m fa fb z hl dec kp hd
    obtain ⟨hissued, hreads⟩ := hu.product_issued hfree.1 (((State.Plans.book ..).trans (.effect ..)).trans (.book ..))
    exact ⟨_, hexec, hissued, hreads, (State.Plans.book ..).due (hu.plan ▸ State.due_effect ..)⟩
  case spill => exact exec_mspill_issued hfree ha hidle zr
  case add =>
    exact ⟨_, congrArg Host.Outcome.next (State.accWord_of_idle hfree _ hidle),
      (s.issues_keepWord (.plain (.madd md ma mb)) 0 0 0 0).accumulator_issued hfree.1 rfl⟩
  case move =>
    exact ⟨_, congrArg Host.Outcome.next (State.accWord_of_idle hfree _ hidle),
      (s.issues_keepWord (.plain (.mmov md ma z)) 0 0 0 0).accumulator_issued hfree.1 rfl⟩

end Sys2Proof.Proofs
end

section
/-! O30 refuted: a state whose full/empty bits are not in the canonical form (`Memory.wf`). -/

namespace Sys2Proof.Proofs

open Sys2Proof.Machine Sys2Proof.Claims

/-- A region named `store` covers the first line of HBM. -/
def storeRegionPart : Part := { Part.rest 0 0 0 with tiles := [.rest], regions := [⟨none, 0, 0x1000, 6⟩] }

/-- The first word of HBM is empty, and the cell that says so is listed twice. -/
def emptyTwice : State := { State.reset with p := storeRegionPart, attr := [(0, 1), (0, 1)] }

/-- The line that lands in HBM clears one of the two cells: the first word stays empty. -/
theorem emptyTwice_landed {t : State} (h : exec (.timedEffectLands 0 0 (.hbm 0 0 0 0 0)) emptyTwice = .next t) :
    t.isFull 0 = false := by
  obtain rfl := Host.Outcome.next.inj h
  decide +kernel

/-- Refutes O30: the statement asks memory, but not the full/empty bits, to be in the canonical form; where a word is marked empty
twice, the line that a store writes leaves it empty. -/
theorem not_lineRequestsAndLanding : ¬ Obligations.LineRequestsAndLanding := by
  unfold Obligations.LineRequestsAndLanding
  rintro ⟨-, -, -, -, hstored, -⟩
  obtain ⟨t, hexec, -, hfull⟩ := hstored 0 0 0 0 0 0 emptyTwice (by decide) (by decide) (by decide) (by decide) (by decide)
  exact absurd (hfull 0 (by decide)) (by simp [emptyTwice_landed hexec])

end Sys2Proof.Proofs
end

section
/-! The words common to every engine and the control words (R218-R224, R379). -/

namespace Sys2Proof.Machine

open Sys2Proof.Claims

/-! The acting stream (R218). -/

theorem State.onStream_eq_withStream {s : State} (h : s.tstream < 7) (g : TStream → TStream) :
    s.onStream s.tstream g = withStream s (g s.stream) := by
  rw [State.stream_eq_getElem h, State.onStream, withStream, dif_pos h, dif_pos h]

theorem TStream.setA_eq_set (t : TStream) {r : Nat} (h : r < 16) (v : Word) : t.setA r v = { t with ta := t.ta.set r v } := dif_pos h
theorem TStream.setN_eq_set (t : TStream) {r : Nat} (h : r < 8) (v : BitVec 32) : t.setN r v = { t with tn := t.tn.set r v } :=
  dif_pos h

theorem append_low_half (imm : BitVec 32) (v : Word) :
    imm ++ v.extractLsb' 0 32 = (imm.setWidth 64 <<< 32) ||| (v &&& 0xFFFFFFFF) := by
  ext i hi
  have hmask : (0xFFFFFFFF : Word).getLsbD i = decide (i < 32) := by
    rw [show (0xFFFFFFFF : Word) = BitVec.ofNat 64 (2 ^ 32 - 1) from rfl, BitVec.getLsbD_ofNat, Nat.testBit_two_pow_sub_one]
    simp [hi]
  simp only [← BitVec.getLsbD_eq_getElem, BitVec.getLsbD_append, BitVec.getLsbD_extractLsb', BitVec.getLsbD_or, BitVec.getLsbD_and,
    BitVec.getLsbD_shiftLeft, BitVec.getLsbD_setWidth, hmask]
  by_cases hlow : i < 32
  · simp [hlow]
  · simpa [hlow, hi] using fun _ => by omega

theorem idleOf_eq (w : Word) : idleOf w = w.toNat / 2 ^ 54 := by
  have h := w.isLt
  rw [idleOf, field]
  omega

/-! Slots and other streams (R220, R221, R382). -/

theorem State.readSlot_of_quiet {s : State} {slot : BitVec 4} (h : s.tl.board[slot.toNat].quiet ≤ s.plan) :
    s.readSlot slot.toNat = some s.tl.board[slot.toNat].value := by
  have hslot : s.tl.board.toList.getD slot.toNat .rest = s.tl.board[slot.toNat] := by simp [slot.isLt]
  simp only [State.readSlot, hslot, if_neg (Nat.not_lt.2 h)]

/-- R220: the control stream goes on at its arm, and the others follow in this tick. -/
theorem exec_brp_arm {s : State} (hs : s.tstream < 7) {slot : BitVec 4} (hquiet : s.tl.board[slot.toNat].quiet ≤ s.plan)
    (count : BitVec 4) (base span : BitVec 13) {k : Nat}
    (hk : base.toNat + min s.tl.board[slot.toNat].value.toNat count.toNat * span.toNat = k) :
    ∃ t, exec (.brp slot count base span) s = .next t ∧ t.stream.next = k ∧ DueEffect t s.plan (.redirect k) ∧ t.mem = s.mem := by
  obtain ⟨u, hu⟩ : ∃ u, s.onStream s.tstream (·.jump k) = u := ⟨_, rfl⟩
  have hexec : exec (.brp slot count base span) s =
      .next (u.duePlan u.plan rankRedirect (.ev (.timedEffectLands u.p.first u.tix (.redirect k)))) := by
    change execBrp slot count base span s = _
    rw [execBrp, State.readSlot_of_quiet hquiet]
    dsimp only
    rw [hk, hu]
  have hnext : u.stream.next = k := by rw [← hu, State.stream_onStream hs]; rfl
  obtain ⟨x, hx⟩ := s.onStream_eq s.tstream (·.jump k)
  rw [hu] at hx
  have hplan : u.plan = s.plan := by rw [hx]; rfl
  exact ⟨_, hexec, hnext, ⟨rankRedirect, hplan ▸ mem_insertItem.2 (.inl rfl)⟩, by rw [hx]; rfl⟩

/-- R221: a register of another stream is written in the next tick. -/
theorem State.crossWrite_due (s : State) (stream : Nat) (tn : Bool) (reg : Nat) (v : Word) :
    DueEffect (s.crossWrite stream tn reg v) (s.plan + 1) (.setReg stream tn reg v) := ⟨_, mem_insertItem.2 (.inl rfl)⟩

/-! Boundaries and regions (R216, R219). -/

/-- R216: a boundary word is recorded, and the end of its tick is looked at. -/
theorem State.boundary_eq (s : State) : ∃ q, s.boundary = { s with p := { s.p with run := { s.p.run with
    bounds := s.p.run.bounds ++ [(s.plan, s.tl.ltile, s.bundle &&& 0x003FFFFFFFFFFFFF)], tq := q } } } := by
  unfold State.boundary State.watchTick
  dsimp only
  split <;> exact ⟨_, rfl⟩

/-- R223: whatever is known of the tick's pre-emption point then, it is this tick's. -/
theorem exec_prept_boundary (s : State) (n : BitVec 16) : ∃ r l, r.map (·.1) = some s.plan ∧
    exec (.prept n) s = .next (s.onRun fun x => { x with prept := r, noisy := l }).boundary := by
  change ∃ r l, _ ∧ execPrept n s = _
  unfold execPrept
  by_cases hseen : s.p.run.prept.map (·.1) = some s.plan
  · refine ⟨s.p.run.prept, s.p.run.noisy, hseen, ?_⟩
    obtain ⟨⟨tick, quiet⟩, hp, htick⟩ := Option.map_eq_some_iff.1 hseen
    simp only [hp]
    rw [if_pos (beq_iff_eq.2 htick), ← hp]
    rfl
  · refine ⟨some (s.plan, s.quiet && !s.p.run.noisy.contains s.plan),
      if s.quiet && !s.p.run.noisy.contains s.plan then s.p.run.noisy else s.plan :: s.p.run.noisy, rfl, ?_⟩
    cases hp : s.p.run.prept with
    | none => rfl
    | some seen =>
      have htick : ¬ (seen.1 == s.plan) = true := fun h => hseen (by rw [hp, ← beq_iff_eq.1 h]; rfl)
      exact congrArg (fun u : State => Host.Outcome.next u.boundary) (if_neg htick)

/-- R219: the last writer of an index wins. -/
theorem getElem?_foldl_writer (l : List (Nat × Nat)) {rs : List Region} {i : Nat} {r : Region} (h : rs[i]? = some r) :
    (l.foldl (fun rs x => rs.modify x.1 fun r => { r with writer := x.2 }) rs)[i]? =
      some { r with writer := ((l.filter (·.1 = i)).getLast?.map (·.2)).getD r.writer } := by
  induction l generalizing rs r with
  | nil => exact h
  | cons x l ih =>
    rw [List.foldl_cons]
    by_cases hx : x.1 = i
    · rw [ih (r := { r with writer := x.2 }) (by rw [List.getElem?_modify, h, hx]; simp), List.filter_cons_of_pos (by simpa using hx),
        List.getLast?_cons]
      cases (l.filter (·.1 = i)).getLast? <;> rfl
    · rw [ih (r := r) (by rw [List.getElem?_modify, h]; simp [hx]), List.filter_cons_of_neg (by simpa using hx)]

/-- R390: a fault of the acting tile joins those of its launch, which runs on to the end of its tick. -/
theorem State.tileFault_faults {s : State} (hactive : s.p.run.active = true) (hending : s.p.run.ending = false) (kind : Nat)
    (info : Word) : ∃ e, (s.tileFault kind info).p.run.faults = s.p.run.faults ++ [e] ∧ e.kind = kind :=
  ⟨_, State.launchFault_faults hactive hending _, rfl⟩

/-! Ports out of phase (R379). -/

theorem LinkEntry.inPhase_iff (l : LinkEntry) : l.inPhase = true ↔ l.w0.getLsbD 12 = true ∧ l.w0.getLsbD 13 = true ∧
    2 * ((l.w0.extractLsb' 32 16).toInt).natAbs ≤ (l.w0.extractLsb' 48 16).toNat := by
  have hphase : l.phase = (l.w0.extractLsb' 32 16).toInt := by
    rw [LinkEntry.phase, signExt_eq _ (by decide)]
    congr 1
  rw [LinkEntry.inPhase, hphase, field_eq_extractLsb']
  simp [and_assoc]

/-- R370: a launch under way is as it was when its group dissolves. -/
theorem State.breakGroup_run (s : State) : s.breakGroup.p.run = s.p.run := by
  unfold State.breakGroup
  dsimp only
  split <;> rfl

end Sys2Proof.Machine
end

section
/-! O27 settled. -/

namespace Sys2Proof.Proofs

open Sys2Proof.Machine Sys2Proof.Claims

/-- Settles O27: each word by its own rule. -/
theorem timedControlWords : Obligations.TimedControlWords := by
  unfold Obligations.TimedControlWords
  intro s hs st
  have hstream {i : Instr} {g : TStream → TStream} {x : TStream} (hi : exec i s = .next (s.onStream s.tstream g)) (hg : g st = x) :
      exec i s = .next (withStream s x) := by
    rw [hi, State.onStream_eq_withStream hs, hg]
  refine ⟨fun n => hstream rfl ?wait, fun c always target => hstream rfl ?loop,
    fun imm hi reg => ⟨hstream rfl ?setA, hstream rfl ?addA⟩, fun imm hi reg h => ⟨hstream rfl ?setN, hstream rfl ?addN⟩,
    fun n => ⟨fun hn => ?bell, fun hn => congrArg _ (if_pos hn)⟩, fun slot count base span hquiet => ?brp,
    fun slot stream reg hquiet => ?chkp, fun reg stream => ⟨_, rfl, s.crossWrite_due .., rfl, rfl⟩, fun i w => rfl,
    fun code => ?halt, fun n => ?prept, fun mask hphase => ?inPhase, fun mask i hi hmask hlocked hactive hending => ?outOfPhase⟩
  case wait => rw [TStream.nextIdle, idleOf_eq]
  case loop => rw [TStream.regN_eq_getElem _ c.isLt, TStream.setN_eq_set _ c.isLt]; rfl
  case setA =>
    rw [if_neg (by decide), TStream.setA_eq_set _ reg.isLt, TStream.setA_eq_set _ reg.isLt, TStream.regA_eq_getElem _ reg.isLt,
      append_low_half]
    split_ifs <;> rfl
  case addA =>
    rw [if_neg (by decide), TStream.setA_eq_set _ reg.isLt, TStream.regA_eq_getElem _ reg.isLt, BitVec.ofInt_add, BitVec.ofInt_toInt]
    rfl
  case setN => rw [if_pos rfl, TStream.setN_eq_set _ h]
  case addN => rw [if_pos rfl, TStream.setN_eq_set _ h, TStream.regN_eq_getElem _ h]
  case bell =>
    obtain ⟨q, hq⟩ := State.boundary_eq ({ s with tl := { s.tl with bells := s.tl.bells + 1 } } : State).flipRegions
    refine ⟨_, congrArg Host.Outcome.next (if_neg (not_not.2 hn)), ?_⟩
    rw [hq]
    exact ⟨rfl, rfl, rfl, rfl, fun i r hr => getElem?_foldl_writer _ hr⟩
  case brp => exact exec_brp_arm hs hquiet count base span rfl
  case chkp =>
    have hread {i : Instr} {tn : Bool} (hi : exec i s = .next (match s.readSlot slot.toNat with
        | none => s.tileFault 16 0
        | some v => s.crossWrite stream.toNat tn reg.toNat v)) : ∃ t, exec i s = .next t ∧
        DueEffect t (s.plan + 1) (.setReg stream.toNat tn reg.toNat s.tl.board[slot.toNat].value) ∧ t.tl = s.tl ∧ t.mem = s.mem := by
      rw [State.readSlot_of_quiet hquiet] at hi
      exact ⟨_, hi, s.crossWrite_due .., rfl, rfl⟩
    exact ⟨hread rfl, hread rfl⟩
  case halt =>
    obtain ⟨q, hq⟩ := State.boundary_eq (s.onRun fun r => { r with halted := some (r.halted.getD code) })
    refine ⟨_, rfl, ?_⟩
    rw [hq]
    exact ⟨rfl, rfl, rfl, rfl⟩
  case prept =>
    obtain ⟨r, l, hr, hexec⟩ := exec_prept_boundary s n
    obtain ⟨q, hq⟩ := State.boundary_eq (s.onRun fun x => { x with prept := r, noisy := l })
    refine ⟨_, hexec, ?_⟩
    rw [hq]
    exact ⟨hr, rfl, rfl, rfl⟩
  case inPhase =>
    have hnone : ((List.range 16).find? fun n => mask.getLsbD n && !(s.links.toList.getD n ⟨0, 0⟩).inPhase) = none := by
      refine List.find?_eq_none.2 fun n hn => ?_
      have hn := List.mem_range.1 hn
      by_cases hm : mask.getLsbD n = true
      · simp [hn, (LinkEntry.inPhase_iff _).2 (hphase n hn hm)]
      · simp [hm]
    change execDrift mask s = _
    rw [execDrift, hnone]
  case outOfPhase =>
    have hdrifts : ¬ s.links[i].inPhase = true := fun hin => by
      rw [((LinkEntry.inPhase_iff _).1 hin).2.1] at hlocked
      exact absurd hlocked (by decide)
    have hsome : ((List.range 16).find? fun n => mask.getLsbD n && !(s.links.toList.getD n ⟨0, 0⟩).inPhase).isSome = true :=
      List.find?_isSome.2 ⟨i, List.mem_range.2 hi, by simpa [hi, hmask] using hdrifts⟩
    obtain ⟨n, hn⟩ := Option.isSome_iff_exists.1 hsome
    have hexec : exec (.drift mask) s = .next (s.tileFault 19 (BitVec.ofNat 64 n)).breakGroup := by
      change execDrift mask s = _
      rw [execDrift, hn]
    obtain ⟨e, hfaults, hkind⟩ := State.tileFault_faults hactive hending 19 (BitVec.ofNat 64 n)
    refine ⟨_, e, hexec, ?_, hkind, ?_, ?_⟩
    · rw [State.breakGroup_run, hfaults]
    · rw [State.breakGroup_group]
      simp
    · rw [State.breakGroup_mem]
      exact State.launchFault_mem ..

end Sys2Proof.Proofs
end

section
/-! Accumulators spilled and filled, and the bytes of a group as they land (R213, R215, R234). -/

namespace Sys2Proof.Machine

open Sys2Proof.Claims

/-- R213: an effect that belongs to no word lands as it is. -/
theorem exec_timedEffectLands_wordless {s f : State} {first tile : Nat} {e : TEff} (hf : atTile s first tile = f)
    (hfirst : f.p.first = first) (heff : wordOfEff e = none) :
    exec (.timedEffectLands first tile e) s = .next (f.timedEffect e).storeTile := by
  subst hf
  have hpart : (s.focusPart first).p.first = first := hfirst
  change execTimedEffectLands first tile e s = _
  simp only [execTimedEffectLands, hpart, ne_eq, not_true, if_false, heff, Option.bind_none]
  rfl

/-! Bytes that land (R215). -/

theorem State.sramFlat_add (s : State) (off i : Nat) : s.sramFlat (off + i) = s.sramFlat off + i := by
  simp only [State.sramFlat, flatSram]
  omega

/-- R215: bytes that land where the region table allows it are written, one after another. -/
theorem State.landBytes_eq {s : State} (hwf : s.mem.wf = true) {off n writer : Nat}
    (hregion : s.p.sramEngine s.tl.ltile off n writer = true) (stream data : Nat) :
    ∃ mem attr, s.landBytes stream off n data writer = { s with mem := mem, attr := attr } ∧ mem.wf = true ∧
      ∀ b, mem.read b = if s.sramFlat off ≤ b ∧ b < s.sramFlat off + n then BitVec.ofNat 8 (data / 2 ^ (8 * (b - s.sramFlat off)))
        else s.mem.read b := by
  simp only [State.landBytes, hregion, Bool.not_true, Bool.false_eq_true, if_false]
  clear hregion
  induction n with
  | zero => exact ⟨s.mem, s.attr, rfl, hwf, fun b => (if_neg (by omega)).symm⟩
  | succ n ih =>
    obtain ⟨mem, attr, hset, hmem, hread⟩ := ih
    have hflat : ({ s with mem := mem, attr := attr } : State).sramFlat (off + n) = s.sramFlat off + n := s.sramFlat_add off n
    rw [List.range_succ, List.foldl_append, hset, List.foldl_cons, List.foldl_nil, hflat, State.setAttr_eq]
    refine ⟨_, _, rfl, Memory.wf_write hmem, fun b => ?_⟩
    rw [Memory.read_write hmem, hread]
    by_cases hb : b = s.sramFlat off + n
    · subst hb
      simp
    · rw [if_neg hb]
      exact if_congr (by omega) rfl rfl

/-- Byte k of the low m bytes of a value is byte k of the value. -/
theorem ofNat_byte_of_low (v : Nat) {k m : Nat} (h : k < m) :
    BitVec.ofNat 8 (v % 2 ^ (8 * m) / 2 ^ (8 * k)) = BitVec.ofNat 8 (v / 2 ^ (8 * k)) := by
  apply BitVec.eq_of_toNat_eq
  rw [BitVec.toNat_ofNat, BitVec.toNat_ofNat, show 8 * m = 8 * k + 8 * (m - k) by omega, Nat.pow_add, Nat.mod_mul_right_div_self,
    Nat.mod_mod_of_dvd _ (Nat.pow_dvd_pow 2 (by omega))]

section
variable {s : State} (hwf : s.mem.wf = true) {off n writer : Nat} (stream data : Nat)
include hwf

/-- R215: the piece of a group that lies in one line. -/
theorem State.landPiece_eq {a : Nat} (ha : a ∈ linesOf off n)
    (hregion : s.p.sramEngine s.tl.ltile (max a off) (min (a + 128) (off + n) - max a off) writer = true) :
    ∃ mem attr, s.landBytes stream (max a off) (min (a + 128) (off + n) - max a off)
        (data / 2 ^ (8 * (max a off - off)) % 2 ^ (8 * (min (a + 128) (off + n) - max a off))) writer =
          { s with mem := mem, attr := attr } ∧
      mem.wf = true ∧ ∀ b, mem.read b = if s.sramFlat (max a off) ≤ b ∧ b < s.sramFlat (min (a + 128) (off + n)) then
        BitVec.ofNat 8 (data / 2 ^ (8 * (b - s.sramFlat off))) else s.mem.read b := by
  obtain ⟨-, hend, hstart⟩ := mem_linesOf.1 ha
  obtain ⟨mem, attr, hset, hmem, hread⟩ := State.landBytes_eq hwf hregion stream
    (data / 2 ^ (8 * (max a off - off)) % 2 ^ (8 * (min (a + 128) (off + n) - max a off)))
  refine ⟨mem, attr, hset, hmem, fun b => ?_⟩
  have hfirst : s.sramFlat (max a off) = s.sramFlat off + (max a off - off) := by rw [← s.sramFlat_add]; congr 1; omega
  have hlast : s.sramFlat (min (a + 128) (off + n)) = s.sramFlat off + (min (a + 128) (off + n) - off) := by
    rw [← s.sramFlat_add]; congr 1; omega
  rw [hread b, hfirst, hlast]
  by_cases hb : s.sramFlat off + (max a off - off) ≤ b ∧ b < s.sramFlat off + (min (a + 128) (off + n) - off)
  · have hbyte : 8 * (max a off - off) + 8 * (b - (s.sramFlat off + (max a off - off))) = 8 * (b - s.sramFlat off) := by omega
    rw [if_pos (by omega), if_pos hb, ofNat_byte_of_low _ (by omega), Nat.div_div_eq_div_mul, ← Nat.pow_add, hbyte]
  · rw [if_neg (by omega), if_neg hb]

/-- R215: the lines of a group that land, each where its port and its regions allow it. -/
theorem State.landPieces_eq (hok : ∀ a ∈ linesOf off n, s.portOk false a = true ∧
      s.p.sramEngine s.tl.ltile (max a off) (min (a + 128) (off + n) - max a off) writer = true) :
    ∃ mem attr, s.landPieces stream off n data writer = { s with mem := mem, attr := attr } ∧
      ∀ b, mem.read b = if s.sramFlat off ≤ b ∧ b < s.sramFlat off + n then BitVec.ofNat 8 (data / 2 ^ (8 * (b - s.sramFlat off)))
        else s.mem.read b := by
  have hfold (l : List Nat) (hl : l ⊆ linesOf off n) : ∃ mem attr, l.foldl (fun s a =>
        let lo := max a off
        let hi := min (a + 128) (off + n)
        if s.portOk false a then s.landBytes stream lo (hi - lo) (data / 2 ^ (8 * (lo - off)) % 2 ^ (8 * (hi - lo))) writer else s) s =
          { s with mem := mem, attr := attr } ∧ mem.wf = true ∧
      ∀ b, mem.read b = if ∃ a ∈ l, s.sramFlat (max a off) ≤ b ∧ b < s.sramFlat (min (a + 128) (off + n)) then
        BitVec.ofNat 8 (data / 2 ^ (8 * (b - s.sramFlat off))) else s.mem.read b := by
    induction l using List.reverseRecOn with
    | nil => exact ⟨s.mem, s.attr, rfl, hwf, by simp⟩
    | append_singleton l a ih =>
      obtain ⟨mem, attr, hset, hmem, hread⟩ := ih fun x hx => hl (by simp [hx])
      obtain ⟨hport, hregion⟩ := hok a (hl (by simp))
      obtain ⟨mem', attr', hset', hmem', hread'⟩ := State.landPiece_eq (s := { s with mem := mem, attr := attr }) hmem stream data
        (hl (by simp)) hregion
      refine ⟨mem', attr', ?_, hmem', fun b => (hread' b).trans ?_⟩
      · rw [List.foldl_append, hset]
        exact (if_pos hport).trans hset'
      · change (if s.sramFlat (max a off) ≤ b ∧ b < s.sramFlat (min (a + 128) (off + n)) then
          BitVec.ofNat 8 (data / 2 ^ (8 * (b - s.sramFlat off))) else mem.read b) = _
        by_cases hb : s.sramFlat (max a off) ≤ b ∧ b < s.sramFlat (min (a + 128) (off + n))
        · rw [if_pos hb, if_pos ⟨a, by simp, hb⟩]
        · rw [if_neg hb, hread b]
          simp only [List.mem_append, List.mem_singleton, or_and_right, exists_or, exists_eq_left, hb, or_false]
  obtain ⟨mem, attr, hset, -, hread⟩ := hfold _ (List.Subset.refl _)
  refine ⟨mem, attr, hset, fun b => ?_⟩
  rw [hread b]
  have hflat (x : Nat) : s.sramFlat x = s.sramFlat 0 + x := by rw [← s.sramFlat_add, Nat.zero_add]
  refine if_congr ⟨?_, fun hb => ?_⟩ rfl rfl
  · rintro ⟨a, -, hb⟩
    rw [hflat (max a off), hflat (min _ _)] at hb
    rw [hflat off]
    omega
  · rw [hflat off] at hb
    refine ⟨(b - s.sramFlat 0) / 128 * 128, mem_linesOf.2 (by omega), ?_⟩
    rw [hflat (max _ _), hflat (min _ _)]
    omega

end

/-! What the accumulator words read (R234). -/

/-- R234: line j of a spill of accumulator m: its elements, rounded. -/
def State.spillLine (s : State) (m : Nat) (fmt : BitVec 2) (j : Nat) : Nat :=
  packElems (spillFmt fmt).width (fun e => ((spillFmt fmt).round .rn (f32.value (s.accElem m (1024 / (spillFmt fmt).width * j + e)))).1)
    (1024 / (spillFmt fmt).width)

theorem State.Plans.spillLine {s t : State} (h : s.Plans t) (m : Nat) (fmt : BitVec 2) (j : Nat) :
    t.spillLine m fmt j = s.spillLine m fmt j := by
  obtain ⟨_, _, _, _, _, rfl⟩ := h.frame
  rfl

/-- R234: the lines of a spill are on their way, four in a tick. -/
theorem State.spill_due {s : State} {key : Nat} {w : WordRun} (hword : s.wordRun key = some w) {m : BitVec 3} {ta : BitVec 4}
    {fmt : BitVec 2} {zr : BitVec 1} (hwhat : w.what = .plain (.mspill m ta fmt zr)) : s.Plans (s.spill key) ∧
    ∀ j, j < spillLines fmt → DueEffect (s.spill key) (s.plan + 1 + j / 4)
      (.bytes w.stream (w.r0.toNat + 128 * j) 128 (s.spillLine m.toNat fmt j) 2) := by
  have hspill : s.spill key = (List.range (spillLines fmt)).foldl (fun t j => t.effect (t.plan + 1 + j / 4) rankWrite
      (.bytes w.stream (w.r0.toNat + 128 * j) 128 (t.spillLine m.toNat fmt j) 2)) s := by
    simp only [State.spill, hword, WordRun.instr, hwhat]
    rfl
  rw [hspill]
  refine ⟨.foldl (fun t j _ => .effect ..) (.refl s) _, fun j hj => ?_⟩
  refine State.Plans.foldl_due (tick := fun j => s.plan + 1 + j / 4)
    (e := fun j => .bytes w.stream (w.r0.toNat + 128 * j) 128 (s.spillLine m.toNat fmt j) 2)
    (fun t j _ => .effect ..) (fun t j ht => ?_) (.refl s) _ j (List.mem_range.2 hj)
  rw [ht.spillLine, ht.plan]
  exact State.due_effect ..

theorem spillFmt_lines (fmt : BitVec 2) : 1024 / (1024 / (spillFmt fmt).width) = spillLines fmt := by
  rw [spillFmt, spillLines]
  split_ifs <;> rfl

/-- R234: what `madd` and `mmov` read is kept with the word. -/
theorem State.readAcc_of_word {s : State} {key : Nat} {w : WordRun} (hword : s.wordRun key = some w) :
    s.readAcc key = s.onWord key fun x => { x with acc := (s.accResult w.instr).map (BitVec.ofNat 64) } := by
  simp only [State.readAcc, hword]

theorem getElem_elems_div (g : Nat → Nat → Nat) {n : Nat} (h : n < (elems g).length) : (elems g)[n] = g (n / 32) (n % 32) := by
  simp only [elems, List.getElem_map, List.getElem_range]

end Sys2Proof.Machine
end

section
/-! O33 settled. -/

namespace Sys2Proof.Proofs

open Sys2Proof.Machine Sys2Proof.Claims

section
variable {s f : State} {first tile key : Nat} {w : WordRun} (hf : atTile s first tile = f) (hfirst : f.p.first = first)
  (hword : f.wordRun key = some w)
include hf hfirst hword

/-- R234: what a word reads of accumulators is kept. -/
theorem accumulatorsAreKept {g : Nat → Nat → Nat} (hread : f.accResult w.instr = elems g) :
    ∃ t x, exec (.timedEffectLands first tile (.accRead key)) s = .next t ∧ t.mem = s.mem ∧ t.wordRun key = some x ∧
      x.what = w.what ∧ x.acc.length = 1024 ∧ ∀ n, n < 1024 → (x.acc.getD n 0).toNat = g (n / 32) (n % 32) % 2 ^ 64 := by
  have hexec := exec_timedEffectLands (e := .accRead key) hf hfirst hword rfl
  rw [State.timedEffect, State.readAcc_of_word (s := f.actsFor w) hword] at hexec
  have hacc : (f.actsFor w).accResult w.instr = elems g := hread
  refine ⟨_, _, hexec, (hf ▸ atTile_mem s first tile : f.mem = s.mem),
    State.wordRun_onWord (s := f.actsFor w) hword fun _ hx => hx, rfl, ?_, fun n hn => ?_⟩
  · rw [hacc, List.length_map, length_elems]
  · simp [hacc, hn, elems]

/-- R234: an accumulator that is written takes every element, and no other byte changes. -/
theorem accumulatorIsWritten (hwf : s.mem.wf = true) {m : Nat} {v : List Nat} {g : Nat → Nat} (hlength : v.length = 1024)
    (hv : ∀ n (h : n < v.length), v[n] = g n) (hwrite : (f.actsFor w).writeAcc key = (f.actsFor w).setAcc m v ∨
      (f.actsFor w).writeAcc key = ((f.actsFor w).setAcc m v).dropWord key) :
    ∃ t, exec (.timedEffectLands first tile (.accWrite key)) s = .next t ∧
      (∀ n, n < 1024 → t.accElem m n = g n % 2 ^ 32) ∧
      ∀ b, (b < flatAccBase + ((first * 1024 + f.tl.ltile) * 8 + m) * 4096 ∨
        flatAccBase + ((first * 1024 + f.tl.ltile) * 8 + m) * 4096 + 4096 ≤ b) → t.mem.read b = s.mem.read b := by
  have hmem : f.mem = s.mem := hf ▸ atTile_mem s first tile
  have hexec := exec_timedEffectLands (e := .accWrite key) hf hfirst hword rfl
  obtain ⟨mem, hset, -, hread, hframe⟩ := State.setAcc_eq (s := f.actsFor w) (hmem ▸ hwf) m v
  have hother (b : Nat) (hb : b < flatAccBase + ((first * 1024 + f.tl.ltile) * 8 + m) * 4096 ∨
      flatAccBase + ((first * 1024 + f.tl.ltile) * 8 + m) * 4096 + 4096 ≤ b) : mem.read b = s.mem.read b := by
    refine (hframe b ?_).trans (congrArg (·.read b) hmem)
    subst hfirst
    simp only [flatAcc, hlength, State.actsFor_p, State.actsFor_tl]
    omega
  have hvalue (n : Nat) (hn : n < 1024) : mem.readN (flatAcc f.p.first f.tl.ltile m n) 4 = g n % 2 ^ 32 :=
    (hread n (hlength ▸ hn)).trans (congrArg (· % 2 ^ 32) (hv n (hlength ▸ hn)))
  rw [State.timedEffect] at hexec
  rcases hwrite with hwrite | hwrite
  · rw [hwrite, hset] at hexec
    exact ⟨_, hexec, hvalue, hother⟩
  · rw [hwrite, hset] at hexec
    exact ⟨_, hexec, hvalue, hother⟩

end

/-- Settles O33: each word reads and writes its accumulators, and what lands is written byte by byte. -/
theorem accumulatorWords : Obligations.AccumulatorWords := by
  unfold Obligations.AccumulatorWords
  refine ⟨fun first tile key w s hfirst hword _ => ⟨fun m ta fmt zr hwhat => ?spill,
    fun m ta j hwhat hclean hport _ hin hfree => ?fill, fun md ma mb hwhat => ?add, fun md ma z hwhat => ?move,
    fun hwf hlow htile m v hv => ?writes⟩,
    fun first tile stream off n data writer s hfirst hwf _ _ _ hok => ?lands⟩
  case spill =>
    have hexec := exec_timedEffectLands (e := .spillRead key) rfl hfirst hword rfl
    obtain ⟨hplans, hdue⟩ := State.spill_due (s := (atTile s first tile).actsFor w) hword hwhat
    refine ⟨_, hexec, hplans.mem.trans (atTile_mem s first tile),
      fun j hj => ⟨_, hdue j ?_, fun e he => elemOf_packElems _ _ he⟩⟩
    rwa [← spillFmt_lines]
  case fill =>
    have hexec := exec_timedEffectLands (e := .fillRead key j) rfl hfirst hword rfl
    have hr0 : ((atTile s first tile).actsFor w).wordRun key = some w := hword
    simp only [State.timedEffect, hr0] at hexec
    rw [State.keepLine_of_clean (s := (atTile s first tile).actsFor w) hclean hport hin] at hexec
    exact ⟨_, _, hexec, atTile_mem s first tile, State.wordRun_onWord hr0 fun _ hx => hx,
      w.lineAt_withLines _ (List.mem_singleton_self _) (fun y hy _ => List.mem_singleton.1 hy) hfree⟩
  case add =>
    obtain ⟨t, x, hexec, hmem, hkept, hsame, hlength, hvalue⟩ := accumulatorsAreKept (g := fun i j =>
      (f32.add ((atTile s first tile).accElem ma.toNat (32 * i + j)) ((atTile s first tile).accElem mb.toNat (32 * i + j))).1)
      rfl hfirst hword (by rw [WordRun.instr, hwhat]; rfl)
    refine ⟨t, x, hexec, hmem, hkept, hsame, hlength, fun n hn => ?_⟩
    rw [hvalue n hn, Nat.div_add_mod]
  case move =>
    obtain ⟨t, x, hexec, hmem, hkept, hsame, hlength, hvalue⟩ := accumulatorsAreKept (g := fun i j =>
      if z = 1 then 0 else (atTile s first tile).accElem ma.toNat (32 * i + j)) rfl hfirst hword (by rw [WordRun.instr, hwhat]; rfl)
    refine ⟨t, x, hexec, hmem, hkept, hsame, hlength, fun n hn => ?_⟩
    rw [hvalue n hn, Nat.div_add_mod]
    split_ifs <;> rfl
  case writes =>
    have hr : ((atTile s first tile).actsFor w).wordRun key = some w := hword
    rcases hv with ⟨ta, fmt, zr, hwhat, hv⟩ | ⟨ta, hwhat, hv⟩ | ⟨hlength, hv, hwhat⟩
    · refine accumulatorIsWritten rfl hfirst hword hwf (v := elems fun _ _ => 0) (length_elems _) (fun n hn => ?_) (.inl ?_)
      · rw [getElem_elems_div, hv n (length_elems _ ▸ hn)]
      · simp only [State.writeAcc, hr, WordRun.instr, hwhat]
    · refine accumulatorIsWritten rfl hfirst hword hwf (v := elems fun i j => lineLane (w.lineAt i) 32 j) (length_elems _)
        (fun n hn => ?_) (.inr ?_)
      · rw [getElem_elems_div, hv n (length_elems _ ▸ hn)]
      · simp only [State.writeAcc, hr, WordRun.instr, hwhat]
    · have hkept (n : Nat) (hn : n < (w.acc.map (·.toNat)).length) : (w.acc.map (·.toNat))[n] = v n := by
        have hn' : n < w.acc.length := List.length_map (·.toNat) (as := w.acc) ▸ hn
        rw [hv n (hlength ▸ hn'), List.getElem_map, List.getD_eq_getElem _ _ hn']
      refine accumulatorIsWritten rfl hfirst hword hwf ((List.length_map _).trans hlength) hkept (.inr ?_)
      rcases hwhat with ⟨ma, mb, hwhat⟩ | ⟨ma, z, hwhat⟩ <;> simp only [State.writeAcc, hr, WordRun.instr, hwhat]
  case lands =>
    have hmem := atTile_mem s first tile
    obtain ⟨mem, attr, hset, hread⟩ := State.landPieces_eq (s := atTile s first tile) (hmem.symm ▸ hwf) stream data fun a ha => by
      obtain ⟨hline, hend, hstart⟩ := mem_linesOf.1 ha
      exact hok a hline hend hstart
    have hexec := exec_timedEffectLands_wordless (e := .bytes stream off n data writer) rfl hfirst rfl
    rw [State.timedEffect, hset] at hexec
    refine ⟨_, hexec, rfl, fun b => ?_⟩
    rw [← hmem]
    exact hread b

end Sys2Proof.Proofs
end

section
/-! Lines sent and received (R214, R372-R378). -/

namespace Sys2Proof.Machine

open Sys2Proof.Claims

/-! Issue (R376). -/

/-- R375: the fabric is booked out of the acting tile, and into a tile of the partition. -/
theorem State.bookFabric_plans {s : State} (hs : s.tix < s.p.tiles.length) (tick ltile key : Nat) :
    s.Plans (s.bookFabric tick ltile key) := by
  have hout := State.Plans.bookBank s tick false fabricOut key
  unfold State.bookFabric
  dsimp only
  split
  · exact hout
  · exact hout.trans (.atTile (by rwa [hout.tix, hout.tiles]) (fun u => .bookBank ..) _)

section
variable {s u : State} {what : TimedWord} {r0 r1 r2 r3 : Word} (h : s.Issues u what r0 r1 r2 r3) (hs : s.tstream < 7) {recv : Bool}
  {n : Nat} {g : State → Nat → State} {e : Nat → TEff} (hg : ∀ y j, (u.occupy recv n).Plans y → y.Plans (g y j))
  (hdue : ∀ y j, (u.occupy recv n).Plans y → DueEffect (g y j) (y.plan + 1 + j) (e j)) {t : State}
  (ht : ((List.range n).foldl g (u.occupy recv n)).Plans t)
include h hs hg hdue ht

/-- R214: a word that reads or claims a line in each of the ticks it occupies its engine for has issued. -/
theorem State.Issues.lines_issued : WordIssued s t s.nextId n recv what r0 r1 r2 r3 ∧
    ∀ j, j < n → DueEffect t (s.plan + 1 + j) (e j) := by
  refine ⟨h.wordIssued hs ((State.Plans.foldl hg (.refl _) _).trans ht), fun j hj => ht.due ?_⟩
  refine State.Plans.foldl_due (tick := fun j => s.plan + 1 + j) hg (fun y j hy => ?_) (.refl _) _ j (List.mem_range.2 hj)
  have hplan : y.plan = s.plan := by rw [hy.plan, State.occupy_plan, h.plan]
  rw [← hplan]
  exact hdue y j hy

end

/-- R376: a line that is sent is read in the tick it leaves in. -/
theorem exec_sendt_issued {s : State} (hfree : EngineFree s false) {src : BitVec 4} {n : BitVec 12}
    (hsrc : InSram (s.ta src) (128 * (n.toNat + 1)) 128) (htix : s.tix < s.p.tiles.length) (kind : BitVec 2) (tile : BitVec 8)
    (port : BitVec 4) : ∃ t, exec (.sendt src kind tile port n) s = .next t ∧
      WordIssued s t s.nextId (n.toNat + 1) false (.send tile.toNat (portOf kind port)) (s.ta src) (BitVec.ofNat 64 (n.toNat + 1)) 0 0 ∧
      ∀ j, j < n.toNat + 1 → DueEffect t (s.plan + 1 + j) (.sendRead s.nextId j) := by
  obtain ⟨u, g, last, hu, hg, hexec⟩ : ∃ (u : State) (g : State → Nat → State) (last : Nat),
      s.Issues u (.send tile.toNat (portOf kind port)) (s.ta src) (BitVec.ofNat 64 (n.toNat + 1)) 0 0 ∧
      (∀ y j, g y j = let x := if kind = 0 then y.bookFabric (y.plan + 1 + j) tile.toNat s.nextId else y
        (x.book (x.plan + 1 + j) false ((s.ta src).toNat + 128 * j) s.nextId).effect (x.plan + 1 + j) rankRead
          (.sendRead s.nextId j)) ∧
      exec (.sendt src kind tile port n) s = .next (((List.range (n.toNat + 1)).foldl g (u.occupy false (n.toNat + 1))).landsIn last) :=
    ⟨_, _, _, (s.issues_keepWord ..).congr (ofNat_toNat_word _) rfl rfl rfl, fun _ _ => rfl,
      congrArg Host.Outcome.next ((State.dataWord_of_free hfree _).trans (State.sramArg_of_inSram hsrc _))⟩
  have htile : (u.occupy false (n.toNat + 1)).tix < (u.occupy false (n.toNat + 1)).p.tiles.length := by
    have hocc := hu.occupy hfree.1 false (n.toNat + 1)
    rwa [hocc.tix, hocc.tiles]
  have hstep {y : State} (hy : (u.occupy false (n.toNat + 1)).Plans y) (j : Nat) :
      ∃ x, y.Plans x ∧ g y j = (x.book (y.plan + 1 + j) false ((s.ta src).toNat + 128 * j) s.nextId).effect (y.plan + 1 + j) rankRead
        (.sendRead s.nextId j) := by
    have hfabric : y.Plans (if kind = 0 then y.bookFabric (y.plan + 1 + j) tile.toNat s.nextId else y) := by
      split_ifs
      · exact State.bookFabric_plans (by rwa [hy.tix, hy.tiles]) ..
      · exact .refl y
    refine ⟨_, hfabric, ?_⟩
    rw [hg]
    dsimp only
    rw [hfabric.plan]
  refine ⟨_, hexec, hu.lines_issued hfree.1 (fun y j hy => ?_) (fun y j hy => ?_) (.landsIn ..)⟩
  · obtain ⟨x, hx, hgx⟩ := hstep hy j
    rw [hgx]
    exact hx.trans ((State.Plans.book ..).trans (.effect ..))
  · obtain ⟨x, hx, hgx⟩ := hstep hy j
    rw [hgx]
    exact State.due_effect ..

/-- R376: a line that is awaited is claimed in its tick. -/
theorem exec_recvt_issued {s : State} (hfree : EngineFree s true) {dst : BitVec 4} {n : BitVec 12}
    (hdst : InSram (s.ta dst) (128 * (n.toNat + 1)) 128) (kind : BitVec 2) (tile : BitVec 8) (port : BitVec 4) (pol : BitVec 1) :
    ∃ t, exec (.recvt dst kind tile port n pol) s = .next t ∧
      WordIssued s t s.nextId (n.toNat + 1) true (.recv tile.toNat (portOf kind port) (pol == 1)) (s.ta dst) 0 0 0 ∧
      ∀ j, j < n.toNat + 1 → DueEffect t (s.plan + 1 + j) (.claim s.nextId j) := by
  obtain ⟨u, g, hu, hg, hexec⟩ : ∃ (u : State) (g : State → Nat → State),
      s.Issues u (.recv tile.toNat (portOf kind port) (pol == 1)) (s.ta dst) 0 0 0 ∧
      (∀ y j, g y j = (y.book (y.plan + 1 + j) false ((s.ta dst).toNat + 128 * j) s.nextId).effect (y.plan + 1 + j) rankWrite
        (.claim s.nextId j)) ∧
      exec (.recvt dst kind tile port n pol) s = .next ((List.range (n.toNat + 1)).foldl g (u.occupy true (n.toNat + 1))) :=
    ⟨_, _, (s.issues_keepWord ..).congr (ofNat_toNat_word _) rfl rfl rfl, fun _ _ => rfl,
      congrArg Host.Outcome.next ((State.dataWord_of_free hfree _).trans (State.sramArg_of_inSram hdst _))⟩
  refine ⟨_, hexec, hu.lines_issued hfree.1 (fun y j _ => ?_) (fun y j _ => ?_) (.refl _)⟩
  · rw [hg]
    exact (State.Plans.book ..).trans (.effect ..)
  · rw [hg]
    exact State.due_effect ..

/-! Faults of words in progress (R390). -/

theorem State.wordFault_eq (s : State) (stream kind : Nat) (info : Word) :
    ∃ q a, s.wordFault stream kind info = { s with tstream := stream, p := q, agenda := a } := State.launchFault_eq ..

/-- R400: the fault of a word in progress joins those of its launch, which runs on to the end of its tick. -/
theorem State.wordFault_faults {s : State} (hactive : s.p.run.active = true) (hending : s.p.run.ending = false) (stream kind : Nat)
    (info : Word) : ∃ e, (s.wordFault stream kind info).p.run.faults = s.p.run.faults ++ [e] ∧ e.kind = kind :=
  State.tileFault_faults (s := { s with tstream := stream }) hactive hending kind info

/-! Lines on their way (R376, R377). -/

/-- What a tile of the partition holds once it has changed and the acting tile is back in its place. -/
theorem State.onTile_storeTile_getElem? {s : State} {n : Nat} {x : Tile} (hx : s.p.tiles[n]? = some x)
    (hacts : s.tl = s.p.tiles.getD s.tix .rest) (g : Tile → Tile) : (s.onTile n g).storeTile.p.tiles[n]? = some (g x) := by
  obtain ⟨hn, hget⟩ := List.getElem?_eq_some_iff.1 hx
  by_cases htix : s.tix = n
  · subst htix
    have htl : s.tl = x := by rw [hacts, List.getD_eq_getElem _ _ hn, hget]
    simp [State.onTile, State.storeTile, hn, htl]
  · simp [State.onTile, State.storeTile, htix, hx]

/-- R376, R378: a line joins those that come to its tile, and what is not claimed then is looked at. -/
theorem State.lineComes_arrives {s : State} {ltile t : Nat} {x : Tile} (htile : s.p.tileOf ltile = some t)
    (hx : s.p.tiles[t]? = some x) (hacts : s.tl = s.p.tiles.getD s.tix .rest) (a : Arrival) :
    (s.lineComes ltile a).mem = s.mem ∧
    (s.lineComes ltile a).storeTile.p.tiles[t]? = some { x with arriving := x.arriving ++ [a] } ∧
    ⟨a.ltick, rankWrite + 5, .ev (.timedEffectLands s.p.first t .unclaimed)⟩ ∈ (s.lineComes ltile a).p.run.tq := by
  have hfirst : (s.onTile t fun x => { x with arriving := x.arriving ++ [a] }).p.first = s.p.first := by
    unfold State.onTile; dsimp only; split <;> rfl
  simp only [State.lineComes, htile, hfirst]
  exact ⟨State.onTile_mem .., State.onTile_storeTile_getElem? hx hacts _, mem_insertItem.2 (.inl rfl)⟩

/-- R372: the control flit of a frame names the line that leaves in this tick; all else but its end is as it was. -/
theorem State.frameLine_eq (s : State) (port stile dtile : Nat) : ∃ fr ag c,
    s.frameLine port stile dtile = { s with frames := fr, agenda := ag } ∧
    Tab.find port fr = some c ∧ c.tick = s.tick / 5 * 5 ∧ c.lines.toList[s.tick % 5]? = some (some (stile, dtile)) := by
  have hlt : s.tick % 5 < 5 := Nat.mod_lt _ (by decide)
  have hframe (o : Option ControlFlit) (ho : ∀ c ∈ o, c.tick = frameOf s.tick) :
      (o.getD ⟨frameOf s.tick, Vector.replicate 5 none⟩).tick = s.tick / 5 * 5 := by
    cases o with
    | none => rfl
    | some c => exact ho c rfl
  unfold State.frameLine
  dsimp only
  split <;>
    exact ⟨_, _, _, rfl, Tab.find_put_self .., hframe _ (fun c hc => by simpa using (Option.mem_filter_iff.1 hc).2), by simp [hlt]⟩

/-! Lines that come (R378). -/

theorem takeArrival_append {f : Arrival → Bool} {l : List Arrival} (hl : ∀ x ∈ l, f x = false) {a : Arrival} (ha : f a = true)
    (r : List Arrival) : takeArrival f (l ++ a :: r) = some (a, l ++ r) := by
  induction l with
  | nil => simp [takeArrival, ha]
  | cons x l ih => simp [takeArrival, hl x (by simp), ih fun y hy => hl y (by simp [hy])]

theorem takeArrival_eq_none {f : Arrival → Bool} {l : List Arrival} (hl : ∀ x ∈ l, f x = false) : takeArrival f l = none := by
  induction l with
  | nil => rfl
  | cons x l ih => simp [takeArrival, hl x (by simp), ih fun y hy => hl y (by simp [hy])]

theorem zeroWords_zero (data : Line) : zeroWords data 0#16 = data := by
  simp [zeroWords]

/-- R215: a line without poison lands where its port is free. -/
theorem State.landLine_of_whole {s : State} {off : Nat} (hport : s.portOk false off = true) (stream : Nat) (data : Line) (halt : Bool)
    (writer : Nat) (va : Word) (flat : Nat) (port : Option Nat) :
    s.landLine stream off data 0 halt writer va flat port = s.landBytes stream off 128 data.toNat writer := by
  simp [State.landLine, hport, zeroWords_zero]

/-- R374: a poisoned line under the halting policy is a fault. -/
theorem State.landLine_of_poison {s : State} {off : Nat} (hport : s.portOk false off = true) {pois : BitVec 16} (hpois : pois ≠ 0)
    {halt : Bool} (hhalt : halt = true) (stream : Nat) (data : Line) (writer : Nat) (va : Word) (flat : Nat) (port : Option Nat) :
    s.landLine stream off data pois halt writer va flat port = s.wordFault stream 18 va := by
  rw [State.landLine, hport, if_neg (by decide), if_pos ⟨hpois, hhalt⟩]

section
variable {s : State} {key j dtile : Nat} {w : WordRun} (hword : s.wordRun key = some w)
include hword

section
variable (hclean : CleanSram s) (hport : s.portOk false (w.r0.toNat + 128 * j) = true) (hin : w.r0.toNat + 128 * j + 128 ≤ 0x600000)
include hclean hport hin

/-- R376: a line is on its way to a tile of the partition. -/
theorem State.sendLine_to_tile (hwhat : w.what = .send dtile none) (hfabric : s.bankOk false fabricOut = true) :
    s.sendLine key j = s.lineComes dtile ⟨s.plan + Config.tileLatency, s.tl.ltile, none,
      s.line (s.sramFlat (w.r0.toNat + 128 * j)), 0, some true⟩ := by
  simp only [State.sendLine, hword, hwhat, hport, hfabric, State.readSram_of_clean hclean hin]
  rfl

/-- R377: a line leaves on a port. -/
theorem State.sendLine_to_port {p : Nat} (hwhat : w.what = .send dtile (some p)) (hsenders : s.sendersOn p ≤ 1) :
    s.sendLine key j = (s.frameLine p s.tl.ltile dtile).emit (.line p dtile s.tl.ltile
      (s.line (s.sramFlat (w.r0.toNat + 128 * j))) 0 (s.plan + field (s.links.toList.getD p ⟨0, 0⟩).w0 27 16)) := by
  simp only [State.sendLine, hword, hwhat, hport, State.readSram_of_clean hclean hin, if_neg (Nat.not_lt.2 hsenders)]
  rfl

end

/-- R377: two senders of one port in a tick are a fault. -/
theorem State.sendLine_of_two {p : Nat} (hwhat : w.what = .send dtile (some p)) (hsenders : 1 < s.sendersOn p) :
    s.sendLine key j = s.wordFault w.stream 16 0 := by
  simp only [State.sendLine, hword, hwhat, if_pos hsenders]

end

section
variable {s : State} {key k stile : Nat} {p : Option Nat} {halt : Bool} {w : WordRun} (hword : s.wordRun key = some w)
  (hwhat : w.what = .recv stile p halt)
include hword hwhat

/-- R378: the first line of the claim's source is taken. -/
theorem State.claimLine_of_source {l r : List Arrival} {a : Arrival} (harriving : s.tl.arriving = l ++ a :: r)
    (hl : ∀ x ∈ l, ¬ (x.ltick = s.plan ∧ x.port = p ∧ x.stile = stile)) (ha : a.ltick = s.plan ∧ a.port = p ∧ a.stile = stile)
    (hheader : a.header = some true) : s.claimLine key k =
      ({ s with tl := { s.tl with arriving := l ++ r } } : State).landLine w.stream (w.r0.toNat + 128 * k) a.data a.pois halt 5 0 0 p := by
  have htake := takeArrival_append (f := fun a => a.ltick == s.plan && a.port == p && a.stile == stile && a.header.isSome) (l := l)
    (fun x hx => by
      have := hl x hx
      simp only [Bool.and_eq_false_iff, beq_eq_false_iff_ne]
      tauto) (a := a) (by simp [ha, hheader]) r
  simp only [State.claimLine, hword, hwhat, harriving, htake, hheader]

/-- R376: a line that is claimed whole lands in the operand's place. -/
theorem State.claimLine_lands {l r : List Arrival} {a : Arrival} (harriving : s.tl.arriving = l ++ a :: r)
    (hl : ∀ x ∈ l, ¬ (x.ltick = s.plan ∧ x.port = p ∧ x.stile = stile)) (ha : a.ltick = s.plan ∧ a.port = p ∧ a.stile = stile)
    (hheader : a.header = some true) (hpois : a.pois = 0) (hwf : s.mem.wf = true) (hport : s.portOk false (w.r0.toNat + 128 * k) = true)
    (hregion : s.p.sramEngine s.tl.ltile (w.r0.toNat + 128 * k) 128 5 = true) :
    ∃ mem attr, s.claimLine key k = { s with tl := { s.tl with arriving := l ++ r }, mem := mem, attr := attr } ∧
      ∀ b, mem.read b = if s.sramFlat (w.r0.toNat + 128 * k) ≤ b ∧ b < s.sramFlat (w.r0.toNat + 128 * k) + 128 then
        a.data.extractLsb' (8 * (b - s.sramFlat (w.r0.toNat + 128 * k))) 8 else s.mem.read b := by
  obtain ⟨u, hu⟩ : ∃ u : State, u = { s with tl := { s.tl with arriving := l ++ r } } := ⟨_, rfl⟩
  have hflat (off : Nat) : u.sramFlat off = s.sramFlat off := by rw [hu]; rfl
  have hfree : u.portOk false (w.r0.toNat + 128 * k) = true := by rw [hu]; exact hport
  obtain ⟨mem, attr, hset, -, hread⟩ := State.landBytes_eq (s := u) (off := w.r0.toNat + 128 * k) (n := 128) (writer := 5)
    (by rw [hu]; exact hwf) (by rw [hu]; exact hregion) w.stream a.data.toNat
  refine ⟨mem, attr, ?_, fun b => ?_⟩
  · rw [State.claimLine_of_source hword hwhat harriving hl ha hheader, ← hu, hpois, State.landLine_of_whole hfree, hset, hu]
  · rw [hread, hflat, hu, ← Nat.shiftRight_eq_div_pow]
    rfl

variable (hnone : ∀ x ∈ s.tl.arriving, ¬ (x.ltick = s.plan ∧ x.port = p))
include hnone

/-- R374, R378: where no line of the port came, it is lost with its frame, or the claim is empty. -/
theorem State.claimLine_of_none : s.claimLine key k =
    if p.any fun n => s.frameLost n s.plan then s.landLine w.stream (w.r0.toNat + 128 * k) 0 0xFFFF halt 5 0 0 p
    else s.wordFault w.stream 16 0 := by
  have hother (q : Arrival → Bool) : takeArrival (fun a => a.ltick == s.plan && a.port == p && q a) s.tl.arriving = none :=
    takeArrival_eq_none fun x hx => by
      have := hnone x hx
      simp only [Bool.and_eq_false_iff, beq_eq_false_iff_ne]
      tauto
  have hmine := hother fun a => a.stile == stile && a.header.isSome
  simp only [← Bool.and_assoc] at hmine
  simp only [State.claimLine, hword, hwhat, hmine, hother]

end

end Sys2Proof.Machine
end

section
/-! O38 settled. -/

namespace Sys2Proof.Proofs

open Sys2Proof.Machine Sys2Proof.Claims

section
variable {s f : State} {first tile key : Nat} (hf : atTile s first tile = f) (hfirst : f.p.first = first)
include hf hfirst

section
variable {w : WordRun} (hword : f.wordRun key = some w)
include hword

/-- R400: an effect that is a fault adds it to those of the launch, and nothing else. -/
theorem wordFaultLands (hactive : f.p.run.active = true) (hending : f.p.run.ending = false) {e : TEff} (heff : wordOfEff e = some key)
    {stream kind : Nat} {info : Word} (hfault : (f.actsFor w).timedEffect e = (f.actsFor w).wordFault stream kind info) :
    ∃ t x, exec (.timedEffectLands first tile e) s = .next t ∧ t.mem = s.mem ∧ t.out = f.out ∧
      t.p.run.faults = f.p.run.faults ++ [x] ∧ x.kind = kind := by
  have hexec := exec_timedEffectLands hf hfirst hword heff
  obtain ⟨x, hfaults, hkind⟩ := State.wordFault_faults (s := f.actsFor w) hactive hending stream kind info
  obtain ⟨q, a, heq⟩ := (f.actsFor w).wordFault_eq stream kind info
  rw [hfault, heq] at hexec
  rw [heq] at hfaults
  exact ⟨_, x, hexec, hf ▸ atTile_mem s first tile, rfl, hfaults, hkind⟩

section
variable {j dtile : Nat} (hclean : CleanSram f) (hport : f.portOk false (w.r0.toNat + 128 * j) = true)
  (hin : w.r0.toNat + 128 * j + 128 ≤ 0x600000)
include hclean hport hin

/-- R376: a line read for a tile of the partition comes to it the tile latency later. -/
theorem lineIsSentToTile {t0 : Nat} {x : Tile} (hwhat : w.what = .send dtile none) (hfabric : f.bankOk false fabricOut = true)
    (htile : f.p.tileOf dtile = some t0) (hx : f.p.tiles[t0]? = some x) :
    ∃ t y, exec (.timedEffectLands first tile (.sendRead key j)) s = .next t ∧ t.mem = s.mem ∧ t.p.tiles[t0]? = some y ∧
      y.arriving = x.arriving ++ [⟨f.plan + Config.tileLatency, f.tl.ltile, none,
        f.line (f.sramFlat (w.r0.toNat + 128 * j)), 0, some true⟩] ∧
      ∃ r, (⟨f.plan + Config.tileLatency, r, .ev (.timedEffectLands first t0 .unclaimed)⟩ : Item) ∈ t.p.run.tq := by
  have hexec := exec_timedEffectLands (e := .sendRead key j) hf hfirst hword rfl
  have hmem : f.mem = s.mem := hf ▸ atTile_mem s first tile
  have hacts : f.tl = f.p.tiles.getD f.tix .rest := by subst hf; rfl
  rw [State.timedEffect, State.sendLine_to_tile (s := f.actsFor w) hword hclean hport hin hwhat hfabric] at hexec
  obtain ⟨hsame, htiles, hdue⟩ := State.lineComes_arrives (s := f.actsFor w) htile hx hacts
    ⟨f.plan + Config.tileLatency, f.tl.ltile, none, f.line (f.sramFlat (w.r0.toNat + 128 * j)), 0, some true⟩
  exact ⟨_, _, hexec, hsame.trans hmem, htiles, rfl, _, hfirst ▸ hdue⟩

/-- R377: a line read for a port leaves on it, and the control flit of its frame names it. -/
theorem lineLeavesOnPort {p : Nat} (hp : p < 16) (hwhat : w.what = .send dtile (some p)) (hsenders : f.sendersOn p ≤ 1) :
    ∃ t, exec (.timedEffectLands first tile (.sendRead key j)) s = .next t ∧ t.mem = s.mem ∧
      t.out = .line p dtile f.tl.ltile (f.line (f.sramFlat (w.r0.toNat + 128 * j))) 0
        (f.plan + (f.links[p].w0.extractLsb' 16 12).toNat) :: f.out ∧
      ∃ c, Tab.find p t.frames = some c ∧ c.tick = f.tick / 5 * 5 ∧ c.lines.toList[f.tick % 5]? = some (some (f.tl.ltile, dtile)) := by
  have hexec := exec_timedEffectLands (e := .sendRead key j) hf hfirst hword rfl
  have hmem : f.mem = s.mem := hf ▸ atTile_mem s first tile
  have hlat : field ((f.actsFor w).links.toList.getD p ⟨0, 0⟩).w0 27 16 = (f.links[p].w0.extractLsb' 16 12).toNat := by
    have hentry : (f.actsFor w).links.toList.getD p ⟨0, 0⟩ = f.links[p] := by
      change f.links.toList.getD p ⟨0, 0⟩ = _
      simp [hp]
    rw [hentry, field_eq_extractLsb']
  obtain ⟨fr, ag, c, hframe, hline⟩ := (f.actsFor w).frameLine_eq p (f.actsFor w).tl.ltile dtile
  rw [State.timedEffect, State.sendLine_to_port (s := f.actsFor w) hword hclean hport hin hwhat hsenders, hlat, hframe] at hexec
  exact ⟨_, hexec, hmem, rfl, c, hline⟩

end

/-- R376: a line of the source lands in the operand's place. -/
theorem lineIsClaimed {k stile : Nat} {p : Option Nat} {halt : Bool} (hwhat : w.what = .recv stile p halt) {l r : List Arrival}
    {a : Arrival} (harriving : f.tl.arriving = l ++ a :: r)
    (hl : ∀ x ∈ l, ¬ (x.ltick = f.plan ∧ x.port = p ∧ x.stile = stile)) (ha : a.ltick = f.plan ∧ a.port = p ∧ a.stile = stile)
    (hheader : a.header = some true) (hpois : a.pois = 0) (hwf : s.mem.wf = true) (hport : f.portOk false (w.r0.toNat + 128 * k) = true)
    (hregion : f.p.sramEngine f.tl.ltile (w.r0.toNat + 128 * k) 128 5 = true) :
    ∃ t, exec (.timedEffectLands first tile (.claim key k)) s = .next t ∧ t.tl.arriving = l ++ r ∧
      t.p.run.faults = f.p.run.faults ∧ ∀ b, t.mem.read b =
        if f.sramFlat (w.r0.toNat + 128 * k) ≤ b ∧ b < f.sramFlat (w.r0.toNat + 128 * k) + 128 then
          a.data.extractLsb' (8 * (b - f.sramFlat (w.r0.toNat + 128 * k))) 8 else s.mem.read b := by
  have hexec := exec_timedEffectLands (e := .claim key k) hf hfirst hword rfl
  have hmem : f.mem = s.mem := hf ▸ atTile_mem s first tile
  obtain ⟨mem, attr, hclaim, hread⟩ := State.claimLine_lands (s := f.actsFor w) (k := k) hword hwhat harriving hl ha hheader hpois
    (hmem ▸ hwf) hport hregion
  rw [State.timedEffect, hclaim] at hexec
  rw [← hmem]
  exact ⟨_, hexec, rfl, rfl, hread⟩

end

/-- R378: what nothing claimed is discarded, and is a fault. -/
theorem unclaimedIsDropped : ∃ t, exec (.timedEffectLands first tile .unclaimed) s = .next t ∧ t.mem = s.mem ∧
    t.tl.arriving = f.tl.arriving.filter (fun a => decide (f.plan < a.ltick)) ∧
    ((∃ a ∈ f.tl.arriving, a.ltick ≤ f.plan ∧ a.header.isSome = true) → f.p.run.active = true → f.p.run.ending = false →
      ∃ e, t.p.run.faults = f.p.run.faults ++ [e] ∧ e.kind = 16) := by
  have hexec := exec_timedEffectLands_wordless (e := .unclaimed) hf hfirst rfl
  have hmem : f.mem = s.mem := hf ▸ atTile_mem s first tile
  obtain ⟨u, hu⟩ : ∃ u : State, u = { f with tl := { f.tl with arriving := f.tl.arriving.filter fun a => decide (f.plan < a.ltick) } } :=
    ⟨_, rfl⟩
  have hkept : u.mem = s.mem ∧ u.tl.arriving = f.tl.arriving.filter (fun a => decide (f.plan < a.ltick)) ∧ u.p = f.p := by
    rw [hu]
    exact ⟨hmem, rfl, rfl⟩
  obtain ⟨humem, harriving, hp⟩ := hkept
  rw [State.timedEffect, State.dropUnclaimed] at hexec
  dsimp only at hexec
  rw [← hu] at hexec
  split at hexec
  · obtain ⟨q, a, heq⟩ := u.wordFault_eq linkStream 16 0
    refine ⟨_, hexec, ?_, ?_, fun _ hactive hending => ?_⟩
    · rw [heq]
      exact humem
    · rw [heq]
      exact harriving
    · obtain ⟨e, hfaults, hkind⟩ := State.wordFault_faults (s := u) (hp ▸ hactive) (hp ▸ hending) linkStream 16 0
      exact ⟨e, hfaults.trans (by rw [hp]), hkind⟩
  · next hnone =>
    refine ⟨_, hexec, humem, harriving, fun ⟨a, ha, hcame, hheader⟩ => absurd ?_ hnone⟩
    exact List.any_eq_true.2 ⟨a, List.mem_filter.2 ⟨ha, decide_eq_true hcame⟩, hheader⟩

end

/-- Settles O38: a line by line account of what is sent, what comes and what is claimed. -/
theorem linesSentAndReceived : Obligations.LinesSentAndReceived := by
  unfold Obligations.LinesSentAndReceived
  refine ⟨fun src dst kind tile port n pol s => ⟨fun hfree hsrc htix => exec_sendt_issued hfree hsrc htix kind tile port,
      fun hfree hdst => exec_recvt_issued hfree hdst kind tile port pol⟩,
    fun first tile key j dtile w s hfirst hword hclean hport _ hin =>
      ⟨fun t0 x hwhat hfabric htile hx _ => lineIsSentToTile rfl hfirst hword hclean hport hin hwhat hfabric htile hx,
        fun p hp hwhat hsenders => lineLeavesOnPort rfl hfirst hword hclean hport hin hp hwhat hsenders,
        fun p hwhat hsenders hactive hending => wordFaultLands rfl hfirst hword hactive hending rfl
          (State.sendLine_of_two (s := (atTile s first tile).actsFor w) hword hwhat hsenders)⟩,
    fun first tile key k stile p halt w s hfirst hword hwhat _ _ =>
      ⟨fun a l r harriving hl ha hheader hpois hwf _ hport hregion =>
          lineIsClaimed rfl hfirst hword hwhat harriving hl ha hheader hpois hwf hport hregion,
        fun hnone hactive hending => ⟨fun hkept => ?empty, fun hlost hhalt hport => ?lost⟩⟩,
    fun first tile s hfirst => unclaimedIsDropped rfl hfirst⟩
  case empty =>
    have hlost : ¬ (p.any fun n => (atTile s first tile).frameLost n (atTile s first tile).plan) = true := by
      simpa [Option.any_eq_true] using hkept
    obtain ⟨t, x, hexec, hmem, -, hfaults⟩ := wordFaultLands (e := .claim key k) rfl hfirst hword hactive hending rfl
      ((State.claimLine_of_none (s := (atTile s first tile).actsFor w) hword hwhat hnone).trans (if_neg hlost))
    exact ⟨t, x, hexec, hmem, hfaults⟩
  case lost =>
    have hany : (p.any fun n => (atTile s first tile).frameLost n (atTile s first tile).plan) = true := by
      obtain ⟨n, rfl, hlost⟩ := hlost
      simpa using hlost
    have hpoison := State.landLine_of_poison (s := (atTile s first tile).actsFor w) hport (show (0xFFFF : BitVec 16) ≠ 0 by decide) hhalt
      w.stream 0 5 0 0 p
    obtain ⟨t, x, hexec, hmem, -, hfaults⟩ := wordFaultLands (e := .claim key k) rfl hfirst hword hactive hending rfl
      ((State.claimLine_of_none (s := (atTile s first tile).actsFor w) hword hwhat hnone).trans ((if_pos hany).trans hpoison))
    exact ⟨t, x, hexec, hmem, hfaults⟩

end Sys2Proof.Proofs
end

section
/-! Lines moved between HBM and tensor SRAM, at issue (R225-R229, R301, Tables 9.5 and 9.7). -/

namespace Sys2Proof.Machine

open Sys2Proof.Claims

/-! Descriptors (R225). -/

theorem Memory.readN_add (m : Memory) (a j k : Nat) : m.readN a (j + k) = m.readN a j + 256 ^ j * m.readN (a + j) k := by
  induction j generalizing a with
  | zero => simp [Memory.readN]
  | succ j ih =>
    rw [Nat.succ_add, Memory.readN, ih, Memory.readN, Nat.pow_succ, show a + 1 + j = a + (j + 1) by omega]
    ring

/-- Word i of n bytes. -/
theorem Memory.readN_word (m : Memory) (a : Nat) {i n : Nat} (h : 8 * i + 8 ≤ n) :
    BitVec.ofNat 64 (m.readN a n / 2 ^ (64 * i)) = BitVec.ofNat 64 (m.readN (a + 8 * i) 8) := by
  have hlow : m.readN a (8 * i) < 2 ^ (64 * i) := lt_of_lt_of_eq (m.readN_lt a (8 * i)) (congrArg (2 ^ ·) (by ring))
  have hpow : (256 : Nat) ^ (8 * i) = 2 ^ (64 * i) := by rw [show 64 * i = 8 * (8 * i) by ring, Nat.pow_mul 2 8]
  have hsplit : n = 8 * i + (8 + (n - 8 * i - 8)) := by omega
  apply BitVec.eq_of_toNat_eq
  rw [hsplit, Memory.readN_add, hpow, Nat.add_mul_div_left _ _ (Nat.two_pow_pos _), Nat.div_eq_of_lt hlow, Nat.zero_add,
    Memory.readN_add, BitVec.toNat_ofNat, BitVec.toNat_ofNat, show (256 : Nat) ^ 8 = 2 ^ 64 by norm_num, Nat.add_mul_mod_self_left]

section
variable {s t : State} (h : s.Books t)
include h

theorem State.Books.cleanSram (hclean : CleanSram s) : CleanSram t := by
  obtain ⟨n, q, u, -, rfl⟩ := h
  exact hclean

theorem State.Books.bytes (flat n : Nat) : t.bytes flat n = s.bytes flat n := by obtain ⟨n, q, u, -, rfl⟩ := h; rfl
theorem State.Books.sramFlat (off : Nat) : t.sramFlat off = s.sramFlat off := by obtain ⟨n, q, u, -, rfl⟩ := h; rfl

end

/-- R225, R244: a descriptor that meets no error is its eight words. -/
theorem State.readDescriptor_of_clean {s : State} (hclean : CleanSram s) {off : Nat} (hin : off + 64 ≤ 0x600000) (key : Nat) :
    s.readDescriptor off key = ((List.range 8).map fun i => s.word (s.sramFlat (off + 8 * i)), s.book s.plan false off key) := by
  have hbook := State.Books.book s s.plan false off key
  rw [State.readDescriptor, State.readSram_of_clean (hbook.cleanSram hclean) hin, hbook.bytes, hbook.sramFlat]
  dsimp only
  rw [Prod.mk.injEq]
  refine ⟨List.map_congr_left fun i hi => ?_, rfl⟩
  rw [s.sramFlat_add]
  have hi := List.mem_range.1 hi
  exact s.mem.readN_word (s.sramFlat off) (by omega)

/-- R225: what a transfer moves: its contiguous lines, or those of its descriptor. -/
def State.HasShape (s : State) (x : BitVec 4) (form : BitVec 1) (n : BitVec 12) (lines : Nat) : Prop :=
  form = 0 ∧ lines = n.toNat + 1 ∨ form = 1 ∧ InSram (s.ta x) 64 64 ∧ CleanSram s ∧ ∃ sh,
    shapeOf ((List.range 8).map fun i => s.word (s.sramFlat ((s.ta x).toNat + 8 * i))) = some sh ∧ lines = sh.lines

/-- R225: the shape a kept word has. -/
def WordRun.HasShape (w : WordRun) (form : BitVec 1) (n : BitVec 12) (lines : Nat) : Prop :=
  (if form = 1 then (shapeOf w.acc).getD ⟨[], []⟩ else ⟨[n.toNat + 1], [1]⟩).lines = lines

namespace State.Issues

section
variable {s t : State} {what : TimedWord} {r0 r1 r2 r3 : Word} (h : s.Issues t what r0 r1 r2 r3)
include h

theorem cleanSram (hclean : CleanSram s) : CleanSram t := by
  obtain ⟨n, q, ts, x, u, ws, rfl⟩ := h.frame
  exact hclean

theorem word_eq (flat : Nat) : t.word flat = s.word flat := by obtain ⟨n, q, ts, x, u, ws, rfl⟩ := h.frame; rfl
theorem wordGraph (w : WordRun) : t.wordGraph w = s.wordGraph w := by obtain ⟨n, q, ts, x, u, ws, rfl⟩ := h.frame; rfl

/-- R225: the word goes on with its shape. -/
theorem withShape_eq {form : BitVec 1} {x : BitVec 4} {n : BitVec 12} {lines : Nat} (hshape : s.HasShape x form n lines) :
    ∃ v w, s.Issues v what r0 r1 r2 r3 ∧ v.wordRun s.nextId = some w ∧ w.what = what ∧ w.r0 = r0 ∧
      w.HasShape form n lines ∧ ∀ f, t.withShape s.nextId form x f = f v w := by
  rcases hshape with ⟨rfl, rfl⟩ | ⟨rfl, hx, hclean, sh, hsh, rfl⟩
  · obtain ⟨w, hw, -, -, hwhat, h0, -⟩ := h.word
    refine ⟨t, w, h, hw, hwhat, h0, ?_, fun f => ?_⟩
    · simp [WordRun.HasShape, Shape.lines]
    · rw [State.withShape, if_pos rfl]
      simp only [hw]
  · have hbook := h.plans (.book t t.plan false (s.ta x).toNat s.nextId)
    obtain ⟨w, hw, -, -, hwhat, h0, -⟩ := hbook.word
    have hread := State.readDescriptor_of_clean (h.cleanSram hclean) hx.2 s.nextId
    simp only [h.word_eq, h.sramFlat] at hread
    generalize (List.range 8).map (fun i => s.word (s.sramFlat ((s.ta x).toNat + 8 * i))) = l at hsh hread
    have hgo := State.wordRun_onWord (g := fun w => { w with acc := l }) hw fun _ hx => hx
    refine ⟨_, _, hbook.withAcc l, hgo, hwhat, h0, ?_, fun f => ?_⟩
    · simp only [WordRun.HasShape, if_true, hsh, Option.getD_some]
    · rw [State.withShape, if_neg (by decide), h.ta, State.sramArg_of_inSram hx, hread]
      simp only [hsh, Option.isNone_some, Bool.false_eq_true, if_false, hgo]

end
end State.Issues

/-! Requests (R226, Table 9.5). -/

/-- R226: the request of line j of a word, for place m + 128 j. -/
def State.lineRequest (s : State) (key m j : Nat) (write halt graph : Bool) : Item := ⟨s.plan + 1 + j, rankRead, .ev (.timedLineRequest
  ⟨s.p.first, s.tix, s.tstream, key, j, s.plan + 160 + j, m + 128 * j, write, halt, graph, 0, 0⟩)⟩

theorem State.requestLines_plans (s : State) (key n m : Nat) (write halt graph : Bool) :
    s.Plans (s.requestLines key n m write halt graph) ∧
    ∀ j, j < n → s.lineRequest key m j write halt graph ∈ (s.requestLines key n m write halt graph).p.run.tq := by
  refine ⟨.foldl (fun t j _ => .duePlan ..) (.refl s) _, fun j hj => ?_⟩
  refine State.Plans.foldl_reaches (P := fun j t => s.lineRequest key m j write halt graph ∈ t.p.run.tq) (fun t j _ => .duePlan ..)
    (fun t j ht => ?_) (fun _ hv hd => hv.tq hd) (.refl s) _ j (List.mem_range.2 hj)
  rw [State.lineRequest, ← ht.plan, ← ht.first, ← ht.tix, ← ht.tstream]
  exact mem_insertItem.2 (.inl rfl)

theorem State.Issues.lineRequest {s t : State} {what : TimedWord} {r0 r1 r2 r3 : Word} (h : s.Issues t what r0 r1 r2 r3)
    (key m j : Nat) (write halt graph : Bool) : t.lineRequest key m j write halt graph = s.lineRequest key m j write halt graph := by
  rw [State.lineRequest, h.plan, h.first, h.tix, h.tstream]
  rfl

/-- R226: what a store of whole lines puts off. -/
def State.startStore (s : State) (key n m : Nat) (graph : Bool) : State :=
  let s := (s.occupy false n).requestLines key n m true false graph
  let s := (List.range n).foldl (fun s j => s.book (s.plan + 1 + j) false (m + 128 * j) key) s
  s.landsIn (s.plan + 159 + n)

/-- R226: inputs of a store through a graph, one a tick. -/
def State.graphInputs (s : State) (key n m : Nat) : State :=
  (List.range n).foldl (fun s i =>
    (s.book (s.plan + 1 + i) false (m + 128 * i) key).effect (s.plan + 1 + i) rankRead (.graphIn key i)) s

/-- R301: output lines of a store through a graph. -/
def State.graphOutputs (s : State) (key n : Nat) (gr : Graph) : State :=
  (List.range n).foldl (fun s k => s.effect (s.plan + 160 + gr.depth + outTick gr.a gr.b k) rankHbm (.graphOut key k)) s

/-- R226, R301: what a store of n lines through a graph puts off. -/
def State.startGraphStore (s : State) (key n m : Nat) (gr : Graph) : State :=
  let nin := n * gr.a / gr.b
  let s := (((s.occupy false (max nin n)).requestLines key n m true false true).graphInputs key nin m).graphOutputs key n gr
  s.graphLandsIn (s.plan + 160 + gr.depth + outTick gr.a gr.b (n - 1))

/-- R301: output lines of a load through a graph, and their places. -/
def State.graphResults (s : State) (key n m : Nat) (gr : Graph) : State :=
  (List.range n).foldl (fun s k =>
    let t := s.plan + 160 + gr.depth + outTick gr.a gr.b k
    (s.book t false (m + 128 * k) key).effect t rankWrite (.graphOut key k)) s

theorem State.graphResults_plans (s : State) (key n m : Nat) (gr : Graph) : s.Plans (s.graphResults key n m gr) ∧
    ∀ k, k < n → DueEffect (s.graphResults key n m gr) (s.plan + 160 + gr.depth + outTick gr.a gr.b k) (.graphOut key k) := by
  have hout (y : State) (tick k : Nat) : y.Plans ((y.book tick false (m + 128 * k) key).effect tick rankWrite (.graphOut key k)) :=
    (State.Plans.book ..).trans (.effect ..)
  refine ⟨.foldl (fun y k _ => hout y _ k) (.refl s) _, fun k hk => ?_⟩
  refine State.Plans.foldl_due (tick := fun k => s.plan + 160 + gr.depth + outTick gr.a gr.b k) (e := .graphOut key)
    (fun y k _ => hout y _ k) (fun y k hy => ?_) (.refl s) _ k (List.mem_range.2 hk)
  rw [← hy.plan]
  exact State.due_effect ..

theorem State.graphInputs_plans (s : State) (key n m : Nat) : s.Plans (s.graphInputs key n m) ∧
    ∀ i, i < n → DueEffect (s.graphInputs key n m) (s.plan + 1 + i) (.graphIn key i) := by
  have hin (y : State) (i : Nat) : y.Plans ((y.book (y.plan + 1 + i) false (m + 128 * i) key).effect (y.plan + 1 + i) rankRead
      (.graphIn key i)) := (State.Plans.book ..).trans (.effect ..)
  refine ⟨.foldl (fun y i _ => hin y i) (.refl s) _, fun i hi => ?_⟩
  refine State.Plans.foldl_due (tick := fun i => s.plan + 1 + i) (e := .graphIn key) (fun y i _ => hin y i) (fun y i hy => ?_)
    (.refl s) _ i (List.mem_range.2 hi)
  rw [← hy.plan]
  exact State.due_effect ..

theorem State.graphOutputs_plans (s : State) (key n : Nat) (gr : Graph) : s.Plans (s.graphOutputs key n gr) ∧
    ∀ k, k < n → DueEffect (s.graphOutputs key n gr) (s.plan + 160 + gr.depth + outTick gr.a gr.b k) (.graphOut key k) := by
  refine ⟨.foldl (fun y k _ => .effect ..) (.refl s) _, fun k hk => ?_⟩
  refine State.Plans.foldl_due (tick := fun k => s.plan + 160 + gr.depth + outTick gr.a gr.b k) (e := .graphOut key)
    (fun y k _ => .effect ..) (fun y k hy => ?_) (.refl s) _ k (List.mem_range.2 hk)
  rw [← hy.plan]
  exact State.due_effect ..

section
variable {s v : State} {what : TimedWord} {r0 r1 r2 r3 : Word} (hv : s.Issues v what r0 r1 r2 r3) (hs : s.tstream < 7)
include hv hs

/-- R226: a word that has asked for its lines has issued. -/
theorem State.Issues.requests_issued {n m busy : Nat} {write halt graph : Bool} {t : State}
    (ht : ((v.occupy false busy).requestLines s.nextId n m write halt graph).Plans t) :
    WordIssued s t s.nextId busy false what r0 r1 r2 r3 ∧ ∀ j, j < n → s.lineRequest s.nextId m j write halt graph ∈ t.p.run.tq := by
  obtain ⟨hplans, hreqs⟩ := (v.occupy false busy).requestLines_plans s.nextId n m write halt graph
  refine ⟨hv.wordIssued hs (hplans.trans ht), fun j hj => ?_⟩
  rw [← (hv.occupy hs false busy).lineRequest]
  exact ht.tq (hreqs j hj)

variable {w : WordRun} (hword : v.wordRun s.nextId = some w) (n m : Nat) (halt : Bool)
include hword

/-- R226: a load of whole lines. -/
theorem State.Issues.load_issued (hslot : graphSlotOf w.instr = none) :
    WordIssued s (v.startLoad s.nextId n m halt) s.nextId n false what r0 r1 r2 r3 ∧
    (∀ j, j < n → s.lineRequest s.nextId m j false halt false ∈ (v.startLoad s.nextId n m halt).p.run.tq) ∧
    (v.occupy false n).Plans (v.startLoad s.nextId n m halt) := by
  have hload : v.startLoad s.nextId n m halt = ((List.range n).foldl (fun y j => y.book (y.plan + 160 + j) false (m + 128 * j) s.nextId)
      ((v.occupy false n).requestLines s.nextId n m false halt false)).landsIn
      (((v.occupy false n).requestLines s.nextId n m false halt false).plan + 159 + n) := by
    simp only [State.startLoad, hword, hslot, Option.isSome_none, Bool.not_false, if_true]
  have hbooks := (State.Plans.foldl (fun y j _ => .book y (y.plan + 160 + j) false (m + 128 * j) s.nextId)
    (.refl ((v.occupy false n).requestLines s.nextId n m false halt false)) (List.range n)).trans
    (.landsIn _ (((v.occupy false n).requestLines s.nextId n m false halt false).plan + 159 + n))
  rw [hload]
  obtain ⟨hissued, hreqs⟩ := hv.requests_issued hs hbooks
  exact ⟨hissued, hreqs, (State.requestLines_plans ..).1.trans hbooks⟩

/-- R301: a load through a graph: its output lines are due as their inputs have come. -/
theorem State.Issues.load_graph_issued {g : Graph} (hslot : (graphSlotOf w.instr).isSome = true) (hgraph : s.wordGraph w = some g) :
    WordIssued s (v.startLoad s.nextId n m halt) s.nextId n false what r0 r1 r2 r3 ∧
    (∀ j, j < n → s.lineRequest s.nextId m j false halt true ∈ (v.startLoad s.nextId n m halt).p.run.tq) ∧
    (∀ k, k < n * g.b / g.a → DueEffect (v.startLoad s.nextId n m halt) (s.plan + 160 + g.depth + outTick g.a g.b k)
      (.graphOut s.nextId k)) ∧
    (v.occupy false n).Plans (v.startLoad s.nextId n m halt) := by
  obtain ⟨q, hq⟩ : ∃ q, (v.occupy false n).requestLines s.nextId n m false halt true = q := ⟨_, rfl⟩
  have hplans : (v.occupy false n).Plans q := hq ▸ (State.requestLines_plans ..).1
  have hgraph : q.wordGraph w = some g := by rw [hplans.wordGraph, (hv.occupy hs false n).wordGraph, hgraph]
  obtain ⟨last, hload⟩ : ∃ last, v.startLoad s.nextId n m halt = (q.graphResults s.nextId (n * g.b / g.a) m g).graphLandsIn last := by
    simp only [State.startLoad, hword, hslot, hq, hgraph, Bool.not_true, Bool.false_eq_true, if_false]
    exact ⟨_, rfl⟩
  obtain ⟨hresults, hdue⟩ := q.graphResults_plans s.nextId (n * g.b / g.a) m g
  have hlast := State.Plans.graphLandsIn (q.graphResults s.nextId (n * g.b / g.a) m g) last
  rw [hplans.plan, State.occupy_plan, hv.plan] at hdue
  have hafter : ((v.occupy false n).requestLines s.nextId n m false halt true).Plans
      ((q.graphResults s.nextId (n * g.b / g.a) m g).graphLandsIn last) := by
    rw [hq]
    exact hresults.trans hlast
  rw [hload]
  obtain ⟨hissued, hreqs⟩ := hv.requests_issued hs hafter
  exact ⟨hissued, hreqs, fun k hk => hlast.due (hdue k hk), hplans.trans (hresults.trans hlast)⟩

omit hword halt in
/-- R226: a store of whole lines. -/
theorem State.Issues.store_issued : WordIssued s (v.startStore s.nextId n m false) s.nextId n false what r0 r1 r2 r3 ∧
    ∀ j, j < n → s.lineRequest s.nextId m j true false false ∈ (v.startStore s.nextId n m false).p.run.tq :=
  hv.requests_issued hs ((State.Plans.foldl (fun _ _ _ => .book ..) (.refl _) _).trans (.landsIn ..))

omit hword halt in
/-- R301: a store through a graph: its inputs are read one a tick, and its output lines are due as they have come. -/
theorem State.Issues.store_graph_issued (g : Graph) :
    (WordIssued s (v.startGraphStore s.nextId n m g) s.nextId (max (n * g.a / g.b) n) false what r0 r1 r2 r3 ∧
    ∀ j, j < n → s.lineRequest s.nextId m j true false true ∈ (v.startGraphStore s.nextId n m g).p.run.tq) ∧
    (∀ i, i < n * g.a / g.b → DueEffect (v.startGraphStore s.nextId n m g) (s.plan + 1 + i) (.graphIn s.nextId i)) ∧
    ∀ k, k < n → DueEffect (v.startGraphStore s.nextId n m g) (s.plan + 160 + g.depth + outTick g.a g.b k) (.graphOut s.nextId k) := by
  obtain ⟨hreqs, -⟩ := (v.occupy false (max (n * g.a / g.b) n)).requestLines_plans s.nextId n m true false true
  obtain ⟨hin, hindue⟩ := ((v.occupy false (max (n * g.a / g.b) n)).requestLines s.nextId n m true false true).graphInputs_plans s.nextId
    (n * g.a / g.b) m
  obtain ⟨hout, houtdue⟩ := (((v.occupy false (max (n * g.a / g.b) n)).requestLines s.nextId n m true false true).graphInputs s.nextId
    (n * g.a / g.b) m).graphOutputs_plans s.nextId n g
  rw [hin.plan] at houtdue
  rw [hreqs.plan, State.occupy_plan, hv.plan] at hindue houtdue
  have hlast := State.Plans.graphLandsIn ((((v.occupy false (max (n * g.a / g.b) n)).requestLines s.nextId n m true false
    true).graphInputs s.nextId (n * g.a / g.b) m).graphOutputs s.nextId n g)
  exact ⟨hv.requests_issued hs ((hin.trans hout).trans (hlast _)), fun i hi => (hlast _).due (hout.due (hindue i hi)),
    fun k hk => (hlast _).due (houtdue k hk)⟩

end

/-! The words (R226, R228). -/

/-- R228: the index lines of a gather whose rows have k lines. -/
def State.listReads (s : State) (key list n k : Nat) : State :=
  (List.range n).foldl (fun s u => (s.book (s.plan + 32 * u * k) false (list + 128 * u) key).duePlan (s.plan + 32 * u * k) rankRead
    (.ev (.timedEffectLands s.p.first s.tix (.listRead key u)))) s

theorem State.listReads_plans (s : State) (key list n k : Nat) : s.Plans (s.listReads key list n k) ∧
    ∀ u, u < n → DueEffect (s.listReads key list n k) (s.plan + 32 * u * k) (.listRead key u) := by
  have hread (y : State) (u : Nat) := (State.Plans.book y (y.plan + 32 * u * k) false (list + 128 * u) key).trans
    (.duePlan _ (y.plan + 32 * u * k) rankRead (.ev (.timedEffectLands y.p.first y.tix (.listRead key u))))
  refine ⟨.foldl (fun y u _ => hread y u) (.refl s) _, fun u hu => ?_⟩
  refine State.Plans.foldl_due (tick := fun u => s.plan + 32 * u * k) (e := .listRead key) (fun y u _ => hread y u) (fun y u hy => ?_)
    (.refl s) _ u (List.mem_range.2 hu)
  have hstep := hread y u
  rw [← hy.plan]
  exact ⟨rankRead, by rw [hstep.first, hstep.tix]; exact mem_insertItem.2 (.inl rfl)⟩

theorem Shape.disp_zero (cnt : List Nat) (stride : List Int) : Shape.disp cnt stride 0 = 0 := by
  induction cnt generalizing stride with
  | nil => rfl
  | cons c cnt ih =>
    cases stride with
    | nil => rfl
    | cons d stride => simp [Shape.disp, ih]

theorem ofNat_hbmOffset (v : Word) : BitVec.ofNat 64 (v.toNat % 2 ^ 46) = (v.extractLsb' 0 46).setWidth 64 := by
  apply BitVec.eq_of_toNat_eq
  simp

section
variable {s : State} {w : WordRun} (n : Nat) (write : Bool)

theorem State.wordGraph_of_no_slot (h : graphSlotOf w.instr = none) : s.wordGraph w = none := by
  simp only [State.wordGraph, h]

theorem State.unitsOk_of_no_graph (h : s.wordGraph w = none) : s.unitsOk w n write = true := by
  simp only [State.unitsOk, h]

theorem State.outLines_of_no_graph (h : s.wordGraph w = none) : s.outLines w n = n := by
  simp only [State.outLines, h]

/-- R301: the graph of a word is that of its slot at the controller of its first line. -/
theorem State.wordGraph_of_slot {slot : Nat} (h : graphSlotOf w.instr = some slot) {off : Int} (hoff : s.lineOff w 0 = off) :
    s.wordGraph w = s.p.graphAt slot (s.ctlOf off) := by
  simp only [State.wordGraph, h, hoff]

theorem State.lineOff_zero_of_tld {h m x gslot : BitVec 4} {g pol form : BitVec 1} {n : BitVec 12}
    (hwhat : w.what = .plain (.tld h m x gslot g pol form n)) : s.lineOff w 0 = w.r0.toNat := by
  simp [State.lineOff, WordRun.instr, hwhat, Shape.disp_zero]

theorem State.lineOff_zero_of_tst {h m x gslot : BitVec 4} {g form : BitVec 1} {n : BitVec 12}
    (hwhat : w.what = .plain (.tst h m x gslot g form n)) : s.lineOff w 0 = w.r0.toNat := by
  simp [State.lineOff, WordRun.instr, hwhat, Shape.disp_zero]

/-- R228: a gather starts at the row its first index names. -/
theorem State.lineOff_zero_of_tldg {h m x gslot : BitVec 4} {g pol : BitVec 1} {rows : BitVec 10} {rl : BitVec 4}
    (hwhat : w.what = .plain (.tldg h m x gslot g pol rows rl)) (hlines : w.lines = []) :
    s.lineOff w 0 = (w.r0.toNat + 128 * (s.bytes (s.sramFlat w.r2.toNat) 4 * (rl.toNat + 1)) : Nat) := by
  simp [State.lineOff, WordRun.instr, hwhat, State.gatherIndex, hlines]

variable {g : Graph} (h : s.wordGraph w = some g)
include h

theorem State.unitsOk_of_graph : s.unitsOk w n write = if write then g.b != 0 && n % g.b == 0 else n % g.a == 0 := by
  simp only [State.unitsOk, h]

theorem State.outLines_of_graph : s.outLines w n = n * g.b / g.a := by
  simp only [State.outLines, h]

end

section
variable {s : State} (hfree : EngineFree s false) {h : BitVec 4} (hh : InHbm s (s.ta h)) (m x gslot : BitVec 4) (pol g : BitVec 1)
  {form : BitVec 1} {n : BitVec 12} {lines : Nat} (hshape : s.HasShape x form n lines)
include hfree hh hshape

/-- R226: a load keeps its word with its shape, and starts where its operand holds what it writes. -/
theorem exec_tld_eq : ∃ v w, s.Issues v (.plain (.tld h m x gslot g pol form n)) (((s.ta h).extractLsb' 0 46).setWidth 64) (s.ta m)
    (s.ta x) 0 ∧ v.wordRun s.nextId = some w ∧ w.what = .plain (.tld h m x gslot g pol form n) ∧
    w.r0 = ((s.ta h).extractLsb' 0 46).setWidth 64 ∧
    exec (.tld h m x gslot g pol form n) s = .next (if !v.unitsOk w lines false then (v.dropWord s.nextId).tileFault 4 (s.ta h)
      else v.sramArg (s.ta m) (128 * v.outLines w lines) 128 fun m => v.startLoad s.nextId lines m (pol == 1)) := by
  obtain ⟨v, w, hv, hw, hwhat, h0, hsh, hgo⟩ := ((s.issues_keepWord (.plain (.tld h m x gslot g pol form n))
    (BitVec.ofNat 64 ((s.ta h).toNat % 2 ^ 46)) (s.ta m) (s.ta x) 0).congr (ofNat_hbmOffset _) rfl rfl rfl).withShape_eq hshape
  refine ⟨v, w, hv, hw, hwhat, h0, congrArg Host.Outcome.next ((State.dataWord_of_free hfree _).trans
    ((State.hbmArg_of_inHbm hh _).trans ((hgo _).trans ?_)))⟩
  have hlines : w.shape.lines = lines := by
    simp only [WordRun.shape, WordRun.instr, hwhat]
    exact hsh
  simp only [hlines, hv.ta]

/-- R226, R301: a store likewise; through a graph its operand holds the lines of its inputs. -/
theorem exec_tst_eq : ∃ v w, s.Issues v (.plain (.tst h m x gslot g form n)) (((s.ta h).extractLsb' 0 46).setWidth 64) (s.ta m)
    (s.ta x) 0 ∧ v.wordRun s.nextId = some w ∧ w.what = .plain (.tst h m x gslot g form n) ∧
    w.r0 = ((s.ta h).extractLsb' 0 46).setWidth 64 ∧
    exec (.tst h m x gslot g form n) s = .next (if !v.unitsOk w lines true then (v.dropWord s.nextId).tileFault 4 (s.ta h)
      else (if g = 1 then v.wordGraph w else none).elim
        (v.sramArg (s.ta m) (128 * lines) 128 fun m => v.startStore s.nextId lines m (g == 1)) fun gr =>
          v.sramArg (s.ta m) (128 * (lines * gr.a / gr.b)) 128 fun m => v.startGraphStore s.nextId lines m gr) := by
  obtain ⟨v, w, hv, hw, hwhat, h0, hsh, hgo⟩ := ((s.issues_keepWord (.plain (.tst h m x gslot g form n))
    (BitVec.ofNat 64 ((s.ta h).toNat % 2 ^ 46)) (s.ta m) (s.ta x) 0).congr (ofNat_hbmOffset _) rfl rfl rfl).withShape_eq hshape
  refine ⟨v, w, hv, hw, hwhat, h0, congrArg Host.Outcome.next ((State.dataWord_of_free hfree _).trans
    ((State.hbmArg_of_inHbm hh _).trans ((hgo _).trans ?_)))⟩
  have hlines : w.shape.lines = lines := by
    simp only [WordRun.shape, WordRun.instr, hwhat]
    exact hsh
  simp only [hlines, hv.ta]
  congr 1
  cases (if g = 1 then v.wordGraph w else none) <;> rfl

omit hshape in
/-- R228: a gather keeps its word, has its index lines read, and starts. -/
theorem exec_tldg_eq {rows : BitVec 10} (rl : BitVec 4) (hx : InSram (s.ta x) (128 * ((rows.toNat + 1 + 31) / 32)) 128) :
    ∃ v w, s.Issues v (.plain (.tldg h m x gslot g pol rows rl)) (((s.ta h).extractLsb' 0 46).setWidth 64) (s.ta m) (s.ta x) 0 ∧
    v.wordRun s.nextId = some w ∧ w.what = .plain (.tldg h m x gslot g pol rows rl) ∧
    w.r0 = ((s.ta h).extractLsb' 0 46).setWidth 64 ∧ w.r2 = s.ta x ∧ w.lines = [] ∧
    exec (.tldg h m x gslot g pol rows rl) s = .next (if !v.unitsOk w ((rows.toNat + 1) * (rl.toNat + 1)) false then
        (v.dropWord s.nextId).tileFault 4 (s.ta h)
      else v.sramArg (s.ta m) (128 * v.outLines w ((rows.toNat + 1) * (rl.toNat + 1))) 128 fun m =>
        (v.listReads s.nextId (s.ta x).toNat ((rows.toNat + 1 + 31) / 32) (rl.toNat + 1)).startLoad s.nextId
          ((rows.toNat + 1) * (rl.toNat + 1)) m (pol == 1)) := by
  obtain ⟨v, hkeep, hv⟩ : ∃ v, s.keepWord (.plain (.tldg h m x gslot g pol rows rl)) (BitVec.ofNat 64 ((s.ta h).toNat % 2 ^ 46)) (s.ta m)
      (BitVec.ofNat 64 (s.ta x).toNat) 0 = (s.nextId, v) ∧
      s.Issues v (.plain (.tldg h m x gslot g pol rows rl)) (((s.ta h).extractLsb' 0 46).setWidth 64) (s.ta m) (s.ta x) 0 :=
    ⟨_, rfl, (s.issues_keepWord ..).congr (ofNat_hbmOffset _) rfl (ofNat_toNat_word _) rfl⟩
  obtain ⟨w, hw, -, -, hwhat, h0, -, h2, -, hlines, -⟩ := hv.word
  refine ⟨v, w, hv, hw, hwhat, h0, h2, hlines, ?_⟩
  change execTldg h m x gslot g pol rows rl s = _
  rw [execTldg, State.dataWord_of_free hfree, State.hbmArg_of_inHbm hh]
  dsimp only
  rw [State.sramArg_of_inSram hx, hkeep]
  simp only [hw, hv.ta]
  rfl

end

/-- R229: a line of another tile is read there, and crosses the fabric to its place. -/
theorem exec_tldr_issued {s : State} (hfree : EngineFree s false) {src m : BitVec 4} {tile : BitVec 8} {n : BitVec 12} {t0 : Nat}
    (htile : s.p.tileOf tile.toNat = some t0) (htix : s.tix < s.p.tiles.length)
    (hsrc : InSram (s.ta src) (128 * (n.toNat + 1)) 128) (hm : InSram (s.ta m) (128 * (n.toNat + 1)) 128) :
    ∃ t, exec (.tldr src m tile n) s = .next t ∧
      WordIssued s t s.nextId (n.toNat + 1) false (.plain (.tldr src m tile n)) (s.ta src) (s.ta m) (BitVec.ofNat 64 t0) 0 ∧
      ∀ j, j < n.toNat + 1 → DueEffect t (s.plan + 1 + j) (.tldrRead s.nextId j) := by
  obtain ⟨u, g, hu, hg, hexec⟩ : ∃ (u : State) (g : State → Nat → State),
      s.Issues u (.plain (.tldr src m tile n)) (s.ta src) (s.ta m) (BitVec.ofNat 64 t0) 0 ∧
      (∀ y j, g y j = let x := (y.atTile t0 fun z => (z.book (y.plan + 1 + j) false ((s.ta src).toNat + 128 * j) s.nextId).bookBank
          (y.plan + 1 + j) false fabricOut s.nextId).bookBank (y.plan + 1 + j + Config.tileLatency) false fabricIn s.nextId
        ((x.book (y.plan + 1 + j + Config.tileLatency) false ((s.ta m).toNat + 128 * j) s.nextId).effect (y.plan + 1 + j) rankRead
          (.tldrRead s.nextId j)).landsIn (y.plan + 1 + j + Config.tileLatency)) ∧
      exec (.tldr src m tile n) s = .next ((List.range (n.toNat + 1)).foldl g (u.occupy false (n.toNat + 1))) := by
    refine ⟨_, _, (s.issues_keepWord (.plain (.tldr src m tile n)) (BitVec.ofNat 64 (s.ta src).toNat) (BitVec.ofNat 64 (s.ta m).toNat)
      (BitVec.ofNat 64 t0) 0).congr (ofNat_toNat_word _) (ofNat_toNat_word _) rfl rfl, fun _ _ => rfl, ?_⟩
    change execTldr src m tile n s = _
    rw [execTldr, State.dataWord_of_free hfree]
    dsimp only
    rw [State.sramArg_of_inSram hsrc, State.sramArg_of_inSram hm, htile]
    rfl
  have hocc := hu.occupy hfree.1 false (n.toNat + 1)
  have hstep {y : State} (hy : (u.occupy false (n.toNat + 1)).Plans y) (j : Nat) :
      y.Plans (g y j) ∧ DueEffect (g y j) (y.plan + 1 + j) (.tldrRead s.nextId j) := by
    have htix : y.tix < y.p.tiles.length := by rwa [hy.tix, hy.tiles, hocc.tix, hocc.tiles]
    have hsource : y.Plans _ := .atTile htix (fun z => (State.Books.book z (y.plan + 1 + j) false ((s.ta src).toNat + 128 * j)
      s.nextId).trans (.bookBank _ (y.plan + 1 + j) false fabricOut s.nextId)) t0
    rw [hg]
    exact ⟨((hsource.trans (.bookBank ..)).trans ((State.Plans.book ..).trans (.effect ..))).trans (.landsIn ..),
      (State.Plans.landsIn ..).due (State.due_effect ..)⟩
  exact ⟨_, hexec, hu.lines_issued hfree.1 (fun y j hy => (hstep hy j).1) (fun y j hy => (hstep hy j).2) (.refl _)⟩

end Sys2Proof.Machine
end

section
/-! O29 settled. -/

namespace Sys2Proof.Proofs

open Sys2Proof.Machine Sys2Proof.Claims

/-- Settles O29: each word keeps what it moves, asks for its lines one a tick, and has what follows due. -/
theorem moveWordsIssue : Obligations.MoveWordsIssue := by
  unfold Obligations.MoveWordsIssue
  intro h m x gslot pol s hfree hh off req shaped outAt
  refine ⟨fun form n lines hshape => ⟨fun hm => ⟨?load, ?store⟩, fun gr hgr => ⟨fun hunits hm => ?graphLoad,
      fun hb hunits hm => ?graphStore⟩⟩,
    fun rows rl hx hm => ?gather, fun rows rl gr hx hgr hunits hm => ?graphGather,
    fun src tile n t0 htile _ htix hsrc hm => exec_tldr_issued hfree htile htix hsrc hm⟩
  case load =>
    obtain ⟨v, w, hv, hw, hwhat, -, hexec⟩ := exec_tld_eq hfree hh m x gslot pol 0 hshape
    have hslot : graphSlotOf w.instr = none := by rw [WordRun.instr, hwhat]; rfl
    have hnone := State.wordGraph_of_no_slot (s := v) hslot
    rw [State.unitsOk_of_no_graph _ _ hnone, State.outLines_of_no_graph _ hnone, State.sramArg_of_inSram hm] at hexec
    obtain ⟨hissued, hreqs, -⟩ := hv.load_issued hfree.1 hw lines (s.ta m).toNat (pol == 1) hslot
    exact ⟨_, hexec, hissued, hreqs⟩
  case store =>
    obtain ⟨v, w, hv, hw, hwhat, -, hexec⟩ := exec_tst_eq hfree hh m x gslot 0 hshape
    have hslot : graphSlotOf w.instr = none := by rw [WordRun.instr, hwhat]; rfl
    have hnone := State.wordGraph_of_no_slot (s := v) hslot
    rw [State.unitsOk_of_no_graph _ _ hnone, hnone, if_neg (by decide), ite_self, Option.elim_none, State.sramArg_of_inSram hm] at hexec
    exact ⟨_, hexec, hv.store_issued hfree.1 lines (s.ta m).toNat⟩
  case graphLoad =>
    obtain ⟨v, w, hv, hw, hwhat, h0, hexec⟩ := exec_tld_eq hfree hh m x gslot pol 1 hshape
    have hslot : graphSlotOf w.instr = some gslot.toNat := by rw [WordRun.instr, hwhat]; rfl
    have hgraph : s.wordGraph w = some gr := by
      rw [State.wordGraph_of_slot hslot (State.lineOff_zero_of_tld hwhat), h0]
      exact hgr
    have hkept : v.wordGraph w = some gr := (hv.wordGraph w).trans hgraph
    rw [State.unitsOk_of_graph _ _ hkept, State.outLines_of_graph _ hkept, if_neg (by simpa using hunits),
      State.sramArg_of_inSram hm] at hexec
    obtain ⟨hissued, hreqs, hout, -⟩ := hv.load_graph_issued hfree.1 hw lines (s.ta m).toNat (pol == 1) (by rw [hslot]; rfl) hgraph
    exact ⟨_, hexec, hissued, hreqs, hout⟩
  case graphStore =>
    obtain ⟨v, w, hv, hw, hwhat, h0, hexec⟩ := exec_tst_eq hfree hh m x gslot 1 hshape
    have hslot : graphSlotOf w.instr = some gslot.toNat := by rw [WordRun.instr, hwhat]; rfl
    have hgraph : s.wordGraph w = some gr := by
      rw [State.wordGraph_of_slot hslot (State.lineOff_zero_of_tst hwhat), h0]
      exact hgr
    have hkept : v.wordGraph w = some gr := (hv.wordGraph w).trans hgraph
    rw [State.unitsOk_of_graph _ _ hkept, if_neg (by simp [hb, hunits]), if_pos rfl, hkept, Option.elim_some,
      State.sramArg_of_inSram hm] at hexec
    obtain ⟨⟨hissued, hreqs⟩, hin, hout⟩ := hv.store_graph_issued hfree.1 lines (s.ta m).toNat gr
    exact ⟨_, hexec, hissued, hreqs, hin, hout⟩
  case gather =>
    obtain ⟨v, w, hv, hw, hwhat, -, -, -, hexec⟩ := exec_tldg_eq hfree hh m x gslot pol 0 rl hx
    have hslot : graphSlotOf w.instr = none := by rw [WordRun.instr, hwhat]; rfl
    have hnone := State.wordGraph_of_no_slot (s := v) hslot
    rw [State.unitsOk_of_no_graph _ _ hnone, State.outLines_of_no_graph _ hnone, State.sramArg_of_inSram hm] at hexec
    obtain ⟨hlist, hlists⟩ := v.listReads_plans s.nextId (s.ta x).toNat ((rows.toNat + 1 + 31) / 32) (rl.toNat + 1)
    obtain ⟨hissued, hreqs, hplans⟩ := (hv.plans hlist).load_issued hfree.1 ((hlist.wordRun _).trans hw)
      ((rows.toNat + 1) * (rl.toNat + 1)) (s.ta m).toNat (pol == 1) hslot
    exact ⟨_, hexec, hissued, fun u hu => hplans.due (State.due_occupy _ _ (hv.plan ▸ hlists u hu)), hreqs⟩
  case graphGather =>
    obtain ⟨v, w, hv, hw, hwhat, h0, h2, hlines, hexec⟩ := exec_tldg_eq hfree hh m x gslot pol 1 rl hx
    have hslot : graphSlotOf w.instr = some gslot.toNat := by rw [WordRun.instr, hwhat]; rfl
    have hgraph : s.wordGraph w = some gr := by
      rw [State.wordGraph_of_slot hslot (State.lineOff_zero_of_tldg hwhat hlines), h0, h2]
      exact hgr
    have hkept : v.wordGraph w = some gr := (hv.wordGraph w).trans hgraph
    rw [State.unitsOk_of_graph _ _ hkept, State.outLines_of_graph _ hkept, if_neg (by simpa using hunits),
      State.sramArg_of_inSram hm] at hexec
    obtain ⟨hlist, hlists⟩ := v.listReads_plans s.nextId (s.ta x).toNat ((rows.toNat + 1 + 31) / 32) (rl.toNat + 1)
    obtain ⟨hissued, hreqs, hout, hplans⟩ := (hv.plans hlist).load_graph_issued hfree.1 ((hlist.wordRun _).trans hw)
      ((rows.toNat + 1) * (rl.toNat + 1)) (s.ta m).toNat (pol == 1) (by rw [hslot]; rfl) hgraph
    exact ⟨_, hexec, hissued, fun u hu => hplans.due (State.due_occupy _ _ (hv.plan ▸ hlists u hu)), hreqs, hout⟩

end Sys2Proof.Proofs
end
